-- ==== Sys2Proof/Word.lean ====
section
/-! DEFINITION. The word types of the module's registers, bytes and numeric values (00_scope.md, R5). -/

namespace Sys2Proof

/-- A register is 32 bits wide (R5). -/
abbrev Word := BitVec 32

/-- One byte of device memory, host memory or a frame. -/
abbrev Byte := BitVec 8

/-- A 32-bit word seen as a signed integer. -/
def Word.int (w : Word) : Int := w.toInt

end Sys2Proof
end

