-- ==== Sys2Proof/Syntax.lean ====
section
/-! DEFINITION. The commands of the block: one constructor for each row of spec/opcode_table.json, in the table's order, with the
operands the world gives it (notes/assumptions/1.md). -/

namespace Sys2Proof

/-! ### Operands -/

/-- A scalar register s0 to s31 of a sequencer (R208). -/
abbrev SReg := Fin 32
/-- An address register a0 to a15 (R208). -/
abbrev AReg := Fin 16

/-- The TOK field of a unit word (R210): with SIG the token its completion increments. -/
abbrev Tok := Option (Fin 16)

/-- The conditions of BR (R212); code 7 is illegal and is no condition. -/
inductive Cond where
  | eq | ne | lt | ge | ltu | geu | always
deriving DecidableEq, Repr

/-- The MODE field of the tile words (R223); code 3 is illegal. -/
inductive TileMode where
  | w8a8 | w4a8 | kb8
deriving DecidableEq, Repr

/-- The fields of TSTREAM (R223). -/
structure TStreamWord where
  mode : TileMode
  wbuf : Fin 2
  conv : Bool
  accOp : Bool
  vLess1 : BitVec 10
  accBase : BitVec 10
  ad : AReg
  rs : SReg
  ae : AReg
  tok : Tok
deriving DecidableEq, Repr

/-- The targets of VQ (R226). -/
inductive VqTarget where
  | int8 | int16 | b16 | kb8
deriving DecidableEq, Repr

/-- The fields of VQ (R226). -/
structure VqWord where
  tgt : VqTarget
  act : Fin 4
  ps : Fin 4
  mode : TileMode
  rs : SReg
  rt : SReg
  ad : AReg
  al : AReg
  tok : Tok
deriving DecidableEq, Repr

/-- The element formats of VCVT (R229); code 7 is illegal. -/
inductive VFmt where
  | u8 | int8 | int16 | e4m3 | e5m2 | b16 | kb8
deriving DecidableEq, Repr

/-- The fields of VCVT (R229). -/
structure VcvtWord where
  inF : VFmt
  outF : VFmt
  rs : SReg
  ad : AReg
  as_ : AReg
  sc : BitVec 6
  off : BitVec 16
  tok : Tok
deriving DecidableEq, Repr

/-- The functions of VEW (R229). -/
inductive VewFn where
  | add | max | min
deriving DecidableEq, Repr

/-- The fields of VEW (R229). -/
structure VewWord where
  fn : VewFn
  wide : Bool
  rs : SReg
  ad : AReg
  as_ : AReg
  ab : AReg
  tok : Tok
deriving DecidableEq, Repr

/-- A bit of a lane of a physical accumulator row that an upset of the world flips, its residue left as it was (R157). -/
structure AccUpset where
  row : Fin 1024
  lane : Fin 64
  bit : Fin 48
deriving DecidableEq, Repr

/-- What the array's checks found beside what the model computes (R158, R159, R157): an upset of the world. -/
inductive TileErr where
  | none
  | col (vec : Nat)
  | row (col : Nat)
  | residue (u : AccUpset)
deriving DecidableEq, Repr

/-- An error a memory's check bits find in a word as it is read (R259, R260). -/
structure EccHit where
  addr : Nat
  uncorrectable : Bool
deriving DecidableEq, Repr

/-- The 64 bytes of a command descriptor (R397). -/
abbrev SvcDesc := List Byte

/-- What the steward read from host memory for a command: the authorisation block (R38) and the data; none where the read failed (R402). -/
structure HostIn where
  auth : Option (List Byte)
  data : Option (List Byte)
deriving DecidableEq, Repr

/-- A core's pace readings in a Morning check (R426), in Q4.12: what its monitors read at 0.70 V, 0.75 V and 0.80 V, and at the rail's present
voltage. The check takes the three where the rail may be stepped, the fourth elsewhere. -/
structure CheckReading where
  core : Fin 32
  p70 : Nat
  p75 : Nat
  p80 : Nat
  now : Nat
  tj : Nat
deriving DecidableEq, Repr

/-- A word that a scrub reads (R262): of device memory, or of the active table of a stream's front end (R119). -/
inductive EccPlace where
  | mem (addr : Nat)
  | table (st : Fin 64)
deriving DecidableEq, Repr

/-- What a scrub found in a word (R259, R262). -/
inductive EccEvent where
  | clean | corrected | stackCorrected | uncorrectable
deriving DecidableEq, Repr

/-- An arbitration point that decides requests: an HBM port, a cluster port outbound or inbound (R271). -/
inductive ArbPoint where
  | hbm (h : Fin 2) | outb (k : Fin 4) | inb (k : Fin 4)
deriving DecidableEq, Repr

/-- What issues a burst (R270): a core's DMA queue, a core's sequencer, the cluster DMA of a cluster, a front end's output and statistics
writes for a stream, the table load of a stream, a launch queue, a codec slot, the host DMA of a function, the steward, the clear path, a
unit that writes for a partition (span unit, ledger log, launch records, position mirror; R243). -/
inductive BurstSrc where
  | core (n : Fin 32) (q : Fin 4) | fetch (n : Fin 32) | cluster (k : Fin 4) | frontEnd (st : Fin 64) | table (st : Fin 64)
  | launch (p : Fin 2) (q : Fin 8) | codec (slot : Fin 16) | host (fn : Fin 17) | steward | clear | unit
deriving DecidableEq, Repr

/-- A burst as its master presents it (R269): the tag it carries, its direction, its first line and how many lines it has. -/
structure Burst where
  src : BurstSrc
  tag : Fin 18
  write : Bool
  addr : Nat
  len : Nat
deriving DecidableEq, Repr

/-- A line of the cluster DMA that requests a bank (R251, R278). -/
structure BankReq where
  tag : Fin 18
deriving DecidableEq, Repr

/-- What the governor measures (R420, R423): power in 0.1 W, sensors in degrees, supplies in 10 mV. -/
structure GovReading where
  p10 : Nat
  tj : Nat
  tHbm0 : Nat
  tHbm1 : Nat
  vin : Nat
  vfield : Nat
deriving DecidableEq, Repr

/-- An access of the steward (port A) to the mailbox word that a supervisor access (port B) meets (R263, R362): the word's address,
whether the steward writes, and which cycle began later (both: within 2 ns of each other). -/
structure Collision where
  addr : BitVec 16
  aWrites : Bool
  aLater : Bool
  bLater : Bool
deriving DecidableEq, Repr

/-- The voltage of a 24 V input at the end of the sense pulse (R351). -/
inductive DiSample where
  | high | low | band
deriving DecidableEq, Repr

/-- The PTP messages of IEEE 1588 that a port sends or receives (R377). -/
inductive PtpKind where
  | announce | sync | followUp | delayReq | delayResp | pdelayReq | pdelayResp | pdelayRespFollowUp | management | signaling
deriving DecidableEq, Repr

/-- A PTP message received (R378): what IEEE 1588 makes of it, which the manual leaves to that standard. `offset` and `delay`, in ns,
are the measurement that the message completes, if it completes one; `state` is the port state its data sets call for. -/
structure PtpMsg where
  kind : PtpKind
  domain : Nat
  offset : Option Int
  delay : Nat
  state : Nat
deriving DecidableEq, Repr

/-- A serial lane: camera lane CL0 to CL63 or span lane SL0 to SL15 (R64). -/
inductive LaneId where
  | cam (n : Fin 64)
  | span (n : Fin 16)
deriving DecidableEq, Repr

/-- A bond: the camera lanes of a stream, or the four lanes of a span link (R70, R90). -/
inductive BondId where
  | cam (st : Fin 64)
  | span (link : Fin 4)
deriving DecidableEq, Repr

/-- A lane's alignment marker as the receiver finds it: D1 to D3 (R66) and the lane's skew behind the earliest lane, in blocks. -/
structure Marker where
  d1 : Byte
  d2 : Byte
  d3 : Byte
  skew : Nat
deriving DecidableEq, Repr

/-- A 66-bit block as the descrambler gives it (R64): the sync header, 0b01 for data and 0b10 for control, and its eight bytes, the first
sent in bits 7:0. -/
structure Block where
  hdr : BitVec 2
  load : BitVec 64
deriving DecidableEq, Repr

/-- A stretch of blocks at a bond, up to now and without a gap: by lane, in the bond's order, the blocks of each. -/
abbrev Stretch := List (List Block)

/-- A cage for a pluggable: QSFP-DD J5 to J12, QSFP28 J13 to J16, SFP+ J17 and J18 (R463). -/
inductive Cage where
  | qsfpDd (j : Fin 8)
  | qsfp28 (m : Fin 4)
  | sfp (p : Fin 2)
deriving DecidableEq, Repr

/-- The commands: operations of the host and the supervisor, words of a dispatch program, events and pin changes. -/
inductive Instr where
  /-- POWER_ON -/
  | powerOn
  /-- MOD_RESET_N -/
  | modResetN (widthNs : Nat)
  /-- BROWNOUT -/
  | brownout
  /-- OSC_STABLE -/
  | oscStable (refclk : Bool)
  /-- BOOT_FW_VERIFIED -/
  | bootFwVerified
  /-- FW_PENDING_TIMEOUT -/
  | fwPendingTimeout
  /-- DAWN_SEQUENCE -/
  | dawnSequence
  /-- MIDNIGHT_WIPE -/
  | midnightWipe (domain : Fin 148)
  /-- READY -/
  | ready
  /-- STEWARD_WATCHDOG -/
  | stewardWatchdog
  /-- STEWARD_SERVICE_STEP -/
  | stewardServiceStep
  /-- EXPERT_UNLOCK_TIMEOUT -/
  | expertUnlockTimeout
  /-- PERST -/
  | perst
  /-- FUNCTION_LEVEL_RESET -/
  | functionLevelReset (fn : Fin 17)
  /-- BUS_MASTER_DISABLE -/
  | busMasterDisable (fn : Fin 17)
  /-- SVC_DB_CMD -/
  | svcDbCmd (fn : Fin 17) (v : Word)
  /-- SVC_DB_CPL -/
  | svcDbCpl (fn : Fin 17) (v : Word)
  /-- SVC_RING_CTL_EN -/
  | svcRingCtlEn (fn : Fin 17) (v : Word)
  /-- SVC_RING_CTL_FLUSH -/
  | svcRingCtlFlush (fn : Fin 17) (v : Word)
  /-- RING_FLUSH_GRACE_EXPIRY -/
  | ringFlushGraceExpiry (fn : Fin 17)
  /-- CPL_COALESCE_TIMEOUT -/
  | cplCoalesceTimeout (fn : Fin 17)
  /-- SVC_NOP -/
  | svcNop (fn : Fin 17) (d : SvcDesc) (h : HostIn)
  /-- SVC_GET_NONCE -/
  | svcGetNonce (fn : Fin 17) (d : SvcDesc) (h : HostIn)
  /-- SVC_COPY_IN -/
  | svcCopyIn (fn : Fin 17) (d : SvcDesc) (h : HostIn)
  /-- SVC_COPY_OUT -/
  | svcCopyOut (fn : Fin 17) (d : SvcDesc) (h : HostIn)
  /-- SVC_EXPERT_UNLOCK -/
  | svcExpertUnlock (fn : Fin 17) (d : SvcDesc) (h : HostIn)
  /-- SVC_EXPERT_LOCK -/
  | svcExpertLock (fn : Fin 17) (d : SvcDesc) (h : HostIn)
  /-- SVC_KEY_INSTALL -/
  | svcKeyInstall (fn : Fin 17) (d : SvcDesc) (h : HostIn)
  /-- SVC_KEY_REVOKE -/
  | svcKeyRevoke (fn : Fin 17) (d : SvcDesc) (h : HostIn)
  /-- SVC_FW_UPDATE -/
  | svcFwUpdate (fn : Fin 17) (d : SvcDesc) (h : HostIn)
  /-- SVC_FUSE_BURN -/
  | svcFuseBurn (fn : Fin 17) (d : SvcDesc) (h : HostIn)
  /-- SVC_AUDIT_READ -/
  | svcAuditRead (fn : Fin 17) (d : SvcDesc) (h : HostIn)
  /-- SVC_AUDIT_EXPORT -/
  | svcAuditExport (fn : Fin 17) (d : SvcDesc) (h : HostIn)
  /-- SVC_AUDIT_SEAL -/
  | svcAuditSeal (fn : Fin 17) (d : SvcDesc) (h : HostIn)
  /-- SVC_IMAGE_LOAD -/
  | svcImageLoad (fn : Fin 17) (d : SvcDesc) (h : HostIn)
  /-- SVC_IMAGE_COMMIT -/
  | svcImageCommit (fn : Fin 17) (d : SvcDesc) (h : HostIn)
  /-- SVC_IMAGE_DISCARD -/
  | svcImageDiscard (fn : Fin 17) (d : SvcDesc) (h : HostIn)
  /-- SVC_IMAGE_READ -/
  | svcImageRead (fn : Fin 17) (d : SvcDesc) (h : HostIn)
  /-- SVC_START_STREAM -/
  | svcStartStream (fn : Fin 17) (d : SvcDesc) (h : HostIn)
  /-- SVC_STOP_STREAM -/
  | svcStopStream (fn : Fin 17) (d : SvcDesc) (h : HostIn)
  /-- SVC_RECIPE_SELECT -/
  | svcRecipeSelect (fn : Fin 17) (d : SvcDesc) (h : HostIn)
  /-- SVC_CAM_CTRL -/
  | svcCamCtrl (fn : Fin 17) (d : SvcDesc) (h : HostIn)
  /-- SVC_LANE_QUARANTINE -/
  | svcLaneQuarantine (fn : Fin 17) (d : SvcDesc) (h : HostIn)
  /-- SVC_LANE_RELEASE -/
  | svcLaneRelease (fn : Fin 17) (d : SvcDesc) (h : HostIn)
  /-- SVC_LOAD_MODEL -/
  | svcLoadModel (fn : Fin 17) (d : SvcDesc) (h : HostIn)
  /-- SVC_UNLOAD_MODEL -/
  | svcUnloadModel (fn : Fin 17) (d : SvcDesc) (h : HostIn)
  /-- SVC_BIND_STREAM -/
  | svcBindStream (fn : Fin 17) (d : SvcDesc) (h : HostIn)
  /-- SVC_SCHED_AREA -/
  | svcSchedArea (fn : Fin 17) (d : SvcDesc) (h : HostIn)
  /-- SVC_CORE_RELEASE -/
  | svcCoreRelease (fn : Fin 17) (d : SvcDesc) (h : HostIn)
  /-- SVC_MORNING_CHECK -/
  | svcMorningCheck (fn : Fin 17) (d : SvcDesc) (h : HostIn)
  /-- MORNING_CHECK -/
  | morningCheck (rs : List CheckReading)
  /-- SVC_REC_START -/
  | svcRecStart (fn : Fin 17) (d : SvcDesc) (h : HostIn)
  /-- SVC_REC_STOP -/
  | svcRecStop (fn : Fin 17) (d : SvcDesc) (h : HostIn)
  /-- SVC_REPLAY_START -/
  | svcReplayStart (fn : Fin 17) (d : SvcDesc) (h : HostIn)
  /-- SVC_REPLAY_STOP -/
  | svcReplayStop (fn : Fin 17) (d : SvcDesc) (h : HostIn)
  /-- SVC_CAL_RUN -/
  | svcCalRun (fn : Fin 17) (d : SvcDesc) (h : HostIn)
  /-- CAL_RUN_DONE -/
  | calRunDone
  /-- SVC_LEDGER_CFG -/
  | svcLedgerCfg (fn : Fin 17) (d : SvcDesc) (h : HostIn)
  /-- SVC_LEDGER_LOG -/
  | svcLedgerLog (fn : Fin 17) (d : SvcDesc) (h : HostIn)
  /-- SVC_ENC_MIRROR -/
  | svcEncMirror (fn : Fin 17) (d : SvcDesc) (h : HostIn)
  /-- SVC_ENC_PRESET -/
  | svcEncPreset (fn : Fin 17) (d : SvcDesc) (h : HostIn)
  /-- SVC_ENC_COMPARE -/
  | svcEncCompare (fn : Fin 17) (d : SvcDesc) (h : HostIn)
  /-- SVC_ENC_COMPARE_READ -/
  | svcEncCompareRead (fn : Fin 17) (d : SvcDesc) (h : HostIn)
  /-- SVC_NIGHTFALL_ENTER -/
  | svcNightfallEnter (fn : Fin 17) (d : SvcDesc) (h : HostIn)
  /-- SVC_NIGHTFALL_CLEAR -/
  | svcNightfallClear (fn : Fin 17) (d : SvcDesc) (h : HostIn)
  /-- SVC_DO_TEST -/
  | svcDoTest (fn : Fin 17) (d : SvcDesc) (h : HostIn)
  /-- SVC_MBX_READ -/
  | svcMbxRead (fn : Fin 17) (d : SvcDesc) (h : HostIn)
  /-- SVC_MBX_WRITE -/
  | svcMbxWrite (fn : Fin 17) (d : SvcDesc) (h : HostIn)
  /-- SVC_FAULT_ACK -/
  | svcFaultAck (fn : Fin 17) (d : SvcDesc) (h : HostIn)
  /-- REGISTER_WRITE -/
  | registerWrite (fn : Fin 17) (off : Nat) (v : Word) (be : BitVec 4)
  /-- COUNTER_LO_READ -/
  | counterLoRead (fn : Fin 17) (off : Nat)
  /-- TIME_NOW_LO_READ -/
  | timeNowLoRead (fn : Fin 17)
  /-- TIME_TICK_LO_READ -/
  | timeTickLoRead (fn : Fin 17)
  /-- TIME_COMMIT_GO -/
  | timeCommitGo (fn : Fin 17) (v : Word)
  /-- ARB_COMMIT_GO -/
  | arbCommitGo (fn : Fin 17) (v : Word)
  /-- FES_COMMIT_GO -/
  | fesCommitGo (fn : Fin 17) (st : Fin 64) (v : Word)
  /-- FES_COMMIT_TBL -/
  | fesCommitTbl (fn : Fin 17) (st : Fin 64) (v : Word)
  /-- FES_TBL_CTL_START -/
  | fesTblCtlStart (fn : Fin 17) (st : Fin 64) (v : Word)
  /-- TABLE_LOAD_DONE -/
  | tableLoadDone (st : Fin 64)
  /-- LDS_COMMIT_GO -/
  | ldsCommitGo (fn : Fin 17) (st : Fin 64) (v : Word)
  /-- ACCT_LATCH_GO -/
  | acctLatchGo (fn : Fin 17) (p : Fin 16) (v : Word)
  /-- ACCT_MOD_LATCH -/
  | acctModLatch (fn : Fin 17) (v : Word)
  /-- MOT_SNAP_GO -/
  | motSnapGo (fn : Fin 17) (v : Word)
  /-- ENC_PRESET -/
  | encPreset (fn : Fin 17) (i : Fin 4) (v : Word)
  /-- SSI_PRESET -/
  | ssiPreset (fn : Fin 17) (j : Fin 2) (v : Word)
  /-- CHK_PORT_CTL_QUAR -/
  | chkPortCtlQuar (fn : Fin 17) (lane : Fin 64) (v : Word)
  /-- CHK_PORT_CTL_RELEASE -/
  | chkPortCtlRelease (fn : Fin 17) (lane : Fin 64) (v : Word)
  /-- FIO_HB -/
  | fioHb (bySteward : Bool)
  /-- SYS_RST_MODULE -/
  | sysRstModule (fn : Fin 17) (v : Word)
  /-- ETHQ_TAIL -/
  | ethqTail (fn : Fin 17) (port : Fin 2) (q : Fin 8) (v : Word)
  /-- ETHQ_CTL_WRITE -/
  | ethqCtlWrite (fn : Fin 17) (port : Fin 2) (q : Fin 8) (v : Word)
  /-- READ -/
  | qspiRead (addr : BitVec 16) (words : Nat) (coll : Option Collision)
  /-- QUAD_READ -/
  | qspiQuadRead (addr : BitVec 16) (words : Nat) (coll : Option Collision)
  /-- WRITE -/
  | qspiWrite (addr : BitVec 16) (data : List Byte) (coll : Option Collision)
  /-- QUAD_WRITE -/
  | qspiQuadWrite (addr : BitVec 16) (data : List Byte) (coll : Option Collision)
  /-- READ_STATUS -/
  | qspiReadStatus
  /-- SUP_CTL_NIGHT_REQ -/
  | supCtlNightReq (v : Word)
  /-- SUP_CTL_CLEAR -/
  | supCtlClear (v : Word)
  /-- MBX_STATUS_UPDATE -/
  | mbxStatusUpdate
  /-- NOP -/
  | nop (n : Fin 32)
  /-- LI -/
  | li (n : Fin 32) (rd : SReg) (imm : Word)
  /-- ADD -/
  | add (n : Fin 32) (rd rs rt : SReg) (useImm : Bool) (imm : Word)
  /-- SUB -/
  | sub (n : Fin 32) (rd rs rt : SReg) (useImm : Bool) (imm : Word)
  /-- MUL -/
  | mul (n : Fin 32) (rd rs rt : SReg) (useImm : Bool) (imm : Word)
  /-- AND -/
  | and (n : Fin 32) (rd rs rt : SReg) (useImm : Bool) (imm : Word)
  /-- OR -/
  | or (n : Fin 32) (rd rs rt : SReg) (useImm : Bool) (imm : Word)
  /-- XOR -/
  | xor (n : Fin 32) (rd rs rt : SReg) (useImm : Bool) (imm : Word)
  /-- SHL -/
  | shl (n : Fin 32) (rd rs rt : SReg) (useImm : Bool) (imm : Word)
  /-- SHR -/
  | shr (n : Fin 32) (rd rs rt : SReg) (useImm : Bool) (imm : Word)
  /-- SRA -/
  | sra (n : Fin 32) (rd rs rt : SReg) (useImm : Bool) (imm : Word)
  /-- SLT -/
  | slt (n : Fin 32) (rd rs rt : SReg) (useImm : Bool) (imm : Word)
  /-- LD -/
  | ld (n : Fin 32) (rd : SReg) (ab : AReg) (imm : BitVec 16)
  /-- ST -/
  | st (n : Fin 32) (rs : SReg) (ab : AReg) (imm : BitVec 16)
  /-- LIA -/
  | lia (n : Fin 32) (ad : AReg) (imm : Word)
  /-- LIAH -/
  | liah (n : Fin 32) (ad : AReg) (imm : BitVec 16)
  /-- ADDA -/
  | adda (n : Fin 32) (ad as_ : AReg) (rt : SReg) (useImm : Bool) (imm : BitVec 30)
  /-- MOVAS -/
  | movas (n : Fin 32) (rd : SReg) (as_ : AReg)
  /-- BR -/
  | br (n : Fin 32) (rs rt : SReg) (cond : Cond) (useImm : Bool) (imm off : BitVec 16)
  /-- LOOP -/
  | loop (n : Fin 32) (rs : SReg) (off : BitVec 16)
  /-- WAIT -/
  | wait (n : Fin 32) (k : Fin 16) (rs : SReg) (tmo off : BitVec 16)
  /-- WAIT_COMPLETE -/
  | waitComplete (n : Fin 32)
  /-- TOKEN_WAIT_TIMEOUT -/
  | tokenWaitTimeout (n : Fin 32)
  /-- SIGNAL -/
  | signal (n : Fin 32) (k : Fin 16) (units : BitVec 8)
  /-- SIGNAL_FIRE -/
  | signalFire (n : Fin 32)
  /-- MARK -/
  | mark (n : Fin 32) (m : BitVec 12)
  /-- YIELD -/
  | yield_ (n : Fin 32) (off : BitVec 16)
  /-- YIELD_SAVE -/
  | yieldSave (n : Fin 32)
  /-- END -/
  | end_ (n : Fin 32)
  /-- TESTF -/
  | testf (n : Fin 32) (rd : SReg)
  /-- COPY -/
  | copy (n : Fin 32) (queue : Fin 4) (ad : AReg) (tok : Tok)
  /-- DMA_TRANSFER_COMPLETE -/
  | dmaTransferComplete (n : Fin 32) (queue : Fin 4) (ecc : List EccHit)
  /-- TLOAD -/
  | tload (n : Fin 32) (mode : TileMode) (wbuf : Fin 2) (ad : AReg) (off : BitVec 15) (tok : Tok)
  /-- TLOAD_COMPLETE -/
  | tloadComplete (n : Fin 32)
  /-- TSTREAM -/
  | tstream (n : Fin 32) (w : TStreamWord)
  /-- TILE_VERDICT -/
  | tileVerdict (n : Fin 32) (e : TileErr)
  /-- REPLAN -/
  | replan (p : Fin 16)
  /-- CCFG -/
  | ccfg (n : Fin 32) (ad : AReg) (tok : Tok)
  /-- CCFG_COMPLETE -/
  | ccfgComplete (n : Fin 32)
  /-- CSTART -/
  | cstart (n : Fin 32) (rs rt : SReg)
  /-- VPARAM -/
  | vparam (n : Fin 32) (ps : Fin 4) (ad : AReg) (tok : Tok)
  /-- VQ -/
  | vq (n : Fin 32) (w : VqWord)
  /-- VRAWST -/
  | vrawst (n : Fin 32) (mode : TileMode) (rs rt : SReg) (ad : AReg) (tok : Tok)
  /-- VRAWADD -/
  | vrawadd (n : Fin 32) (mode : TileMode) (rs rt : SReg) (as_ : AReg) (tok : Tok)
  /-- VPOOL -/
  | vpool (n : Fin 32) (sum init : Bool) (rs rt : SReg) (tok : Tok)
  /-- VCVT -/
  | vcvt (n : Fin 32) (w : VcvtWord)
  /-- VEW -/
  | vew (n : Fin 32) (w : VewWord)
  /-- VECTOR_OP_COMPLETE -/
  | vectorOpComplete (n : Fin 32)
  /-- PADV -/
  | padv (n : Fin 32) (k : Fin 8) (tag : Byte) (rs : SReg)
  /-- PROGRESS_PUBLISH -/
  | progressPublish (n : Fin 32)
  /-- PWAIT -/
  | pwait (n : Fin 32) (peer : BitVec 6) (k : Fin 8) (tag : Byte) (rs : SReg) (tmo off : BitVec 16)
  /-- PROGRESS_WAIT_COMPLETE -/
  | progressWaitComplete (n : Fin 32)
  /-- PROGRESS_WAIT_TIMEOUT -/
  | progressWaitTimeout (n : Fin 32)
  /-- POST -/
  | post (n : Fin 32) (rs rt : SReg)
  /-- POST_HANDOVER -/
  | postHandover (n : Fin 32)
  /-- SYS_TRAP -/
  | sysTrap (n : Fin 32) (imm : BitVec 16)
  /-- FLUSH_GRACE_EXPIRY -/
  | flushGraceExpiry (n : Fin 32)
  /-- SCRUB_PASS -/
  | scrubPass (w : EccPlace) (e : EccEvent)
  /-- BURST_REQUEST -/
  | burstRequest (pt : ArbPoint) (b : Burst)
  /-- BURST_GRANT -/
  | burstGrant (pt : ArbPoint)
  /-- FIXED_SLOT_START -/
  | fixedSlotStart (pt : ArbPoint)
  /-- BANK_SLOT -/
  | bankSlot (cl : Fin 4) (bank : Fin 32) (coreReq : List (Fin 8)) (dmaReq : List BankReq)
  /-- LOS_ENTER -/
  | losEnter (lane : LaneId)
  /-- LOS_EXIT -/
  | losExit (lane : LaneId)
  /-- BLOCK_LOCK -/
  | blockLock (lane : LaneId)
  /-- LOCK_LOST -/
  | lockLost (lane : LaneId) (badHdr : Nat)
  /-- HI_BER_ENTER -/
  | hiBerEnter (lane : LaneId) (badHdr : Nat)
  /-- HI_BER_WINDOW_END -/
  | hiBerWindowEnd (lane : LaneId) (badHdr : Nat)
  /-- ALIGNMENT_MARKER -/
  | alignmentMarker (bond : BondId) (ms : List (Option Marker))
  /-- LINE_SEG -/
  | lineSeg (st : Fin 64) (x : Stretch)
  /-- CTRL_ACK -/
  | ctrlAck (st : Fin 64) (x : Stretch)
  /-- EVENT -/
  | event (st : Fin 64) (x : Stretch)
  /-- HELLO -/
  | hello (st : Fin 64) (x : Stretch)
  /-- HELLO_TIMER -/
  | helloTimer (bond : BondId)
  /-- CTRL_RETRY_TIMEOUT -/
  | ctrlRetryTimeout (st : Fin 64)
  /-- QUAR_WINDOW_END -/
  | quarWindowEnd (st : Fin 64)
  /-- EVENT_RATE_WINDOW_END -/
  | eventRateWindowEnd (st : Fin 64)
  /-- QUAR_HOLD_EXPIRY -/
  | quarHoldExpiry (st : Fin 64)
  /-- SOF_MARK -/
  | sofMark (st : Fin 64) (count : BitVec 24)
  /-- SPAN_DATA -/
  | spanData (link : Fin 4) (x : Stretch)
  /-- SPAN_ACK -/
  | spanAck (link : Fin 4) (x : Stretch)
  /-- SPAN_HELLO -/
  | spanHello (link : Fin 4) (x : Stretch)
  /-- SPAN_ACK_TIMER -/
  | spanAckTimer (link : Fin 4)
  /-- SPAN_RTO -/
  | spanRto (link : Fin 4)
  /-- SPAN_REQUEST_LINE -/
  | spanRequestLine (p : Fin 16)
  /-- BARRIER -/
  | barrier (p : Fin 16)
  /-- BROADCAST -/
  | broadcast (p : Fin 16)
  /-- SNAPSHOT -/
  | snapshot (p : Fin 16)
  /-- RESET -/
  | reset (p : Fin 16)
  /-- GOP_FRAME -/
  | gopFrame (link : Fin 4) (x : Stretch)
  /-- SNAPSHOT_CAPTURE -/
  | snapshotCapture (p : Fin 16)
  /-- SPAN_GOP_TIMEOUT -/
  | spanGopTimeout (p : Fin 16)
  /-- SPAN_TRANSFER_DOORBELL -/
  | spanTransferDoorbell (p : Fin 16)
  /-- SPAN_TRANSFER_COMPLETE -/
  | spanTransferComplete (p : Fin 16) (refused : Bool)
  /-- ENC_COUNT -/
  | encCount (i : Fin 4) (fwd : Bool)
  /-- ENC_Z_EDGE -/
  | encZEdge (i : Fin 4)
  /-- PASSTHROUGH_EDGE -/
  | passthroughEdge (m : Fin 4) (pins : BitVec 3)
  /-- EMU_EDGE -/
  | emuEdge (m : Fin 4)
  /-- SPEED_WINDOW_END -/
  | speedWindowEnd (src : Fin 6)
  /-- SSI_FRAME -/
  | ssiFrame (j : Fin 2)
  /-- SSI_FRAME_END -/
  | ssiFrameEnd (j : Fin 2) (raw : Word)
  /-- COMPARE_WINDOW_END -/
  | compareWindowEnd (c : Fin 4)
  /-- MIRROR_RECORD -/
  | mirrorRecord (p : Fin 16)
  /-- PULLIN_END -/
  | pullinEnd (d : Fin 32)
  /-- PULSE_END -/
  | pulseEnd (d : Fin 32)
  /-- TRIGGER_SLOT_MISSING -/
  | triggerSlotMissing (st : Fin 64)
  /-- FRAME_START -/
  | frameStart (st : Fin 64)
  /-- OUTPUT_LINE_WRITE -/
  | outputLineWrite (st : Fin 64) (n : Fin 4)
  /-- OBJECT_WINDOW_ISSUE -/
  | objectWindowIssue (st : Fin 64)
  /-- STAT_RECORD_WRITE -/
  | statRecordWrite (st : Fin 64)
  /-- REPLAY_LINE_FEED -/
  | replayLineFeed (slot : Fin 16)
  /-- JOB_START -/
  | jobStart (p : Fin 16)
  /-- MONITOR_EVAL -/
  | monitorEval (p : Fin 16) (job : Word)
  /-- DUSK_EXIT -/
  | duskExit (st : Fin 64)
  /-- MODEL_SET_SWITCH -/
  | modelSetSwitch (p : Fin 16)
  /-- DI_SENSE -/
  | diSense (smp : List DiSample)
  /-- FIO_SHORT -/
  | fioShort (g : Fin 8)
  /-- FIO_OVERTEMP -/
  | fioOvertemp (g : Fin 8)
  /-- FIO_UNDERVOLTAGE -/
  | fioUndervoltage
  /-- NF_HEARTBEAT_TIMEOUT -/
  | nfHeartbeatTimeout
  /-- PTP_MESSAGE -/
  | ptpMessage (port : Fin 2) (m : PtpMsg)
  /-- PTP_TX_TIMER -/
  | ptpTxTimer (port : Fin 2) (k : PtpKind)
  /-- PTP_LOST -/
  | ptpLost (port : Fin 2)
  /-- ARP_REQUEST -/
  | arpRequest (port : Fin 2) (senderMac : BitVec 48) (senderIp targetIp : Word)
  /-- ETH_FRAME_DROP -/
  | ethFrameDrop (port : Fin 2) (badFcs : Bool)
  /-- ETH_LINK_DOWN -/
  | ethLinkDown (port : Fin 2)
  /-- FRAME_LAUNCH -/
  | frameLaunch (port : Fin 2) (q : Fin 8)
  /-- LAUNCH_LATE_DROP -/
  | launchLateDrop (port : Fin 2) (q : Fin 8)
  /-- REFCLK_GLITCH -/
  | refclkGlitch
  /-- REFCLK_WINDOW -/
  | refclkWindow (ppm10 : Int)
  /-- REFCLK_LOSS -/
  | refclkLoss
  /-- GOVERNOR_SAMPLE -/
  | governorSample (g : GovReading)
  /-- PACE_SAMPLE -/
  | paceSample (live : List (BitVec 16)) (clu : List (BitVec 16))
  /-- THERM_TRIP -/
  | thermTrip
  /-- UNKNOWN_FRAME -/
  | unknownFrame (st : Fin 64) (x : Stretch)
  /-- ILLEGAL_WORD -/
  | illegalWord (n : Fin 32) (w : BitVec 64)
  /-- FIELD_SUPPLY_RETURN -/
  | fieldSupplyReturn
  /-- MOD_RESET_N_RELEASE -/
  | modResetNRelease
  /-- PCIE_LINK_UP -/
  | pcieLinkUp
  /-- VF_ENABLE -/
  | vfEnable (on : Bool)
  /-- BUS_MASTER_ENABLE -/
  | busMasterEnable (fn : Fin 17)
  /-- ETH_LINK_UP -/
  | ethLinkUp (port : Fin 2)
  /-- COMPLETION_TIMEOUT -/
  | completionTimeout (fn : Fin 17)
  /-- PLUGGABLE_INSERTION -/
  | pluggableInsertion (cage : Cage) (classDw : Nat)
  /-- ENERGY_INTERVAL -/
  | energyInterval (uj : List Nat)
deriving DecidableEq, Repr

end Sys2Proof
end

