-- ==== Sys2Proof/Machine/Bits.lean ====
section
/-! DEFINITION. Bit fields, little-endian bytes (R5), sparse maps and list helpers that every unit of the model uses. -/

namespace Sys2Proof.Machine

open Sys2Proof

/-! ### Bit fields: `[high:low]`, bit 0 least significant (00_scope.md, Notation). -/

/-- The field `[hi:lo]` of a word as a number. -/
def fld (hi lo : Nat) (w : Word) : Nat := (w.toNat >>> lo) % 2 ^ (hi + 1 - lo)

/-- One bit of a word. -/
def bitOf (i : Nat) (w : Word) : Bool := w.toNat.testBit i

/-- A word with the field `[hi:lo]` replaced by `v`. -/
def setFld (hi lo v : Nat) (w : Word) : Word :=
  let m : Word := BitVec.ofNat 32 ((2 ^ (hi + 1 - lo) - 1) <<< lo)
  (w &&& ~~~ m) ||| (BitVec.ofNat 32 (v <<< lo) &&& m)

/-- A word with bit `i` set or cleared. -/
def setBit (i : Nat) (b : Bool) (w : Word) : Word := setFld i i (if b then 1 else 0) w

/-- A boolean as a number. -/
def b2n (b : Bool) : Nat := if b then 1 else 0

/-- A number as a register word. -/
abbrev wd (n : Nat) : Word := BitVec.ofNat 32 n

/-- An integer as a register word, two's complement. -/
def wdi (i : Int) : Word := BitVec.ofInt 32 i

/-- Sign extension of the low `w` bits of a number. -/
def sx (w n : Nat) : Int := (BitVec.ofNat w n).toInt

/-- A number held to at most `m`: a saturating count. -/
def satN (m n : Nat) : Nat := if n ≤ m then n else m

/-! ### Little-endian bytes (R5). -/

/-- The number that bytes hold, least significant byte first. -/
def leNat : List Byte → Nat
  | [] => 0
  | b :: bs => b.toNat + 256 * leNat bs

/-- The `k` low bytes of a number, least significant first. -/
def natLE : Nat → Nat → List Byte
  | 0, _ => []
  | k + 1, n => BitVec.ofNat 8 n :: natLE k (n / 256)

/-- The `k` low bytes of a number, most significant first. -/
def natBE (k n : Nat) : List Byte := (natLE k n).reverse

/-- The number that `k` bytes at offset `o` hold, little-endian; bytes past the end count as 0. -/
def leAt (bs : List Byte) (o k : Nat) : Nat := leNat ((bs.drop o).take k)

/-- `k` zero bytes. -/
def zeros (k : Nat) : List Byte := List.replicate k 0

/-- Bytes cut or padded with zeros to `k` bytes. -/
def padTo (k : Nat) (bs : List Byte) : List Byte := (bs ++ zeros (k - bs.length)).take k

/-! ### Sparse maps: pairs in rising key order, one pair a key. -/

/-- A map from numbers to values. -/
abbrev Fam (α : Type) := List (Nat × α)

/-- The value at a key, or the default. -/
def Fam.get {α : Type} (d : α) (k : Nat) : Fam α → α
  | [] => d
  | (j, v) :: r => if j = k then v else Fam.get d k r

/-- The value at a key, if listed. -/
def Fam.find {α : Type} (k : Nat) : Fam α → Option α
  | [] => none
  | (j, v) :: r => if j = k then some v else Fam.find k r

/-- The map with a key set. -/
def Fam.set {α : Type} (k : Nat) (v : α) : Fam α → Fam α
  | [] => [(k, v)]
  | (j, w) :: r => if k < j then (k, v) :: (j, w) :: r else if k = j then (k, v) :: r else (j, w) :: Fam.set k v r

/-- The map without a key. -/
def Fam.del {α : Type} (k : Nat) (m : Fam α) : Fam α := m.filter fun p => p.1 != k

/-- The map without the keys of which `p` holds. -/
def Fam.delWhere {α : Type} (p : Nat → Bool) (m : Fam α) : Fam α := m.filter fun q => !p q.1

/-- The map with `f` applied at one key. -/
def Fam.upd {α : Type} (d : α) (k : Nat) (f : α → α) (m : Fam α) : Fam α := m.set k (f (m.get d k))

theorem Fam.get_set_self {α : Type} (d v : α) (k : Nat) (m : Fam α) : Fam.get d k (m.set k v) = v := by
  induction m with
  | nil => simp [Fam.set, Fam.get]
  | cons p r ih =>
    obtain ⟨j, w⟩ := p
    simp only [Fam.set]
    split
    · simp [Fam.get]
    · split
      · simp [Fam.get]
      · rename_i h1 h2
        simp [Fam.get, Ne.symm h2, ih]

theorem Fam.get_set_ne {α : Type} (d v : α) {k k' : Nat} (h : k' ≠ k) (m : Fam α) :
    Fam.get d k' (m.set k v) = Fam.get d k' m := by
  induction m with
  | nil => simp [Fam.set, Fam.get, Ne.symm h]
  | cons p r ih =>
    obtain ⟨j, w⟩ := p
    simp only [Fam.set]
    split
    · simp [Fam.get, Ne.symm h]
    · split
      · rename_i h1 h2; subst h2; simp [Fam.get, Ne.symm h]
      · simp only [Fam.get, ih]

/-! ### Lists. -/

/-- The list with element `i` replaced. -/
def setAt {α : Type} (l : List α) (i : Nat) (x : α) : List α := l.set i x

/-- The list with `f` applied to the elements of which `p` holds. -/
def mapWhere {α : Type} (p : α → Bool) (f : α → α) (l : List α) : List α := l.map fun x => if p x then f x else x

/-- An element put before the first one it does not come after. -/
def insertBy {α : Type} (le : α → α → Bool) (x : α) : List α → List α
  | [] => [x]
  | y :: r => if le x y then x :: y :: r else y :: insertBy le x r

/-- The list in an order, equal elements as they stood. -/
def sortBy {α : Type} (le : α → α → Bool) : List α → List α
  | [] => []
  | x :: r => insertBy le x (sortBy le r)

/-- The numbers `0 … n−1`. -/
abbrev upTo (n : Nat) : List Nat := List.range n

/-- A state threaded through a list of updates, in order. -/
def eachDo {α σ : Type} (f : α → σ → σ) (l : List α) (s : σ) : σ := l.foldl (fun t x => f x t) s

/-- The bits of a number that are set, below `n`. -/
def bitsSet (n v : Nat) : List Nat := (List.range n).filter fun i => v.testBit i

end Sys2Proof.Machine
end

