-- ==== Sys2Proof/Machine/Crypto.lean ====
section
/-! DEFINITION. The checks the spec names by their public standards: CRC-32 (R49), SHA-256 and SHA-512 (FIPS 180-4), Ed25519
verification (RFC 8032). The spec names the functions and states no algorithm but the CRC's: PRESUMED, notes/assumptions/9.md. -/

namespace Sys2Proof.Machine

open Sys2Proof

/-- One bit of the reflected CRC-32 of R49. -/
def crcBit (c : BitVec 32) : BitVec 32 :=
  if c.getLsbD 0 then (c >>> 1) ^^^ 0xEDB88320#32 else c >>> 1

/-- One byte of the reflected CRC-32. -/
def crcByte (c : BitVec 32) (b : Byte) : BitVec 32 :=
  crcBit (crcBit (crcBit (crcBit (crcBit (crcBit (crcBit (crcBit (c ^^^ b.setWidth 32))))))))

/-- CRC-32 with initial value all ones and a final inversion (R49). -/
def crc32 (bs : List Byte) : BitVec 32 := ~~~ (bs.foldl crcByte 0xFFFFFFFF#32)

/-! ### SHA-2. -/

/-- The integer part of the square root, by bisection on `k` bits. -/
def rootSearch (p : Nat → Bool) : Nat → Nat → Nat
  | 0, a => a
  | k + 1, a => if p (a + 2 ^ k) then rootSearch p k (a + 2 ^ k) else rootSearch p k a

/-- The first primes, from which SHA-2 takes its constants. -/
def shaPrimes : List Nat :=
  (List.range 410).filter fun n => n ≥ 2 && (List.range n).all fun d => d < 2 || n % d != 0

/-- The first `w` bits of the fraction of the square root of `p`. -/
def sqrtFrac (w p : Nat) : Nat := rootSearch (fun x => x * x ≤ p * 2 ^ (2 * w)) (w + 6) 0 % 2 ^ w

/-- The first `w` bits of the fraction of the cube root of `p`. -/
def cbrtFrac (w p : Nat) : Nat := rootSearch (fun x => x * x * x ≤ p * 2 ^ (3 * w)) (w + 4) 0 % 2 ^ w

/-- What differs between SHA-256 and SHA-512. -/
structure ShaKind where
  w : Nat
  rounds : Nat
  S0 : Nat × Nat × Nat
  S1 : Nat × Nat × Nat
  s0 : Nat × Nat × Nat
  s1 : Nat × Nat × Nat

/-- SHA-256. -/
def sha2k256 : ShaKind := ⟨32, 64, (2, 13, 22), (6, 11, 25), (7, 18, 3), (17, 19, 10)⟩
/-- SHA-512. -/
def sha2k512 : ShaKind := ⟨64, 80, (28, 34, 39), (14, 18, 41), (1, 8, 7), (19, 61, 6)⟩

/-- Rotate right in `w` bits. -/
def rotr (w n x : Nat) : Nat := (x >>> n) ||| ((x <<< (w - n)) % 2 ^ w)

/-- A SHA-2 capital sigma. -/
def bigSigma (w : Nat) (r : Nat × Nat × Nat) (x : Nat) : Nat := rotr w r.1 x ^^^ rotr w r.2.1 x ^^^ rotr w r.2.2 x
/-- A SHA-2 small sigma, the last a shift. -/
def smallSigma (w : Nat) (r : Nat × Nat × Nat) (x : Nat) : Nat := rotr w r.1 x ^^^ rotr w r.2.1 x ^^^ (x >>> r.2.2)

/-- The message schedule, newest word first. -/
def shaSchedule (k : ShaKind) : Nat → List Nat → List Nat
  | 0, ws => ws
  | n + 1, ws =>
    let x := (smallSigma k.w k.s1 (ws.getD 1 0) + ws.getD 6 0 + smallSigma k.w k.s0 (ws.getD 14 0) + ws.getD 15 0) % 2 ^ k.w
    shaSchedule k n (x :: ws)

/-- One SHA-2 round on the eight working words. -/
def shaRound (k : ShaKind) (h : List Nat) (kw : Nat × Nat) : List Nat :=
  let m := 2 ^ k.w
  let a := h.getD 0 0; let b := h.getD 1 0; let c := h.getD 2 0; let d := h.getD 3 0
  let e := h.getD 4 0; let f := h.getD 5 0; let g := h.getD 6 0; let hh := h.getD 7 0
  let t1 := hh + bigSigma k.w k.S1 e + ((e &&& f) ^^^ ((m - 1 - e) &&& g)) + kw.1 + kw.2
  let t2 := bigSigma k.w k.S0 a + ((a &&& b) ^^^ (a &&& c) ^^^ (b &&& c))
  [(t1 + t2) % m, a, b, c, (d + t1) % m, e, f, g]

/-- One SHA-2 block of 16 words. -/
def shaBlock (k : ShaKind) (ks : List Nat) (h ws : List Nat) : List Nat :=
  let sched := (shaSchedule k (k.rounds - 16) ws.reverse).reverse
  let r := (ks.zip sched).foldl (shaRound k) h
  (h.zip r).map fun p => (p.1 + p.2) % 2 ^ k.w

/-- The big-endian words of a byte list, `n` bytes each. -/
def beWords (n : Nat) : Nat → List Byte → List Nat
  | 0, _ => []
  | c + 1, bs => leNat ((bs.take n).reverse) :: beWords n c (bs.drop n)

/-- SHA-2 of a byte list. -/
def sha2 (k : ShaKind) (bs : List Byte) : List Byte :=
  let blk := 2 * k.w
  let padLen := (blk - (bs.length + 1 + k.w / 4) % blk) % blk
  let msg := bs ++ [0x80#8] ++ zeros padLen ++ natBE (k.w / 4) (bs.length * 8)
  let ks := (shaPrimes.take k.rounds).map (cbrtFrac k.w)
  let h0 := (shaPrimes.take 8).map (sqrtFrac k.w)
  let h := (List.range (msg.length / blk)).foldl
    (fun h i => shaBlock k ks h (beWords (k.w / 8) 16 ((msg.drop (i * blk)).take blk))) h0
  h.flatMap (natBE (k.w / 8))

/-- SHA-256 (R45). -/
def sha256 (bs : List Byte) : List Byte := sha2 sha2k256 bs
/-- SHA-512, which Ed25519 uses. -/
def sha512 (bs : List Byte) : List Byte := sha2 sha2k512 bs

/-! ### Ed25519 verification (RFC 8032). -/

/-- The field prime 2^255 − 19. -/
def edP : Nat := 2 ^ 255 - 19
/-- The order of the base point. -/
def edL : Nat := 2 ^ 252 + 27742317777372353535851937790883648493

/-- Power modulo `m`, `k` bits of exponent. -/
def powMod (m b : Nat) : Nat → Nat → Nat
  | 0, _ => 1 % m
  | k + 1, e =>
    let h := powMod m b k (e / 2)
    let q := h * h % m
    if e % 2 = 1 then q * b % m else q

/-- The inverse modulo the field prime. -/
def edInv (x : Nat) : Nat := powMod edP x 256 (edP - 2)
/-- The curve constant d. -/
def edD : Nat := (edP - 121665) * edInv 121666 % edP
/-- Subtraction modulo the field prime. -/
def edSub (a b : Nat) : Nat := (a + (edP - b % edP)) % edP

/-- The x coordinate of the point with the given y and sign, if there is one. -/
def edRecoverX (y sign : Nat) : Option Nat :=
  let u := edSub (y * y % edP) 1
  let v := (edD * (y * y % edP) + 1) % edP
  let x2 := u * edInv v % edP
  let x := powMod edP x2 256 ((edP + 3) / 8)
  let x := if x * x % edP = x2 then x else x * powMod edP 2 256 ((edP - 1) / 4) % edP
  if x * x % edP ≠ x2 then none
  else if x = 0 ∧ sign = 1 then none
  else some (if x % 2 = sign then x else (edP - x) % edP)

/-- A point in extended coordinates X, Y, Z, T. -/
abbrev EdPt := Nat × Nat × Nat × Nat

/-- The neutral point. -/
def edZero : EdPt := (0, 1, 1, 0)

/-- Addition of two points. -/
def edAdd (p q : EdPt) : EdPt :=
  let a := edSub p.2.1 p.1 * edSub q.2.1 q.1 % edP
  let b := (p.2.1 + p.1) * (q.2.1 + q.1) % edP
  let c := 2 * p.2.2.2 * q.2.2.2 * edD % edP
  let d := 2 * p.2.2.1 * q.2.2.1 % edP
  let e := edSub b a; let f := edSub d c; let g := (d + c) % edP; let h := (b + a) % edP
  (e * f % edP, g * h % edP, f * g % edP, e * h % edP)

/-- A multiple of a point, `k` bits of multiplier. -/
def edMul (p : EdPt) : Nat → Nat → EdPt
  | 0, _ => edZero
  | k + 1, n =>
    let h := edMul p k (n / 2)
    let q := edAdd h h
    if n % 2 = 1 then edAdd q p else q

/-- The point that 32 bytes encode. -/
def edDecode (bs : List Byte) : Option EdPt :=
  let n := leNat bs
  let y := n % 2 ^ 255
  if bs.length ≠ 32 ∨ y ≥ edP then none
  else (edRecoverX y (n / 2 ^ 255)).map fun x => (x, y, 1, x * y % edP)

/-- Two points are equal. -/
def edEq (p q : EdPt) : Bool :=
  p.1 * q.2.2.1 % edP == q.1 * p.2.2.1 % edP && p.2.1 * q.2.2.1 % edP == q.2.1 * p.2.2.1 % edP

/-- The base point: y = 4/5, x even. -/
def edBase : EdPt :=
  let y := 4 * edInv 5 % edP
  let x := (edRecoverX y 0).getD 0
  (x, y, 1, x * y % edP)

/-- Ed25519 verification of a message under a 32-byte key. -/
def ed25519Verify (key msg sig : List Byte) : Bool :=
  let s := leNat ((sig.drop 32).take 32)
  if sig.length ≠ 64 ∨ s ≥ edL then false
  else match edDecode key, edDecode (sig.take 32) with
    | some a, some r =>
      let k := leNat (sha512 (sig.take 32 ++ key ++ msg)) % edL
      edEq (edMul edBase 256 s) (edAdd r (edMul a 256 k))
    | _, _ => false

end Sys2Proof.Machine
end

