-- ==== Sys2Proof/Machine/Mem.lean ====
section
/-! DEFINITION. Byte memory: a list of (address, byte) in one canonical form, addresses strictly rising and no byte 0 listed.
An unlisted address reads 0 (notes/assumptions/4.md: the spec gives HBM no contents at power-up, R256). -/

namespace Sys2Proof.Machine

open Sys2Proof

/-- A memory's listed bytes. -/
abbrev Memory := List Host.Cell

/-- The byte an address reads as. -/
def Memory.get (a : Nat) : Memory → Byte
  | [] => 0
  | (b, v) :: r => if b = a then v else Memory.get a r

/-- A cell entered at its place, instead of one of the same address. -/
def Memory.put (a : Nat) (v : Byte) : Memory → Memory
  | [] => [(a, v)]
  | c :: r => if c.1 < a then c :: Memory.put a v r else (a, v) :: (if c.1 = a then r else c :: r)

/-- The memory with one byte written: a written 0 leaves the address unlisted. -/
def Memory.set (a : Nat) (v : Byte) (m : Memory) : Memory := if v = 0 then m.filter fun c => c.1 != a else Memory.put a v m

/-- The canonical form: addresses strictly rise, and no byte 0 is listed. -/
def Memory.wf (m : Memory) : Bool := decide (m.Pairwise fun c d => c.1 < d.1) && m.all fun c => c.2 != 0

/-- `k` bytes from an address. -/
def Memory.read (m : Memory) (a k : Nat) : List Byte := (List.range k).map fun i => m.get (a + i)

/-- Bytes written from an address on. -/
def Memory.write (m : Memory) (a : Nat) : List Byte → Memory
  | [] => m
  | b :: bs => Memory.write (m.set a b) (a + 1) bs

/-- A range cleared to zero (R244). -/
def Memory.clear (m : Memory) (a k : Nat) : Memory := m.filter fun c => decide (c.1 < a) || decide (a + k ≤ c.1)

/-- The number that `k` bytes at an address hold, little-endian (R5). -/
def Memory.le (m : Memory) (a k : Nat) : Nat := leNat (m.read a k)

end Sys2Proof.Machine
end

