-- ==== Sys2Proof/Config.lean ====
section
/-! DEFINITION. What one part fixes (fuses, identity) and the free values: constants without a body, of which nothing can be proved. -/

namespace Sys2Proof

/-! ### Free values (notes/assumptions/5.md): the step applies them to the counter `fresh` of the state. -/

/-- A 32-bit value the spec leaves undefined (R8). -/
opaque Config.freeWord : Nat → BitVec 32
/-- A byte the spec leaves undefined. -/
opaque Config.freeByte : Nat → Byte
/-- A choice the spec leaves open. -/
opaque Config.freeBit : Nat → Bool
/-- The 16 bytes of a nonce from the steward's random source (R40). -/
opaque Config.nonce : Nat → BitVec 128
/-- An unstated integer result. -/
opaque Config.freeInt : Nat → Int

/-- The quantisation step the codec chooses for a block of samples at a bit depth and ratio, within its bound (R126). -/
opaque Config.codecQ : List Nat → Nat → Nat → Nat
/-- A sample that the bytes of a coded block decode to, at a bit depth (R126, R127). -/
opaque Config.codecSample : List Byte → Nat → Nat → Nat
/-- The time of a line that fails its CRC, of which the manual says nothing: the same for the same header (R131, R133). -/
opaque Config.lineTime : List Byte → BitVec 64
/-- A byte of a coded block: the coding inside a block is not an interface (R126). -/
opaque Config.codecByte : List Nat → Nat → Nat → Nat → Byte

/-- The sample of a column beyond the end of a line, of which the manual says nothing. -/
opaque Config.beyondLine : Nat → BitVec 16

/-! The payload of a span transfer's frames (R442), whose layout the spec does not state. -/

/-- The payload that carries some data for a partition's transfer: partition, device address, last frame, counter address plus 1 or 0. -/
opaque Config.spanBytes : List Nat → List Byte → List Byte
/-- The partition, the device address, the data, whether the frame is the transfer's last, and the counter to increment, of a payload. -/
opaque Config.spanPart : List Byte → Nat
opaque Config.spanAddr : List Byte → Nat
opaque Config.spanData : List Byte → List Byte
opaque Config.spanLast : List Byte → Bool
opaque Config.spanCnt : List Byte → Option Nat
/-- Lines of a transfer that a frame carries, less 1, modulo 62. -/
opaque Config.spanChunk : Nat

/-- The steward's layout of an HBM slot wheel (R281): the owners of the slots for given shares and wheel length, 18 for none. -/
opaque Config.wheel : List Nat → Nat → List Nat
/-- Lines of buffer space that a point has for bursts coming from another point (R282), less 64. -/
opaque Config.pointRoom : Nat → Nat

/-- The handle the module gives a model beside those in use (R289): nothing but its uniqueness is stated. -/
opaque Config.handle : List Nat → Nat

/-! ### The module identity record and the fuses (notes/assumptions/6.md). -/

/-- The 8-byte module serial number (R39). -/
opaque Config.serial : BitVec 64
/-- SYS_STEP: die, package and module stepping, per part (R19). -/
opaque Config.sysStep : BitVec 24
/-- Key slot 0, the maker's root key, in fuses (R37): 32 bytes. -/
opaque Config.rootKey : BitVec 256
/-- The MAC address of each Ethernet port (R374). -/
opaque Config.mac : Nat → BitVec 48
/-- The trim code of the internal oscillator from fuses (R409, R428). -/
opaque Config.oscTrim : BitVec 20
/-- A core's birth record from the factory: the paces at 0.70, 0.75 and 0.80 V and TC (R426). -/
opaque Config.birth : Nat → BitVec 64

/-! ### A firmware slot's bytes, whose layout the spec does not state (R450, notes/assumptions/10.md). -/

/-- The version in the header of a firmware slot. -/
opaque Config.fwVersion : List Byte → BitVec 24
/-- The security version SVN in the header of a firmware slot. -/
opaque Config.fwSvn : List Byte → BitVec 6
/-- Whether the slot's signature verifies under a 32-byte key. -/
opaque Config.fwSigOk : List Byte → List Byte → Bool
/-- Whether the SHA-256 of the slot's header matches its code. -/
opaque Config.fwHashOk : List Byte → Bool
/-- The contents of the firmware slot the module is shipped with. -/
opaque Config.fwShipped : List Byte

end Sys2Proof
end

