-- ==== Sys2Proof/Machine/RegMap.lean ====
section
/-! DEFINITION. The keys of the registers (R17, R391 to R393, R366) and their reset values. -/

namespace Sys2Proof.Machine

open Sys2Proof

/-! ### Keys. -/

abbrev kSYS_STEP : Nat := 0x004
abbrev kSYS_CTL : Nat := 0x010
abbrev kSYS_STAT : Nat := 0x014
abbrev kSYS_BOOT : Nat := 0x018
abbrev kSYS_RST : Nat := 0x01C
abbrev kSYS_GSTAT : Nat := 0x020
abbrev kSYS_FW : Nat := 0x024

/-- The base of a function's ring registers (R407): function 0 is the PF, n + 1 the VF of Pn. -/
def ringBase (fn : Nat) : Nat := if fn = 0 then 0x010000 else 0x1000000 + fn * 0x10000
abbrev oCMD_BASE : Nat := 0x000
abbrev oCMD_SIZE : Nat := 0x008
abbrev oCMD_HEAD : Nat := 0x00C
abbrev oCPL_BASE : Nat := 0x010
abbrev oCPL_SIZE : Nat := 0x018
abbrev oCPL_TAIL : Nat := 0x01C
abbrev oRING_CTL : Nat := 0x020
abbrev oRING_STAT : Nat := 0x024
abbrev oRING_EVT : Nat := 0x028
abbrev oFLUSH_LAST : Nat := 0x02C
abbrev oINT_LDP : Nat := 0x030
abbrev oINT_SRC : Nat := 0x040
abbrev oCNT_CMDS : Nat := 0x060
abbrev oCNT_EVT_LOST : Nat := 0x064

/-- The base of the stream view of stream `s` (R393). -/
def ssBase (s : Nat) : Nat := 0x2000000 + s * 0x100
/-- The base of the supervisor's registers (R366), keyed by QSPI address less 0x4000. -/
abbrev supBase : Nat := 0x3000000

/-! CLK and PWR (R428). -/
abbrev kCLK_STAT : Nat := 0x020000
abbrev kCLK_EVT : Nat := 0x020004
abbrev kCLK_REF_PPM : Nat := 0x020008
abbrev kCLK_OSC_TRIM : Nat := 0x02000C
abbrev kCLK_CNT_LOST : Nat := 0x020010
abbrev kCLK_CNT_OOR : Nat := 0x020014
abbrev kCLK_CNT_GLITCH : Nat := 0x020018
abbrev kCLK_EN0 : Nat := 0x020020
abbrev kCLK_EN1 : Nat := 0x020024
abbrev kCLK_EN2 : Nat := 0x020028
abbrev kPWR_STAT : Nat := 0x020100
abbrev kPWR_EVT : Nat := 0x020104
abbrev kPWR_IN : Nat := 0x020108
abbrev kPWR_BUDGET : Nat := 0x02010C
abbrev kPWR_TJ : Nat := 0x020110
abbrev kPWR_VIN : Nat := 0x020114
abbrev kPWR_AGE : Nat := 0x020118
abbrev kPWR_MC_COUNT : Nat := 0x02011C
def kPWR_RAIL (k : Nat) : Nat := 0x020120 + 4 * k
def kPWR_CLU_PACE (k : Nat) : Nat := 0x020130 + 4 * k
def kPWR_DOM (w : Nat) : Nat := 0x020140 + 4 * w
abbrev kPWR_CNT_NOON : Nat := 0x020160
abbrev kPWR_CNT_FLOOR : Nat := 0x020164
abbrev kPWR_CNT_THERM : Nat := 0x020168

/-! TIME (R385). -/
abbrev kTIME_CTL : Nat := 0x030000
abbrev kTIME_STAT : Nat := 0x030004
abbrev kTIME_EVT : Nat := 0x030008
abbrev kTIME_NOW_FRAC : Nat := 0x030010
abbrev kTIME_NOW_LO : Nat := 0x030014
abbrev kTIME_NOW_HI : Nat := 0x030018
abbrev kTIME_TICK_LO : Nat := 0x03001C
abbrev kTIME_TICK_HI : Nat := 0x030020
abbrev kTIME_RATE_ADJ : Nat := 0x030024
abbrev kTIME_STEP_LO : Nat := 0x030028
abbrev kTIME_STEP_HI : Nat := 0x03002C
abbrev kTIME_ERR : Nat := 0x030030
abbrev kTIME_OFS_LAST : Nat := 0x030034
abbrev kTIME_CNT_STEP : Nat := 0x030038

/-! PART (R35, R246). -/
def kPART_STATUS (p : Nat) : Nat := 0x070000 + 4 * p
def kPART_CORES (p : Nat) : Nat := 0x070040 + 4 * p
def kPART_FE (p : Nat) : Nat := 0x070080 + 4 * p
def kPART_IO (p : Nat) : Nat := 0x0700C0 + 4 * p
def kPART_GEN (p : Nat) : Nat := 0x070100 + 4 * p
def kRGN (t r : Nat) : Nat := 0x071000 + t * 0x100 + r * 0x10

/-! Units. -/
/-- A core's block. -/
def coreBase (n : Nat) : Nat := 0x100000 + n * 0x2000
/-- A camera lane's block. -/
def laneBase (l : Nat) : Nat := 0x0C0000 + l * 0x400
/-- A span lane's block. -/
def spanLaneBase (l : Nat) : Nat := 0x0E0000 + l * 0x400
/-- A cluster's block. -/
def cluBase (k : Nat) : Nat := 0x140000 + k * 0x4000
/-- An HBM controller's block (R268). -/
def hbmBase (h : Nat) : Nat := 0x160000 + h * 0x1000
/-- An Ethernet port's block (R386). -/
def ethBase (p : Nat) : Nat := 0x0F0000 + p * 0x4000
/-- A launch queue's block (R386). -/
def ethqBase (p q : Nat) : Nat := ethBase p + 0x1000 + q * 0x100
/-- A front end's block. -/
def feBase (f : Nat) : Nat := 0x080000 + f * 0x2000
abbrev ledBase : Nat := 0x040000
abbrev fioBase : Nat := 0x050000
abbrev arbBase : Nat := 0x060000
abbrev codecBase : Nat := 0x150000
/-- The block of codec slot `n`, and CODEC_CAL (R141). -/
def cdsBase (n : Nat) : Nat := codecBase + 0x100 + 0x40 * n
abbrev kCAL : Nat := codecBase + 4
abbrev supPfBase : Nat := 0x170000
/-- A partition's accounting record (R315). -/
def acctBase (p : Nat) : Nat := 0x180000 + p * 0x200
/-- A stream's accounting record (R315). -/
def strBase (s : Nat) : Nat := 0x184000 + s * 0x40
abbrev kACCT_MOD : Nat := 0x186000

/-! FAULT (R460). -/
abbrev kFAULT_STAT : Nat := 0x190000
abbrev kFAULT_EVT : Nat := 0x190004
abbrev kFAULT_LOG_WR : Nat := 0x190008
abbrev kFAULT_CNT_REPEAT : Nat := 0x19000C
abbrev kFAULT_ACC_SRC : Nat := 0x190010
abbrev kFAULT_ACC_LO : Nat := 0x190014
abbrev kFAULT_ACC_HI : Nat := 0x190018
def kFAULT_CNT_ACC (t : Nat) : Nat := 0x190040 + 4 * t
def kFAULT_LOG (i : Nat) : Nat := 0x190100 + 0x10 * i

/-! ### Status codes (R406). -/
abbrev stOK : Nat := 0x00
abbrev stBAD_DESC : Nat := 0x01
abbrev stBAD_CMD : Nat := 0x02
abbrev stFLUSHED : Nat := 0x03
abbrev stHOST_ERR : Nat := 0x04
abbrev stMEM_ERR : Nat := 0x05
abbrev stNO_PARTITION : Nat := 0x06
abbrev stNOT_OWNED : Nat := 0x07
abbrev stREGION : Nat := 0x08
abbrev stAUTH_KEY : Nat := 0x10
abbrev stAUTH_NONCE : Nat := 0x11
abbrev stAUTH_SIG : Nat := 0x12
abbrev stAUTH_ROLE : Nat := 0x13
abbrev stAUDIT_FULL : Nat := 0x20
abbrev stAUDIT_UNEXPORTED : Nat := 0x21
abbrev stIMG_FORMAT : Nat := 0x30
abbrev stIMG_MODULE : Nat := 0x31
abbrev stIMG_SIG : Nat := 0x32
abbrev stIMG_CRC : Nat := 0x33
abbrev stIMG_SECTION : Nat := 0x34
abbrev stIMG_FIELD : Nat := 0x35
abbrev stIMG_STALE : Nat := 0x36
abbrev stREFUSED_CONFLICT : Nat := 0x40
abbrev stREFUSED_FIT : Nat := 0x41
abbrev stREFUSED_RATE : Nat := 0x42
abbrev stREFUSED_KEYDEP : Nat := 0x43
abbrev stREFUSED_BUSY : Nat := 0x44
abbrev stREFUSED_CFG : Nat := 0x45
abbrev stREFUSED_KEY : Nat := 0x46
abbrev stREFUSED_PROGRAM : Nat := 0x47
abbrev stLINK_DOWN : Nat := 0x50
abbrev stCODEC_BUSY : Nat := 0x51
abbrev stNIGHTFALL : Nat := 0x52
abbrev stSELFTEST_FAIL : Nat := 0x53
abbrev stCAL_POLLUTED : Nat := 0x60
abbrev stCAL_SHORT : Nat := 0x61
abbrev stEVENT : Nat := 0xFE

end Sys2Proof.Machine
end

