-- ==== Sys2Proof/Machine/State.lean ====
section
/-! DEFINITION. The state of the KX-6416, all of it plain data, and the state after reset.
Registers have ONE home: `regs`, a sparse map from the register's key to its value as a read returns it (for an RWS register the
shadow, R7); `force` holds the RWS values in force; `cnt` the 64-bit counters. A register's key is its PF BAR0 offset (R17); the ring
registers of VF n + 1 lie at 0x1000000 + (n + 1) * 0x10000, the stream views of R393 at 0x2000000 + s * 0x100, and the supervisor's
registers of R366 at 0x3000000. The other fields hold what no register shows. -/

namespace Sys2Proof.Machine

open Sys2Proof

/-- The model has no stop that the machine reports: what the manual calls faults are records and completions (R454), effects on the
state. The type is empty, so no step ends in a fault. -/
inductive Fault
deriving DecidableEq, Repr

/-- Why a command has no meaning. -/
inductive Refusal where
  /-- Raised by the dispatcher for a command that has no meaning yet; safe. -/
  | notModelled (mnemonic : String)
deriving DecidableEq, Repr

/-- The tick counter and what module time is computed from (R367, R368), with the latches of R371. -/
structure TimeUnit where
  running : Bool := false
  c : BitVec 64 := 0
  cBase : BitVec 64 := 0
  tBase : BitVec 80 := 0
  rate : BitVec 32 := 0
  nowLatch : Fam (BitVec 80) := []
  tickLatch : Fam (BitVec 64) := []
  errEntry : Nat := 0xFFFFFFFF
  errTick : BitVec 64 := 0
  errPpb : Nat := 0
  everLocked : Bool := false
  lockCount : Nat := 0
deriving DecidableEq, Repr

/-- One section of a Tirlenath image (R48). -/
structure Sec where
  ty : Nat
  inst : Nat
  body : List Byte
deriving DecidableEq, Repr

/-- A core's line in the ageing log (R426): drift, p_f, Tj, NORM, and the readings at 0.70, 0.75 and 0.80 V normalised to TJ_PLAN. -/
structure Ageing where
  drift : BitVec 16 := 0
  pf : Nat := 0
  tj : Nat := 0
  norm : Bool := false
  line : List Int := []
  lastTick : BitVec 64 := 0
deriving DecidableEq, Repr

/-- The module flash (R37, R44, R58, R450, R426, R162). -/
structure Flash where
  keys : Fam (List Byte) := []
  segNo : Nat := 0
  segPrev : List Byte := zeros 32
  audit : List (List Byte) := []
  auditSeq : Nat := 0
  auditExported : Bool := false
  auditLost : Nat := 0
  auditRO : Bool := false
  torn : Bool := false
  imgActive : Option (List Byte) := none
  imgStaged : Option (List Byte) := none
  stageNo : Word := 0
  committing : Bool := false
  fwA : Option (List Byte) := none
  fwB : Option (List Byte) := none
  fwActiveB : Bool := false
  fwPending : Option Bool := none
  quar : BitVec 32 := 0
  deltaV : Nat := 0
  mcCount : Nat := 0
  ageing : Fam Ageing := []
  expertOpen : Bool := false
deriving DecidableEq, Repr

/-- The fuses that change (R405, SVC_FUSE_BURN). -/
structure Fuses where
  fwSvn : Nat := 0
  birth : Fam (List Byte) := []
deriving DecidableEq, Repr

/-- The power and start-up state no register shows (R446 to R453). -/
structure Boot where
  powered : Bool := false
  held : Bool := false
  fwRunning : Bool := false
  osc : Bool := false
  bootTick : BitVec 64 := 0
  slotB : Bool := false
  recovery : Bool := false
  restarting : Bool := false
  dawnDone : Bool := false
  vfOn : Bool := false
  linkUp : Bool := false
  refPresent : Bool := false
deriving DecidableEq, Repr

/-- A fault event held for delivery (R399): the 8 RESULT bytes are fixed when it is raised. -/
structure Evt where
  code : Nat
  unit : Nat
  part : Nat
  time : Nat
deriving DecidableEq, Repr

/-- A ring's command in progress between service steps; `now` while its effect takes place, within one step. -/
inductive Busy where
  | now
  | copy (d : List Byte) (done : Nat)
  | work (d : List Byte) (dataOk : Bool) (left : Nat)
  | staging (d : List Byte) (img : List Byte) (no : Word)
  | fwWrite (d : List Byte) (fw : List Byte)
  | applying (d : List Byte)
  | camCtrl (d : List Byte) (s : Nat) (seq : Word)
  | cal (d : List Byte)
  | morning (d : List Byte) (cores : List Nat)
  | startStream (d : List Byte) (cores : List Nat)
  | bindSwitch (d : List Byte) (p : Nat)
  | coreRelease (d : List Byte) (n : Nat)
deriving DecidableEq, Repr

/-- A function's rings (R395): the registers hold the bases, sizes and two of the four counts; `auth` is the key slot and the nonce tag of
the command in progress. -/
structure Ring where
  cmdTail : Word := 0
  cplHead : Word := 0
  fetched : List (List Byte) := []
  busy : Option Busy := none
  held : List Evt := []
  unsig : Nat := 0
  busMaster : Bool := false
  flushing : Bool := false
  ldp : Fam Nat := []
  auth : Nat × List Byte := (0xFF, [])
deriving DecidableEq, Repr

/-- An active fault (R454). -/
structure FaultRec where
  code : Nat
  unit : Nat
  part : Nat
  latch : Bool
  fns : List Nat
deriving DecidableEq, Repr

/-- The steward's volatile state: the nonce (R40), the expert unlock (R42), the service turn (R30). -/
structure Svc where
  nonce : Option (List Byte) := none
  nonceTick : BitVec 64 := 0
  expertUntil : Option (BitVec 64) := none
  turn : Nat := 0
  stewardFlag : Bool := false
deriving DecidableEq, Repr

/-- What the module sent out: interrupts and frames, newest first. -/
inductive Out where
  | msix (fn vec : Nat)
  | cam (st : Nat) (x : Stretch)
  | span (link : Nat) (x : Stretch)
  | eth (port : Nat) (time : Nat) (frame : List Byte)
  | ptp (port kind : Nat) (time : Nat) (body : List Byte)
  | emuPulse (m : Nat)
deriving DecidableEq, Repr


/-! ### Scheduling (13_scheduling_and_deadlines.md) -/

/-- A line of the burst table of R288. -/
structure BurstRow where
  path : Nat
  deadline : Bool
  lines : Nat
  count : Nat
deriving DecidableEq, Repr

/-- A resident model: what SVC_LOAD_MODEL copies from the package (R287, R288). -/
structure Model where
  part : Nat
  addr : Nat
  len : Nat
  bg : Bool
  cores : Nat
  batch : Nat
  cNs : Nat
  yNs : Nat
  vMax : Nat
  markers : List (Nat × Nat)
  fOff : Nat
  f : Nat
  act : Nat
  weightOff : Nat
  bursts : List BurstRow
  progs : List (Nat × Nat)
  groups : List (List Nat)
  key : List Byte
  unfit : Option Nat := none
deriving DecidableEq, Repr

/-- A stream's binding and policies (R290). -/
structure Binding where
  models : List (Option Nat)
  dusks : List (Option Nat)
  speedMax : Nat
  duskMarginUs : Nat
  duskHoldMs : Nat
  skipLate : Bool
  onIncomplete : Bool
  onDegraded : Bool
deriving DecidableEq, Repr

/-- What the scheduler holds for a stream (R289, R301, R304). -/
structure Strm where
  started : Bool := false
  replay : Option Nat := none
  bucket : Nat := 0
  bucketTick : BitVec 64 := 0
  overrunTick : BitVec 64 := 0
  stopping : Bool := false
deriving DecidableEq, Repr

/-- Where a job stands. -/
inductive JobSt where
  | queued
  | running
  | yielded
deriving DecidableEq, Repr

/-- A job (R291 to R295). `rep` is the replay slot and the epoch of its window (R134). -/
structure Job where
  part : Nat
  num : Nat
  stream : Nat
  win : List Word
  model : Nat
  dusk : Bool := false
  bg : Bool := false
  overRate : Bool := false
  attempt : Nat := 0
  gen : Word := 0
  issued : BitVec 64 := 0
  deadline : BitVec 64 := 0
  slot : Option Nat := none
  place : List Nat := []
  live : List Nat := []
  st : JobSt := .queued
  front : Bool := false
  marker : Option Nat := none
  tMark : BitVec 64 := 0
  posted : Bool := false
  handed : Bool := false
  preDusk : Bool := false
  pred : Bool := false
  rep : Option (Nat × Nat) := none
  entry : Option Nat := none
deriving DecidableEq, Repr

/-- A model-set switch in progress (R306): the function whose command it completes, the active set before it, and for a stream's old
model the one that replaces it in its binding. -/
structure Switch where
  fn : Nat
  old : List Nat
  repl : List (Nat × Nat × Option Nat)
deriving DecidableEq, Repr

/-- What the scheduler and the steward hold for a partition. -/
structure Part where
  jobNo : Nat := 0
  hold : Bool := false
  area : Option Nat := none
  switching : Option Switch := none
  replan : List Nat := []
  freed : List Nat := []
  energySamples : Nat := 0
deriving DecidableEq, Repr

/-! ### The core (10_dispatch_programs.md) -/

/-- An active hardware loop (R213): the body's first and last word and the passes left. -/
structure LoopSt where
  first : BitVec 48
  last : BitVec 48
  left : Nat
deriving DecidableEq, Repr

/-- What a sequencer waits for (R215, R198). -/
inductive WaitSt where
  | tok (k : Nat) (target : BitVec 16) (tmo : Nat) (off : BitVec 16) (since : BitVec 64)
  | prog (core : Nat) (k : Nat) (tag : Byte) (n : Word) (tmo : Nat) (off : BitVec 16) (since : BitVec 64)
deriving DecidableEq, Repr

/-- A fence of SIGNAL (R216): the items it still waits for. -/
structure Fence where
  k : Nat
  items : List Nat
deriving DecidableEq, Repr

/-- A progress advance waiting for the DMA writes issued before it (R197). -/
structure PadvSt where
  k : Nat
  tag : Byte
  rows : Word
  items : List Nat
deriving DecidableEq, Repr

/-- A decision in a post port (R235); `rep` is the replay slot and the epoch of its window (R134). -/
structure PostSt where
  item : Nat
  mask : Word
  hi : Word
  part : Nat
  job : Nat
  gen : Word
  stream : Nat
  obj : Word
  model : Nat
  rep : Option (Nat × Nat) := none
deriving DecidableEq, Repr

/-- A DMA transfer in a queue (R218 to R221): its descriptor's bytes, its token, the rows moved and, for the ring, what R221 froze at issue:
the slots, R0, KB8, and which configuration it was, by number. -/
structure DmaItem where
  item : Nat
  desc : List Byte
  tok : Nat
  lbBase : Nat := 0
  lbRows : Nat := 0
  rowBytes : Nat := 0
  r0 : Nat := 0
  kb8 : Bool := false
  ep : Nat := 0
  done : Nat := 0
deriving DecidableEq, Repr

/-! ### The engine (07_engine_array.md) -/

/-- A weight load waiting to complete (R145, R146). -/
structure LoadItem where
  item : Nat
  mode : Nat
  wbuf : Nat
  addr : Nat
  tok : Nat
deriving DecidableEq, Repr

/-- A weight buffer: the bytes in the cells and the bytes the checksum column was formed from (R145), and the checksum-column bits
an injection flipped. -/
structure WBuf where
  valid : Bool := false
  mode : Nat := 0
  bytes : List Byte := []
  loaded : List Byte := []
  ckFlip : List (Nat × Nat) := []
deriving DecidableEq, Repr

/-- An armed fault taken by a tile operation (R167). -/
structure Inject where
  target : Nat
  row : Nat
  col : Nat
  bit : Nat
deriving DecidableEq, Repr

/-- A tile operation without its verdict (R147); of the convolution path, the configuration it was issued under and its number (R186). -/
structure TileOp where
  item : Nat
  mode : Nat
  wbuf : Nat
  conv : Bool
  accOp : Bool
  v : Nat
  accBase : Nat
  aAddr : Nat
  aStride : Nat
  eAddr : Nat
  pix0 : Nat
  r : Nat
  desc : List Byte
  ep : Nat
  inj : Option Inject
  retried : Bool
  retryTick : BitVec 64
  tok : Nat
deriving DecidableEq, Repr

/-- An engine: buffers, loads, operations, the accumulator bank (key 64 * physical row + lane), each accumulator's residue modulo 3 (R157), the
mode tags, and the nanoseconds spent on retries within the attempt (R161). -/
structure Engine where
  bufs : Fam WBuf := []
  loads : List LoadItem := []
  ops : List TileOp := []
  acc : Fam (BitVec 48) := []
  res : Fam Nat := []
  tags : Fam Nat := []
  retryNs : Nat := 0
deriving DecidableEq, Repr

/-! ### The convolution path (09_convolution_path.md) -/

/-- A configuration waiting to come into force (R186). -/
structure CfgItem where
  item : Nat
  desc : List Byte
  tok : Nat
deriving DecidableEq, Repr

/-- The convolution path: the descriptor in force and its number, those waiting, the CSTARTs waiting (PIX0 and R), R0 of R221, the part of a
beat of CV_CNT_STALL not yet counted, in 1/102,400 beat. -/
structure Conv where
  cfg : Option (List Byte) := none
  ep : Nat := 0
  pend : List CfgItem := []
  starts : List (Nat × Nat) := []
  r0 : Nat := 0
  stall : Nat := 0
deriving DecidableEq, Repr

/-! ### The vector unit (R225 to R231) -/

/-- A vector operation in the queue, its registers and descriptor as read at issue. -/
inductive VecOp where
  | param (ps addr : Nat)
  | quant (tgt act ps mode row n : Nat) (desc : List Byte) (tbl : Nat)
  | rawst (mode row n addr : Nat)
  | rawadd (mode row n addr : Nat)
  | pool (sum init : Bool) (row v pix0 r : Nat) (desc : List Byte) (ep : Nat)
  | cvt (inF outF n dst src : Nat) (sc off : Int)
  | ew (fn : Nat) (wide : Bool) (n dst a b : Nat)
deriving DecidableEq, Repr

/-- A queued vector operation with its item number and token. -/
structure VecItem where
  item : Nat
  op : VecOp
  tok : Nat
deriving DecidableEq, Repr

/-! ### A core -/

/-- A core's sequencer and unit queues; its registers (SEQ_STAT, SEQ_TOKk, PROGk, …) are in `regs`. -/
structure Core where
  part : Nat := 0
  job : Option Nat := none
  list : List Nat := []
  pc : BitVec 48 := 0
  s : Fam Word := []
  a : Fam (BitVec 48) := []
  loops : List LoopSt := []
  fAccess : Bool := false
  fSat : Bool := false
  fSpecial : Bool := false
  wait : Option WaitSt := none
  posts : List PostSt := []
  ending : Bool := false
  yielding : Option (BitVec 48) := none
  yieldReq : Bool := false
  fences : List Fence := []
  padvs : List PadvSt := []
  dma : Fam (List DmaItem) := []
  eng : Engine := {}
  conv : Conv := {}
  vecs : List VecItem := []
  params : Fam (List Byte) := []
  nextItem : Nat := 1
  sinceNs : Nat := 0
  flushing : Bool := false
  slotAddr : Nat := 0
deriving DecidableEq, Repr

/-! ### Motion and ejection (14_motion_and_ejection.md) -/

/-- What a position source holds beside its registers: the quadrature count Q (R318), the direction of the last count while undecided
(R319), the motion within the speed window (R323), an SSI source's last word and the offset its presets left (R322, R325). -/
structure MSrc where
  q : Word := 0
  pend : Option Bool := none
  moved : Int := 0
  last : Option Word := none
deriving DecidableEq, Repr

/-- An emulated output (R328, R329): the accumulator, the edges that wait (count, forward, source position), the output count and its
high-water mark, the triggers logged, the pins A, B and Z. -/
structure Emu where
  acc : Int := 0
  backlog : List (Nat × Bool × Word) := []
  out : Int := 0
  hwm : Int := 0
  trigs : Nat := 0
  pins : BitVec 3 := 0
deriving DecidableEq, Repr

/-- A counted post of an entry (R335): its job, mask, score and class. -/
structure LPost where
  job : Nat
  mask : Word
  score : Nat
  cls : Nat
deriving DecidableEq, Repr

/-- The states of R334; a freed entry is not listed. -/
inductive EntSt where
  | opened | decided | defaulted | firing | drain
deriving DecidableEq, Repr

/-- A ledger entry (R331 to R346), with the settings of R332 it copied. -/
structure LEntry where
  part : Nat
  stream : Nat
  src : Nat
  obj : Word
  lead : Word
  trail : Word
  jobs : List Nat
  ended : List Nat := []
  posts : List LPost := []
  st : EntSt := .opened
  ctl : Word
  leadT : Nat
  grace : Nat
  lenC : Nat
  lenT : Nat
  pmax : Nat
  target : Word
  commit : Word
  kRec : Word
  p0 : Word
  kSeen : Bool := false
  passed : Bool := false
  mask : Word := 0
  score : Nat := 0
  cls : Nat := 0
  missed : Word := 0
  flags : BitVec 16 := 0
  firePos : Word := 0
  decidePos : Word := 0
  fireTime : BitVec 64 := 0
  gen : Word := 0
deriving DecidableEq, Repr

/-- Where a pulse ends (R340): at a position of a source, and at a tick. -/
structure PulseEnd where
  src : Nat
  pos : Option Word
  due : BitVec 64
deriving DecidableEq, Repr

/-- Who asked for a pull-in: a ledger entry, SVC_DO_TEST with its pulse in ms, or the Nightfall state. -/
inductive Asker where
  | entry (e : Nat)
  | test (ms : Nat)
  | night
deriving DecidableEq, Repr

/-- A pull-in request that waits for its group's budget (R341 to R343). -/
structure DoReq where
  d : Nat
  who : List Asker
  src : Nat
  f : Word
  grace : Option Nat
deriving DecidableEq, Repr

/-- A driven output (R340, R342): in pull-in since a tick or in hold, the entries it fires for, the ends its pulse waits for;
`night` holds it for the whole Nightfall state. -/
structure DoSt where
  pull : Option (BitVec 64)
  who : List Nat
  ends : List PulseEnd
  night : Bool := false
deriving DecidableEq, Repr

/-- A comparator of R326. -/
structure Cmpr where
  en : Bool := false
  stop : Bool := false
  x : Nat := 0
  y : Nat := 0
  k : Nat := 0
  win : Nat := 0
  tol : Nat := 0
  x0 : Word := 0
  y0 : Word := 0
  e : Int := 0
  out : Bool := false
deriving DecidableEq, Repr

/-- A position mirror (R327): record address, period in µs, records written. -/
structure Mirror where
  addr : Nat
  period : Nat
  seq : Word := 0
deriving DecidableEq, Repr

/-! ### Field I/O (15_field_io_and_supervisor.md) -/

/-- The field island's state that no register shows: the last samples (R352), the last heartbeat, the group switches turned off and
the conditions that still hold (R355), the Nightfall state of start-up (R358), a firmware update in progress, the MBX_BUSY pin. -/
structure Fio where
  prev : List DiSample := []
  hbTick : BitVec 64 := 0
  swOff : BitVec 8 := 0
  tripped : BitVec 8 := 0
  supplyLow : Bool := false
  startNight : Bool := false
  fwUpdate : Bool := false
  mbxBusy : Bool := false
deriving DecidableEq, Repr

/-! ### Time and network (16_time_and_network.md) -/

/-- An entry of a launch queue (R379 to R381): LAUNCH, the frame of a ledger entry without FCS or the descriptor's index, address and
length, and whether the descriptor is at fault. -/
structure LaunchEnt where
  launch : Nat
  frame : List Byte
  desc : Option (Nat × Nat × Nat)
  bad : Bool := false
deriving DecidableEq, Repr

/-- A launch queue: its entries and the descriptors it has read. -/
structure LaunchQ where
  ents : List LaunchEnt := []
  read : Word := 0
deriving DecidableEq, Repr

/-- A frame that a port has to send beside its launches (R382): an ARP reply, or a PTP message by its kind. -/
inductive EthTx where
  | frame (f : List Byte)
  | ptp (kind : Nat)
deriving DecidableEq, Repr

/-- PTP's servo (R373, R377): the port in the slave state, the Sync messages in a row below 100 ns, the last offset and delay; when the last
message of each kind left, by 8 * port + kind. -/
structure Ptp where
  slave : Option Nat := none
  good : Nat := 0
  offset : Int := 0
  delay : Nat := 0
  sent : Fam Nat := []
deriving DecidableEq, Repr

/-! ### Camera ports (04_chanak_lanes.md) -/

/-- A control request of a port (R86): the function whose SVC_CAM_CTRL waits for it, its opcode, its sequence number and frame once
sent. -/
structure CReq where
  fn : Nat
  op : Nat
  arg : List Byte
  data : List Byte
  seq : BitVec 16 := 0
deriving DecidableEq, Repr

/-- A frame at a camera port or a span link, whole or in progress (R66, R67): its bytes, whether an invalid or a start block ended it, and
the tick, the module time and the position of the stream's source encoder at its first word. -/
structure RxFrame where
  bytes : List Byte
  broken : Bool := false
  since : BitVec 64 := 0
  t0 : BitVec 64 := 0
  pos : Word := 0
deriving DecidableEq, Repr

/-- A line in progress at a port (R83): its number, whether every segment so far was in order, the next SEG, plane and pixel, the
samples of the planes one after another, and the time and position at its first word, the first segment's CAM_STAMP. -/
structure LineAcc where
  line : Word
  good : Bool
  ovr : Bool
  seg : Nat
  plane : Nat
  off : Nat
  pix : List Nat
  t0 : BitVec 64
  pos : Word
  stamp : BitVec 64
deriving DecidableEq, Repr

/-- A camera port's state that no register shows: a valid camera HELLO seen, and whether it declared SOF, the INIT_SEQ of this and the next session, the control
requests, the token bucket in 1/625 byte with the tick it was filled, the failures and events of the running windows, the marker sets
in a row that matched or failed (R71), the frame in progress, the bytes and samples of the segments in the receive buffer (R81). -/
structure CPort where
  seen : Bool := false
  sof : Bool := false
  session : BitVec 16 := 0
  initSeq : BitVec 16 := 0
  outst : List CReq := []
  waiting : List CReq := []
  retries : Nat := 0
  bucket : Int := 0
  bucketTick : BitVec 64 := 0
  fails : Nat := 0
  events : Nat := 0
  line : Option LineAcc := none
  okSets : Nat := 0
  badSets : Nat := 0
  rx : Option RxFrame := none
  segs : List (Nat × Nat) := []
deriving DecidableEq, Repr

/-- How a front end takes the segments of its four receive buffers (R95): the port whose turn it is, the ports' deficits in samples, the
processing done toward the segment at its head in 1/5 sample, the tick up to which this stands. -/
structure FeDrain where
  turn : Nat := 0
  defs : List Nat := [0, 0, 0, 0]
  credit : Nat := 0
  since : BitVec 64 := 0
deriving DecidableEq, Repr

/-! ### Image front ends (05_image_front_ends.md) -/

/-- The settings in force for a frame (R118): the slot-set's registers by offset, and the active table (R119). -/
structure FeCfg where
  regs : Fam Word := []
  tbl : Option (List Byte) := none
deriving DecidableEq, Repr

/-- A filled slot (R108): its number from j0 on, trigger index, count and time; good 0, bad 1 or missing 2; the planes after stage 2
(R97, R109), and after stage 4 with the pixels saturated there. -/
structure FeSlot where
  k : Nat
  slot : Word
  count : Word
  time : BitVec 64
  kind : Nat
  ovr : Bool
  resync : Bool
  cfg : FeCfg
  raw : List (List Nat)
  v : List (List Nat) := []
  sat : List (List Bool) := []
deriving DecidableEq, Repr

/-- A line after stage 6: its channels, and whether it is bad (R101, R109). -/
structure FeLine where
  k : Nat
  slot : Word
  count : Word
  bad : Bool
  ovr : Bool
  resync : Bool
  cfg : FeCfg
  ch : List (List Nat)
deriving DecidableEq, Repr

/-- Statistics of one channel (R111). -/
structure ChStat where
  sum : Nat := 0
  sq : Nat := 0
  lo : Nat := 65535
  hi : Nat := 0
  sat : Nat := 0
  any : Bool := false
deriving DecidableEq, Repr

/-- A frame's statistics record in the making (R111): `passed` counts the slots that passed the point of measurement. -/
structure FrameRec where
  run : Nat
  fi : Nat
  no : Word
  cfg : FeCfg
  slotFirst : Word
  countFirst : Word
  countLast : Word
  good : Nat := 0
  bad : Nat := 0
  missing : Nat := 0
  dropped : Nat := 0
  passed : Nat := 0
  resync : Bool := false
  stopped : Bool := false
  overflow : Bool := false
  done : Bool := false
  chans : List ChStat := [{}, {}, {}]
deriving DecidableEq, Repr

/-- An open object of the presence gate (R112): output columns, input columns, the first slot of its first line and the last of
its last line with a run, their trigger indices, its edges (R114), empty lines in a row, what it touched. -/
structure GateObj where
  x1 : Nat
  x2 : Nat
  lat1 : Nat
  lat2 : Nat
  k0 : Nat
  k1 : Nat
  sFirst : Word
  sLast : Word
  lead : Word
  trail : Word
  empty : Nat := 0
  merged : Bool := false
  degraded : Bool := false
  resync : Bool := false
deriving DecidableEq, Repr

/-- A closed object's window (R115) until its jobs are done: object number, slots it spans and touches, first lines by output, its words
but for INCOMPLETE. `run` is the stream start it belongs to, `frame` the frame the gate closed it in, `rep` the slot and epoch of a replay. -/
structure FeWin where
  run : Nat
  obj : Word
  k0 : Nat
  kEnd : Nat
  frame : Nat
  outLines : List (Option Nat)
  words : List Word
  rep : Option (Nat × Nat) := none
deriving DecidableEq, Repr

/-- An enabled output (R104, R105, R116): its first line, the next to write, the lines in flight. -/
structure FeOut where
  first : Nat := 0
  wr : Nat := 0
  fly : Nat := 0
deriving DecidableEq, Repr

/-- A slot-set (R94 to R120). `frames` counts the frames started in this run, `fbase` is the number of its first frame, `nextFrame` the
number after the last used. `next` is the next slot to fill, `done4` and `done6` the slots past stages 4 and 6; `eccLine`
marks the next line bad for an uncorrectable table word (R119). `rep` is the slot and the epoch of a replay; `calLoad` marks a load of a
calibration run (R138), `camStamp` the CAM_STAMP of the last line received (R77). -/
structure FeSt where
  run : Nat := 0
  j0 : Option Word := none
  before : Word := 0
  src : Nat := 0
  next : Nat := 0
  lastPair : Option Nat := none
  d : Option Word := none
  fbase : Word := 0
  nextFrame : Word := 0
  frames : Nat := 0
  cfg : FeCfg := {}
  good : Option (List (List Nat)) := none
  tnr : Option (List (List Nat)) := none
  slots : List FeSlot := []
  done4 : Nat := 0
  done6 : Nat := 0
  lines : List FeLine := []
  outs : Fam FeOut := []
  recs : List FrameRec := []
  dropping : Option Nat := none
  dropped : List Nat := []
  dropSlots : List Nat := []
  objs : List GateObj := []
  wins : List FeWin := []
  undone : List FeWin := []
  active : Option (List Byte) := none
  pending : Option (List Byte) := none
  loading : Option (List Byte) := none
  swap : Bool := false
  replaying : Bool := false
  rep : Option (Nat × Nat) := none
  calLoad : Bool := false
  eccLine : Bool := false
  camStamp : BitVec 64 := 0
deriving DecidableEq, Repr

/-! ### The strip codec (06_strip_codec_and_replay.md) -/

/-- A recorded line (R128): its header's fields, and whether coded samples follow. -/
structure RecLine where
  no : Nat
  slot : Word
  count : Word
  time : BitVec 64
  flags : Nat
  has : Bool
deriving DecidableEq, Repr

/-- A codec slot beside its registers (R123): the recording's geometry and lines, the lines written, the first slot of the
recording and the slot it ends before, the coded blocks of the last line, the replay's settings and place, the slot and count that stand
before the first line, those of the line before, the calibration run's arguments, its start and the samples of one of its passes, the
lines in the cache. -/
structure Cds where
  bits : Nat := 8
  planes : Nat := 1
  width : Nat := 0
  held : List RecLine := []
  total : Nat := 0
  startK : Nat := 0
  stopK : Option Nat := none
  lastBlocks : List Byte := []
  period : Nat := 0
  epochs : Nat := 0
  pos : Nat := 0
  lastTick : Option (BitVec 64) := none
  slot0 : Word := 0
  count0 : Word := 0
  prevSlot : Word := 0
  prevCount : Word := 0
  calArgs : List Nat := []
  calSince : BitVec 64 := 0
  calNeed : Nat := 0
  cached : List Nat := []
deriving DecidableEq, Repr

/-- A pluggable in a cage (R464): its declared class in 0.1 W and whether it is enabled. -/
structure CageSt where
  classDw : Nat
  enabled : Bool
deriving DecidableEq, Repr

/-! ### Span links (R90 to R93, R440 to R444) -/

/-- A DATA frame of a span link: virtual channel, its sender's position, destination, the partition it serves, its payload, the credits it
carries. -/
structure SpFrame where
  vc : Nat
  src : Nat
  dst : Nat
  part : Nat
  payload : List Byte
  credit : List Nat := [0, 0, 0]
  seq : BitVec 16 := 0
deriving DecidableEq, Repr

/-- A span link (R92, R93): whether the peer's HELLO was seen, sequence numbers, frames not acknowledged and waiting, credits held and
buffers freed by virtual channel, expiries in a row, an acknowledgement due, the INIT_SEQ of the next session, the frame in progress. -/
structure SpLink where
  seen : Bool := false
  nextTx : BitVec 16 := 0
  nextRx : BitVec 16 := 0
  unacked : List SpFrame := []
  waiting : List SpFrame := []
  credits : List Nat := [0, 0, 0]
  freed : List Nat := [0, 0, 0]
  expiries : Nat := 0
  ackDue : Bool := false
  initSeq : BitVec 16 := 0
  rx : Option RxFrame := none
deriving DecidableEq, Repr

/-- A global operation in progress (R443): its request, whether this module made one, the modules whose requests are counted, the bytes
of a broadcast received, the tick of the module's own request. -/
structure GopCur where
  seq : Word
  op : Nat
  root : Nat
  addr : Nat
  len : Nat
  ts : BitVec 64
  own : Bool
  arrived : BitVec 16
  got : List Nat := []
  sent : Bool := false
  since : BitVec 64
deriving DecidableEq, Repr

/-- A partition's span state (R441 to R443): the last completed SEQ, whether only RESET is accepted, the operation in progress; the
transfer ring's HEAD and TAIL, its errors and first failed index, the transfer in progress; by source, a transfer received with a refused
line. -/
structure Gop where
  last : Word := 0
  needReset : Bool := false
  cur : Option GopCur := none
  head : Word := 0
  tail : Word := 0
  errors : Word := 0
  firstBad : Option Word := none
  busy : Bool := false
  refused : List Nat := []
deriving DecidableEq, Repr

/-! ### Clocks and power (18_clocks_power_ageing.md) -/

/-- What watches REFCLK and trims the oscillator (R410 to R414): windows in a row out of range, without the OOR condition and fit for the
return, a glitch since the last window, the junction temperature and tick of the last trim, the mark count last seen and marks in a row. -/
structure Clk where
  outRun : Nat := 0
  okRun : Nat := 0
  backRun : Nat := 0
  glitch : Bool := false
  trimTj : Nat := 0
  trimTick : BitVec 64 := 0
  mark : Option (BitVec 24) := none
  marks : Nat := 0
deriving DecidableEq, Repr

/-- The governor (R420, R421): the Noon budget in half microjoules, the domains whose Midnight wipe is not finished; for R313 the engine time
charged on each core and where it stood at the end of the last interval. -/
structure Pwr where
  budget : Nat := 0
  wiping : List Nat := []
  coreNs : Fam Nat := []
  coreLast : Fam Nat := []
deriving DecidableEq, Repr

/-! ### Arbitration (12_arbitration.md) -/

/-- A burst on its way (R269, R271): its class, the points of its path in their order, the point it is at, its revocation count, whether a
point sealed it, what its tag was charged at the point it holds. -/
structure BurstSt where
  b : Burst
  deadline : Bool
  path : List Nat
  leg : Nat := 0
  count : Nat := 0
  isSealed : Bool := false
  charge : Nat := 0
deriving DecidableEq, Repr

/-- A port: the bursts waiting in arrival order, the one that holds it, the deficits, the place in the round of the tag whose turn it is
(0 before the first), the tags granted out of turn in this rotation. -/
structure Port where
  waiting : List BurstSt := []
  holder : Option BurstSt := none
  deficit : Fam Int := []
  turn : Nat := 0
  oot : List Nat := []
deriving DecidableEq, Repr

/-- A DMA-class line that waits at a bank: its tag and class, and the burst it is of, if that burst came through the cluster port. -/
structure BankLine where
  tag : Nat
  deadline : Bool := false
  b : Option Burst := none
deriving DecidableEq, Repr

/-- A cluster memory bank (R251, R278): the requests of the cluster's cores and the lines of the DMA class that wait, in arrival order,
the slots the DMA class has waited, the slot count, the core and the tag served last, each plus 1. -/
structure Bank where
  cores : List Nat := []
  lines : List BankLine := []
  waited : Nat := 0
  slot : Nat := 0
  coreTurn : Nat := 0
  tagTurn : Nat := 0
deriving DecidableEq, Repr

/-! ### The whole machine -/

/-- The state of the block. -/
structure State where
  /-- The commands waiting, first in, first out. -/
  pending : List Instr
  /-- Registers by key, as a read returns them. -/
  regs : Fam Word
  /-- RWS values in force (R7). -/
  force : Fam Word
  /-- 64-bit counters by the key of their _LO register. -/
  cnt : Fam (BitVec 64)
  /-- Device memory (R15). -/
  mem : List Host.Cell
  /-- Host memory, the host's own. -/
  host : List Host.Cell
  /-- Device words with an uncorrectable error (R261). -/
  poison : List Nat
  time : TimeUnit
  flash : Flash
  fuses : Fuses
  boot : Boot
  /-- The sections of the image in force. -/
  img : List Sec
  /-- Rings by function: 0 the PF, n + 1 the VF of Pn. -/
  rings : Fam Ring
  svc : Svc
  faults : List FaultRec
  /-- Tags whose ACCESS_REFUSED is raised and not acknowledged (R456). -/
  accRaised : List Nat
  out : List Out
  /-- The word the last register or port read returned. -/
  readData : List Word
  /-- The model's own counter of free values drawn. -/
  fresh : Nat
  parts : Fam Part
  models : Fam Model
  binds : Fam Binding
  strms : Fam Strm
  jobs : List Job
  cores : Fam Core
  ports : Fam Port
  banks : Fam Bank
  /-- The ticks of the newest corrections per memory, newest first, at most 1,001 (R259). -/
  eccHour : Fam (List (BitVec 64))
  /-- Position sources: 0 to 3 ENC0 to ENC3, 4 and 5 SSI0 and SSI1. -/
  srcs : Fam MSrc
  emus : Fam Emu
  /-- Ledger entries that are not free, by entry number. -/
  ents : Fam LEntry
  /-- Driven valve outputs. -/
  dos : Fam DoSt
  /-- Requests that wait, in the order of their firing points. -/
  reqs : List DoReq
  cmprs : Fam Cmpr
  mirrors : Fam Mirror
  fio : Fio
  lqs : Fam LaunchQ
  /-- The tick from which each port's wire is free. -/
  wire : Fam (BitVec 64)
  /-- Frames that wait for a port's wire beside its launches, oldest first (R382). -/
  ethWait : Fam (List EthTx)
  ptp : Ptp
  /-- Camera ports by stream. -/
  cports : Fam CPort
  /-- The receive buffers' service by front end. -/
  drains : Fam FeDrain
  /-- Marker sets in a row that matched or failed on the span bonds (R71). -/
  sbonds : Fam (Nat × Nat)
  fes : Fam FeSt
  /-- Codec slots. -/
  cds : Fam Cds
  /-- The slot the decoder served last (R130). -/
  decTurn : Nat
  /-- Samples processed with their ticks, for the loads of the front ends (0 to 15), the encoder (16) and the decoder (17). -/
  loads : Fam (List (BitVec 64 × Nat))
  cages : Fam CageSt
  spans : Fam SpLink
  /-- Span state by partition. -/
  gops : Fam Gop
  clk : Clk
  pwr : Pwr
deriving DecidableEq, Repr

/-- The state after power-on reset (R446): the supplies are up, the maker's firmware is in slot A of the flash (R450), nothing runs.
Every register reads its reset value, no memory byte is listed, no command waits. -/
def State.reset : State :=
  { pending := [], regs := [], force := [], cnt := [], mem := [], host := [], poison := [], time := {},
    flash := { fwA := some Config.fwShipped }, fuses := {}, boot := { powered := true }, img := [], rings := [], svc := {},
    faults := [], accRaised := [], out := [], readData := [], fresh := 0, parts := [], models := [], binds := [], strms := [],
    jobs := [], cores := [], ports := [], banks := [], eccHour := [], srcs := [], emus := [], ents := [], dos := [], reqs := [],
    cmprs := [], mirrors := [], fio := {}, lqs := [], wire := [], ethWait := [], ptp := {}, cports := [], drains := [], sbonds := [], fes := [], cds := [], decTurn := 15,
    loads := [], cages := [], spans := [], gops := [], clk := {}, pwr := {} }

end Sys2Proof.Machine
end

