-- ==== Sys2Proof/Machine/Ops.lean ====
section
/-! DEFINITION. The named operations that every unit uses: registers, counters, free values, module time, images' fields, interrupts,
fault raising (R454), access checks (R245) and device memory. -/

namespace Sys2Proof.Machine

open Sys2Proof

/-! ### Registers -/

/-- Reset values that are not 0 and do not depend on an image (the register tables). -/
def resetVal (k : Nat) : Word :=
  if k = 0x000 then 0x4B596416 else if k = kSYS_STEP then Config.sysStep.setWidth 32
  else if k = 0x008 then 0x20484040 else if k = 0x00C then 0x00204082
  else if k = kCLK_OSC_TRIM then Config.oscTrim.setWidth 32
  else if k = kTIME_ERR then 0xFFFFFFFF
  else if k = arbBase + 0x080 ∨ k = arbBase + 0x084 then 0x08000000
  -- ring registers (R407)
  else if (k / 0x10000 = 1 ∨ (0x1010000 ≤ k ∧ k < 0x1110000)) ∧ k % 0x10000 < 0x64 then
    (let o := k % 0x10000
     if o = oCMD_SIZE ∨ o = oCPL_SIZE then 0x10 else if o = oRING_CTL then 0x100 else if o = oINT_LDP then 1 else 0)
  -- ledger settings of a stream (R348)
  else if ledBase + 0x800 ≤ k ∧ k < ledBase + 0x1800 then
    (let o := (k - ledBase) % 0x40
     if o = 0x00 then 1 else if o = 0x0C then 0x10 else if o = 0x10 then 0x40 else if o = 0x14 then 0x2710
     else if o = 0x18 then 0x64 else 0)
  -- slot-sets of the front ends (R120)
  else if 0x080000 ≤ k ∧ k < 0x0A0000 ∧ 0x400 ≤ k % 0x2000 ∧ k % 0x2000 < 0x1400 then
    (let o := k % 0x400
     if o = 0x01C then 0x100 else if o = 0x024 ∨ o = 0x02C ∨ o = 0x034 then 0x1000
     else if o = 0x040 ∨ o = 0x044 ∨ o = 0x048 then 0x00010000 else if o = 0x050 then 0x10000400 else if o = 0x058 then 0x100
     else if o = 0x05C then 0x7FFF0000 else if o = 0x068 then 0x10
     else if 0x100 ≤ o ∧ o < 0x200 then (if o % 0x40 = 0 then 0x1000 else if o % 0x40 = 0x10 then 0x10 else 0) else 0)
  -- cores (R242, R167, R429)
  else if 0x100000 ≤ k ∧ k < 0x140000 then
    (let o := k % 0x2000
     if o = 0x000 ∨ o = 0x800 then 1 else if o = 0xB04 then 0xFFFF else if o = 0xB0C then (Config.birth ((k - 0x100000) / 0x2000)).extractLsb' 48 16 |>.setWidth 32 else 0)
  -- launch queues (R386)
  else if 0x0F0000 ≤ k ∧ k < 0x0F8000 then
    (let p := (k - 0x0F0000) / 0x4000
     let o := (k - 0x0F0000) % 0x4000
     if o = 0x008 then (Config.mac p).setWidth 32 else if o = 0x00C then (Config.mac p >>> 32).setWidth 32
     else if 0x1000 ≤ o ∧ o < 0x1800 then
       (if o % 0x100 = 0 then 0x000A0000 else if o % 0x100 = 0x14 then 0x88B5 else if o % 0x100 = 0x20 then 0x10 else 0)
     else 0)
  -- stream accounting (R315)
  else if 0x184000 ≤ k ∧ k < 0x185000 ∧ k % 0x40 = 8 then 0x7FFFFFFF
  -- lanes: CL_STAT.LOS (R88, R93), and the link registers in the block of a link's first lane (R93)
  else if 0x0C0000 ≤ k ∧ k < 0x0D0000 then (if k % 0x400 = 0x004 then 1 else 0)
  else if 0x0E0000 ≤ k ∧ k < 0x0E4000 then
    (let o := k % 0x1000
     if k % 0x400 = 0x004 then 1 else if o = 0x104 then 0xA else if o = 0x108 then 0x10 else 0)
  -- supervisor registers
  else if k = supBase then 0x4B596416 else if k = supBase + 4 then 0x40 else if k = supBase + 8 then 4
  else 0

/-- The value a register reads as. -/
def rd (k : Nat) (s : State) : Word := Fam.get (resetVal k) k s.regs
/-- A register set. -/
def wr (k : Nat) (v : Word) (s : State) : State := { s with regs := s.regs.set k v }
/-- A field of a register. -/
def rdF (k hi lo : Nat) (s : State) : Nat := fld hi lo (rd k s)
/-- A bit of a register. -/
def rdB (k i : Nat) (s : State) : Bool := bitOf i (rd k s)
/-- A field of a register set. -/
def wrF (k hi lo v : Nat) (s : State) : State := wr k (setFld hi lo v (rd k s)) s
/-- A bit of a register set or cleared. -/
def wrB (k i : Nat) (b : Bool) (s : State) : State := wr k (setBit i b (rd k s)) s
/-- A 32-bit counter advanced, modulo 2^32 (R89, R267). -/
def inc (k : Nat) (n : Nat) (s : State) : State := wr k (rd k s + wd n) s
/-- The RWS value in force (R7). -/
def rdForce (k : Nat) (s : State) : Word := Fam.get (resetVal k) k s.force
/-- A shadow taking effect. -/
def takeShadow (k : Nat) (s : State) : State := { s with force := s.force.set k (rd k s) }
/-- A 64-bit counter. -/
def cntGet (k : Nat) (s : State) : BitVec 64 := Fam.get 0 k s.cnt
/-- A 64-bit counter advanced, modulo 2^64. -/
def cntAdd (k n : Nat) (s : State) : State := { s with cnt := s.cnt.set k (cntGet k s + BitVec.ofNat 64 n) }
/-- A range of registers back at reset. -/
def regsReset (lo hi : Nat) (s : State) : State :=
  { s with regs := s.regs.delWhere (fun k => decide (lo ≤ k) && decide (k < hi)),
           force := s.force.delWhere (fun k => decide (lo ≤ k) && decide (k < hi)),
           cnt := s.cnt.delWhere (fun k => decide (lo ≤ k) && decide (k < hi)) }

/-! ### Free values (notes/assumptions/5.md) -/

/-- The counter of free values advanced. -/
def draw (n : Nat) (s : State) : State := { s with fresh := s.fresh + n }
/-- `n` free bytes drawn at the state's counter. -/
def freeBytes (n : Nat) (s : State) : List Byte := (List.range n).map fun i => Config.freeByte (s.fresh + i)

/-! ### Module time (R368, R370) -/

/-- T at a tick count, in 2^−16 ns modulo 2^80 (R368). -/
def timeAt (t : TimeUnit) (c : BitVec 64) : BitVec 80 :=
  let d := (c - t.cBase).toNat
  let f : Int := 2 ^ 40 + t.rate.toInt
  t.tBase + BitVec.ofNat 80 (d * 8 * 65536 * f.toNat / (5 * 2 ^ 40))

/-- T now, with its fraction. -/
def nowFrac (s : State) : BitVec 80 := timeAt s.time s.time.c
/-- T now in ns (R368). -/
def nowNs (s : State) : BitVec 64 := (nowFrac s >>> 16).setWidth 64
/-- The tick counter. -/
def tick (s : State) : BitVec 64 := s.time.c
/-- Ticks since an earlier tick (R370). -/
def ticksSince (t : BitVec 64) (s : State) : Nat := (s.time.c - t).toNat
/-- Ticks in a number of nanoseconds, rounded down: a tick is 1.6 ns (R367). -/
def nsTicks (ns : Nat) : Nat := ns * 5 / 8
/-- Ticks after which a number of nanoseconds has passed, rounded up: no timer ends early (R370). -/
def nsTicksUp (ns : Nat) : Nat := (ns * 5 + 7) / 8

/-! ### The image in force (R48 to R57) -/

/-- The body of a section, or none. -/
def secOf (img : List Sec) (ty inst : Nat) : Option (List Byte) := (img.find? fun x => x.ty = ty ∧ x.inst = inst).map (·.body)
/-- A little-endian field of a section, 0 where the section is absent. -/
def imgLE (img : List Sec) (ty inst off k : Nat) : Nat := match secOf img ty inst with | some b => leAt b off k | none => 0
/-- A field of the image in force. -/
def cfg (ty inst off k : Nat) (s : State) : Nat := imgLE s.img ty inst off k
/-- A partition is in use (R25, R51). -/
def partUsed (p : Nat) (s : State) : Bool := (secOf s.img 0x10 p).isSome
/-- A stream has a STREAM section. -/
def streamUsed (st : Nat) (s : State) : Bool := (secOf s.img 0x20 st).isSome
/-- The partition that owns a stream (R53). -/
def streamPart (st : Nat) (s : State) : Option Nat := if streamUsed st s then some (cfg 0x20 st 0 1 s) else none
/-- The partition that owns a core (R51). -/
def coreOwner (n : Nat) (s : State) : Option Nat := (upTo 16).find? fun p => (cfg 0x10 p 0 4 s).testBit n
/-- The partition that owns a front end. -/
def feOwner (f : Nat) (s : State) : Option Nat := (upTo 16).find? fun p => (cfg 0x10 p 4 2 s).testBit f
/-- The partition that owns a valve group. -/
def groupOwner (g : Nat) (s : State) : Option Nat := (upTo 16).find? fun p => (cfg 0x10 p 6 1 s).testBit g
/-- The owner of a launch queue (R51). -/
def lqOwner (p q : Nat) (s : State) : Option Nat := (upTo 16).find? fun n => (cfg 0x10 n (16 + p) 1 s).testBit q
/-- The tag of a function's transfers (R27). -/
def fnTag (fn : Nat) : Nat := if fn = 0 then 17 else fn - 1
/-- The cores a partition owns. -/
def partCores (p : Nat) (s : State) : List Nat := bitsSet 32 (cfg 0x10 p 0 4 s)
/-- A core is quarantined (R162). -/
def quarantined (n : Nat) (s : State) : Bool := s.flash.quar.getLsbD n
/-- A partition's live cores (R35): a core released from quarantine is one from the partition's next re-plan on (R162). -/
def liveCores (p : Nat) (s : State) : List Nat :=
  (partCores p s).filter fun n => !quarantined n s && !(Fam.get {} p s.parts).freed.contains n
/-- The VF of a partition, or the PF for a tag that is none. -/
def fnOf (p : Nat) : Nat := if p < 16 then p + 1 else 0
/-- SYS_CTL.DET. -/
def det (s : State) : Bool := rdB kSYS_CTL 0 s
/-- PART_STATUS.STATE (R35). -/
def partState (p : Nat) (s : State) : Nat := rdF (kPART_STATUS p) 2 0 s
/-- A partition that is neither halted nor unused has a stream started or replaying. -/
def partRuns (p : Nat) (s : State) : Bool :=
  (decide (partState p s = 2) || decide (partState p s = 3)) &&
    (upTo 64).any fun st => decide (streamPart st s = some p) && ((Fam.get {} st s.strms).started || (Fam.get {} st s.strms).replay.isSome)
/-- The start-up stage (R459). -/
def stage (s : State) : Nat := rdF kSYS_BOOT 2 0 s
/-- The module has reached READY. -/
def isReady (s : State) : Bool := stage s = 4

/-! ### Rings and interrupts (R394 to R399) -/

/-- A function's ring. -/
def ring (fn : Nat) (s : State) : Ring := Fam.get {} fn s.rings
/-- A function's ring changed. -/
def updRing (fn : Nat) (f : Ring → Ring) (s : State) : State := { s with rings := s.rings.set fn (f (ring fn s)) }
/-- Source `k` of a function fires its vector (R394). -/
def fireInt (fn k : Nat) (s : State) : State :=
  let r := rd (ringBase fn + oINT_SRC + 4 * k) s
  if bitOf 31 r ∧ (ring fn s).busMaster then { s with out := .msix fn (fld 5 0 r) :: s.out } else s
/-- A function's register accesses reach the module (R390): the link is up and, for a VF, VF Enable is set. -/
def hostReach (fn : Nat) (s : State) : Bool := s.boot.linkUp && (decide (fn = 0) || s.boot.vfOn)
/-- A register write of the host, where it reaches the module. -/
def viaHost (fn : Nat) (f : State → State) (s : State) : State := if hostReach fn s then f s else s
/-- A register read of the host: where it does not reach the module, no data comes back (R390). -/
def viaHostRead (fn : Nat) (f : State → State) (s : State) : State := if hostReach fn s then f s else { s with readData := [] }
/-- The entries of a ring. -/
def ringSize (fn o : Nat) (s : State) : Nat := rdF (ringBase fn + o) 12 0 s
/-- SVC_RING_CTL.EN. -/
def ringEn (fn : Nat) (s : State) : Bool := rdB (ringBase fn + oRING_CTL) 0 s
/-- Completions written and not consumed (R395). -/
def cplUsed (fn : Nat) (s : State) : Nat := (rd (ringBase fn + oCPL_TAIL) s - (ring fn s).cplHead).toNat
/-- The completion ring has room (R395). -/
def cplRoom (fn : Nat) (s : State) : Bool := cplUsed fn s < ringSize fn oCPL_SIZE s
/-- The completion ring has room for an event beside the completions of the descriptors taken (R395). -/
def evtRoom (fn : Nat) (s : State) : Bool :=
  decide (cplUsed fn s + (ring fn s).fetched.length + (if (ring fn s).busy.isSome then 1 else 0) < ringSize fn oCPL_SIZE s)
/-- A register pair as a 64-bit address. -/
def rdAddr (k : Nat) (s : State) : Nat := (rd k s).toNat + (rd (k + 4) s).toNat * 2 ^ 32
/-- The ring of a function is served: READY, or RECOVERY on the PF (R448, R451). -/
def ringServed (fn : Nat) (s : State) : Bool :=
  !s.boot.restarting && (stage s = 4 || (stage s = 5 && fn = 0))

/-- The 16 bytes of a completion (R398) with its phase (R396). -/
def cplBytes (fn tag status cmd flags : Nat) (res : List Byte) (s : State) : List Byte :=
  let m := (rd (ringBase fn + oCPL_TAIL) s).toNat
  let phase := (m / ringSize fn oCPL_SIZE s + 1) % 2
  natLE 2 tag ++ natLE 2 status ++ natLE 2 cmd ++ [BitVec.ofNat 8 (phase + flags)] ++ [0] ++ padTo 8 res

/-- A completion written at CPL_TAIL, which advances (R395, R396). -/
def putCpl (fn : Nat) (bs : List Byte) (s : State) : State :=
  let m := (rd (ringBase fn + oCPL_TAIL) s).toNat
  let a := rdAddr (ringBase fn + oCPL_BASE) s / 64 * 64 + m % ringSize fn oCPL_SIZE s * 16
  let s := { s with host := Memory.write s.host a bs }
  let s := inc (ringBase fn + oCPL_TAIL) 1 s
  wrB (ringBase fn + oRING_STAT) 2 (!cplRoom fn s) s

/-- The held-event count of SVC_RING_STAT. -/
def showHeld (fn : Nat) (s : State) : State := wrF (ringBase fn + oRING_STAT) 14 8 (ring fn s).held.length s

/-- Held events delivered while the ring runs and has room (R399), at most `n` of them. -/
def pumpEvents (fn : Nat) : Nat → State → State
  | 0, s => s
  | n + 1, s =>
    match (ring fn s).held with
    | [] => s
    | e :: es =>
      if ringEn fn s && ringServed fn s && (ring fn s).busMaster && evtRoom fn s then
        let res := natLE 2 e.code ++ natLE 1 e.unit ++ natLE 1 e.part ++ natLE 4 e.time
        let s := putCpl fn (cplBytes fn 0xFFFF stEVENT 0 8 res s) s
        let s := updRing fn (fun r => { r with held := es }) s
        pumpEvents fn n (fireInt fn 1 (showHeld fn s))
      else s

/-- An event held for a function, or lost when 64 are held (R399), and delivered as soon as the ring takes it. -/
def raiseTo (fn : Nat) (e : Evt) (s : State) : State :=
  if (ring fn s).held.length < 64 then
    pumpEvents fn 64 (showHeld fn (updRing fn (fun r => { r with held := r.held ++ [e] }) s))
  else inc (ringBase fn + oCNT_EVT_LOST) 1 (wrB (ringBase fn + oRING_EVT) 2 true s)

/-! ### Faults (R454 to R460) -/

/-- The classes of R454. -/
inductive FClass where
  | info | alert | latch
deriving DecidableEq, Repr

/-- The class of a fault code (R457). -/
def faultClass (code : Nat) : FClass :=
  if code ∈ [0x1006, 0x1007, 0x3002, 0x7001, 0x8005, 0xA001, 0xB003, 0xB004, 0xB006] then .info
  else if code ∈ [0x1002, 0x1005, 0x3001, 0x9001, 0xB007] then .latch else .alert

/-- FAULT_STAT and SYS_GSTAT as the active faults give them (R459, R460). -/
def showFaults (s : State) : State :=
  let la := (s.faults.filter fun f => f.latch).length
  let al := (s.faults.filter fun f => !f.latch).length
  let s := wr kFAULT_STAT (wd (satN 255 al + satN 255 la * 256)) s
  wrF kSYS_GSTAT 15 8 (satN 255 s.faults.length) (wrB kSYS_GSTAT 3 (0 < la) s)

/-- A record of the fault log written (R460). -/
def logFault (code unit part : Nat) (arg : Word) (s : State) : State :=
  let n := (rd kFAULT_LOG_WR s).toNat
  let k := kFAULT_LOG (n % 64)
  let t := (nowNs s).toNat
  inc kFAULT_LOG_WR 1 (wr (k + 0xC) arg (wr (k + 8) (wd (t / 2 ^ 32)) (wr (k + 4) (wd t) (wr k (wd (code * 65536 + unit * 256 + part)) s))))

/-- The newest log record of an identity, counting back from the last, at most `k` of them. -/
def findLog (w : Word) (s : State) : Nat → Nat → Option Nat
  | 0, _ => none
  | k + 1, n => if n = 0 then none else
      if rd (kFAULT_LOG ((n - 1) % 64)) s = w then some ((n - 1) % 64) else findLog w s k (n - 1)

/-- A suppressed raise updates the time of the fault's log record (R454). -/
def relogFault (code unit part : Nat) (s : State) : State :=
  match findLog (wd (code * 65536 + unit * 256 + part)) s 64 (rd kFAULT_LOG_WR s).toNat with
  | some i => let t := (nowNs s).toNat; wr (kFAULT_LOG i + 8) (wd (t / 2 ^ 32)) (wr (kFAULT_LOG i + 4) (wd t) s)
  | none => s

/-- A fault raised to functions (R399, R454): delivered and logged, or counted as a repeat. -/
def raiseFault (code unit part : Nat) (arg : Word) (fns : List Nat) (s : State) : State :=
  let same := fun (f : FaultRec) => f.code = code ∧ f.unit = unit ∧ f.part = part
  if faultClass code ≠ .info ∧ s.faults.any (fun f => decide (same f)) then
    relogFault code unit part (inc kFAULT_CNT_REPEAT 1 s)
  else
    let s := if faultClass code = .info then s
      else { s with faults := s.faults ++ [{ code := code, unit := unit, part := part, latch := decide (faultClass code = .latch), fns := fns }] }
    let s := wrB kFAULT_EVT 0 true (logFault code unit part arg s)
    let e : Evt := { code := code, unit := unit, part := part, time := (nowNs s).toNat % 2 ^ 32 }
    showFaults (eachDo (fun fn => raiseTo fn e) fns.eraseDups s)

/-- The VFs of the partitions in use. -/
def usedVfs (s : State) : List Nat := ((upTo 16).filter fun p => partUsed p s).map (· + 1)
/-- The receivers "PF and every partition". -/
def allFns (s : State) : List Nat := 0 :: usedVfs s

/-! ### Device memory -/

/-- Addresses of memory the die has (R15). -/
def inHbm (a : Nat) : Bool := a < 0x800000000
def inCluster (a : Nat) : Bool := decide (0x1000000000 ≤ a) && decide (a < 0x1008000000) && decide ((a - 0x1000000000) % 0x2000000 < 0x1800000)
def inScratch (a : Nat) : Bool := decide (0x1100000000 ≤ a) && decide (a < 0x1108000000)
def inMailbox (a : Nat) : Bool := decide (0x1200000000 ≤ a) && decide (a < 0x1200004000)
/-- Core n's banks. -/
def weightBank (n : Nat) : Nat := 0x1100000000 + n * 0x400000
def actBank (n : Nat) : Nat := 0x1100000000 + n * 0x400000 + 0x200000
abbrev mailbox : Nat := 0x1200000000

/-- Region `r` of tag `t` permits the byte at `a` with the right of bit `b` of RGN_ATTR (R245, R246). -/
def regionHolds (t r a b : Nat) (s : State) : Bool :=
  let k := kRGN t r
  let attr := rd (k + 0xC) s
  let base := (rd k s).toNat / 4096 * 4096 + (fld 15 0 (rd (k + 4) s)) * 2 ^ 32
  let last := (rd (k + 8) s).toNat / 4096 * 4096 + 4095 + (fld 15 0 attr) * 2 ^ 32
  bitOf 31 attr && bitOf b attr && decide (base ≤ a) && decide (a ≤ last)

/-- The rights of RGN_ATTR. -/
abbrev rgtRead : Nat := 16
abbrev rgtWrite : Nat := 17
abbrev rgtFetch : Nat := 18

/-- An access of `len` bytes within one 64-byte line lies in a region of the tag with the right (R245). -/
def permits (t a len b : Nat) (s : State) : Bool :=
  (upTo 16).any fun r => regionHolds t r a b s && regionHolds t r (a + len - 1) b s

/-- The masters FAULT_ACC_SRC names (R460). -/
abbrev mDma : Nat := 0
abbrev mFetch : Nat := 1
abbrev mClu : Nat := 2
abbrev mFe : Nat := 3
abbrev mCodec : Nat := 4
abbrev mLaunch : Nat := 5
abbrev mHost : Nat := 6
abbrev mSpan : Nat := 7
abbrev mSteward : Nat := 8
abbrev mLedger : Nat := 9
abbrev mSched : Nat := 10
abbrev mMirror : Nat := 11

/-- A refused access counted, recorded and raised (R16, R456). -/
def refuseAccess (master unit t a : Nat) (write : Bool) (s : State) : State :=
  let s := inc (kFAULT_CNT_ACC t) 1 s
  if t ∈ s.accRaised then s else
    let s := { s with accRaised := t :: s.accRaised }
    let s := if rdB kFAULT_ACC_SRC 31 s then s else
      let src := 2 ^ 31 + b2n write * 2 ^ 24 + unit * 2 ^ 16 + master * 2 ^ 8 + t
      wrB kFAULT_EVT 1 true (wr kFAULT_ACC_HI (wd (a / 2 ^ 32 % 2 ^ 16)) (wr kFAULT_ACC_LO (wd a) (wr kFAULT_ACC_SRC (wd src) s)))
    raiseFault 0x8010 t (if t < 16 then t else 0xFF) (wd a) [fnOf t] s

/-- The core whose scratchpad holds an address. -/
def scratchCore (a : Nat) : Nat := (a - 0x1100000000) / 0x400000

/-- Whether a master with a tag reaches an address (R243): its regions, or, for core DMA and cluster DMA, its core's scratchpad. -/
def reaches (master unit t a len : Nat) (write : Bool) (s : State) : Bool :=
  if inScratch a then
    (decide (master = mDma) && decide (scratchCore a = unit)) ||
    (decide (master = mClu) && decide (coreOwner (scratchCore a) s = some t) && decide (scratchCore a / 8 = unit))
  else (inHbm a || inCluster a) && permits t a len (if write then rgtWrite else rgtRead) s

/-- The pieces of a range within aligned 64-byte lines, at most `k` of them (R245). -/
def lines : Nat → Nat → Nat → List (Nat × Nat)
  | 0, _, _ => []
  | k + 1, a, len => if len = 0 then [] else
      let n := min len (64 - a % 64)
      (a, n) :: lines k (a + n) (len - n)

/-- The lines of a range. -/
def linesOf (a len : Nat) : List (Nat × Nat) := lines (len / 64 + 2) a len

/-- The bytes of a protected word (R258): 64 bits, and 32 in the mailbox. -/
def wordLen (a : Nat) : Nat := if inMailbox a then 4 else 8
/-- The protected word that holds an address. -/
def wordOf (a : Nat) : Nat := a / wordLen a * wordLen a
/-- A word shares a byte with a range. -/
def wordIn (a len w : Nat) : Bool := decide (w < a + len) && decide (a < w + wordLen w)
/-- A poisoned word lies in the range. -/
def poisonedIn (a len : Nat) (s : State) : Bool := s.poison.any (wordIn a len)
/-- The word that holds an address is uncorrectable from now on (R261). -/
def spoil (a : Nat) (s : State) : State := { s with poison := if wordOf a ∈ s.poison then s.poison else wordOf a :: s.poison }

/-- The stack and the stack offset of an HBM address that no region fixes (R253). -/
def stackOffset (a : Nat) : Nat × Nat :=
  let g := a / 4096
  (g % 2, g / 2 * 4096 + a % 4096)

/-- The partition whose region holds an address, if any. -/
def regionOwner (a : Nat) (s : State) : Option Nat :=
  (upTo 16).find? fun t => (upTo 16).any fun r =>
    regionHolds t r a rgtRead s || regionHolds t r a rgtWrite s || regionHolds t r a rgtFetch s

/-- The region that fixes an address to a stack (R254): its tag and number, if any. -/
def fixedRegion (a : Nat) (s : State) : Option (Nat × Nat) :=
  let hit := fun t => (upTo 16).find? fun r =>
    decide (rdF (kRGN t r + 0xC) 21 20 s ≠ 0) &&
      (regionHolds t r a rgtRead s || regionHolds t r a rgtWrite s || regionHolds t r a rgtFetch s)
  (upTo 18).findSome? fun t => (hit t).map fun r => (t, r)

/-- First granule of a region. -/
def regionGranule (t r : Nat) (s : State) : Nat :=
  ((rd (kRGN t r) s).toNat / 4096 * 4096 + (fld 15 0 (rd (kRGN t r + 4) s)) * 2 ^ 32) / 4096

/-- The other region of a fixed region's pair (R254): pairs stand one after the other, whichever stack comes first. -/
def pairOf (t r : Nat) (s : State) : Nat :=
  let fixed := fun r => decide (rdF (kRGN t r + 0xC) 21 20 s ≠ 0)
  if ((upTo r).reverse.takeWhile fixed).length % 2 = 0 then r + 1 else r - 1

/-- The stack and the stack offset of an HBM address (R253, R254). -/
def hbmPlace (a : Nat) (s : State) : Nat × Nat :=
  match fixedRegion a s with
  | none => stackOffset a
  | some (t, r) =>
    let h := rdF (kRGN t r + 0xC) 21 20 s - 1
    let other := regionGranule t (pairOf t r s) s
    let b0 := if h = 0 then regionGranule t r s else other
    let b1 := if h = 0 then other else regionGranule t r s
    let d := a / 4096 - (if h = 0 then b0 else b1)
    let g := (if d % 2 = 0 then b0 else b1) / 2 + d / 2
    (h, g * 4096 + a % 4096)

/-- An uncorrectable word recorded by its memory and raised (R260). The receivers of the mailbox's fault, the steward and the supervisor port, are
no functions of the host (notes/assumptions/36.md). -/
def reportUnc (a : Nat) (s : State) : State :=
  let w := wordOf a
  if inScratch a then
    let n := scratchCore a
    let o := coreBase n + 0x200
    let off := (w - 0x1100000000) % 0x400000
    let s := inc (o + 0x10) 1 (wrB (o + 4) (if off < 0x200000 then 2 else 3) true s)
    let s := wr (o + 0x14) (wd (2 ^ 31 + off)) s
    match coreOwner n s with
    | some p => raiseFault 0x8001 n p (wd w) [p + 1] s
    | none => raiseFault 0x8001 n 0xFF (wd w) [0] s
  else if inCluster a then
    let k := (a - 0x1000000000) / 0x2000000
    let s := inc (cluBase k + 0xC) 1 (wrB (cluBase k + 4) 1 true s)
    let s := wr (cluBase k + 0x10) (wd (2 ^ 31 + (w - 0x1000000000) % 0x2000000)) s
    match regionOwner a s with
    | some p => raiseFault 0x8002 k p (wd w) [p + 1] s
    | none => raiseFault 0x8002 k 0xFF (wd w) [0] s
  else if inHbm a then
    let (h, off) := hbmPlace w s
    let s := inc (hbmBase h + 0x10) 1 (wrB (hbmBase h + 4) 2 true s)
    let s := wr (hbmBase h + 0x18) (wd (2 ^ 31 + off / 2 ^ 32)) (wr (hbmBase h + 0x14) (wd off) s)
    match regionOwner a s with
    | some p => raiseFault 0x8003 h p (wd w) [p + 1] s
    | none => raiseFault 0x8003 h 0xFF (wd w) [0] s
  else raiseFault 0x8004 0 0xFF (wd w) [] s

/-- Words of a range that are poisoned. -/
def poisonedWords (a len : Nat) (s : State) : List Nat := s.poison.filter (wordIn a len)

/-- Device bytes as a reader gets them: poisoned words are zeros (R261). -/
def memRead (a len : Nat) (s : State) : List Byte :=
  (List.range len).map fun i => if wordOf (a + i) ∈ s.poison then 0 else Memory.get (a + i) s.mem

/-- Writes that together cover a whole word. -/
def covers (ws : List (Nat × List Byte)) (w : Nat) : Bool :=
  (upTo (wordLen w)).all fun i => ws.any fun x => decide (x.1 ≤ w + i) && decide (w + i < x.1 + x.2.length)
/-- Poisoned words that writes touch and do not cover (R261). -/
def partWords (ws : List (Nat × List Byte)) (s : State) : List Nat :=
  s.poison.filter fun w => (ws.any fun x => wordIn x.1 x.2.length w) && !covers ws w
/-- Device bytes written without a check: a write that covers a whole word removes its poison, a part of one leaves it (R261). -/
def memWrite (a : Nat) (bs : List Byte) (s : State) : State :=
  { s with mem := Memory.write s.mem a bs, poison := s.poison.filter fun w => !covers [(a, bs)] w }
/-- The writes of one unit's operation: words that they cover only in part and that are poisoned are reported (R261). -/
def memStore (ws : List (Nat × List Byte)) (s : State) : State :=
  let s := eachDo reportUnc (partWords ws s) s
  { s with mem := ws.foldl (fun m x => Memory.write m x.1 x.2) s.mem, poison := s.poison.filter fun w => !covers ws w }

/-- A range cleared by the clear path, poison with it (R244, R261). -/
def memClear (a len : Nat) (s : State) : State :=
  { s with mem := Memory.clear s.mem a len, poison := s.poison.filter fun w => !wordIn a len w }

/-! Memories that wipe (R264, R265) -/

/-- A power domain is on (R415). -/
def domOn (d : Nat) (s : State) : Bool := rdB (kPWR_DOM (d / 32)) (d % 32) s
/-- The power domain of the SRAM that holds an address, if one is switched: line x of a cluster memory lies in bank (x / 64) mod 32 (R250). -/
def sramDom (a : Nat) : Option Nat :=
  if inCluster a then some (34 + 4 * ((a - 0x1000000000) / 0x2000000) + (a - 0x1000000000) / 64 % 32 / 8)
  else if inScratch a then some (51 + 2 * scratchCore a) else none
/-- SP_STAT and CLU_STAT report wiping memories. -/
def showWiping (s : State) : State :=
  let s' := eachDo (fun n s' => wrF (coreBase n + 0x200) 1 0 (3 * b2n (decide (51 + 2 * n ∈ s.pwr.wiping))) s') (upTo 32) s
  eachDo (fun k s' => wr (cluBase k) (wd ((upTo 32).foldl (fun a b => a + (if 34 + 4 * k + b / 8 ∈ s.pwr.wiping then 2 ^ b else 0)) 0)) s') (upTo 4) s'
/-- The wipe of a domain's SRAM ends: it reads zero, with valid check bits. -/
def wipeSram (d : Nat) (s : State) : State :=
  showWiping { s with
    pwr := { s.pwr with wiping := s.pwr.wiping.filter (· != d) }, mem := s.mem.filter fun c => decide (sramDom c.1 ≠ some d),
    poison := s.poison.filter fun w => decide (sramDom w ≠ some d) }
/-- An access that reaches a wiping memory waits until the wipe ends (R265). DESIGN CHOICE (notes/assumptions/35.md): the wipe ends at the
access that waits for it, within the longest time R264 gives it. -/
def awaitWipe (a : Nat) (s : State) : State :=
  match sramDom a with
  | some d => if d ∈ s.pwr.wiping then wipeSram d s else s
  | none => s

/-- The lines an access reads, refused ones as zeros, uncorrectable words reported: the bytes, whether one was refused, whether a
word was uncorrectable, the state. -/
def readPieces (master unit t : Nat) : List (Nat × Nat) → State → List Byte × Nat × Bool × State
  | [], s => ([], 0, false, s)
  | (a, n) :: r, s =>
    if reaches master unit t a n false s then
      let s := awaitWipe a s
      let ws := poisonedWords a n s
      let s' := eachDo reportUnc ws s
      let (bs, f, u, s'') := readPieces master unit t r s'
      (memRead a n s ++ bs, f, u || !ws.isEmpty, s'')
    else
      let (bs, f, u, s'') := readPieces master unit t r (refuseAccess master unit t a false s)
      (zeros n ++ bs, f + 1, u, s'')

/-- A read by a master (R245, R16, R260). -/
def devRead (master unit t a len : Nat) (s : State) : List Byte × Nat × Bool × State :=
  readPieces master unit t (linesOf a len) s

/-- The memories of a range have been wiped (R265). -/
def awaitRange (a len : Nat) (s : State) : State := eachDo (fun x s => awaitWipe x.1 s) (linesOf a len) s

/-- The lines of a write, refused ones discarded: how many were refused, and whether a poisoned word was written in part. -/
def writePieces (master unit t : Nat) : List (Nat × Nat) → List Byte → State → Nat × Bool × State
  | [], _, s => (0, false, s)
  | (a, n) :: r, bs, s =>
    if reaches master unit t a n true s then
      let s := awaitWipe a s
      let part := partWords [(a, bs.take n)] s
      let (f, u, s) := writePieces master unit t r (bs.drop n) (memStore [(a, bs.take n)] s)
      (f, u || !part.isEmpty, s)
    else
      let (f, u, s) := writePieces master unit t r (bs.drop n) (refuseAccess master unit t a true s)
      (f + 1, u, s)

/-- A write by a master (R245, R16). -/
def devWrite (master unit t a : Nat) (bs : List Byte) (s : State) : Nat × Bool × State :=
  writePieces master unit t (linesOf a bs.length) bs s

/-! ### Small state updates -/

/-- A partition's scheduler state. -/
def part (p : Nat) (s : State) : Part := Fam.get {} p s.parts
def updPart (p : Nat) (f : Part → Part) (s : State) : State := { s with parts := s.parts.set p (f (part p s)) }
/-- A stream's scheduler state. -/
def strm (st : Nat) (s : State) : Strm := Fam.get {} st s.strms
def updStrm (st : Nat) (f : Strm → Strm) (s : State) : State := { s with strms := s.strms.set st (f (strm st s)) }
/-- A core. -/
def coreOf (n : Nat) (s : State) : Core := Fam.get {} n s.cores
def updCore (n : Nat) (f : Core → Core) (s : State) : State := { s with cores := s.cores.set n (f (coreOf n s)) }
/-- A cage holds a pluggable that is left in low-power mode (R464); cages 0 to 7 are J5 to J12, 8 to 11 J13 to J16, 12 and 13 J17, J18. -/
def cageDark (k : Nat) (s : State) : Bool := match Fam.find k s.cages with | some c => !c.enabled | none => false
/-- A frame or an interrupt sent. -/
def emit (o : Out) (s : State) : State := { s with out := o :: s.out }

end Sys2Proof.Machine
end

