-- ==== Sys2Proof/Machine/Time.lean ====
section
/-! DEFINITION. The time unit (16_time_and_network.md, R367 to R373): commits of rate and step, the reading latches, time quality and
its error estimate, the PTP servo's corrections (R378). -/

namespace Sys2Proof.Machine

open Sys2Proof

/-- The time unit is in Twilight holdover: C counts the internal oscillator (CLK_STAT.TWILIGHT). -/
def holdover (s : State) : Bool := rdB kCLK_STAT 2 s

/-- A TIME_EVT bit set: the TIME source of every function fires (R394). -/
def timeEvt (bit : Nat) (s : State) : State := eachDo (fun fn s => fireInt fn 5 s) (upTo 17) (wrB kTIME_EVT bit true s)

/-- A field of port `p` of the ETHERNET section (R376). -/
def ethCfg (p off k : Nat) (s : State) : Nat := cfg 0x42 0 (64 * p + off) k s
def ethOn (p : Nat) (s : State) : Bool := decide (ethCfg p 0 1 s = 1)
def ptpRole (p : Nat) (s : State) : Nat := if ethOn p s then ethCfg p 1 1 s else 0
/-- A port has a ROLE other than 0: the servo alone writes the TIME shadows (R378). -/
def ptpUsed (s : State) : Bool := decide (ptpRole 0 s ≠ 0) || decide (ptpRole 1 s ≠ 0)

/-- TIME_STAT.QUAL. -/
def qual (s : State) : Nat := rdF kTIME_STAT 2 0 s

/-- TIME_ERR as R373 gives it in the present state; in LOCKED the servo's bound is a free value of at most 104 ns. -/
def timeErr (s : State) : Nat :=
  let grown := satN 0xFFFFFFFF (s.time.errEntry + s.time.errPpb * (ticksSince s.time.errTick s * 8 / 5) / 1000000000)
  if qual s = 0 then 0xFFFFFFFF
  else if qual s = 1 then satN 0xFFFFFFFF (s.ptp.offset.natAbs + 2 * s.ptp.delay)
  else if qual s = 2 then s.time.errEntry
  else if s.time.errEntry = 0xFFFFFFFF then 0xFFFFFFFF else grown

/-- TIME_ERR shown. -/
def showErr (s : State) : State := if qual s = 0 then wr kTIME_ERR 0xFFFFFFFF s else wr kTIME_ERR (wd (timeErr s)) s

/-- A change of QUAL (R373): the estimate's starting point is the value at entry, growing by `ppb`. -/
def setQual (q ppb : Nat) (s : State) : State :=
  if qual s = q then showErr s else
    let e := (rd kTIME_ERR s).toNat
    let e := if q = 2 then (Config.freeWord s.fresh).toNat % 105 else e
    let s := if q = 2 then draw 1 s else s
    let s := { s with time := { s.time with errEntry := e, errTick := tick s, errPpb := ppb } }
    timeEvt 1 (showErr (wrF kTIME_STAT 2 0 q s))

/-- The step and rate of the TIME shadows take effect at one tick (R369). -/
def timeCommit (s : State) : State :=
  let step := (rd kTIME_STEP_HI s).toNat * 2 ^ 32 + (rd kTIME_STEP_LO s).toNat
  let t : TimeUnit := { s.time with tBase := nowFrac s + BitVec.ofNat 80 (step % 2 ^ 64 * 65536), cBase := s.time.c, rate := rd kTIME_RATE_ADJ s }
  let s := takeShadow kTIME_RATE_ADJ { s with time := t }
  let s := wr kTIME_STEP_HI 0 (wr kTIME_STEP_LO 0 s)
  if step % 2 ^ 64 = 0 then s else raiseFault 0xA001 0 0xFF 0 [0] (inc kTIME_CNT_STEP 1 (timeEvt 0 s))

/-- The PF's registers beyond SYS, SVC, CLK, PWR and FAULT answer only after the expert unlock (R17). -/
def expert (s : State) : Bool := s.svc.expertUntil.isSome
/-- The enable bit of a gated register interface of CLK_EN2: TIME 5, MOTION 6, FIO 7, SUP 8 (R9, R415). -/
def gateEn (bit : Nat) (s : State) : Bool := rdB kCLK_EN2 bit s

/-- A write of TIME_COMMIT (R369, R385): the PF's, while HOST_ADJ is set and no port has PTP. -/
def timeCommitBody (fn : Nat) (v : Word) (s : State) : State :=
  if fn = 0 ∧ expert s ∧ gateEn 5 s ∧ bitOf 0 v ∧ rdB kTIME_CTL 0 s ∧ ¬ ptpUsed s then timeCommit s else s

/-- A function reads module time: the PF after the expert unlock, a VF its own copy while its partition is in use (R31, R385). -/
def timeReach (fn : Nat) (s : State) : Bool := gateEn 5 s && (if fn = 0 then expert s else partUsed (fn - 1) s)
/-- A read of TIME_NOW_LO: the high word and the fraction are latched for the reading function (R371). -/
def nowLoRead (fn : Nat) (s : State) : State :=
  if !timeReach fn s then { s with readData := [0] } else
    let t := nowFrac s
    { s with time := { s.time with nowLatch := s.time.nowLatch.set fn t }, readData := [(t >>> 16).setWidth 32] }

/-- A read of TIME_TICK_LO: the high word is latched for the PF, the only function that reaches it (R371, R385). -/
def tickLoRead (fn : Nat) (s : State) : State :=
  if fn ≠ 0 ∨ ¬ expert s ∨ ¬ gateEn 5 s then { s with readData := [0] } else
    { s with time := { s.time with tickLatch := s.time.tickLatch.set fn s.time.c }, readData := [s.time.c.setWidth 32] }

/-- TIME_OFS_LAST: the last offset, saturating. -/
def satOfs (i : Int) : Int := if i < -(2 ^ 31) then -(2 ^ 31) else if 2 ^ 31 ≤ i then 2 ^ 31 - 1 else i

/-- A rate within the servo's ±500 ppm (R378): the value itself is free. -/
def servoRate (f : Int) : Int := f % (2 * 549755813 + 1) - 549755813

/-- The servo takes an offset and delay (R373, R378): the rate is a free value within its limit, T is stepped only beyond STEP_THRESH. -/
def servo (port : Nat) (offset : Int) (delay : Nat) (s : State) : State :=
  let thr := ethCfg port 24 4 s
  let s := { s with ptp := { s.ptp with offset := offset, delay := delay, good := if offset.natAbs < 100 then s.ptp.good + 1 else 0 } }
  let s := wr kTIME_OFS_LAST (wdi (satOfs offset)) s
  let step : Int := if thr ≠ 0 ∧ thr < offset.natAbs then -offset else 0
  let s := wr kTIME_RATE_ADJ (wdi (servoRate (Config.freeInt s.fresh))) (draw 1 s)
  let s := wr kTIME_STEP_HI (wdi (step / 2 ^ 32)) (wr kTIME_STEP_LO (wdi step) s)
  let s := timeCommit s
  if qual s = 4 then s
  else if qual s = 2 then (if 1000 < offset.natAbs then setQual 1 0 s else showErr s)
  else if 16 ≤ s.ptp.good then setQual 2 0 { s with time := { s.time with everLocked := true } }
  else setQual 1 0 s

/-- A port's PTP state (R386). -/
def setPtpState (port st : Nat) (s : State) : State :=
  if rdF (ethBase port) 4 2 s = st then s else
    let s := wrB (ethBase port + 4) 2 true (wrF (ethBase port) 4 2 st s)
    let s := if st = 3 then { s with ptp := { s.ptp with slave := some port, good := 0 } }
      else if s.ptp.slave = some port then { s with ptp := { s.ptp with slave := none } } else s
    wrF kTIME_STAT 4 3 (match s.ptp.slave with | some p => 2 + p % 2 | none => 0) s

end Sys2Proof.Machine
end

