-- ==== Sys2Proof/Machine/Eth.lean ====
section
/-! DEFINITION. The Ethernet ports (16_time_and_network.md, R374 to R386): frames sent, the launch queues with their transmit rings, PTP
messages, ARP and the link. -/

namespace Sys2Proof.Machine

open Sys2Proof

/-! ### Frames -/

/-- A port's MAC address, byte 0 first. -/
def macBytes (p : Nat) (s : State) : List Byte := natLE 4 (rd (ethBase p + 8) s).toNat ++ natLE 2 (rd (ethBase p + 0xC) s).toNat
/-- The frame with its FCS (IEEE 802.3: the CRC-32 of the frame, least significant byte first). -/
def withFcs (f : List Byte) : List Byte := f ++ natLE 4 (crc32 f).toNat
/-- Half ticks a frame of `n` bytes with FCS occupies the wire: (bytes + 20) × 0.8 ns (R382). -/
def wireTicks (n : Nat) : Nat := (n + 20 + 1) / 2
/-- A port is on, enabled and linked. -/
def portUp (p : Nat) (s : State) : Bool := ethOn p s && rdB kCLK_EN2 (1 + p) s && rdB (ethBase p) 0 s
/-- The wire of a port is free. -/
def wireFree (p : Nat) (s : State) : Bool := decide (0 ≤ (tick s - Fam.get 0 p s.wire).toInt)
/-- A frame starts on the wire, `n` bytes with FCS. -/
def takeWire (p n : Nat) (s : State) : State := { s with wire := s.wire.set p (tick s + BitVec.ofNat 64 (wireTicks n)) }
/-- A frame sent: counted in ETH_CNT_TX. -/
def sendFrame (p : Nat) (f : List Byte) (s : State) : State :=
  inc (ethBase p + 0x10) 1 (takeWire p (f.length + 4) (emit (.eth p (nowNs s).toNat (withFcs f)) s))

/-! ### Launch queues (R379 to R384) -/

/-- A launch queue, by 8 * port + queue. -/
def lq (p q : Nat) (s : State) : LaunchQ := Fam.get {} (8 * p + q) s.lqs
/-- ETHQ_CTL.EN and SRC. -/
def lqEn (p q : Nat) (s : State) : Bool := rdB (ethqBase p q) 0 s
/-- Descriptors come from a transmit ring (R381). -/
def lqRing (p q : Nat) (s : State) : Bool := rdB (ethqBase p q) 1 s
/-- A requested launch has come (R372); a LAUNCH of 0 has always come. -/
def launchCome (l : Nat) (s : State) : Bool := l = 0 || decide (0 ≤ (nowNs s - BitVec.ofNat 64 l).toInt)
/-- How late a launch is in ns; a LAUNCH of 0 is never late (R383). -/
def lateness (l : Nat) (s : State) : Int := if l = 0 then 0 else (nowNs s - BitVec.ofNat 64 l).toInt

/-- ETHQ_STAT as the entries give it. -/
def showLq (p q : Nat) (s : State) : State :=
  let es := (lq p q s).ents
  let wait := match es with | e :: _ => !launchCome e.launch s | [] => false
  wr (ethqBase p q + 4) (wd (es.length + 256 * b2n wait)) s

def setLq (p q : Nat) (x : LaunchQ) (s : State) : State := showLq p q { s with lqs := s.lqs.set (8 * p + q) x }

/-- A descriptor's address (R381). -/
def lqDesc (p q i : Nat) (s : State) : Nat :=
  let b := ethqBase p q
  rdAddr (b + 0x18) s / 64 * 64 % 2 ^ 48 + i % (rdF (b + 0x20) 12 0 s) * 32

/-- A descriptor's status and time sent written back, with HEAD advanced (R381). -/
def lqFinish (p q i status sent : Nat) (s : State) : State :=
  let t := (lqOwner p q s).getD 0
  let a := lqDesc p q i s
  let s := (devWrite mLaunch p t (a + 18) (natLE 1 status) s).2.2
  let s := (devWrite mLaunch p t (a + 20) (natLE 8 sent) s).2.2
  inc (ethqBase p q + 0x28) 1 s

/-- STATUS bits of R381. -/
abbrev lsDONE : Nat := 1
abbrev lsLATE : Nat := 2
abbrev lsDROPPED : Nat := 4
abbrev lsERR : Nat := 8

/-- The head entry dropped with a status and counted in the queue's counter at `cnt`. -/
def lqDrop (p q status cnt : Nat) (s : State) : State :=
  match (lq p q s).ents with
  | [] => s
  | e :: r =>
    let s := setLq p q { lq p q s with ents := r } (if cnt = 0 then s else inc (ethqBase p q + cnt) 1 s)
    match e.desc with
    | some (i, _, _) => lqFinish p q i status 0 s
    | none => s

/-- One descriptor read into the queue (R381). -/
def lqReadOne (p q : Nat) (s : State) : State :=
  let x := lq p q s
  let i := x.read.toNat
  let t := (lqOwner p q s).getD 0
  let (bs, f, u, s) := devRead mLaunch p t (lqDesc p q i s) 32 s
  let l := leAt bs 0 8
  let len := leAt bs 16 2
  let far := decide (l ≠ 0) && decide (1000000000 < (BitVec.ofNat 64 l - nowNs s).toInt)
  let bad := u || decide (f ≠ 0) || !(decide (60 ≤ len) && decide (len ≤ 1518)) || far
  setLq p q { ents := x.ents ++ [{ launch := if bad then 0 else l, frame := [], desc := some (i, leAt bs 8 8, len), bad := bad }],
              read := x.read + 1 } s

/-- Descriptors read while the queue has room and the tail is ahead, and heads at fault dropped with ERR, at most `k` of each. -/
def lqFill (p q : Nat) : Nat → State → State
  | 0, s => s
  | k + 1, s =>
    let x := lq p q s
    if (x.ents.head?.map (·.bad)) = some true then lqFill p q k (lqDrop p q (lsDROPPED + lsERR) 0x3C s)
    else if lqEn p q s && lqRing p q s && (lqOwner p q s).isSome && decide (x.ents.length < 64) &&
        decide (x.read ≠ rd (ethqBase p q + 0x24) s) then lqFill p q k (lqReadOne p q s)
    else s

/-- The ledger hands a payload to a queue (R345, R379, R380): the frame is built from the template; whether it was taken. -/
def lqHand (p q launch : Nat) (payload : List Byte) (s : State) : Bool × State :=
  let b := ethqBase p q
  if !lqEn p q s || lqRing p q s || (lqOwner p q s).isNone then (false, s)
  else if 64 ≤ (lq p q s).ents.length then (false, inc (b + 0x38) 1 s)
  else
    let dst := natLE 4 (rd (b + 8) s).toNat ++ natLE 2 (rd (b + 0xC) s).toNat
    let tag := if rdB (b + 0x10) 16 s then [0x81, 0x00] ++ natBE 2 (rdF (b + 0x10) 15 0 s) else []
    let f := padTo 60 (dst ++ macBytes p s ++ tag ++ natBE 2 (rdF (b + 0x14) 15 0 s) ++ padTo 32 payload)
    (true, setLq p q { lq p q s with ents := (lq p q s).ents ++ [{ launch := launch, frame := f, desc := none }] } s)

/-- LATE_MAX in ns. -/
def lateMaxNs (p q : Nat) (s : State) : Nat := rdF (ethqBase p q) 25 16 s * 1000

/-- Another queue's head goes first (R383): a launch that has come with an earlier LAUNCH, or the same one in a lower queue; before a
frame without a LAUNCH every launch that has come. -/
def lqYields (p q l : Nat) (s : State) : Bool :=
  (upTo 8).any fun r => r != q && match (lq p r s).ents.head? with
    | some e => decide (e.launch ≠ 0) && launchCome e.launch s && lqEn p r s && (decide (l = 0) ||
        (let d := (BitVec.ofNat 64 e.launch - BitVec.ofNat 64 l).toInt
         decide (d < 0) || (decide (d = 0) && decide (r < q))))
    | none => false

/-- A frame that starts now would still occupy the wire at another queue's LAUNCH (R382). -/
def lqBlocks (p n : Nat) (s : State) : Bool :=
  (upTo 8).any fun r => match (lq p r s).ents.head? with
    | some e => decide (e.launch ≠ 0) && !launchCome e.launch s &&
        decide ((BitVec.ofNat 64 e.launch - nowNs s).toInt * 5 < wireTicks n * 8)
    | none => false

/-- A ring frame has EtherType 0x88F7, untagged or tagged (R381). -/
def isPtpFrame (f : List Byte) : Bool :=
  let et := fun o => (f.getD o 0).toNat * 256 + (f.getD (o + 1) 0).toNat
  decide (et 12 = 0x88F7) || (decide (et 12 = 0x8100) && decide (et 16 = 0x88F7))

/-- A frame on the wire: counted, charged to the owner (R384). -/
def lqSent (p q : Nat) (f : List Byte) (launch : Nat) (desc : Option (Nat × Nat × Nat)) (s : State) : State :=
  let late := decide (8 < lateness launch s)
  let now := (nowNs s).toNat
  let b := ethqBase p q
  let s := sendFrame p f s
  let s := inc (b + 0x2C) 1 (if late then inc (b + 0x30) 1 s else s)
  let s := match lqOwner p q s with | some t => cntAdd (acctBase t + 0x30) (f.length + 4) s | none => s
  let x := lq p q s
  let s := setLq p q { x with ents := x.ents.drop 1 } s
  let s := match desc with
    | some (i, _, _) => lqFinish p q i (lsDONE + (if late then lsLATE else 0)) now s
    | none => s
  lqFill p q 128 s

/-- The head's LAUNCH has come and its frame starts (R382, R383), when the port is up, the wire free and no other launch claims it. -/
def launchBody (p q : Nat) (s : State) : State :=
  let s := lqFill p q 128 s
  match (lq p q s).ents with
  | [] => s
  | e :: _ =>
    if !lqEn p q s || !launchCome e.launch s || !portUp p s || !wireFree p s || lqYields p q e.launch s then showLq p q s
    else if (lateMaxNs p q s : Int) < lateness e.launch s then lqFill p q 128 (lqDrop p q (lsDROPPED + lsLATE) 0x34 s)
    else match e.desc with
      | none => lqSent p q e.frame e.launch none s
      | some (i, a, len) =>
        if e.launch = 0 ∧ lqBlocks p (len + 4) s then s else
          let (bs, f, u, s) := devRead mLaunch p ((lqOwner p q s).getD 0) a len s
          if u || decide (f ≠ 0) || isPtpFrame bs then lqFill p q 128 (lqDrop p q (lsDROPPED + lsERR) 0x3C s)
          else lqSent p q (bs.take 6 ++ macBytes p s ++ bs.drop 12) e.launch (some (i, a, len)) s

/-- A head that can no longer start within LATE_MAX is dropped (R383). -/
def lateDropBody (p q : Nat) (s : State) : State :=
  match (lq p q s).ents with
  | [] => s
  | e :: _ => if (lateMaxNs p q s : Int) < lateness e.launch s then lqFill p q 128 (lqDrop p q (lsDROPPED + lsLATE) 0x34 s) else s

/-- Every entry not yet started discarded with DROPPED (R384), at most `k` of them. -/
def lqDiscard (p q : Nat) : Nat → State → State
  | 0, s => s
  | k + 1, s => if (lq p q s).ents.isEmpty then s else lqDiscard p q k (lqDrop p q lsDROPPED 0 s)

/-- A function may write a queue's block (R386): its owner, or the PF after the expert unlock, while the port's clock runs. -/
def lqReach (fn p q : Nat) (s : State) : Bool :=
  rdB kCLK_EN2 (1 + p) s && (if fn = 0 then expert s else decide (lqOwner p q s = some (fn - 1)))

/-- ETHQ_TAIL (R381). -/
def tailBody (fn p q : Nat) (v : Word) (s : State) : State :=
  if !lqReach fn p q s then s else
    lqFill p q 128 (wr (ethqBase p q + 0x24) v s)

/-- ETHQ_CTL (R384, R386): clearing EN discards the entries; SRC is ignored while EN is 1; a LATE_MAX above 1,000 is out of range and
keeps the register's value (R8). -/
def ctlBody (fn p q : Nat) (v : Word) (s : State) : State :=
  if !lqReach fn p q s then s else
    let b := ethqBase p q
    let en := lqEn p q s
    let s := if en && !bitOf 0 v then lqDiscard p q 64 s else s
    let s := if en then s else wrB b 1 (bitOf 1 v) s
    let s := if fld 25 16 v ≤ 1000 then wrF b 25 16 (fld 25 16 v) s else s
    let s := wrB b 0 (bitOf 0 v) s
    let s := if !en && bitOf 0 v then setLq p q { lq p q s with read := rd (b + 0x28) s } s else s
    lqFill p q 128 s

/-! ### PTP, ARP and the link -/

/-- A frame of `n` bytes may start beside the launches (R382): the wire is free, and no launch comes before it has ended. -/
def txReady (p n : Nat) (s : State) : Bool := portUp p s && wireFree p s && !lqBlocks p n s

/-- The kinds of PTP messages by number, and their lengths (IEEE 1588; PRESUMED, notes/assumptions/17.md). -/
def ptpCode : PtpKind → Nat
  | .announce => 0
  | .sync => 1
  | .followUp => 2
  | .delayReq => 3
  | .delayResp => 4
  | .pdelayReq => 5
  | .pdelayResp => 6
  | .pdelayRespFollowUp => 7
  | .management => 8
  | .signaling => 9
/-- Bytes of the PTP messages by kind (IEEE 1588; PRESUMED, notes/assumptions/17.md). -/
def ptpMsgLen (c : Nat) : Nat := [64, 44, 44, 44, 54, 54, 54, 54].getD c 64
/-- Bytes of a PTP message's frame with FCS, by the port's tag and transport (R376). -/
def ptpLen (p c : Nat) (s : State) : Nat :=
  max 64 (14 + (if ethCfg p 12 2 s / 2 ^ 15 = 1 then 4 else 0) + (if ethCfg p 4 1 s = 1 then 28 else 0) + ptpMsgLen c + 4)
/-- The fields of a message that the manual gives: an Announce of a module that is grandmaster carries PRIORITY1, clockClass, clockAccuracy,
PRIORITY2, timeSource and DOMAIN (R376, R377). -/
def ptpBytes (p c : Nat) (s : State) : List Byte :=
  if c = 0 ∧ s.ptp.slave.isNone then [BitVec.ofNat 8 (ethCfg p 10 1 s), 248, 0xFE, BitVec.ofNat 8 (ethCfg p 11 1 s), 0xA0, BitVec.ofNat 8 (ethCfg p 5 1 s)]
  else []
/-- A PTP message leaves (R378): an event message with the time it leaves; a follow-up with the time its event message left. -/
def sendPtp (p c : Nat) (s : State) : State :=
  let now := (nowNs s).toNat
  let t := if c = 2 ∨ c = 7 then Fam.get 0 (8 * p + c - 1) s.ptp.sent else now
  let s := takeWire p (ptpLen p c s) (emit (.ptp p c t (ptpBytes p c s)) s)
  inc (ethBase p + 0x24) 1 (inc (ethBase p + 0x10) 1 { s with ptp := { s.ptp with sent := s.ptp.sent.set (8 * p + c) now } })
/-- Bytes on the wire of a frame that waits, and its sending. -/
def txLen (p : Nat) (x : EthTx) (s : State) : Nat := match x with | .frame f => f.length + 4 | .ptp c => ptpLen p c s
/-- A waiting frame leaves. -/
def sendTx (p : Nat) (x : EthTx) (s : State) : State := match x with | .frame f => sendFrame p f s | .ptp c => sendPtp p c s
/-- The frames that wait at a port beside its launches (R382). -/
def txWait (p : Nat) (s : State) : List EthTx := Fam.get [] p s.ethWait
/-- A frame is sent at once, or waits behind the others of its port for the wire (R382). -/
def netSend (p : Nat) (x : EthTx) (s : State) : State :=
  if (txWait p s).isEmpty && txReady p (txLen p x s) s then sendTx p x s
  else { s with ethWait := s.ethWait.set p (txWait p s ++ [x]) }
/-- The oldest frame that waits leaves as soon as it may (R382). -/
def netFlush (p : Nat) (s : State) : State :=
  match txWait p s with
  | x :: r => if txReady p (txLen p x s) s then sendTx p x { s with ethWait := s.ethWait.set p r } else s
  | [] => s

/-- The slave port has left the slave state without losing its master (R373). DEDUCED (notes/assumptions/48.md): module time is then held over where
it has ever locked, and free otherwise. -/
def slaveGone (p : Nat) (s : State) : State :=
  if s.ptp.slave.isNone ∧ (qual s = 1 ∨ qual s = 2) then setQual (if s.time.everLocked then 3 else 0) (ethCfg p 28 4 s) s else s

/-- An accepted PTP message (R375, R377, R378): the port state it calls for, and a measurement run through the servo on the slave port; a delay
request is answered by the profile of DELAY, in two steps with STEP 0 (R376). Management and signalling are ignored. -/
def ptpMsgBody (p : Nat) (m : PtpMsg) (s : State) : State :=
  if !portUp p s then s else
    let s := inc (ethBase p + 0x20) 1 (inc (ethBase p + 0x14) 1 s)
    let role := ptpRole p s
    if role = 0 ∨ m.domain ≠ ethCfg p 5 1 s then s else
      let st := if role = 2 then 2 else if role = 1 ∧ m.state = 2 then 1 else m.state
      let st := if st = 3 ∧ (s.ptp.slave.getD p) ≠ p then 4 else st
      let s := if m.kind = .announce ∧ m.state ≤ 5 ∧ m.state ≠ 0 then slaveGone p (setPtpState p st s) else s
      let s := if rdF (ethBase p) 4 2 s = 3 ∧ (qual s = 0 ∨ qual s = 3) then setQual 1 0 s else s
      let s := match m.offset with
        | some o => if rdF (ethBase p) 4 2 s = 3 ∧ s.boot.fwRunning ∧ !s.boot.restarting then servo p o m.delay s else s
        | none => s
      if m.kind = .delayReq ∧ rdF (ethBase p) 4 2 s = 2 ∧ ethCfg p 3 1 s = 0 then netSend p (.ptp 4) s
      else if m.kind = .pdelayReq ∧ ethCfg p 3 1 s = 1 then
        (let s := netSend p (.ptp 6) s
         if ethCfg p 2 1 s = 0 then netSend p (.ptp 7) s else s)
      else s

/-- A PTP message's interval ends and it leaves (R377): a master announces and synchronises, a slave measures its path. -/
def ptpTxBody (p : Nat) (k : PtpKind) (s : State) : State :=
  let st := rdF (ethBase p) 4 2 s
  let may := match k with
    | .announce | .sync => decide (st = 2)
    | .followUp => decide (st = 2) && decide (ethCfg p 2 1 s = 0)
    | .delayReq => decide (st = 3) && decide (ethCfg p 3 1 s = 0)
    | .pdelayReq => decide (ethCfg p 3 1 s = 1)
    | _ => false
  if portUp p s && decide (ptpRole p s ≠ 0) && may then netSend p (.ptp (ptpCode k)) s else s

/-- The slave port's master is lost (R373, R377). -/
def ptpLostBody (p : Nat) (s : State) : State :=
  if s.ptp.slave ≠ some p then s else
    let s := setPtpState p 1 s
    let s := if qual s = 1 ∨ qual s = 2 then setQual 3 (ethCfg p 28 4 s) s else s
    raiseFault 0xA002 p 0xFF 0 [0] (timeEvt 2 s)

/-- An ARP request (R375): answered when it asks for the port's IPv4 address, else dropped and counted. The reply's layout is that of
RFC 826 (notes/assumptions/17.md). -/
def arpBody (p : Nat) (mac : BitVec 48) (ip tgt : Word) (s : State) : State :=
  if !portUp p s then s
  else if ethCfg p 16 4 s = 0 ∨ leNat (natBE 4 tgt.toNat) ≠ ethCfg p 16 4 s then inc (ethBase p + 0x1C) 1 s
  else
    let s := inc (ethBase p + 0x14) 1 s
    let sm := natBE 6 mac.toNat
    netSend p (.frame (padTo 60 (sm ++ macBytes p s ++ [0x08, 0x06, 0x00, 0x01, 0x08, 0x00, 6, 4, 0x00, 0x02] ++ macBytes p s ++
      natLE 4 (ethCfg p 16 4 s) ++ sm ++ natBE 4 ip.toNat))) s

/-- A received frame that the port does not accept (R375). -/
def frameDropBody (p : Nat) (badFcs : Bool) (s : State) : State :=
  if !portUp p s then s
  else if badFcs then inc (ethBase p + 0x18) 1 (wrB (ethBase p + 4) 1 true s) else inc (ethBase p + 0x1C) 1 s

/-- The owners of a port's queues. -/
def portOwners (p : Nat) (s : State) : List Nat := (upTo 16).filter fun n => decide (cfg 0x10 n (16 + p) 1 s ≠ 0)

/-- A port loses its link (R386). DESIGN CHOICE (notes/assumptions/48.md): what waits for the wire beside the launches is dropped. -/
def linkDownBody (p : Nat) (s : State) : State :=
  if !rdB (ethBase p) 0 s then s else
    let s := wrB (ethBase p + 4) 0 true (wrF (ethBase p) 1 0 0 { s with ethWait := s.ethWait.del p })
    raiseFault 0xA003 p 0xFF 0 (0 :: (portOwners p s).map (· + 1)) s

/-- A port gains its link (R386). -/
def linkUpBody (p : Nat) (s : State) : State :=
  if ethOn p s && rdB kCLK_EN2 (1 + p) s then wrF (ethBase p) 1 0 3 s else s

end Sys2Proof.Machine
end

