-- ==== Sys2Proof/Machine/Block.lean ====
section
/-! DEFINITION. The physical coding of the lanes above the scrambler (04_chanak_lanes.md, R64 to R70): block types, frames as blocks, and
blocks across the lanes of a bond. -/

namespace Sys2Proof.Machine

open Sys2Proof

/-- A block from its type byte and the seven bytes after it, or from eight data bytes. -/
def mkBlock (hdr : Nat) (bs : List Byte) : Block := { hdr := BitVec.ofNat 2 hdr, load := BitVec.ofNat 64 (leNat (bs.take 8)) }
/-- The eight bytes a block carries. -/
def blockOctets (b : Block) : List Byte := natLE 8 b.load.toNat

/-- The types of the terminate blocks, by the data bytes they carry (R66). -/
def termTypes : List Nat := [0x87, 0x99, 0xAA, 0xB4, 0xCC, 0xD2, 0xE1, 0xFF]
/-- What a block is to the receiver (R66). -/
inductive BlockKind where
  | data (bs : List Byte)
  | idle
  | start (bs : List Byte)
  | term (bs : List Byte)
  | marker
  | sofMark
  | invalid
deriving DecidableEq, Repr
/-- The block types of R66; every other block is invalid. An ordered set's O code is the low half of its fifth byte (Clause 49). -/
def blockKind (b : Block) : BlockKind :=
  let l := blockOctets b
  let ty := leAt l 0 1
  if b.hdr = 1 then .data l
  else if b.hdr ≠ 2 then .invalid
  else if ty = 0x1E then (if (l.drop 1).all (· = 0) then .idle else .invalid)
  else if ty = 0x78 then .start (l.drop 1)
  else if ty = 0x4B ∧ leAt l 4 1 % 16 = 5 then .marker
  else if ty = 0x4B ∧ leAt l 4 1 % 16 = 6 then .sofMark
  else match termTypes.idxOf? ty with
    | some n => .term ((l.drop 1).take n)
    | none => .invalid
/-- A sync header that is neither of the two (R64). -/
def blockBadHdr (b : Block) : Bool := decide (b.hdr ≠ 1 ∧ b.hdr ≠ 2)

/-- The data blocks of a frame after its first seven bytes, and its terminate block, at most `n` of them. -/
def tailBlocks : Nat → List Byte → List Block
  | 0, _ => []
  | n + 1, bs =>
    if bs.length < 8 then [mkBlock 2 (natLE 1 (termTypes.getD bs.length 0) ++ bs ++ zeros (7 - bs.length))]
    else mkBlock 1 bs :: tailBlocks n (bs.drop 8)
/-- A frame of at least seven bytes as blocks (R66). -/
def frameBlocks (f : List Byte) : List Block := mkBlock 2 (0x78 :: f.take 7) :: tailBlocks (f.length / 8 + 1) (f.drop 7)
/-- The idle block. -/
def idleBlock : Block := mkBlock 2 (0x1E :: zeros 7)
/-- A lane's alignment marker (R66). -/
def markerBlock (d1 d2 d3 : Nat) : Block := mkBlock 2 (0x4B :: natLE 1 d1 ++ natLE 1 d2 ++ natLE 1 d3 ++ 0x05 :: zeros 3)

/-- Blocks across a bond of width `w`: logical block k goes to lane k mod w (R70). -/
def stripe (w : Nat) (bs : List Block) : Stretch :=
  (upTo w).map fun i => (bs.zipIdx.filter fun (x : Block × Nat) => decide (x.2 % w = i)).map (·.1)
/-- The first blocks of the lanes, in lane order. -/
def heads (x : Stretch) : List Block := x.filterMap List.head?
/-- The logical blocks of a stretch in their order, each with the rounds of the bond up to the end of the stretch. -/
def logical : Nat → Stretch → List (Block × Nat)
  | 0, _ => []
  | n + 1, x => (heads x).map (fun b => (b, n)) ++ logical n (x.map (·.drop 1))
/-- The logical block stream that the receiver rebuilds from a bond of width `w`: the markers are no part of it (R70). -/
def rebuild (w : Nat) (x : Stretch) : List (Block × Nat) :=
  let y := (x.take w).map fun l => l.filter fun b => decide (blockKind b ≠ .marker)
  logical ((y.map List.length).foldl max 0) y

/-- A lane block's time in 0.01 ns, by LANE_RATE (R65). -/
def blockTime (rate : Nat) : Nat := if rate = 1 then 256 else 640
/-- Blocks a lane has sent by a tick of C (R65): five in eight ticks, or one in four. -/
def blocksSent (rate c : Nat) : Nat := if rate = 1 then 5 * c / 8 else c / 4
/-- The number of the alignment marker that falls due at a tick: one every 16,384 blocks of a lane (R70). -/
def markerAt (rate c : Nat) : Option Nat :=
  let n := blocksSent rate c / 16384
  if 0 < c ∧ blocksSent rate (c - 1) / 16384 < n then some n else none

end Sys2Proof.Machine
end

