-- ==== Sys2Proof/Machine/Flags.lean ====
section
/-! DEFINITION. Number formats, rounding, saturation and special values (08_numerics.md), and fixed-rate compression (R200). Every
value is an exact dyadic rational; each conversion rounds once (R172). -/

namespace Sys2Proof.Machine

open Sys2Proof

/-- The exact value `m * 2 ^ e`. -/
structure Dy where
  m : Int
  e : Int
deriving DecidableEq, Repr

/-- `n / 2 ^ k` to the nearest integer, a tie to the even one (R172). -/
def rheShift (n : Int) (k : Nat) : Int :=
  let d : Int := 2 ^ k
  let q := n / d
  let r := n - q * d
  if 2 * r < d then q else if d < 2 * r then q + 1 else if q % 2 = 0 then q else q + 1

/-- round_half_even of an exact value (R172). -/
def rhe (x : Dy) : Int := if 0 ≤ x.e then x.m * 2 ^ x.e.toNat else rheShift x.m (-x.e).toNat

/-- An exact value times a power of two. -/
def Dy.scale (x : Dy) (k : Int) : Dy := ⟨x.m, x.e + k⟩

/-- Two exact values brought to one exponent: the significands and that exponent. -/
def Dy.align (x y : Dy) : Int × Int × Int :=
  let e := min x.e y.e
  (x.m * 2 ^ (x.e - e).toNat, y.m * 2 ^ (y.e - e).toNat, e)

/-- The sum of two exact values. -/
def Dy.add (x y : Dy) : Dy := let a := x.align y; ⟨a.1 + a.2.1, a.2.2⟩
/-- `x < y`, exactly. -/
def Dy.lt (x y : Dy) : Bool := let a := x.align y; decide (a.1 < a.2.1)
/-- The magnitude. -/
def Dy.abs (x : Dy) : Dy := ⟨x.m.natAbs, x.e⟩
/-- The greater of two values. -/
def Dy.max (x y : Dy) : Dy := if x.lt y then y else x
/-- The lesser of two values. -/
def Dy.min (x y : Dy) : Dy := if y.lt x then y else x
/-- An integer as an exact value. -/
def Dy.ofInt (i : Int) : Dy := ⟨i, 0⟩

/-- saturate(x, lo, hi) (R172). -/
def sat (x lo hi : Int) : Int := if x < lo then lo else if hi < x then hi else x

/-- The integer range of `w` bits, signed. -/
def intLo (w : Nat) : Int := -(2 ^ (w - 1))
def intHi (w : Nat) : Int := 2 ^ (w - 1) - 1

/-! ### Binary floating formats (R171, R173). -/

/-- A sign-magnitude binary format: mantissa bits, bias, the largest finite encoding without its sign, the total width. -/
structure FpFmt where
  mb : Nat
  bias : Int
  maxEnc : Nat
  width : Nat
deriving DecidableEq, Repr

def fmtE4M3 : FpFmt := ⟨3, 7, 0x7E, 8⟩
def fmtE5M2 : FpFmt := ⟨2, 15, 0x7B, 8⟩
def fmtB16 : FpFmt := ⟨10, 15, 0x7BFF, 16⟩

/-- An input element: a finite value or a special (R171). -/
inductive Elem where
  | fin (x : Dy)
  | nan
  | inf (neg : Bool)
deriving DecidableEq, Repr

/-- The finite value of an encoding without its sign. -/
def FpFmt.mag (f : FpFmt) (enc : Nat) : Dy :=
  let ef := enc >>> f.mb
  let mf := enc % 2 ^ f.mb
  if ef = 0 then ⟨mf, 1 - f.bias - f.mb⟩ else ⟨2 ^ f.mb + mf, ef - f.bias - f.mb⟩

/-- Decoding of an element (R171): −0 is 0, subnormals are exact. -/
def FpFmt.decode (f : FpFmt) (bits : Nat) : Elem :=
  let enc := bits % 2 ^ (f.width - 1)
  let neg := bits.testBit (f.width - 1)
  if enc ≤ f.maxEnc then
    let v := f.mag enc
    .fin (if neg then ⟨-v.m, v.e⟩ else v)
  else if f.width = 8 ∧ f.mb = 3 then .nan
  else if enc % 2 ^ f.mb = 0 then .inf neg else .nan

/-- Conversion under R173: the encoding, and whether the value saturated. -/
def FpFmt.encode (f : FpFmt) (x : Dy) : Nat × Bool :=
  let a := x.m.natAbs
  if a = 0 then (0, false) else
  let top : Int := x.e + (Nat.log2 a : Int)
  let q : Int := max top (1 - f.bias) - f.mb
  let n := (rhe ⟨a, x.e - q⟩).toNat
  let enc := if n < 2 ^ f.mb then n else (((q + f.mb + f.bias).toNat) <<< f.mb) + (n - 2 ^ f.mb)
  let saturated := f.maxEnc < enc
  let enc := if saturated then f.maxEnc else enc
  (if x.m < 0 ∧ enc ≠ 0 then enc + 2 ^ (f.width - 1) else enc, saturated)

/-! ### KB8 (R170, R172). -/

/-- The exponent of a KB8 block: the smallest from −24 to 10 at which the largest magnitude rounds to at most 127. -/
def kb8Exp (a : Dy) : Nat → Int → Int
  | 0, e => e
  | k + 1, e => if rhe (a.scale (-e)) > 127 then kb8Exp a k (e + 1) else e

/-- Conversion of one block to KB8 (R172): exponent, significands, how many saturated. -/
def toKb8 (xs : List Dy) : Int × List Int × Nat :=
  let a := xs.foldl (fun m x => m.max x.abs) ⟨0, 0⟩
  let e := kb8Exp a 34 (-24)
  let rs := xs.map fun x => rhe (x.scale (-e))
  (e, rs.map fun r => sat r (-127) 127, (rs.filter fun r => r < -127 || 127 < r).length)

/-! ### Accumulators (R174 to R178). -/

/-- The KB8 addend of a block's significand sum `p` at exponent sum `s` (R175). -/
def kb8Addend (p s : Int) : Int := if -48 ≤ s then p * 2 ^ (s + 48).toNat else p / 2 ^ (-48 - s).toNat

/-- An addition that leaves the signed range of `w` bits (R155, R176). -/
def wraps (w : Nat) (x : Int) : Bool := decide (x < intLo w) || decide (intHi w < x)

/-- Requantisation's exact value (R179): (ACC + BIAS) × MUL × 2^−(SH + F). -/
def requantX (acc bias mul : Int) (sh f : Nat) : Dy := ⟨(acc + bias) * mul, -((sh : Int) + f)⟩

/-! ### Fixed-rate compression (R200). -/

/-- The code width of elements 0 to 23 for an element width and RATE (false 2:1, true 4:3). -/
def frcBits (w : Nat) (rate43 : Bool) : Nat := if w = 8 then (if rate43 then 6 else 4) else (if rate43 then 12 else 8)
/-- Bytes of one compressed block. -/
def frcBytes (w : Nat) (rate43 : Bool) : Nat := if w = 8 then (if rate43 then 24 else 16) else (if rate43 then 48 else 32)
/-- The code width of element `k`. -/
def frcW (b k : Nat) : Nat := if k < 24 then b else b - 1

/-- Whether every element of the block fits its code at shift `q`. -/
def frcOk (b : Nat) (xs : List Int) (q : Nat) : Bool :=
  (xs.zipIdx).all fun p => let r := rheShift p.1 q; decide (intLo (frcW b p.2) ≤ r) && decide (r ≤ intHi (frcW b p.2))

/-- The shift the encoder chooses, at most QMAX. -/
def frcShift (b : Nat) (xs : List Int) : Nat → Nat → Nat
  | 0, q => q
  | k + 1, q => if frcOk b xs q then q else frcShift b xs k (q + 1)

/-- Bits of numbers packed least significant first. -/
def packBits (l : List (Nat × Nat)) : Nat := (l.foldl (fun (a : Nat × Nat) p => (a.1 + (p.2 % 2 ^ p.1) <<< a.2, a.2 + p.1)) (0, 0)).1

/-- Encoding of one block of 32 elements (R200). -/
def frcEncode (w : Nat) (rate43 : Bool) (xs : List Int) : List Byte :=
  let b := frcBits w rate43
  let q := frcShift b xs (w - b + 1) 0
  let codes := (xs.zipIdx).map fun p =>
    let cw := frcW b p.2
    (cw, (BitVec.ofInt cw (sat (rheShift p.1 q) (intLo cw) (intHi cw))).toNat)
  natLE (frcBytes w rate43) (q + packBits codes <<< 8)

/-- Decoding of one block (R200): `lo` is −127 for KB8 significands. -/
def frcDecode (w : Nat) (rate43 : Bool) (lo : Int) (bs : List Byte) : List Int :=
  let b := frcBits w rate43
  let n := leNat bs
  let q := n % 16
  (List.range 32).map fun k =>
    let off := 8 + (if k < 24 then k * b else 24 * b + (k - 24) * (b - 1))
    sat (sx (frcW b k) (n >>> off) * 2 ^ q) lo (intHi w)

end Sys2Proof.Machine
end

