-- ==== Sys2Proof/Machine/FePix.lean ====
section
/-! DEFINITION. Pixel arithmetic of the image front ends (05_image_front_ends.md, R96 to R104, R112): pure functions over lines, a line
being a list of samples of one plane. -/

namespace Sys2Proof.Machine

open Sys2Proof

/-- A line of one plane. -/
abbrev Row := List Nat

/-- Saturation to 0 to 65,535. -/
def sat16 (x : Int) : Nat := if x < 0 then 0 else if 65535 < x then 65535 else x.toNat
/-- The signed 16-bit value of a register half. -/
def s16 (n : Nat) : Int := sx 16 n

/-- Unpacking (R96): `cnt` pixels of a payload. -/
def unpackPix (fmt cnt : Nat) (bs : List Byte) : Row :=
  let b := fun i => (bs.getD i 0).toNat
  (upTo cnt).map fun i =>
    if fmt = 0x08 then b i else if fmt = 0x10 then b (2 * i) + 256 * b (2 * i + 1)
    else if i % 2 = 0 then b (3 * (i / 2)) + 256 * (b (3 * (i / 2) + 1) % 16)
    else b (3 * (i / 2) + 1) / 16 + 16 * b (3 * (i / 2) + 2)

/-! ### Tables (R119) -/

/-- Bytes of a table image for `planes` planes of `w` columns. -/
def tblLen (w planes : Nat) : Nat := planes * (w / 8 + 4 * w)
/-- A plane's part of the table image. -/
def tblPlane (t : List Byte) (w p : Nat) : List Byte := (t.drop (p * (w / 8 + 4 * w))).take (w / 8 + 4 * w)
/-- A column's defect bit, DARK and GAIN. -/
def tblDefect (t : List Byte) (c : Nat) : Bool := ((t.getD (c / 8) 0).toNat).testBit (c % 8)
def tblDark (t : List Byte) (w c : Nat) : Nat := leAt t (w / 8 + 2 * c) 2
def tblGain (t : List Byte) (w c : Nat) : Nat := leAt t (w / 8 + 2 * w + 2 * c) 2

/-! ### Stage 2 (R97) -/

/-- The nearest column with a clear bit within 4 columns to one side. -/
def nearClear (bad : Nat → Bool) (n c : Nat) (right : Bool) : Option Nat :=
  ((upTo 4).map (· + 1)).findSome? fun d =>
    if right then (if c + d < n ∧ ¬ bad (c + d) then some (c + d) else none)
    else if d ≤ c ∧ ¬ bad (c - d) then some (c - d) else none

/-- Defect-pixel replacement of a plane: the line, and the defects left unreplaced. -/
def dprRow (bad : Nat → Bool) (x : Row) : Row × Nat :=
  let n := x.length
  let r := (upTo n).map fun c =>
    let v := x.getD c 0
    if bad c then
      (match nearClear bad n c false, nearClear bad n c true with
       | some a, some b => ((x.getD a 0 + x.getD b 0 + 1) / 2, 0)
       | some a, none => (x.getD a 0, 0)
       | none, some b => (x.getD b 0, 0)
       | none, none => (v, 1))
    else (v, 0)
  (r.map (·.1), (r.map (·.2)).foldl (· + ·) 0)

/-! ### Stage 3 (R98, R99) -/

/-- The taps of a pass under FES_CTL.SNR and FES_SNR. -/
def snrTaps (mode : Nat) (reg : Word) : List Nat :=
  let c0 := fld 7 0 reg; let c1 := fld 15 8 reg; let c2 := fld 23 16 reg
  if mode = 3 then [c2, c1, c0, c1, c2] else [c1, c0, c1]

/-- A weighted sum divided by 256 with round-half-even, saturated (R98). -/
def snrSum (ts vs : List Nat) : Nat := sat16 (rheShift (((ts.zip vs).map fun (p : Nat × Nat) => p.1 * p.2).foldl (· + ·) 0 : Nat) 8)

/-- The horizontal pass: edge pixels are replicated. -/
def snrH (mode : Nat) (reg : Word) (x : Row) : Row :=
  if mode = 0 then x else
    let ts := snrTaps mode reg
    let h := ts.length / 2
    (upTo x.length).map fun i => snrSum ts ((upTo ts.length).map fun j => x.getD (min (i + j - h) (x.length - 1)) 0)

/-- The vertical pass over the rows that stand for the taps. -/
def snrV (mode : Nat) (reg : Word) (rows : List Row) (centre : Row) : Row :=
  if mode < 2 then centre else
    (upTo centre.length).map fun i => snrSum (snrTaps mode reg) (rows.map fun r => r.getD i 0)

/-- One step of the temporal recursion (R99). -/
def tnrStep (alpha : Nat) (y x : Row) : Row :=
  (y.zip x).map fun (p : Nat × Nat) => sat16 (p.1 + rheShift (alpha * ((p.2 : Int) - p.1)) 8)

/-- Temporal noise reduction of one line: the new state and the output (R99). -/
def tnr (alpha : Nat) (good : Bool) (st : Option (List Row)) (x : List Row) : Option (List Row) × List Row :=
  if 256 ≤ alpha then (none, x) else
    match st, good with
    | none, true => (some x, x)
    | none, false => (none, x)
    | some y, true => let y' := (y.zip x).map fun (p : Row × Row) => tnrStep alpha p.1 p.2; (some y', y')
    | some y, false => (some y, y)

/-! ### Stage 4 (R100) -/

/-- Dark and flat-field correction of a pixel before saturation. -/
def dfPix (dark gain x : Nat) : Int := rheShift ((x - dark : Nat) * gain : Nat) 14

/-- The stage on a plane: the line, and which pixels saturated. -/
def dfRow (t : List Byte) (w : Nat) (x : Row) : Row × List Bool :=
  let r := (upTo x.length).map fun c => dfPix (tblDark t w c) (tblGain t w c) (x.getD c 0)
  (r.map sat16, r.map fun v => decide (65535 < v))

/-! ### Stage 6 (R102) -/

/-- One channel of the colour-space conversion. -/
def cscPix (m0 m1 m2 off : Int) (v0 v1 v2 : Nat) : Nat := sat16 (rheShift (m0 * v0 + m1 * v1 + m2 * v2) 12 + off)

/-! ### Stages 7 and 8 (R103, R104) -/

/-- The exact sum of t = (v − MEAN) × MULT over the columns of one decimation box of one line. -/
def boxSum (mean mult : Int) (x : Row) (c0 xdec : Nat) : Int :=
  ((upTo xdec).map fun i => ((x.getD (c0 + i) (Config.beyondLine (c0 + i)).toNat : Int) - mean) * mult).foldl (· + ·) 0

/-- The quotient of step 3 in the integer formats and for the gate. -/
def outInt (sum : Int) (k : Nat) : Int := rheShift sum k

/-- The bytes of one element in U8, INT8, INT16 or binary16. -/
def outElem (fmt : Nat) (sum : Int) (k : Nat) : List Byte :=
  if fmt = 0 then natLE 1 (sat (outInt sum k) 0 255).toNat
  else if fmt = 1 then natLE 1 (BitVec.ofInt 8 (sat (outInt sum k) (-128) 127)).toNat
  else if fmt = 2 then natLE 2 (BitVec.ofInt 16 (sat (outInt sum k) (-32768) 32767)).toNat
  else natLE 2 (fmtB16.encode ⟨sum, -(k : Int)⟩).1

/-- KB8 blocks of 32 consecutive elements, at most `n`: the significands and the exponent bytes. -/
def outKb8 (k : Nat) : Nat → List Int → List Byte × List Byte
  | 0, _ => ([], [])
  | n + 1, xs =>
    let r := toKb8 ((xs.take 32).map fun x => ⟨x, -(k : Int)⟩)
    let t := outKb8 k n (xs.drop 32)
    (r.2.1.map (fun m => BitVec.ofInt 8 m) ++ t.1, BitVec.ofInt 8 r.1 :: t.2)

/-- The elements of a line in storage order, from the sums of each selected channel (R104). -/
def storeOrder (planar : Bool) (chs : List (List Int)) : List Int :=
  if planar then chs.flatten
  else
    let n := match chs with | c :: _ => c.length | [] => 0
    (upTo n).flatMap fun i => (chs.map fun (c : List Int) => c.getD i 0) ++ (if chs.length = 3 then [0] else [])

/-- The bytes of an output line. -/
def outLine (fmt k : Nat) (planar : Bool) (chs : List (List Int)) : List Byte :=
  let xs := storeOrder planar chs
  if fmt = 4 then let r := outKb8 k (xs.length / 32) xs; r.1 ++ r.2 else xs.flatMap fun x => outElem fmt x k

/-- Bytes of a line before rounding up to 64 (R104). -/
def outBytes (fmt : Nat) (planar : Bool) (nch cols : Nat) : Nat :=
  let n := (if ¬ planar ∧ nch = 3 then 4 else nch) * cols
  if fmt = 4 then n + n / 32 else if fmt < 2 then n else 2 * n
/-- OUTn_STRIDE. -/
def outStride (fmt : Nat) (planar : Bool) (nch cols : Nat) : Nat := (outBytes fmt planar nch cols + 63) / 64 * 64

/-! ### The presence gate's runs (R112) -/

/-- Whether a value is present under MODE with LO and HI. -/
def present (mode : Nat) (lo hi v : Int) : Bool :=
  if mode = 0 then decide (lo < v) else if mode = 1 then decide (v < lo)
  else if mode = 2 then decide (v < lo) || decide (hi < v) else decide (lo ≤ v) && decide (v ≤ hi)

/-- The runs of present pixels, those at most `gap` apart merged: pairs of first and last column, newest first. -/
def runsOf (gap : Nat) : List (Nat × Bool) → List (Nat × Nat) → List (Nat × Nat)
  | [], acc => acc
  | (x, p) :: r, acc =>
    if p then
      (match acc with
       | (a, b) :: t => if x ≤ b + 1 + gap then runsOf gap r ((a, x) :: t) else runsOf gap r ((x, x) :: (a, b) :: t)
       | [] => runsOf gap r [(x, x)])
    else runsOf gap r acc

/-- The runs of a line, short ones discarded, in column order. -/
def lineRuns (gap minrun : Nat) (ps : List Bool) : List (Nat × Nat) :=
  ((runsOf gap (ps.zipIdx.map fun (p : Bool × Nat) => (p.2, p.1)) []).reverse).filter fun (r : Nat × Nat) => decide (minrun ≤ r.2 + 1 - r.1)

end Sys2Proof.Machine
end

