-- ==== Sys2Proof/Machine/Cds.lean ====
section
/-! DEFINITION. The strip codec's slots and recording (06_strip_codec_and_replay.md, R121 to R128). -/

namespace Sys2Proof.Machine

open Sys2Proof

/-- A field of the slot's entry in the CODEC section (R122). -/
def cdsCfg (n o k : Nat) (s : State) : Nat := cfg 0x50 0 (16 * n + o) k s
/-- The slot's owner, if it is used. -/
def cdsOwner (n : Nat) (s : State) : Option Nat :=
  if (secOf s.img 0x50 0).isNone ∨ 16 ≤ cdsCfg n 0 1 s then none else some (cdsCfg n 0 1 s)
/-- The stream a slot replays into. -/
def cdsTarget (n : Nat) (s : State) : Option Nat := if 64 ≤ cdsCfg n 1 1 s then none else some (cdsCfg n 1 1 s)
/-- First byte of the record buffer, its size, the cache and its size. -/
def cdsBuf (n : Nat) (s : State) : Nat := cdsCfg n 4 4 s * 4096
def cdsBufLen (n : Nat) (s : State) : Nat := cdsCfg n 8 4 s * 4096
def cdsCache (n : Nat) (s : State) : Nat := cdsBuf n s + cdsBufLen n s
def cdsCacheLen (n : Nat) (s : State) : Nat := cdsCfg n 12 4 s * 4096
/-- The calibration output and the result log (R122). -/
def cdsOut (n : Nat) (s : State) : Nat := cdsCache n s + cdsCacheLen n s - 0x100000
def cdsRes (n : Nat) (s : State) : Nat := cdsCache n s + cdsCacheLen n s - 0x80000

/-- CDS_STAT.STATE (R123): 0 Idle, 1 Recording, 2 Held, 3 Replaying, 4 Calibrating. -/
def cdsState (n : Nat) (s : State) : Nat := rdF (cdsBase n) 2 0 s
def setCdsState (n v : Nat) (s : State) : State := wrF (cdsBase n) 2 0 v s
def cds (n : Nat) (s : State) : Cds := Fam.get {} n s.cds
def updCds (n : Nat) (f : Cds → Cds) (s : State) : State := { s with cds := s.cds.set n (f (cds n s)) }

/-- RATIO as a number, 2 to 4. -/
def cdsRatio (n : Nat) (s : State) : Nat := rdF (cdsBase n) 5 4 s + 1
/-- Bytes of a coded block: S = 12 × B / RATIO (R126). -/
def blockBytes (bits ratio : Nat) : Nat := 12 * bits / ratio
/-- The largest q (R126). -/
def qMax (bits ratio : Nat) : Nat :=
  if bits = 8 then ratio + 3 else if bits = 12 then (if ratio = 2 then 7 else if ratio = 3 then 9 else 10)
  else if ratio = 2 then 9 else if ratio = 3 then 11 else 13
/-- L of R128 for P planes of W columns. -/
def codedLen (planes w bits ratio : Nat) : Nat := (32 + planes * ((w + 95) / 96) * blockBytes bits ratio + 63) / 64 * 64
/-- L of a slot's recording. -/
def cdsL (n : Nat) (s : State) : Nat := let c := cds n s; codedLen c.planes c.width c.bits (cdsRatio n s)
/-- The lines that the record buffer holds. -/
def cdsCap (n : Nat) (s : State) : Nat := cdsBufLen n s / cdsL n s
/-- Where line `i` of the recording lies (R128). -/
def cdsAddr (n i : Nat) (s : State) : Nat := cdsBuf n s + i % (max 1 (cdsCap n s)) * cdsL n s

/-- The blocks of 96 samples of a row, the last one padded by its last sample, at most `k` of them (R126). -/
def blocks96 : Nat → Row → List Row
  | 0, _ => []
  | k + 1, x => if x.isEmpty then [] else
      let b := x.take 96
      (b ++ List.replicate (96 - b.length) (b.getLast?.getD 0)) :: blocks96 k (x.drop 96)

/-- The step chosen for a block: free within its bound, the same for the same block (R126, R127). -/
def blockQ (bits ratio : Nat) (b : Row) : Nat := Config.codecQ b bits ratio % (qMax bits ratio + 1)
/-- The block that keeps the upper B − q bits of every sample, q at its largest, behind a first byte of 0. It fits S for every B and RATIO. -/
def truncBlock (bits ratio : Nat) (b : Row) : List Byte :=
  natLE (blockBytes bits ratio) (packBits (b.map fun x => (bits - qMax bits ratio, x / 2 ^ qMax bits ratio)) <<< 8)
/-- The 96 samples that a coded block's bytes decode to, a function of the bytes alone (R127): the upper bits of a block of `truncBlock`, each
sample in the middle of its step; else free values. -/
def decodeBlock (bits ratio : Nat) (bs : List Byte) : Row :=
  if (bs.headD 0).toNat < 128 then
    let q := qMax bits ratio
    let body := leNat (bs.drop 1)
    (upTo 96).map fun i => body / 2 ^ (i * (bits - q)) % 2 ^ (bits - q) * 2 ^ q + 2 ^ (q - 1)
  else (upTo 96).map fun i => Config.codecSample bs bits i % 2 ^ bits
/-- The codec's own coding of a block: free bytes, the first one's top bit set. -/
def ownBlock (bits ratio : Nat) (b : Row) : List Byte :=
  (upTo (blockBytes bits ratio)).map fun i => let x := Config.codecByte b bits ratio i; if i = 0 then x ||| 0x80 else x
/-- Every decoded sample lies within 2^(q−1) of its input, and is it where q is 0 (R126). -/
def withinQ (q : Nat) (b d : Row) : Bool :=
  (b.zip d).all fun (x : Nat × Nat) => if q = 0 then decide (x.1 = x.2) else decide ((if x.1 < x.2 then x.2 - x.1 else x.1 - x.2) ≤ 2 ^ (q - 1))
/-- A coded block and its q (R126, R127). The coding inside a block is no interface: it is free, and keeps the bound on the error. -/
def codeBlock (bits ratio : Nat) (b : Row) : List Byte × Nat :=
  let q := blockQ bits ratio b
  if withinQ q b (decodeBlock bits ratio (ownBlock bits ratio b)) then (ownBlock bits ratio b, q) else (truncBlock bits ratio b, qMax bits ratio)
/-- A plane's blocks. -/
def rowBlocks (x : Row) : List Row := blocks96 (x.length / 96 + 1) x
/-- A line's coded bytes and its largest q. -/
def codeLine (bits ratio : Nat) (planes : List Row) : List Byte × Nat :=
  let bs := (planes.flatMap rowBlocks).map (codeBlock bits ratio)
  (bs.flatMap (·.1), (bs.map (·.2)).foldl max 0)
/-- The planes of `w` columns that a line's coded bytes decode to. -/
def decodeLine (bits ratio planes w : Nat) (bs : List Byte) : List Row :=
  let n := (w + 95) / 96; let size := blockBytes bits ratio
  (upTo planes).map fun p => ((upTo n).flatMap fun i => decodeBlock bits ratio ((bs.drop ((p * n + i) * size)).take size)).take w

/-- Header flags of a line (R128). -/
abbrev lfBAD : Nat := 1
abbrev lfMISSING : Nat := 2
abbrev lfOVR : Nat := 4
abbrev lfGAP : Nat := 8
abbrev lfSTOPPED : Nat := 16
abbrev lfFRAME : Nat := 32

/-- The 32-byte header with its CRC over bytes 0 to 23 and the blocks (R128). -/
def lineHead (x : RecLine) : List Byte :=
  natLE 4 x.slot.toNat ++ natLE 4 x.count.toNat ++ natLE 8 x.time.toNat ++ natLE 4 x.no ++ natLE 2 x.flags ++ natLE 2 0
/-- The CRC of a coded line: its header before the CRC and its blocks (R128). -/
def lineCrc (x : RecLine) (blocks : List Byte) : Word := crc32 (lineHead x ++ blocks)
/-- The header of a coded line (R128). -/
def lineHeader (x : RecLine) (blocks : List Byte) : List Byte := lineHead x ++ natLE 4 (lineCrc x blocks).toNat ++ natLE 4 0

/-! ### Loads over the last 1 ms (R95, R121) -/

/-- Samples of unit `u` within the last 1 ms. -/
def loadNow (u : Nat) (s : State) : Nat :=
  (((Fam.get [] u s.loads).filter fun (p : BitVec 64 × Nat) => decide (ticksSince p.1 s < 625000)).map (·.2)).foldl (· + ·) 0
/-- Samples entered in a unit's load. -/
def addLoad (u n : Nat) (s : State) : State :=
  let l := (Fam.get [] u s.loads).filter fun (p : BitVec 64 × Nat) => decide (ticksSince p.1 s < 625000)
  { s with loads := s.loads.set u (if n = 0 then l else (tick s, n) :: l) }
/-- CODEC_STAT as the loads give it, in Msample/s. -/
def showCodec (s : State) : State := wr codecBase (wd (satN 8000 (loadNow 17 s / 1000) * 65536 + satN 8000 (loadNow 16 s / 1000))) s
/-- FE_LOAD of front end `f`, in Mpixel/s (R95, R120). -/
def showFeLoad (f : Nat) (s : State) : State := wr (feBase f + 4) (wd (satN 3500 (loadNow f s / 1000))) s
/-- The loads as they stand now: what lies more than 1 ms back no longer counts. -/
def ageLoads (s : State) : State :=
  let held := fun u => !(Fam.get [] u s.loads).isEmpty
  let s' := eachDo (fun u s => if held u then addLoad u 0 s else s) (upTo 18) s
  let s' := eachDo (fun f s => if held f then showFeLoad f s else s) (upTo 16) s'
  if held 16 || held 17 then showCodec s' else s'
/-- The load of the encoder (R121). -/
abbrev encUnit : Nat := 16
/-- The load of the decoder (R121). -/
abbrev decUnit : Nat := 17
/-- Samples a millisecond that the encoder, and the decoder, takes (R121). -/
abbrev codecMs : Nat := 8000000

/-- Samples a slot's line brings to the encoder or the decoder; they count for its owner's share of the codec's energy (R313). -/
def codecLoad (n u samples : Nat) (s : State) : State :=
  let s := match cdsOwner n s with | some p => updPart p (fun x => { x with energySamples := x.energySamples + samples }) s | none => s
  showCodec (addLoad u samples s)

/-! ### Recording (R124, R125) -/

/-- A recording ends: its slot holds it, or is idle where it has no line. -/
def recEnd (n : Nat) (s : State) : State :=
  setCdsState n (if (cds n s).held.isEmpty then 0 else 2) (updCds n (fun c => { c with stopK := none }) s)

/-- A line's coded bytes in the record buffer and in the slot's list; the ring's oldest goes, ONESHOT ends full. -/
def recPut (n : Nat) (x : RecLine) (blocks : List Byte) (q : Nat) (s : State) : State :=
  match cdsOwner n s with
  | none => s
  | some p =>
    let cap := cdsCap n s
    if cap = 0 then recEnd n s else
      let s := (devWrite mCodec n p (cdsAddr n x.no s) (lineHeader x blocks ++ blocks) s).2.2
      let s := updCds n (fun c => { c with total := c.total + 1, held := (c.held ++ [x]).drop (c.held.length + 1 - cap), lastBlocks := blocks }) s
      let s := wrF (cdsBase n) 17 14 (max (rdF (cdsBase n) 17 14 s) q) s
      let s := wr (cdsBase n + 4) (wd (cds n s).held.length) s
      if !rdB (cdsBase n) 6 s && decide ((cds n s).total = cap) then recEnd n s else s

/-- One line taken by a recording slot: with GAP and no samples beyond the encoder's rate (R125); a missing line, and one of which the tap
delivered none, has no samples. -/
def recLine (n : Nat) (slot count : Word) (time : BitVec 64) (kind : Nat) (ovr frameStart : Bool) (planes : List Row) (s : State) : State :=
  let c := cds n s
  let samples := (planes.map fun (r : Row) => r.length).foldl (· + ·) 0
  let none' := decide (kind = 2) || planes.isEmpty
  let gap := !none' && decide (codecMs < loadNow encUnit s + samples)
  let flags := (if kind = 1 then lfBAD else 0) + (if kind = 2 then lfMISSING else 0) + (if ovr then lfOVR else 0) +
    (if gap then lfGAP else 0) + (if frameStart then lfFRAME else 0)
  let x : RecLine := { no := c.total, slot := slot, count := count, time := time, flags := flags, has := false }
  if none' then recPut n x [] 0 s
  else if gap then recPut n x [] 0 (inc (cdsBase n + 0x10) 1 s)
  else
    let r := codeLine c.bits (cdsRatio n s) planes
    recPut n { x with has := true } r.1 r.2 (codecLoad n encUnit samples s)

/-- Slots that record stream `st` at a tap. -/
def recorders (tap st : Nat) (s : State) : List Nat :=
  (upTo 16).filter fun n => decide (cdsState n s = 1) && decide (rdF (cdsBase n) 13 8 s = st) && decide (rdF (cdsBase n) 3 3 s = tap)

/-- Slot `k` of a stream passes a tap: recordings that have begun take it, one that ends with its frame ends (R124). -/
def tapLine (tap st fl k : Nat) (slot count : Word) (time : BitVec 64) (kind : Nat) (ovr : Bool) (planes : List Row) (s : State) : State :=
  eachDo (fun n s =>
    let c := cds n s
    if k < c.startK then s else
      let s := recLine n slot count time kind ovr (decide (k % max 1 fl = 0)) planes s
      if c.stopK = some (k + 1) ∧ cdsState n s = 1 then recEnd n s else s) (recorders tap st s) s

/-- The source stream stops: the last line carries STOPPED and the recording ends (R124). -/
def recStreamStop (st : Nat) (s : State) : State :=
  eachDo (fun n s =>
    let c := cds n s
    let s := match c.held.getLast?, cdsOwner n s with
      | some x, some p =>
        let x := { x with flags := x.flags + lfSTOPPED }
        let s := (devWrite mCodec n p (cdsAddr n x.no s) (lineHeader x c.lastBlocks) s).2.2
        updCds n (fun c => { c with held := c.held.dropLast ++ [x] }) s
      | _, _ => s
    recEnd n s) (recorders 0 st s ++ recorders 1 st s) s

end Sys2Proof.Machine
end

