-- ==== Sys2Proof/Machine/FeBase.lean ====
section
/-! DEFINITION. The registers of the front ends' slot-sets (R120) and what other units take from them: the trigger source, counts per
slot, line waits (R106), lags (R296), release of ring lines (R105). -/

namespace Sys2Proof.Machine

open Sys2Proof

/-- The block of the slot-set that serves stream `st` (R120). -/
def fes (st : Nat) : Nat := feBase (st / 4) + 0x400 + 0x400 * (st % 4)
/-- The block of output `n` of a stream. -/
def fesOut (st n : Nat) : Nat := fes st + 0x100 + 0x40 * n

/-- Counts per slot of a trigger source, as a fraction (R296): 2^16 over RATIO for a synthesised EMU, 1 for a passthrough one, 0 for
arrival stamping. -/
def countsPerSlot (src : Nat) (s : State) : Nat × Nat :=
  if src < 4 then
    (let mode := rdF (ledBase + 0x300 + 0x40 * src) 1 0 s
     if mode = 2 then (1, 1) else (65536, max 1 (rd (ledBase + 0x304 + 0x40 * src) s).toNat))
  else (0, 1)

/-- The wait W of R106 in slots, from FES_CTL and FES_TRI. -/
def lineWait (st : Nat) (ctl tri : Word) (s : State) : Nat :=
  (if fld 3 2 ctl = 2 then 1 else if fld 3 2 ctl = 3 then 2 else 0) +
  (if cfg 0x20 st 6 1 s = 1 then max (fld 3 0 tri) (max (fld 7 4 tri) (fld 11 8 tri)) else 0)

/-- N_lag in slots (R296), under a reader of the slot-set's settings. -/
def lagSlots (get : Nat → State → Word) (st : Nat) (s : State) : Nat :=
  let g := get (fes st + 0x50) s
  let y := 2 ^ fld 21 20 (get (fesOut st (fld 3 2 g)) s)
  fld 15 8 g * y + lineWait st (get (fes st) s) (get (fes st + 0x20) s) s + 1

/-- Settings as they stand for a stream: in force while it runs, the shadows that a start applies otherwise (R118). -/
def fesNow (st k : Nat) (s : State) : Word := if rdB (fes st + 4) 1 s then rdForce k s else rd k s

/-- D of R296 in ns for a stream with a SPEED_MAX, rounded down. -/
def deadlineD (st speedMax : Nat) (s : State) : Int :=
  let get := fesNow st
  let (n, d) := countsPerSlot (fld 2 0 (get (fes st + 0x10) s)) s
  let counts : Int := (cfg 0x20 st 16 4 s : Int) * d - (lagSlots get st s : Int) * n
  counts * 1000000000 / ((max 1 speedMax : Nat) * d : Int) - (fld 31 16 (get (fes st + 0x14) s) : Int) * 100 - 8000

end Sys2Proof.Machine
end

