-- ==== Sys2Proof/Machine/Motion.lean ====
section
/-! DEFINITION. The motion unit (14_motion_and_ejection.md, R316 to R329): positions, speeds, presets, snapshots, emulated outputs and
their trigger logs. Sources are numbered 0 to 3 for ENC0 to ENC3, 4 and 5 for SSI0 and SSI1. -/

namespace Sys2Proof.Machine

open Sys2Proof

/-! ### Sources -/

/-- The block of a source (R348). -/
def srcBase (i : Nat) : Nat := if i < 4 then ledBase + 0x100 + 0x40 * i else ledBase + 0x200 + 0x40 * (i - 4)
def kPOS (i : Nat) : Nat := srcBase i + (if i < 4 then 0x10 else 0x14)
def kSPEED (i : Nat) : Nat := srcBase i + (if i < 4 then 0x14 else 0x18)
/-- The position P of a source. -/
def encPos (i : Nat) (s : State) : Word := rd (kPOS i) s
/-- SPEED of a source in counts/s (R323). -/
def encSpeed (i : Nat) (s : State) : Int := (rd (kSPEED i) s).toInt
/-- An input is enabled (R330). -/
def srcOn (i : Nat) (s : State) : Bool := rdB (srcBase i) 0 s
/-- An input is decided: DECIDED of an encoder (R319), VALID of an SSI input (R322). -/
def srcDecided (i : Nat) (s : State) : Bool := if i < 4 then rdB (srcBase i + 8) 0 s else rdB (srcBase i + 0xC) 0 s
def msrc (i : Nat) (s : State) : MSrc := Fam.get {} i s.srcs
def updSrc (i : Nat) (f : MSrc → MSrc) (s : State) : State := { s with srcs := s.srcs.set i (f (msrc i s)) }
/-- A partition may read a source (R51). -/
def encRead (p i : Nat) (s : State) : Bool := (cfg 0x10 p 10 1 s).testBit i

/-- What a count makes of an encoder's decision, count Q and position P: (decided, pending direction, Q, P) (R318, R319). -/
def encApply (dec : Bool) (pend : Option Bool) (q p : Word) (fwd : Bool) : Bool × Option Bool × Word × Word :=
  if dec then
    let q := if fwd then q + 1 else q - 1
    let d := (q - p).toInt
    (true, none, q, if 0 < d then q else if d < -1 then q + 1 else p)
  else if pend = some fwd then
    (if fwd then (true, none, p + 1, p + 1) else (true, none, p - 1 - 1, p - 1))
  else (false, some fwd, q, p)

/-! ### Emulated outputs (R328, R329) -/

/-- The block of an emulated output. -/
def emuBase (m : Nat) : Nat := ledBase + 0x300 + 0x40 * m
def emuMode (m : Nat) (s : State) : Nat := rdF (emuBase m) 1 0 s
def emuSrc (m : Nat) (s : State) : Nat := rdF (emuBase m) 4 2 s
def emu (m : Nat) (s : State) : Emu := Fam.get {} m s.emus
/-- The key of the log entry of a trigger index (R348). -/
def kTRIG (m j : Nat) : Nat := ledBase + 0x4000 + 0x1000 * m + 0x10 * (j % 256)
/-- The owner of an emulated output (R51). -/
def emuOwner (m : Nat) (s : State) : Option Nat := (upTo 16).find? fun p => (cfg 0x10 p 7 1 s).testBit m
/-- Edges waiting. -/
def backlogN (e : Emu) : Nat := (e.backlog.map (·.1)).foldl (· + ·) 0
/-- EMU_OUT and EMU_STAT's backlog as the output stands. -/
def setEmu (m : Nat) (e : Emu) (s : State) : State :=
  let s := { s with emus := s.emus.set m e }
  wrF (emuBase m + 8) 15 0 (backlogN e) (wr (emuBase m + 0x10) (wdi e.out) s)

/-- A source's motion of `dp` counts enters the accumulators of the outputs that synthesise from it; edges beyond a backlog of 65,535
are lost, counted and raised (R328). -/
def emuMove (m i : Nat) (dp : Int) (s : State) : State :=
  if emuMode m s ≠ 1 ∨ emuSrc m s ≠ i then s else
    let e := emu m s
    let a := e.acc + dp * (rd (emuBase m + 4) s).toNat
    let n := a / 65536 - e.acc / 65536
    let room := 65535 - backlogN e
    let k := min n.natAbs room
    let s := setEmu m { e with acc := a, backlog := if k = 0 then e.backlog else e.backlog ++ [(k, decide (0 < n), encPos i s)] } s
    if n.natAbs ≤ room then s else
      let s := inc (emuBase m + 0x18) (n.natAbs - room) (wrB (emuBase m + 0xC) 0 true s)
      match emuOwner m s with
      | some p => raiseFault 0x4004 m p 0 [p + 1, 0] s
      | none => raiseFault 0x4004 m 0xFF 0 [0] s

/-- The A and B levels after a count, from those before (R316): A leads B forward. -/
def countLevels (ab : Nat) (fwd : Bool) : Nat :=
  let seq := [0, 1, 3, 2]
  let i := seq.findIdx (· = ab % 4)
  seq.getD (if fwd then (i + 1) % 4 else (i + 3) % 4) 0
/-- What a synthesised edge does to the output's pins, Z low (R328): one transition of A or B in quadrature; in pulse and direction B shows the
direction, and a forward edge beyond the high-water mark gives one pulse of A. DESIGN CHOICE (notes/assumptions/47.md): B is high for backward. -/
def emuPins (m : Nat) (fwd : Bool) (s : State) : State :=
  let e := emu m s
  if !rdB (emuBase m) 5 s then { s with emus := s.emus.set m { e with pins := BitVec.ofNat 3 (countLevels (e.pins.toNat % 4) fwd) } }
  else
    let s := { s with emus := s.emus.set m { e with pins := if fwd then 0 else 2 } }
    if fwd && decide (e.hwm < e.out + 1) then emit (.emuPulse m) s else s

/-- One edge leaves an output: the count moves and, above the high-water mark, a trigger is logged, INDEX last (R329); an undecided
source logs none. -/
def emuEdgeOut (m : Nat) (fwd : Bool) (pos : Word) (decided : Bool) (s : State) : State :=
  let e := emu m s
  let out := if fwd then e.out + 1 else e.out - 1
  let s := wrB (emuBase m + 8) 16 (!fwd) s
  if fwd && decided && decide (e.hwm < out) then
    let t := (nowNs s).toNat
    let k := kTRIG m e.trigs
    let s := wr k (wd e.trigs) (wr (k + 0xC) (wd (t / 2 ^ 32)) (wr (k + 8) (wd t) (wr (k + 4) pos s)))
    setEmu m { e with out := out, hwm := out, trigs := e.trigs + 1 } (wr (emuBase m + 0x14) (wd e.trigs) s)
  else setEmu m { e with out := out } s

/-- The oldest waiting edge leaves a synthesised output (R328). -/
def emuEdgeBody (m : Nat) (s : State) : State :=
  let e := emu m s
  match e.backlog with
  | [] => s
  | (k, fwd, pos) :: r =>
    let s := setEmu m { e with backlog := if k ≤ 1 then r else (k - 1, fwd, pos) :: r } s
    emuEdgeOut m fwd pos (srcDecided (emuSrc m s) s) (emuPins m fwd s)

/-- Resynchronisation (R328): the backlog is discarded and accumulator, count and mark follow the source; no edge, no trigger. -/
def emuResync (m : Nat) (s : State) : State :=
  let i := emuSrc m s
  let acc := if emuMode m s = 1 then (encPos i s).toInt * (rd (emuBase m + 4) s).toNat else (encPos i s).toInt * 65536
  let e := emu m s
  setEmu m { e with acc := acc, backlog := [], out := acc / 65536, hwm := acc / 65536 } s

/-- The count that a change of the quadrature pins makes: none when nothing or both change (R316). Pins are A, B, Z in bits 0, 1, 2. -/
def pinCount (old new : BitVec 3) : Option Bool :=
  let ph := fun (v : BitVec 3) => match v.getLsbD 0, v.getLsbD 1 with
    | false, false => 0 | true, false => 1 | true, true => 2 | false, true => 3
  let d := (ph new + 4 - ph old) % 4
  if d = 1 then some true else if d = 3 then some false else none

/-- Pins copied unfiltered to a passthrough output (R328); a count is one output edge, at the position its acceptance gives. -/
def passBody (m : Nat) (pins : BitVec 3) (s : State) : State :=
  let i := emuSrc m s
  if emuMode m s ≠ 2 ∨ 4 ≤ i ∨ ¬ srcOn i s then s else
    let e := emu m s
    let s := setEmu m { e with pins := pins } s
    match pinCount e.pins pins with
    | none => s
    | some fwd =>
      let x := msrc i s
      let r := encApply (srcDecided i s) x.pend x.q (encPos i s) fwd
      emuEdgeOut m fwd r.2.2.2 r.1 s

/-! ### Readings (R323, R324) -/

/-- The speed window W of a source in µs (R330). -/
def srcWindow (i : Nat) (s : State) : Nat := if i < 4 then cfg 0x40 0 (16 * i + 4) 4 s else cfg 0x40 0 (64 + 16 * (i - 4) + 8) 4 s

/-- SPEED from DELTA (R323), truncated toward zero. -/
def speedOf (d : Int) (w : Nat) : Int := if w = 0 then 0 else (d * 1000000).tdiv w

/-- A speed window ends: DELTA and SPEED are set (R323). An SSI source has no DELTA register. -/
def windowEnd (i : Nat) (s : State) : State :=
  let d := (msrc i s).moved
  let s := updSrc i (fun x => { x with moved := 0 }) s
  let s := if i < 4 then wr (srcBase i + 0x18) (wdi d) s else s
  wr (kSPEED i) (wdi (speedOf d (srcWindow i s))) s

/-- MOT_SNAP.GO (R324): every position, speed and the module time of one instant. -/
def snapGo (s : State) : State :=
  let t := (nowNs s).toNat
  let s := wr (ledBase + 0xC) (wd (t / 2 ^ 32)) (wr (ledBase + 8) (wd t) s)
  eachDo (fun x s => wr (ledBase + 0x28 + 4 * x) (rd (kSPEED x) s) (wr (ledBase + 0x10 + 4 * x) (encPos x s) s)) (upTo 6) s

/-- A write of MOT_SNAP from the PF after the expert unlock (R348). -/
def snapBody (fn : Nat) (v : Word) (s : State) : State :=
  if fn = 0 ∧ expert s ∧ gateEn 6 s ∧ bitOf 0 v then snapGo s else s

/-! ### Z (R321) -/

/-- A Z edge: P is copied and counted. -/
def zEdge (i : Nat) (s : State) : State :=
  if !srcOn i s then s else
    wrB (srcBase i + 8) 4 true (wrB (srcBase i + 0xC) 0 true (inc (srcBase i + 0x20) 1 (wr (srcBase i + 0x1C) (encPos i s) s)))

/-! ### SSI (R322) -/

/-- Gray to binary. -/
def grayToBin (w : Nat) : Nat := (upTo 32).foldl (fun a i => a ^^^ (w >>> i)) 0

/-- What a word makes of an SSI position: the first sets it, a later one moves it by the difference in BITS bits, or sets it with 32. -/
def ssiPos (bits : Nat) (last : Option Word) (p w : Word) : Word :=
  match last with
  | none => w
  | some l => if bits = 32 then p + (w - l) else p + BitVec.ofInt 32 (sx bits ((w - l).toNat % 2 ^ bits))

/-- A frame period starts (R322). -/
def ssiStart (j : Nat) (s : State) : State := if srcOn (4 + j) s then wrB (srcBase (4 + j) + 0xC) 1 true s else s

/-- A frame's word is read: SSI_RAW after Gray conversion, the position, VALID. -/
def ssiWord (j : Nat) (raw : Word) (s : State) : State :=
  let b := srcBase (4 + j)
  let bits := rdF b 7 2 s
  let w0 := raw.toNat % 2 ^ bits
  let w := wd (if rdB b 1 s then grayToBin w0 % 2 ^ bits else w0)
  let x := msrc (4 + j) s
  let p := ssiPos bits x.last (encPos (4 + j) s) w
  let s := updSrc (4 + j) (fun y => { y with last := some w, moved := if x.last.isSome then y.moved + (p - encPos (4 + j) s).toInt else y.moved }) s
  let s := inc (b + 0x1C) 1 (wrB (b + 0xC) 1 false (wr (b + 0x10) w s))
  wrB (b + 0xC) 0 true (wr (kPOS (4 + j)) p s)

end Sys2Proof.Machine
end

