-- ==== Sys2Proof/Machine/Fe.lean ====
section
/-! DEFINITION. The image front ends (05_image_front_ends.md): settings and tables (R118 to R120), the pipeline of slots through stages 1
to 6 with its line waits (R94 to R102, R106), outputs and rings (R103 to R105, R116), statistics (R111), the presence gate and its windows
(R112 to R115), pairing (R107, R108), start and stop (R117). -/

namespace Sys2Proof.Machine

open Sys2Proof

/-! ### State and registers -/

def fe (st : Nat) (s : State) : FeSt := Fam.get {} st s.fes
def updFe (st : Nat) (f : FeSt → FeSt) (s : State) : State := { s with fes := s.fes.set st (f (fe st s)) }
/-- A stream's LINE_WIDTH, planes, FRAME_LINES, FMT (R53). -/
def lineWidth (st : Nat) (s : State) : Nat := cfg 0x20 st 4 2 s
def trilinear (st : Nat) (s : State) : Bool := decide (cfg 0x20 st 6 1 s = 1)
def planesOf (st : Nat) (s : State) : Nat := if trilinear st s then 3 else 1
def frameLines (st : Nat) (s : State) : Nat := max 1 (cfg 0x20 st 10 2 s)
def fmtOf (st : Nat) (s : State) : Nat := cfg 0x20 st 24 1 s
/-- The tag of a stream's transfers: its partition. -/
def feTag (st : Nat) (s : State) : Nat := (streamPart st s).getD 17
/-- The block of the first lane of a stream's bond (R88). -/
def primBase (st : Nat) (s : State) : Nat := laneBase (cfg 0x20 st 1 1 s)

/-- FES_STAT bits. -/
abbrev fsPORT : Nat := 0
abbrev fsRUN : Nat := 1
abbrev fsSYNC : Nat := 2
abbrev fsDROP : Nat := 3
abbrev fsPEND : Nat := 4
abbrev fsTBLRDY : Nat := 5
abbrev fsFULL : Nat := 6
abbrev fsTBLPEND : Nat := 7
def feStat (st b : Nat) (v : Bool) (s : State) : State := wrB (fes st + 4) b v s
def feRuns (st : Nat) (s : State) : Bool := rdB (fes st + 4) fsRUN s

/-- The STREAM source of a stream's owner and of the PF (R394). -/
def streamInt (st : Nat) (s : State) : State :=
  match streamPart st s with | some p => fireInt 0 4 (fireInt (p + 1) 4 s) | none => s
/-- An FES_EVT bit set (R120, R394). -/
def feEvt (st b : Nat) (s : State) : State := streamInt st (wrB (fes st + 8) b true s)

/-- Offsets of the slot-set's RWS registers (R120). -/
def fesOffs : List Nat :=
  [0x000, 0x010, 0x014, 0x018, 0x01C, 0x020, 0x024, 0x028, 0x02C, 0x030, 0x034, 0x038, 0x03C, 0x040, 0x044, 0x048, 0x050, 0x054, 0x058,
   0x05C, 0x060, 0x064, 0x068] ++ (upTo 4).flatMap fun n => [0, 4, 8, 0xC, 0x10].map fun o => 0x100 + 0x40 * n + o
/-- The offsets that take effect only at a stream start (R118), with `on` the outputs that are enabled. -/
def startOnly (on : Nat → Bool) (o : Nat) : Bool :=
  decide (o = 0x060 ∨ o = 0x064 ∨ o = 0x068) ||
    (decide (0x100 ≤ o) && (decide (o % 0x40 = 8 ∨ o % 0x40 = 0xC ∨ o % 0x40 = 0x10) || (decide (o % 0x40 = 0) && on ((o - 0x100) / 0x40))))

/-- A register of a settings snapshot. -/
def FeCfg.reg (c : FeCfg) (o : Nat) : Word := Fam.get 0 o c.regs
/-- The settings now in force. -/
def feSnap (st : Nat) (s : State) : FeCfg :=
  { regs := fesOffs.map fun o => (o, rdForce (fes st + o) s), tbl := (fe st s).active }

/-- The EMU that a SRC names may be read by the stream's partition (R107): its source lies in ENC_READ, or it has MODE 0. -/
def srcReadable (st src : Nat) (s : State) : Bool :=
  if src < 4 then decide (emuMode src s = 0) || (match streamPart st s with | some p => encRead p (emuSrc src s) s | none => false) else true

/-- The range tests of R120 on values of a slot-set's registers: an offset and whether its value passes. DESIGN CHOICE
(notes/assumptions/23.md): OUTn_CROP, whose reset value 0 lies outside its range, is tested only where OUTn_CTL has EN set. -/
def fesTests (get : Nat → Word) (st : Nat) (s : State) : List (Nat × Bool) :=
  let mono := !trilinear st s
  let ctl := get 0; let tri := get 0x020; let g := get 0x050
  let base : List (Nat × Bool) :=
    [(0x000, decide (fld 11 10 ctl ≠ 3)), (0x010, srcReadable st (fld 2 0 (get 0x010)) s),
     (0x01C, decide (1 ≤ fld 8 0 (get 0x01C) ∧ fld 8 0 (get 0x01C) ≤ 256)),
     (0x020, decide (fld 3 0 tri = 0 ∨ fld 7 4 tri = 0 ∨ fld 11 8 tri = 0)),
     (0x050, decide (1 ≤ fld 31 16 g ∧ 1 ≤ fld 15 8 g ∧ fld 5 4 g ≤ (if mono then 0 else 2))),
     (0x058, decide (1 ≤ fld 15 8 (get 0x058))),
     (0x05C, decide (fld 31 16 (get 0x05C) ≤ 32767 ∧ fld 15 0 (get 0x05C) ≤ 32767)),
     (0x068, decide (16 ≤ fld 16 0 (get 0x068) ∧ fld 16 0 (get 0x068) ≤ 65536))]
  let outs : List (Nat × Bool) := (upTo 4).flatMap fun n =>
    let o := 0x100 + 0x40 * n
    let c := get o; let crop := get (o + 4)
    let xd := 2 ^ fld 19 18 c; let w := fld 31 16 crop
    [(o, decide (fld 3 1 c ≤ 4 ∧ fld 14 12 c ≠ 0) && (!mono || decide (fld 14 12 c = 1))),
     (o + 4, !bitOf 0 c || decide (32 ≤ w ∧ w ≤ 32768 ∧ fld 15 0 crop % xd = 0 ∧ w % xd = 0 ∧ w / xd % 32 = 0 ∧ 32 ≤ w / xd)),
     (o + 0x10, decide (16 ≤ fld 16 0 (get (o + 0x10)) ∧ fld 16 0 (get (o + 0x10)) ≤ 65536))]
  base ++ outs
/-- The first offset out of range. -/
def fesBad (get : Nat → Word) (st : Nat) (s : State) : Option Nat :=
  ((fesTests get st s).find? fun (x : Nat × Bool) => !x.2).map (·.1)
/-- The tests on the shadows. -/
def shadowsBad (st : Nat) (s : State) : Option Nat := fesBad (fun o => rd (fes st + o) s) st s

/-! ### Outputs (R104, R105) -/

/-- OUTn_CTL in force and what it selects. -/
def outCtl (st n : Nat) (s : State) : Word := rdForce (fesOut st n) s
def outY (st n : Nat) (s : State) : Nat := 2 ^ fld 21 20 (outCtl st n s)
def outX (st n : Nat) (s : State) : Nat := 2 ^ fld 19 18 (outCtl st n s)
def outChs (st n : Nat) (s : State) : List Nat := bitsSet 3 (fld 14 12 (outCtl st n s))
def outCols (st n : Nat) (c : FeCfg) (s : State) : Nat := fld 31 16 (c.reg (0x104 + 0x40 * n)) / outX st n s
def outRingN (st n : Nat) (s : State) : Nat := fld 16 0 (rdForce (fesOut st n + 0x10) s)
def outRing (st n : Nat) (s : State) : Nat :=
  (rdForce (fesOut st n + 8) s).toNat / 64 * 64 + fld 15 0 (rdForce (fesOut st n + 0xC) s) * 2 ^ 32
def outOf (st n : Nat) (s : State) : Option FeOut := Fam.find n (fe st s).outs

/-- The first line of output `n` that is still needed (R105): by the front end itself, an open object, a window not done. -/
def outRel (st n : Nat) (s : State) : Nat :=
  match outOf st n s with
  | none => 0
  | some o =>
    let f := fe st s
    let objs := f.objs.map fun x => max o.first (x.k0 / outY st n s)
    let wins := ((f.wins ++ f.undone).filter fun w => decide (w.run = f.run)).filterMap fun w => w.outLines.getD n none
    (objs ++ wins).foldl min o.wr
/-- OUTn_WR and OUTn_REL shown. -/
def showOuts (st : Nat) (s : State) : State :=
  eachDo (fun n s => match outOf st n s with
    | some o => wr (fesOut st n + 0x1C) (wd (outRel st n s)) (wr (fesOut st n + 0x18) (wd o.wr) s)
    | none => s) (upTo 4) s
/-- Lines an output's ring still holds. -/
def outUsed (st n : Nat) (s : State) : Nat := match outOf st n s with | some o => o.wr - outRel st n s | none => 0
/-- Every enabled output of a stream has ring room. -/
def outsRoom (st : Nat) (s : State) : Bool := (upTo 4).all fun n => (outOf st n s).isNone || decide (outUsed st n s < outRingN st n s)

/-- OUTn_STRIDE of the settings in force. -/
def showStride (st n : Nat) (s : State) : State :=
  let c := outCtl st n s
  let cols := fld 31 16 (rdForce (fesOut st n + 4) s) / outX st n s
  wr (fesOut st n + 0x14) (wd (outStride (fld 3 1 c) (bitOf 8 c) (outChs st n s).length cols)) s

/-- Outputs that are enabled and not running begin with the first group that starts at slot `k` or after it (R118). -/
def openOuts (st k : Nat) (s : State) : State :=
  showOuts st (eachDo (fun n s =>
    if bitOf 0 (outCtl st n s) ∧ (outOf st n s).isNone then
      let y := outY st n s
      showStride st n (updFe st (fun f => { f with outs := f.outs.set n { first := (k + y - 1) / y, wr := (k + y - 1) / y } }) s)
    else if bitOf 0 (outCtl st n s) then showStride st n s else s) (upTo 4) s)

/-! ### Frame starts (R110, R118, R119) -/

/-- The wipe of a front-end domain's table slots ends (R264): no slot holds a table. -/
def wipeTables (d : Nat) (s : State) : State :=
  eachDo (fun st s => feStat st fsTBLRDY false (wrF (fes st + 0x7C) 3 1 0 (updFe st (fun f => { f with active := none, pending := none, loading := none }) s)))
    ((upTo 16).map fun i => 16 * (d - 130) + i) { s with pwr := { s.pwr with wiping := s.pwr.wiping.filter (· != d) } }
/-- What reaches a stream's table slots waits until their wipe ends (R265). -/
def awaitTables (st : Nat) (s : State) : State := if s.pwr.wiping.contains (130 + st / 16) then wipeTables (130 + st / 16) s else s

/-- An armed table swap happens where the pending slot is ready (R119). -/
def swapTable (st : Nat) (s : State) : State :=
  let s := awaitTables st s
  let f := fe st s
  if f.swap ∧ rdB (fes st + 0x7C) 3 s then
    feEvt st 3 (feStat st fsTBLPEND false (feStat st fsTBLRDY false (wrB (fes st + 0x7C) 3 false
      (updFe st (fun f => { f with active := f.pending, pending := none, swap := false }) s))))
  else s

/-- The port registers that a write sets for the stream's next frame (R89). -/
def portOffs : List Nat := [0x104, 0x108, 0x10C, 0x110, 0x114, 0x118]

/-- A camera port. -/
def cport (st : Nat) (s : State) : CPort := Fam.get {} st s.cports
def updPort (st : Nat) (f : CPort → CPort) (s : State) : State := { s with cports := s.cports.set st (f (cport st s)) }
/-- The token bucket filled up to now, in 1/625 byte: 1 MB/s is 1/625 byte a tick (R80). -/
def settleBucket (st : Nat) (s : State) : State :=
  let b := primBase st s
  let burst : Int := 625 * (rdForce (b + 0x108) s).toNat
  updPort st (fun p => { p with bucket := min burst (p.bucket + fld 15 0 (rdForce (b + 0x104) s) * ticksSince p.bucketTick s), bucketTick := tick s }) s
/-- The bucket full (R80). -/
def fillBucket (st : Nat) (s : State) : State :=
  updPort st (fun p => { p with bucket := 625 * (rdForce (primBase st s + 0x108) s).toNat, bucketTick := tick s }) s
/-- The port registers' values in force. -/
def takePort (st : Nat) (s : State) : State := eachDo (fun o s => takeShadow (primBase st s + o) s) portOffs (settleBucket st s)

/-- Frame `fi` of the run starts with a slot and its count: shadows, tables, port registers, outputs, its statistics record. -/
def startFrame (st fi : Nat) (slot count : Word) (s : State) : State :=
  let s := if !rdB (fes st + 4) fsPEND s then s else
    let s := feStat st fsPEND false s
    if (shadowsBad st s).isSome then feEvt st 7 s else
      let on := fun n => (outOf st n s).isSome
      eachDo (fun o s => takeShadow (fes st + o) s) (fesOffs.filter fun o => !startOnly on o) s
  let s := takePort st (swapTable st s)
  let no := (fe st s).fbase + wd fi
  let s := wr (fes st + 0x80) no (updFe st (fun f => { f with frames := fi + 1, nextFrame := no + 1, cfg := feSnap st s }) s)
  let s := updFe st (fun f => { f with
    recs := f.recs ++ [{ run := f.run, fi := fi, no := no, cfg := f.cfg, slotFirst := slot, countFirst := count, countLast := count }],
    dropped := f.dropped.filter fun d => decide (fi < d + 8) }) s
  openOuts st (fi * frameLines st s) s

/-! ### Statistics (R111) -/

/-- The record of a frame of the run changed. -/
def updRec (st fi : Nat) (f : FrameRec → FrameRec) (s : State) : State :=
  updFe st (fun x => { x with recs := mapWhere (fun r => decide (r.fi = fi) && decide (r.run = x.run)) f x.recs }) s

/-- A channel's samples within the window added. -/
def addChan (lo hi : Nat) (row : Row) (c : ChStat) : ChStat :=
  let vs := (row.drop lo).take (hi + 1 - lo)
  if vs.isEmpty then c else
    { c with sum := c.sum + vs.foldl (· + ·) 0, sq := c.sq + (vs.map fun v => v * v).foldl (· + ·) 0,
             lo := vs.foldl min c.lo, hi := vs.foldl max c.hi, any := true }
/-- A good line measured at a point. -/
def measure (st k : Nat) (cfg : FeCfg) (rows : List Row) (s : State) : State :=
  let w := cfg.reg 0x05C
  updRec st (k / frameLines st s) (fun r => { r with
    chans := r.chans.zipIdx.map fun (x : ChStat × Nat) => addChan (fld 15 0 w) (fld 31 16 w) (rows.getD x.2 []) x.1 }) s
/-- Pixels of a good line that R100 saturated. -/
def measureSat (st k : Nat) (cfg : FeCfg) (sat : List (List Bool)) (s : State) : State :=
  let w := cfg.reg 0x05C
  let cnt := fun (l : List Bool) => (((l.drop (fld 15 0 w)).take (fld 31 16 w + 1 - fld 15 0 w)).filter id).length
  updRec st (k / frameLines st s) (fun r => { r with
    chans := r.chans.zipIdx.map fun (x : ChStat × Nat) => { x.1 with sat := x.1.sat + cnt (sat.getD x.2 []) } }) s
/-- A slot has passed the point of measurement; the last one completes the record, and a frame without STAT_EN keeps none. -/
def slotPassed (st k : Nat) (s : State) : State :=
  let fl := frameLines st s
  let s := updRec st (k / fl) (fun r => { r with passed := r.passed + 1, done := r.done || decide (fl ≤ r.passed + 1) }) s
  updFe st (fun f => { f with recs := f.recs.filter fun r => !(r.done && !bitOf 9 (r.cfg.reg 0)) }) s

/-- A record's 128 bytes. -/
def recBytes (mono : Bool) (r : FrameRec) : List Byte :=
  let flags := b2n r.overflow + 2 * b2n (decide (0 < r.bad + r.missing)) + 4 * b2n r.stopped + 8 * b2n r.resync
  natLE 4 r.no.toNat ++ natLE 4 flags ++ natLE 4 r.slotFirst.toNat ++ natLE 4 r.countFirst.toNat ++
  natLE 4 r.countLast.toNat ++ natLE 2 r.good ++ natLE 2 r.bad ++ natLE 2 r.missing ++ natLE 2 r.dropped ++ zeros 4 ++
  r.chans.zipIdx.flatMap fun (x : ChStat × Nat) =>
    if mono ∧ 0 < x.2 then zeros 32 else
      natLE 8 x.1.sum ++ natLE 8 x.1.sq ++ natLE 2 (if x.1.any then x.1.lo else 0) ++ natLE 2 x.1.hi ++ natLE 4 x.1.sat ++ zeros 8

/-- The oldest complete record is written to the statistics ring, or discarded where the ring holds N records not read (R111). -/
def statBody (st : Nat) (s : State) : State :=
  let f := fe st s
  match f.recs.find? fun r => r.done with
  | none => s
  | some r =>
    let s := updFe st (fun f => { f with recs := f.recs.filter fun x => !(decide (x.fi = r.fi) && decide (x.run = r.run) && x.done) }) s
    let b := fes st
    let n := fld 16 0 (rdForce (b + 0x68) s)
    let w := rd (b + 0x6C) s
    if n ≤ (w - rd (b + 0x70) s).toNat then feEvt st 5 (inc (b + 0xB8) 1 s) else
      let a := (rdForce (b + 0x60) s).toNat / 64 * 64 + fld 15 0 (rdForce (b + 0x64) s) * 2 ^ 32
      inc (b + 0x6C) 1 (devWrite mFe (st / 4) (feTag st s) (a + w.toNat % n * 128) (recBytes (!trilinear st s) r) s).2.2

/-! ### Stages 2 to 6 -/

/-- Stage 2 of a slot's planes under its settings; defects left unreplaced count (R97). -/
def stage2 (st : Nat) (cfg : FeCfg) (x : List Row) (s : State) : List Row × State :=
  match cfg.tbl with
  | some t =>
    if !bitOf 1 (cfg.reg 0) then (x, s) else
      let w := lineWidth st s
      let r := x.zipIdx.map fun (p : Row × Nat) => dprRow (tblDefect (tblPlane t w p.2)) p.1
      (r.map (·.1), inc (fes st + 0x8C) ((r.map (·.2)).foldl (· + ·) 0) s)
  | none => (x, s)

/-- Slot `k` of the history. -/
def slotAt (f : FeSt) (k : Nat) : Option FeSlot := f.slots.find? fun x => decide (x.k = k)
/-- The row of plane `p` that stands for the line at distance `d` on one side (R98). -/
def kernelRow (f : FeSt) (c : FeSlot) (half p : Nat) (after : Bool) (d : Nat) : Row :=
  let at' := fun (e : Nat) => if after then slotAt f (c.k + e) else if e ≤ c.k then slotAt f (c.k - e) else none
  let good := fun (e : Nat) => match at' e with | some x => if x.kind = 0 then some (x.raw.getD p []) else none | none => none
  let other := if half = 2 then 3 - d else d
  (good d).getD ((good other).getD (c.raw.getD p []))

/-- Stage 3, spatial: both passes with the settings of the line's own frame (R98, R118). -/
def stageSnr (f : FeSt) (c : FeSlot) (p : Nat) : Row :=
  let mode := fld 3 2 (c.cfg.reg 0); let reg := c.cfg.reg 0x018
  let half := if mode = 3 then 2 else 1
  let centre := snrH mode reg (c.raw.getD p [])
  let rows := (upTo (2 * half + 1)).map fun i =>
    if i = half then centre else snrH mode reg (kernelRow f c half p (decide (half < i)) (if i < half then half - i else i - half))
  snrV mode reg rows centre

/-- Stages 3 and 4 of the next slot (R98 to R100), its tap 1 (R124) and its measurement. -/
def stage34 (st : Nat) (c : FeSlot) (s : State) : State :=
  let f := fe st s
  let x := (upTo c.raw.length).map fun p => stageSnr f c p
  let r := tnr (fld 8 0 (c.cfg.reg 0x01C)) (decide (c.kind = 0)) f.tnr x
  let w := lineWidth st s
  let d : List (Row × List Bool) := match c.cfg.tbl with
    | some t => if bitOf 5 (c.cfg.reg 0) then r.2.zipIdx.map fun (p : Row × Nat) => dfRow (tblPlane t w p.2) w p.1 else r.2.map fun y => (y, [])
    | none => r.2.map fun y => (y, [])
  let v := d.map (·.1); let sat := d.map (·.2)
  let s := updFe st (fun f => { f with
    tnr := r.1, done4 := c.k + 1, slots := mapWhere (fun y => decide (y.k = c.k)) (fun y => { y with v := v, sat := sat }) f.slots }) s
  let s := tapLine 1 st (frameLines st s) c.k c.slot c.count c.time c.kind c.ovr v s
  let pt := fld 11 10 (c.cfg.reg 0)
  let s := if c.kind = 0 then measureSat st c.k c.cfg sat (if pt = 1 then measure st c.k c.cfg v s else s) else s
  if pt ≤ 1 then slotPassed st c.k s else s

/-- Slots whose line wait of stage 3 is over pass stages 3 and 4; at a stop every slot does. At most `fuel` of them. -/
def run4 (st : Nat) (final : Bool) : Nat → State → State
  | 0, s => s
  | fuel + 1, s =>
    let f := fe st s
    match slotAt f f.done4 with
    | none => s
    | some c =>
      let wait := (if fld 3 2 (c.cfg.reg 0) = 2 then 1 else if fld 3 2 (c.cfg.reg 0) = 3 then 2 else 0)
      if final || decide (c.k + wait < f.next) then run4 st final fuel (stage34 st c s) else s

/-- Colour-space conversion of three channels (R102). -/
def cscRows (cfg : FeCfg) (rows : List Row) : List Row :=
  let m := fun (i j : Nat) =>
    let w := cfg.reg (0x024 + (3 * i + j) / 2 * 4)
    s16 (if (3 * i + j) % 2 = 0 then fld 15 0 w else fld 31 16 w)
  let off := fun (i : Nat) => s16 (if i = 0 then fld 15 0 (cfg.reg 0x038) else if i = 1 then fld 31 16 (cfg.reg 0x038) else fld 15 0 (cfg.reg 0x03C))
  let a := rows.getD 0 []; let b := rows.getD 1 []; let c := rows.getD 2 []
  (upTo 3).map fun i => (upTo a.length).map fun x => cscPix (m i 0) (m i 1) (m i 2) (off i) (a.getD x 0) (b.getD x 0) (c.getD x 0)

/-- Stages 5 and 6 of slot `k` (R101, R102): planes from the camera lines that FES_TRI names; a plane that never came is of a bad line. -/
def stage56 (st : Nat) (c : FeSlot) (s : State) : State :=
  let f := fe st s
  let w := lineWidth st s
  let line : List Row × Bool × Bool :=
    if trilinear st s then
      let tri := c.cfg.reg 0x020
      let src := (upTo 3).map fun p => slotAt f (c.k + fld (4 * p + 3) (4 * p) tri)
      let rows := src.zipIdx.map fun (x : Option FeSlot × Nat) => match x.1 with
        | some y => y.v.getD x.2 [] | none => List.replicate w 0
      let bad := src.any fun x => match x with | some y => decide (y.kind ≠ 0) | none => true
      (if bitOf 6 (c.cfg.reg 0) then cscRows c.cfg rows else rows, bad, src.any fun x => match x with | some y => y.ovr | none => false)
    else (c.v, decide (c.kind ≠ 0), c.ovr)
  let l : FeLine := { k := c.k, slot := c.slot, count := c.count, bad := line.2.1, ovr := line.2.2, resync := c.resync, cfg := c.cfg, ch := line.1 }
  let s := updFe st (fun f => { f with done6 := c.k + 1, lines := f.lines ++ [l] }) s
  if fld 11 10 (c.cfg.reg 0) ≤ 1 then s else slotPassed st c.k (if line.2.1 then s else measure st c.k c.cfg line.1 s)

/-- Slots whose wait of stage 5 is over pass stages 5 and 6. -/
def run6 (st : Nat) (final : Bool) : Nat → State → State
  | 0, s => s
  | fuel + 1, s =>
    let f := fe st s
    match slotAt f f.done6 with
    | none => s
    | some c =>
      let tri := c.cfg.reg 0x020
      let wait := if trilinear st s then max (fld 3 0 tri) (max (fld 7 4 tri) (fld 11 8 tri)) else 0
      if decide (c.k + wait < f.done4) || (final && decide (c.k < f.done4)) then run6 st final fuel (stage56 st c s) else s

/-- Slots and lines that nothing needs any more are forgotten: the counts of the slot before each unwritten line stay for LEAD. -/
def pruneFe (st : Nat) (s : State) : State :=
  updFe st (fun f =>
    let lo := (f.outs.map fun (o : Nat × FeOut) => o.2.wr * outY st o.1 s).foldl min f.done6
    let keep := min lo (min (f.done4 - 2) f.done6) - 1
    { f with slots := f.slots.filter fun x => decide (keep ≤ x.k), lines := f.lines.filter fun x => decide (lo ≤ x.k) }) s

/-- The pipeline runs as far as it can. -/
def runPipe (st : Nat) (final : Bool) (s : State) : State := pruneFe st (run6 st final 64 (run4 st final 64 s))

/-! ### Filling slots (R108 to R110) -/

/-- The next slot is filled: the frame it belongs to starts with it, its line enters stage 2. A replayed line of tap 1 enters at stage 5, a bad
one with the samples that its recording kept (R125, R129). -/
def pushSlot (st : Nat) (slot count : Word) (time : BitVec 64) (kind : Nat) (planes : List Row) (ovr resync : Bool) (replayTap : Option Nat)
    (s : State) : State :=
  let k := (fe st s).next
  let fl := frameLines st s
  let s := if (fe st s).frames ≤ k / fl then startFrame st (k / fl) slot count s else s
  let hit := decide (kind = 0) && decide (replayTap ≠ some 1) && (fe st s).eccLine && (fe st s).cfg.tbl.isSome && (bitOf 1 ((fe st s).cfg.reg 0) || bitOf 5 ((fe st s).cfg.reg 0))
  let s := if hit then updFe st (fun f => { f with eccLine := false }) s else s
  let kind := if hit then 1 else kind
  let s := inc (fes st + (if kind = 0 then 0x90 else if kind = 1 then 0x94 else 0x98)) 1 s
  let s := updRec st (k / fl) (fun r => { r with
    slotFirst := if k % fl = 0 then slot else r.slotFirst, countFirst := if k % fl = 0 then count else r.countFirst, countLast := count, good := r.good + b2n (decide (kind = 0)), bad := r.bad + b2n (decide (kind = 1)),
    missing := r.missing + b2n (decide (kind = 2)), resync := r.resync || resync }) s
  let f := fe st s
  let w := lineWidth st s
  let cfg := f.cfg
  let zero := List.replicate (planesOf st s) (List.replicate w 0)
  let raw := if kind = 0 ∨ hit then planes else if bitOf 7 (cfg.reg 0) then zero else f.good.getD zero
  let s := if kind = 0 then updFe st (fun f => { f with good := some planes }) s else s
  let live := decide (replayTap = none)
  let s := if live then tapLine 0 st fl k slot count time kind ovr planes s else s
  let s := addLoad (st / 4) ((planes.map fun (r : Row) => r.length).foldl (· + ·) 0) s
  let s := showFeLoad (st / 4) s
  let s := if kind = 0 ∧ fld 11 10 (cfg.reg 0) = 0 ∧ replayTap ≠ some 1 then measure st k cfg planes s else s
  if replayTap = some 1 then
    let v := if planes.isEmpty then raw else planes
    let x : FeSlot := { k := k, slot := slot, count := count, time := time, kind := kind, ovr := ovr, resync := resync, cfg := cfg, raw := v, v := v }
    let s := updFe st (fun f => { f with slots := f.slots ++ [x], next := k + 1, done4 := k + 1 }) s
    let s := if kind = 0 ∧ fld 11 10 (cfg.reg 0) = 1 then measure st k cfg v s else s
    runPipe st false (if fld 11 10 (cfg.reg 0) ≤ 1 then slotPassed st k s else s)
  else
    let r := stage2 st cfg raw s
    let x : FeSlot := { k := k, slot := slot, count := count, time := time, kind := kind, ovr := ovr, resync := resync, cfg := cfg, raw := r.1 }
    runPipe st false (updFe st (fun f => { f with slots := f.slots ++ [x], next := k + 1 }) r.2)

/-! ### Pairing (R107, R108) -/

/-- The trigger log's entry of index `j`: its count and time, where the log still holds it (R329). -/
def trigAt (m : Nat) (j : Word) (s : State) : Option (Word × BitVec 64) :=
  let n := (emu m s).trigs
  let age := (wd n - j).toNat
  if 1 ≤ age ∧ age ≤ 256 ∧ age ≤ n then
    let k := kTRIG m j.toNat
    some (rd (k + 4) s, (rd (k + 0xC) s).setWidth 64 <<< 32 ||| (rd (k + 8) s).setWidth 64)
  else none

/-- SRC in force. -/
def trigSrc (st : Nat) (s : State) : Nat := fld 2 0 (rdForce (fes st + 0x10) s)
/-- MIN and MAX in ns. -/
def winMin (st : Nat) (s : State) : Nat := fld 15 0 (rdForce (fes st + 0x14) s) * 100
def winMax (st : Nat) (s : State) : Nat := fld 31 16 (rdForce (fes st + 0x14) s) * 100

/-- The slots of a run are those of its trigger source from the first trigger after the start on; a change of SRC begins a new count
with the next trigger of the new source. -/
def anchor (st : Nat) (s : State) : State :=
  let src := trigSrc st s
  let f := fe st s
  if f.j0.isSome ∧ f.src = src then s else
    let j := if src < 4 then wd (emu src s).trigs else 0
    let b := if src < 4 then (match trigAt src (j - 1) s with | some t => t.1 | none => Config.freeWord s.fresh) else Config.freeWord s.fresh
    draw 1 (updFe st (fun f => { f with src := src, j0 := some (j - wd f.next), before := b, d := none, lastPair := none }) s)

/-- The slot number of trigger index `j` in this run, where it is not past. -/
def slotNo (st : Nat) (j : Word) (s : State) : Option Nat :=
  let f := fe st s
  let k := (j - f.j0.getD 0).toNat
  if k < 2 ^ 31 ∧ f.next ≤ k then some k else none

/-- The next slot is declared missing (R108), with the count the log still gives. -/
def fillMissing (st : Nat) (resync : Bool) (s : State) : State :=
  let f := fe st s
  let j := f.j0.getD 0 + wd f.next
  match trigAt (trigSrc st s) j s with
  | some t => pushSlot st j t.1 t.2 2 [] false resync none s
  | none => pushSlot st j (Config.freeWord s.fresh) ((Config.freeWord (s.fresh + 1)).setWidth 64) 2 [] false resync none (draw 2 s)
/-- Slots up to `k` without a line are missing. -/
def fillTo (st k : Nat) (resync : Bool) : Nat → State → State
  | 0, s => s
  | n + 1, s => if (fe st s).next < k then fillTo st k resync n (fillMissing st resync s) else s

/-- Slot `k` fits a line whose first word came at `a` (R108). -/
def slotFits (st : Nat) (j : Word) (a : Nat) (s : State) : Bool :=
  match trigAt (trigSrc st s) j s, slotNo st j s with
  | some t, some _ => decide (a ≤ t.2.toNat + winMax st s) && decide (t.2.toNat + winMin st s ≤ a) && decide (winMin st s < winMax st s)
  | _, _ => false
/-- The newest trigger not after a − MIN. -/
def newestBefore (st a : Nat) (s : State) : Option Word :=
  let m := trigSrc st s
  let n := wd (emu m s).trigs
  ((upTo 256).map fun i => n - 1 - wd i).find? fun j => match trigAt m j s with | some t => decide (t.2.toNat + winMin st s ≤ a) | none => false

/-- A line pairs with slot `j`: the slots before it that received none are missing. -/
def pairWith (st : Nat) (j : Word) (resync good ovr : Bool) (planes : List Row) (s : State) : State :=
  match slotNo st j s, trigAt (trigSrc st s) j s with
  | some k, some t =>
    let s := fillTo st k resync (k - (fe st s).next) s
    let s := feStat st fsSYNC true (wr (fes st + 0x88) j (updFe st (fun f => { f with lastPair := some k }) s))
    pushSlot st j t.1 t.2 (if good then 0 else 1) planes ovr resync none s
  | _, _ => s

/-- A camera line that the port delivers (R83, R107, R108); a bad one has no samples. -/
def lineIn (st : Nat) (line : Word) (good ovr : Bool) (samples : List Row) (t0 : BitVec 64) (pos : Word) (s : State) : State :=
  if !feRuns st s then s else
    let planes := if good then samples else []
    let s := anchor st s
    let src := trigSrc st s
    let f := fe st s
    if src = 7 then
      let j := f.j0.getD 0 + wd f.next
      let s := feStat st fsSYNC true (wr (fes st + 0x88) j s)
      pushSlot st j pos t0 (if good then 0 else 1) planes ovr false none s
    else if 4 ≤ src then s
    else
      let a := t0.toNat
      let j := match f.d with | some d => line + d | none => line
      if f.d.isSome ∧ slotFits st j a s then pairWith st j false good ovr planes s
      else match newestBefore st a s with
        | some j2 =>
          if slotFits st j2 a s then
            let re := f.d.isSome
            let s := if re then feEvt st 1 (inc (fes st + 0xA0) 1 s) else s
            pairWith st j2 re good ovr planes (updFe st (fun f => { f with d := some (j2 - line) }) s)
          else feEvt st 2 (inc (fes st + 0x9C) 1 s)
        | none => feEvt st 2 (inc (fes st + 0x9C) 1 s)

/-- A line whose first word came between two times is still arriving: a later command brings the rest of it. -/
def lineComing (st first last : Nat) (s : State) : Bool :=
  let p := cport st s
  let within := fun (t0 : BitVec 64) => decide (first ≤ t0.toNat) && decide (t0.toNat ≤ last)
  (match p.line with | some l => within l.t0 | none => false) ||
    (match p.rx with | some f => decide (leAt f.bytes 0 1 = 1) && within f.t0 | none => false)
/-- TRIGGER_SLOT_MISSING: the next slot's trigger time plus MAX has passed with no line paired. A line that began within the slot's window and
is not complete may still pair with it. -/
def missingBody (st : Nat) (s : State) : State :=
  if !feRuns st s || (fe st s).replaying then s else
    let s := anchor st s
    let f := fe st s
    if 4 ≤ f.src then s else
      let j := f.j0.getD 0 + wd f.next
      if (emu f.src s).trigs = 0 ∨ 2 ^ 31 ≤ (wd (emu f.src s).trigs - 1 - j).toNat then s else
        match trigAt f.src j s with
        | some t =>
          let t := t.2.toNat
          if t + winMax st s < (nowNs s).toNat ∧ lineComing st (t + winMin st s) (t + winMax st s) s = false then fillMissing st false s else s
        | none => fillMissing st false s

/-- FRAME_START: the frame of the next slot to fill starts, where it has not. -/
def frameBody (st : Nat) (s : State) : State :=
  if !feRuns st s then s else
    let s := if (fe st s).replaying then s else anchor st s
    let f := fe st s
    let fi := f.next / frameLines st s
    if fi < f.frames then s else
      let j := f.j0.getD 0 + wd f.next
      match if f.replaying then none else trigAt f.src j s with
      | some t => startFrame st fi j t.1 s
      | none => startFrame st fi (if f.replaying then Config.freeWord s.fresh else j) (Config.freeWord (s.fresh + 1)) (draw 2 s)

/-! ### The presence gate (R112 to R115) -/

/-- Flags of a window (R115). -/
abbrev wfINCOMPLETE : Nat := 0x01
abbrev wfDEGRADED : Nat := 0x02
abbrev wfTRUNCATED : Nat := 0x04
abbrev wfFORCED : Nat := 0x08
abbrev wfMERGED : Nat := 0x10
abbrev wfSTOPPED : Nat := 0x20
abbrev wfARRIVAL : Nat := 0x40
abbrev wfRESYNC : Nat := 0x80

/-- An object closes (R113 to R115): it takes the next object number and its window waits to be issued. -/
def closeObj (st : Nat) (x : GateObj) (extra kEnd : Nat) (s : State) : State :=
  let f := fe st s
  let fl := frameLines st s
  let no := rd (fes st + 0x84) s
  let flags := extra + (if x.degraded then wfDEGRADED else 0) + (if x.merged then wfMERGED else 0) + (if x.resync then wfRESYNC else 0) +
    (if f.src = 7 ∧ ¬ f.replaying then wfARRIVAL else 0)
  let outs := (upTo 4).map fun n => (outOf st n s).map fun o => max o.first (x.k0 / outY st n s)
  let words := [no, f.fbase + wd (x.k0 / fl), f.fbase + wd (x.k1 / fl), x.lead, x.trail, wd (x.lat1 + x.lat2 * 65536),
    wd (st + cfg 0x20 st 7 1 s * 256 + flags * 65536), x.sFirst, x.sLast] ++
    outs.map (fun o => match o with | some m => wd m | none => 0xFFFFFFFF) ++ [0, 0, 0]
  let w : FeWin := { run := f.run, obj := no, k0 := x.k0, kEnd := kEnd, frame := kEnd / fl, outLines := outs, words := words,
                     rep := if f.replaying then f.rep else none }
  let s := inc (fes st + 0x84) 1 (updFe st (fun f => { f with wins := f.wins ++ [w] }) s)
  if extra &&& (wfTRUNCATED + wfFORCED) ≠ 0 then feEvt st 4 s else s

/-- An object with the snapshot objects it holds and whether the line gave it a run. -/
structure GateItem where
  ids : List Nat
  obj : GateObj
  run : Bool
deriving DecidableEq, Repr

/-- A run of the line, with input columns and the line's slots and edges. -/
structure GateRun where
  x1 : Nat
  x2 : Nat
  lat1 : Nat
  lat2 : Nat
  k0 : Nat
  k1 : Nat
  sFirst : Word
  sLast : Word
  lead : Word
  trail : Word
deriving DecidableEq, Repr

/-- An object extended by a run. -/
def extendObj (x : GateObj) (r : GateRun) : GateObj :=
  { x with x1 := min x.x1 r.x1, x2 := max x.x2 r.x2, lat1 := min x.lat1 r.lat1, lat2 := max x.lat2 r.lat2, k1 := r.k1, sLast := r.sLast, trail := r.trail }
/-- Two objects merged: the older one's leading edge. -/
def mergeObj (x y : GateObj) : GateObj :=
  let a := if y.k0 < x.k0 then y else x
  { x with
    x1 := min x.x1 y.x1, x2 := max x.x2 y.x2, lat1 := min x.lat1 y.lat1, lat2 := max x.lat2 y.lat2, k0 := a.k0, sFirst := a.sFirst,
    lead := a.lead, merged := true, degraded := x.degraded || y.degraded, resync := x.resync || y.resync }

/-- One run judged against the objects as they stood at the end of the previous line (R112); a 65th object closes the oldest (R113), which the
line marks too: `deg` DEGRADED, `re` RESYNC. -/
def gateRun (st margin : Nat) (deg re : Bool) (snap : List GateObj) (kEnd : Nat) (r : GateRun) (acc : List GateItem × State) : List GateItem × State :=
  let hits := (snap.zipIdx.filter fun (o : GateObj × Nat) => decide (o.1.x1 ≤ r.x2 + margin) && decide (r.x1 ≤ o.1.x2 + margin)).map (·.2)
  let mine := fun (i : GateItem) => i.ids.any fun n => hits.contains n
  match acc.1.filter mine with
  | [] =>
    let new : GateItem := { ids := [], run := true, obj := {
      x1 := r.x1, x2 := r.x2, lat1 := r.lat1, lat2 := r.lat2, k0 := r.k0, k1 := r.k1,
      sFirst := r.sFirst, sLast := r.sLast, lead := r.lead, trail := r.trail } }
    if acc.1.length < 64 then (acc.1 ++ [new], acc.2)
    else match acc.1 with
      | o :: rest => (rest ++ [new], closeObj st { o.obj with degraded := o.obj.degraded || deg, resync := o.obj.resync || re } wfFORCED kEnd acc.2)
      | [] => ([new], acc.2)
  | h :: t =>
    let merged : GateItem := { ids := h.ids ++ t.flatMap (·.ids), run := true, obj := extendObj (t.foldl (fun o i => mergeObj o i.obj) h.obj) r }
    let keep := acc.1.filter fun i => !mine i
    ((acc.1.takeWhile fun i => !mine i) ++ [merged] ++ (keep.drop (acc.1.takeWhile fun i => !mine i).length), acc.2)

/-- The gate takes an output line (R112): its runs, then empty lines, closings and MAXLEN. -/
def gateLine (st n : Nat) (cfg : FeCfg) (group : List FeLine) (bad : Bool) (vals : List Int) (s : State) : State :=
  match group.head?, group.getLast? with
  | some l0, some l1 =>
    let f := fe st s
    let g := cfg.reg 0x050; let thr := cfg.reg 0x054; let run := cfg.reg 0x058
    let xd := outX st n s
    let first := fld 15 0 (cfg.reg (0x104 + 0x40 * n))
    let ps := vals.map fun v => present (fld 7 6 g) (s16 (fld 15 0 thr)) (s16 (fld 31 16 thr)) v
    let runs := if bad then [] else lineRuns (fld 7 0 run) (fld 15 8 run) ps
    let lead := if l0.k = 0 then f.before else match slotAt f (l0.k - 1) with | some x => x.count | none => f.before
    let mk := fun (r : Nat × Nat) => ({
      x1 := r.1, x2 := r.2, lat1 := first + r.1 * xd, lat2 := first + (r.2 + 1) * xd - 1, k0 := l0.k,
      k1 := l1.k, sFirst := l0.slot, sLast := l1.slot, lead := lead, trail := l1.count } : GateRun)
    let items := f.objs.zipIdx.map fun (o : GateObj × Nat) => ({ ids := [o.2], obj := o.1, run := false } : GateItem)
    let deg := bad || group.any fun l => l.ovr
    let re := group.any fun l => l.resync
    let r := runs.foldl (fun acc x => gateRun st (fld 23 16 run) deg re f.objs l1.k (mk x) acc) (items, s)
    let objs := r.1.map fun i => { i with obj := { i.obj with
      empty := if i.run then 0 else i.obj.empty + 1, degraded := i.obj.degraded || deg, resync := i.obj.resync || re } }
    let y := outY st n s
    let full := fun (i : GateItem) => i.run && decide (fld 31 16 g ≤ (i.obj.k1 + 1 - i.obj.k0) / y)
    let dead := fun (i : GateItem) => !i.run && decide (fld 15 8 g ≤ i.obj.empty)
    let s := updFe st (fun f => { f with objs := (objs.filter fun i => !(full i || dead i)).map (·.obj) }) r.2
    let s := eachDo (fun (i : GateItem) s => if full i then closeObj st i.obj wfTRUNCATED l1.k s else if dead i then closeObj st i.obj 0 l1.k s else s) objs s
    feStat st fsFULL (decide ((fe st s).objs.length = 64)) s
  | _, _ => s

/-! ### Output lines (R103, R104, R116) -/

/-- Slots of a dropped line: each counts once (R116). -/
def dropLines (st : Nat) (ks : List Nat) (s : State) : State :=
  eachDo (fun k s => if k ∈ (fe st s).dropSlots then s else
    updRec st (k / frameLines st s) (fun r => { r with dropped := r.dropped + 1, overflow := true })
      (inc (fes st + 0xA4) 1 (updFe st (fun f => { f with dropSlots := k :: f.dropSlots }) s))) ks s

/-- A frame is dropped from this line on (R116). -/
def dropFrame (st fi : Nat) (s : State) : State :=
  let s := updFe st (fun f => { f with dropping := some fi, dropped := fi :: f.dropped }) s
  let s := feEvt st 0 (feStat st fsDROP true (inc (fes st + 0xA8) 1 s))
  match streamPart st s with | some p => raiseFault 0x6002 st p 0 [p + 1] s | none => s

/-- A stream in a FLOW replay (R130). -/
def flowing (st : Nat) (s : State) : Bool :=
  match (fe st s).rep with | some (n, _) => (fe st s).replaying && !rdB (cdsBase n) 7 s | none => false
/-- Of an output's lines in flight a free number is complete by now (R116). DESIGN CHOICE (notes/assumptions/30.md): the bounds of R279 are
left out, and a FLOW replay, which never overflows, finds them complete. -/
def landed (st n : Nat) (s : State) : State :=
  match outOf st n s with
  | some o =>
    let fly := if o.fly = 0 ∨ flowing st s then 0 else (Config.freeInt s.fresh).toNat % (o.fly + 1)
    if o.fly = 0 then s else draw 1 (updFe st (fun f => { f with outs := f.outs.set n { o with fly := fly } }) s)
  | none => s
/-- The room of output `n` for lines in flight is full (R116). -/
def flyFull (st n : Nat) (s : State) : Bool := match outOf st n s with | some o => decide (4 ≤ o.fly) | none => false
/-- What an output line of frame `fi` meets (R116): dropped with its frame, the end of a dropped frame, an overflow, or its ring. -/
def lineFate (st n fi : Nat) (s : State) : Bool × State :=
  let f := fe st s
  if fi ∈ f.dropped then (true, s)
  else
    let full := decide (outRingN st n s ≤ outUsed st n s) || flyFull st n s
    match f.dropping with
    | some d =>
      if d < fi then
        (if outsRoom st s && !(upTo 4).any (fun m => flyFull st m s) then (false, feStat st fsDROP false (updFe st (fun f => { f with dropping := none }) s)) else (true, dropFrame st fi s))
      else if full then (true, dropFrame st fi s) else (false, s)
    | none => if full then (true, dropFrame st fi s) else (false, s)

/-- The lines of the next group of an output, where every slot has passed stage 6. -/
def nextGroup (st n : Nat) (s : State) : Option (List FeLine) :=
  match outOf st n s with
  | none => none
  | some o =>
    let y := outY st n s
    let ls := (upTo y).filterMap fun i => (fe st s).lines.find? fun l => decide (l.k = o.wr * y + i)
    if ls.length = y then some ls else none

/-- The sums of a channel of an output line. -/
def chanSums (st n c : Nat) (cfg : FeCfg) (ls : List FeLine) (s : State) : List Int :=
  let w := cfg.reg (0x040 + 4 * c)
  let first := fld 15 0 (cfg.reg (0x104 + 0x40 * n)); let xd := outX st n s
  (upTo (outCols st n cfg s)).map fun i =>
    (ls.map fun l => boxSum (fld 15 0 w) (s16 (fld 31 16 w)) (l.ch.getD c []) (first + i * xd) xd).foldl (· + ·) 0

/-- OUTPUT_LINE_WRITE: the next line of output `n` is normalised, converted, written to its ring or dropped, and seen by the gate. -/
def outputBody (st n : Nat) (s : State) : State :=
  match nextGroup st n s, outOf st n s with
  | some ls, some o =>
    let s := eachDo (landed st) (upTo 4) s
    let cfg := match ls with | l :: _ => l.cfg | [] => {}
    let ctl := outCtl st n s
    let k := fld 31 27 ctl + fld 19 18 ctl + fld 21 20 ctl
    let fi := (match ls.getLast? with | some l => l.k | none => 0) / frameLines st s
    let bad := ls.any fun l => l.bad
    let bytes := outLine (fld 3 1 ctl) k (bitOf 8 ctl) ((outChs st n s).map fun c => chanSums st n c cfg ls s)
    let stride := outStride (fld 3 1 ctl) (bitOf 8 ctl) (outChs st n s).length (outCols st n cfg s)
    let fate := lineFate st n fi s
    let s := if fate.1 then dropLines st (ls.map (·.k)) (inc (fesOut st n + 0x20) 1 fate.2)
      else (devWrite mFe (st / 4) (feTag st s) (outRing st n s + (wd o.wr).toNat % max 1 (outRingN st n s) * stride) bytes fate.2).2.2
    let fly := (match outOf st n s with | some o => o.fly | none => 0) + (if fate.1 then 0 else 1)
    let s := updFe st (fun f => { f with outs := f.outs.set n { o with wr := o.wr + 1, fly := fly } }) s
    let gate := decide (fld 3 2 (cfg.reg 0x050) = n) && bitOf 8 (cfg.reg 0)
    let s := if gate then gateLine st n cfg ls bad ((chanSums st n (fld 5 4 (cfg.reg 0x050)) cfg ls s).map fun x => sat (outInt x k) (-32768) 32767) s else s
    showOuts st (pruneFe st s)
  | _, _ => s

/-- Every output line whose slots have arrived is written. -/
def writeAll (st : Nat) : Nat → State → State
  | 0, s => s
  | k + 1, s => match (upTo 4).find? fun n => (nextGroup st n s).isSome with
    | some n => writeAll st k (outputBody st n s)
    | none => s

/-! ### Windows -/

/-- A window of frame `f` is held with DET until the first slot of the next frame is triggered, or the stream stops (R435). -/
def winHeld (st : Nat) (w : FeWin) (s : State) : Bool :=
  let f := fe st s
  det s && feRuns st s && decide (w.run = f.run) &&
    (let k := (w.frame + 1) * frameLines st s
     if f.src < 4 ∧ ¬ f.replaying then decide (2 ^ 31 ≤ (wd (emu f.src s).trigs - 1 - (f.j0.getD 0 + wd k)).toNat) else decide (f.next ≤ k))

/-- INCOMPLETE of a window as the drops of its run stand now (R116). -/
def sealWin (f : FeSt) (w : FeWin) : FeWin :=
  if decide (w.run = f.run) && f.dropSlots.any (fun k => decide (w.k0 ≤ k) && decide (k ≤ w.kEnd)) then
    { w with words := setAt w.words 6 (w.words.getD 6 0 ||| 0x00010000) } else w
/-- The next window to issue leaves the gate (R115, R393): INCOMPLETE as the drops stand now, the counters, the stream view, and the lines
it needs until it is done. -/
def takeWin (st : Nat) (s : State) : Option FeWin × State :=
  let f := fe st s
  match f.wins with
  | [] => (none, s)
  | w :: rest =>
    if winHeld st w s then (none, s) else
      let words := (sealWin f w).words
      let fl := words.getD 6 0
      let s := updFe st (fun f => { f with wins := rest, undone := f.undone ++ [w] }) s
      let s := inc (fes st + 0xAC) 1 s
      let s := if bitOf 16 fl then inc (fes st + 0xB0) 1 s else s
      let s := if bitOf 18 fl || bitOf 19 fl then inc (fes st + 0xB4) 1 s else s
      let s := eachDo (fun (x : Word × Nat) s => wr (ssBase st + 0x40 + 4 * x.2) x.1 s) words.zipIdx s
      (some { w with words := words }, inc (ssBase st + 4) 1 s)

/-- A window is done (R105, R293): its lines are released. -/
def windowDone (st : Nat) (obj : Word) (s : State) : State :=
  showOuts st (updFe st (fun f => { f with undone := f.undone.filter fun w => decide (w.obj ≠ obj) }) s)

/-! ### Start and stop (R117, R118) -/

/-- A stream start: every shadow takes effect, lines restart at 0, pairing and the temporal state begin afresh. -/
def feStart (st : Nat) (replay : Bool) (s : State) : State :=
  let s := eachDo (fun o s => takeShadow (fes st + o) s) fesOffs s
  let s := feStat st fsPEND false (swapTable st s)
  let s := updFe st (fun f => { f with
    run := f.run + 1, j0 := none, before := 0, next := 0, lastPair := none, d := none, fbase := f.nextFrame, frames := 0, good := none, tnr := none,
    slots := [], done4 := 0, done6 := 0, lines := [], outs := [], recs := f.recs.filter (·.done), dropping := none, dropped := [], dropSlots := [],
    objs := [], wins := f.wins.map (sealWin f), undone := [], replaying := replay }) s
  let s := wrB (feBase (st / 4)) (st % 4) true (feStat st fsRUN true (feStat st fsSYNC false (feStat st fsDROP false s)))
  let s := eachDo (fun n s => wr (fesOut st n + 0x18) 0 (wr (fesOut st n + 0x1C) 0 s)) (upTo 4) s
  let s := openOuts st 0 (updFe st (fun f => { f with cfg := feSnap st s }) s)
  if replay then s else anchor st (takePort st s)

/-- A stream stop: lines received pass on, open objects close with STOPPED, the frame ends with its record (R117). -/
def feStop (st : Nat) (s : State) : State :=
  if !feRuns st s then s else
    let s := writeAll st 4096 (runPipe st true s)
    let f := fe st s
    let s := updFe st (fun f => { f with objs := [] }) s
    let s := eachDo (fun (x : GateObj) s => closeObj st x wfSTOPPED (f.next - 1) s) f.objs s
    let s := updFe st (fun f => { f with
      recs := (f.recs.map fun r => if r.done then r else { r with stopped := true, done := true }).filter fun r => bitOf 9 (r.cfg.reg 0),
      frames := 0, next := 0, done4 := 0, done6 := 0, slots := [], lines := [], replaying := false }) s
    let s := recStreamStop st s
    showOuts st (wrB (feBase (st / 4)) (st % 4) false (feStat st fsRUN false (feStat st fsFULL false (feStat st fsDROP false s))))

end Sys2Proof.Machine
end

