-- ==== Sys2Proof/Machine/Ring.lean ====
section
/-! DEFINITION. The service rings (17_host_interface.md, R395 to R403): fetching of descriptors, completions with their result blocks,
coalescing, flushes. -/

namespace Sys2Proof.Machine

open Sys2Proof

/-! ### Fields of a descriptor (R397). -/
def dCMD (d : SvcDesc) : Nat := leAt d 0 2
def dTAG (d : SvcDesc) : Nat := leAt d 2 2
def dAUTH (d : SvcDesc) : Nat := leAt d 8 8
def dRES (d : SvcDesc) : Nat := leAt d 16 8
def dDATA (d : SvcDesc) : Nat := leAt d 24 8
def dLEN (d : SvcDesc) : Nat := leAt d 32 4
/-- `k` bytes of the descriptor at offset `o` as a number: an argument of R405. -/
def dArg (d : SvcDesc) (o k : Nat) : Nat := leAt d o k

/-- The 64 bytes of a descriptor's place in a command ring (R395). -/
def cmdAddr (fn m : Nat) (s : State) : Nat := rdAddr (ringBase fn) s / 64 * 64 + m % ringSize fn oCMD_SIZE s * 64

/-- The ring takes a further descriptor: room remains for its completion, counting the events that are held (R395). -/
def fetchRoom (fn : Nat) (s : State) : Bool :=
  let r := ring fn s
  decide (cplUsed fn s + r.fetched.length + (if r.busy.isSome then 1 else 0) + r.held.length < ringSize fn oCPL_SIZE s)

/-- Descriptors are fetched in ring order while there is one and room for its completion, at most `k` of them. -/
def fetchDescs (fn : Nat) : Nat → State → State
  | 0, s => s
  | k + 1, s =>
    let m := rd (ringBase fn + oCMD_HEAD) s
    if ringEn fn s && ringServed fn s && (ring fn s).busMaster && !(ring fn s).flushing && decide (m ≠ (ring fn s).cmdTail) && fetchRoom fn s then
      let d := Memory.read s.host (cmdAddr fn m.toNat s) 64
      fetchDescs fn k (inc (ringBase fn + oCMD_HEAD) 1 (updRing fn (fun r => { r with fetched := r.fetched ++ [d] }) s))
    else s

/-- What a ring does whenever it may: held events first, then fetching. -/
def pumpRing (fn : Nat) (s : State) : State := fetchDescs fn 4096 (pumpEvents fn 64 s)

/-- The CPL source after one more unsignalled completion (R396). -/
def coalesce (fn : Nat) (s : State) : State :=
  let c := rd (ringBase fn + oRING_CTL) s
  let n := (ring fn s).unsig + 1
  if fld 15 8 c ≤ n ∨ fld 25 16 c = 0 then fireInt fn 0 (updRing fn (fun r => { r with unsig := 0 }) s)
  else updRing fn (fun r => { r with unsig := n }) s

/-- A flush ends (R403): FLUSHING and EN return to 0. -/
def flushEnd (fn : Nat) (s : State) : State :=
  let b := ringBase fn
  wrB (b + oRING_STAT) 1 false (wrB (b + oRING_STAT) 0 false (wrB (b + oRING_CTL) 0 false
    (updRing fn (fun r => { r with flushing := false, fetched := [] }) s)))

/-- A command of a ring ends: its result block, its completion, its interrupt (R396, R398), or SVC_FLUSH_LAST (R403). -/
def finish (fn : Nat) (d : SvcDesc) (status flags : Nat) (res : List Byte) (s : State) : State :=
  let s := updRing fn (fun r => { r with busy := none }) s
  let withRes := decide (dRES d ≠ 0) && (ring fn s).busMaster
  let s := if withRes then { s with host := Memory.write s.host (dRES d) (padTo 64 res) } else s
  let s := inc (ringBase fn + oCNT_CMDS) 1 s
  let s := if ringEn fn s && (ring fn s).busMaster && cplRoom fn s then
      coalesce fn (putCpl fn (cplBytes fn (dTAG d) status (dCMD d) (flags + (if withRes then 2 else 0)) res s) s) else s
  if (ring fn s).flushing then flushEnd fn (wr (ringBase fn + oFLUSH_LAST) (wd (dTAG d * 65536 + status)) s) else pumpRing fn s

/-- A control request of a camera port completes the SVC_CAM_CTRL that waits for it (R86, R405): the result of the CTRL_ACK, its
STATUS or 0xFF, and whether a copy of the request left the module. -/
def camDone (fn status : Nat) (result : List Byte) (ackStatus sent : Nat) (s : State) : State :=
  match (ring fn s).busy with
  | some (.camCtrl d _ _) => finish fn d status 0 (padTo 8 result ++ natLE 1 ackStatus ++ natLE 1 sent) s
  | _ => s

/-- The data that a camera returns to READ_BLOCK is written at DATA_PTR, as far as the command's length goes (R405). -/
def camData (fn : Nat) (bs : List Byte) (s : State) : State :=
  match (ring fn s).busy with
  | some (.camCtrl d _ _) => { s with host := Memory.write s.host (dDATA d) (bs.take (dLEN d)) }
  | _ => s

/-- A calibration run is abandoned before it has changed anything: its slot is in Held again (R138, R403). -/
def calAbort (s : State) : State := if rdB kCAL 8 s then wrF (cdsBase (rdF kCAL 3 0 s)) 2 0 2 (wrF kCAL 11 8 0 s) else s

/-- A flush starts (R403): fetching stops, descriptors not started go; a command before its point of effect is abandoned with
ST_FLUSHED (a copy at the end of its 2 µs), another runs to its end. -/
def flushRing (fn : Nat) (s : State) : State :=
  if !ringEn fn s || (ring fn s).flushing then s else
    let s := wrB (ringBase fn + oRING_STAT) 1 true (updRing fn (fun r => { r with flushing := true, fetched := [] }) s)
    match (ring fn s).busy with
    | none => flushEnd fn s
    | some (.work d _ _) => finish fn d stFLUSHED 0 [] s
    | some (.cal d) => finish fn d stFLUSHED 0 [] (calAbort s)
    | some (.startStream d _) => finish fn d stFLUSHED 0 [] (wrB kPWR_STAT 7 false s)
    | some _ => s

/-- The ring, interrupt and latch registers of a function back at reset (R390); held events stay, and a command past its point of effect
goes on as in a flush. -/
def ringReset (fn : Nat) (s : State) : State :=
  let b := ringBase fn
  let s := regsReset b (b + 0x60) s
  let s := updRing fn (fun r => { r with cmdTail := 0, cplHead := 0, fetched := [], unsig := 0, flushing := r.busy.isSome, ldp := [] }) s
  let s := wrB (b + oRING_STAT) 1 (ring fn s).busy.isSome s
  showHeld fn { s with time := { s.time with nowLatch := s.time.nowLatch.del fn, tickLatch := s.time.tickLatch.del fn } }

end Sys2Proof.Machine
end

