-- ==== Sys2Proof/Machine/Lanes.lean ====
section
/-! DEFINITION. Camera lanes and the Chanak link protocol (04_chanak_lanes.md, R64 to R89, R478): detectors and bonds, link-up and port
down, policing and quarantine, lines, control requests and events. -/

namespace Sys2Proof.Machine

open Sys2Proof

/-! ### Lanes and bonds -/

/-- The bond of a stream (R53): its first lane, width and rate. -/
def laneFirst (st : Nat) (s : State) : Nat := cfg 0x20 st 1 1 s
def bondWidth (st : Nat) (s : State) : Nat := cfg 0x20 st 2 1 s
/-- The lanes of a bond. -/
def bondLanes (st : Nat) (s : State) : List Nat := (upTo (bondWidth st s)).map fun i => laneFirst st s + i
/-- The stream that a camera lane serves. -/
def laneStream (n : Nat) (s : State) : Option Nat :=
  (upTo 64).find? fun st => streamUsed st s && decide (laneFirst st s ≤ n) && decide (n < laneFirst st s + bondWidth st s)

/-- CL_STAT bits (R89). -/
abbrev clLOS : Nat := 0
abbrev clLOCK : Nat := 1
abbrev clHIBER : Nat := 2
abbrev clALIGNED : Nat := 3
abbrev clUP : Nat := 4
abbrev clQUAR : Nat := 5
abbrev clHELLOBAD : Nat := 6
/-- A bit of a port's CL_STAT, in its primary lane's block. -/
def portBit (st b : Nat) (s : State) : Bool := rdB (primBase st s + 4) b s
/-- A bit of CL_STAT of a stream's primary lane set. -/
def setPortBit (st b : Nat) (v : Bool) (s : State) : State := wrB (primBase st s + 4) b v s
/-- The port is up (R73). -/
def camUp (st : Nat) (s : State) : Bool := portBit st clUP s
/-- The port is in quarantine (R82). -/
def inQuar (st : Nat) (s : State) : Bool := portBit st clQUAR s
/-- The bond is aligned (R71). -/
def aligned (st : Nat) (s : State) : Bool := portBit st clALIGNED s
/-- A CL_EVT bit of a camera lane, with the STREAM source (R394). -/
def clEvt (n b : Nat) (s : State) : State :=
  let s := wrB (laneBase n + 8) b true s
  match laneStream n s with | some st => streamInt st s | none => s
/-- A lane or port fault, raised to the stream's owner and the PF (R457). -/
def laneFault (code unit st : Nat) (s : State) : State :=
  match streamPart st s with | some p => raiseFault code unit p 0 [p + 1, 0] s | none => s

/-- SS_STAT (R393). -/
def showSs (st : Nat) (s : State) : State :=
  wr (ssBase st) (wd (b2n (strm st s).started + 2 * b2n (camUp st s) + 4 * b2n (fe st s).replaying + 16 * rdF (strBase st) 1 0 s)) s

/-- A port counter advanced. -/
def chk (st o : Nat) (s : State) : State := inc (primBase st s + o) 1 s

/-! ### Frames out -/

/-- A frame with its CRC (R76). -/
def withCrc (bs : List Byte) : List Byte := bs ++ natLE 4 (crc32 bs).toNat
/-- A frame of the four types of R78. -/
def ctrlFrame (typ flags seq : Nat) (code arg data : List Byte) : List Byte :=
  withCrc (natLE 1 typ ++ natLE 1 flags ++ natLE 2 seq ++ padTo 2 code ++ natLE 2 data.length ++ padTo 8 arg ++ data)
/-- The module's HELLO payload (R78). -/
def helloPayload (st : Nat) (s : State) : List Byte :=
  natLE 1 1 ++ natLE 1 0 ++ natLE 1 (bondWidth st s) ++ natLE 1 (cfg 0x20 st 3 1 s) ++ natLE 2 (cport st s).initSeq.toNat ++
  natLE 2 (fld 15 0 (rdForce (primBase st s + 0x10C) s)) ++ zeros 8 ++ natLE 8 Config.serial.toNat ++
  [0x4B, 0x58, 0x2D, 0x36, 0x34, 0x31, 0x36, 0x00]
/-- A frame sent on the primary lane, its blocks alone there (R72); in quarantine the module transmits none (R82). -/
def txFrame (st : Nat) (f : List Byte) (s : State) : State := if inQuar st s then s else emit (.cam st [frameBlocks f]) s

/-! ### Lines (R83) -/

/-- The planes of a complete line. -/
def splitPlanes (w : Nat) : Nat → List Nat → List Row
  | 0, _ => []
  | p + 1, x => x.take w :: splitPlanes w p (x.drop w)
/-- The line in progress is delivered with its status. -/
def deliver (st : Nat) (s : State) : State :=
  match (cport st s).line with
  | none => s
  | some l =>
    let s := updPort st (fun p => { p with line := none }) s
    let good := l.good && decide (l.plane = planesOf st s)
    lineIn st l.line good l.ovr (if good then splitPlanes (lineWidth st s) (planesOf st s) l.pix else []) l.t0 l.pos
      (chk st (if good then 0x120 else 0x124) (updFe st (fun f => { f with camStamp := l.stamp }) s))
/-- The line in progress is bad. -/
def lineBad (st : Nat) (s : State) : State := updPort st (fun p => { p with line := p.line.map fun l => { l with good := false } }) s

/-- A segment of a line (R83); one dropped under R79 (`ok` false) leaves its line bad. -/
def segment (st : Nat) (x : RxFrame) (ok : Bool) (s : State) : State :=
  let f := x.bytes
  let flags := leAt f 1 1; let seg := leAt f 2 2; let line := wd (leAt f 4 4)
  let off := leAt f 8 2; let cnt := leAt f 10 2; let plane := leAt f 12 1
  let first := flags.testBit 0
  let s := match (cport st s).line with
    | some l => if first ∨ l.line ≠ line then deliver st (lineBad st s) else s
    | none => s
  let new : LineAcc := { line := line, good := first, ovr := false, seg := 0, plane := 0, off := 0, pix := [], t0 := x.t0, pos := x.pos,
                         stamp := BitVec.ofNat 64 (leAt f 16 8) }
  let l := (cport st s).line.getD new
  let w := lineWidth st s
  let fits := ok && decide (seg = l.seg) && decide (plane = l.plane) && decide (off = l.off) && decide (off + cnt ≤ w) && decide (first = decide (seg = 0))
  let done := decide (off + cnt = w)
  let l := { l with
    good := l.good && fits, ovr := l.ovr || flags.testBit 2, seg := seg + 1, plane := if done then plane + 1 else plane,
    off := if done then 0 else off + cnt,
    pix := if l.good && fits then l.pix ++ unpackPix (fmtOf st s) cnt ((f.drop 28).take (leAt f 14 2)) else l.pix }
  let s := updPort st (fun p => { p with line := some l }) s
  if flags.testBit 1 then deliver st s else s

/-! ### Port down, quarantine (R74, R82) -/

/-- Requests that a port leaves when it goes down (R74): sent or not. -/
def dropReqs (p : CPort) (s : State) : State :=
  eachDo (fun (r : CReq) s => camDone r.fn stLINK_DOWN [] 0 0 s) p.waiting
    (eachDo (fun (r : CReq) s => camDone r.fn stLINK_DOWN [] 0 1 s) p.outst s)

/-- A port goes down, or a link-up fails, and returns to step 1 (R73, R74). -/
def portDown (st : Nat) (s : State) : State :=
  let up := camUp st s
  let s := deliver st (lineBad st s)
  let p := cport st s
  let s := updPort st (fun p => { p with seen := false, outst := [], waiting := [], retries := 0 }) s
  let s := wr (primBase st s + 0x11C) 0 (setPortBit st clUP false s)
  let s := if up then clEvt (laneFirst st s) 3 (feStat st fsPORT false s) else s
  dropReqs p (showSs st s)

/-- A port enters quarantine (R82). -/
def quarPort (st : Nat) (s : State) : State :=
  if inQuar st s then s else
    let s := wrB (primBase st s + 0x100) 0 true (setPortBit st clQUAR true s)
    laneFault 0x5003 st st (portDown st (clEvt (laneFirst st s) 4 s))
/-- A port leaves quarantine and restarts at step 1 (R82). -/
def releasePort (st : Nat) (s : State) : State :=
  wrB (primBase st s + 0x100) 0 false (setPortBit st clQUAR false (updPort st (fun p => { p with seen := false, fails := 0 }) s))
/-- A failure that counts to quarantine (R82). -/
def quarFail (st : Nat) (s : State) : State :=
  let s := updPort st (fun p => { p with fails := p.fails + 1 }) s
  if fld 15 0 (rdForce (primBase st s + 0x114) s) ≤ (cport st s).fails then quarPort st s else s

/-- A bond loses alignment (R71): its port goes down. -/
def alignLost (st : Nat) (s : State) : State :=
  let s := updPort st (fun p => { p with okSets := 0, badSets := 0, rx := none }) s
  if !aligned st s then portDown st s else
    let s := eachDo (fun n s => clEvt n 2 (wrF (laneBase n + 4) 23 16 0 (wrB (laneBase n + 4) clALIGNED false s))) (bondLanes st s) s
    portDown st s

/-! ### Detectors of a camera lane (R68) -/

/-- Block lock goes: the lane leaves HI_BER, its bond loses alignment. -/
def camUnlock (n : Nat) (s : State) : State :=
  let b := laneBase n
  if !rdB (b + 4) clLOCK s then s else
    let s := clEvt n 1 (inc (b + 0x14) 1 (wrB (b + 4) clLOCK false (wrB (b + 4) clHIBER false s)))
    match laneStream n s with | some st => alignLost st s | none => s
/-- A camera lane loses its signal (R68). -/
def camLosEnter (n : Nat) (s : State) : State :=
  let s := clEvt n 0 (wrB (laneBase n + 4) clLOS true s)
  let s := match laneStream n s with | some st => laneFault 0x5001 n st s | none => s
  camUnlock n s
/-- A camera lane loses block lock after `bad` invalid headers (R68). -/
def camLockLost (n bad : Nat) (s : State) : State :=
  if !rdB (laneBase n + 4) clLOCK s then s else
    let s := inc (laneBase n + 0x10) bad s
    let s := match laneStream n s with | some st => laneFault 0x5002 n st s | none => s
    camUnlock n s

/-! ### Alignment (R71) -/

/-- A marker set matches: every lane's D1 its index, D2 the width, one D3, skew within 32 blocks. -/
def setOk (width : Nat) (ms : List (Option Marker)) : Bool :=
  decide (ms.length = width) && ms.zipIdx.all fun (x : Option Marker × Nat) => match x.1 with
    | some m => decide (m.d1.toNat = x.2) && decide (m.d2.toNat = width) && decide (m.skew ≤ 32) &&
        (match ms.head? with | some (some h) => decide (m.d3 = h.d3) | _ => false)
    | none => false
/-- A marker set at a bond: two good ones align it, three bad ones in a row lose it (R71). -/
def camMarkers (st : Nat) (ms : List (Option Marker)) (s : State) : State :=
  if !streamUsed st s then s else
    let lanes := bondLanes st s
    let locked := lanes.all fun n => rdB (laneBase n + 4) clLOCK s
    if setOk (bondWidth st s) ms ∧ locked then
      let s := updPort st (fun p => { p with okSets := p.okSets + 1, badSets := 0 }) s
      if 2 ≤ (cport st s).okSets ∨ aligned st s then
        eachDo (fun (x : Nat × Option Marker) s =>
          wrF (laneBase x.1 + 4) 23 16 (match x.2 with | some m => m.skew | none => 0) (wrB (laneBase x.1 + 4) clALIGNED true s)) (lanes.zip ms) s
      else s
    else
      let s := updPort st (fun p => { p with okSets := 0, badSets := p.badSets + 1 }) s
      if aligned st s ∧ 3 ≤ (cport st s).badSets then alignLost st s else s

/-! ### Link-up (R73) -/

/-- The port is on its way up: stream started, bond aligned, no quarantine. -/
def linking (st : Nat) (s : State) : Bool := (strm st s).started && aligned st s && !inQuar st s && !camUp st s

/-- CHK_SEQ (R88). -/
def showSeq (st : Nat) (rx tx : BitVec 16) (s : State) : State := wr (primBase st s + 0x11C) (wd (rx.toNat * 65536 + tx.toNat)) s
/-- NEXT_RX: the EVENT number expected (R85). -/
def nextRx (st : Nat) (s : State) : BitVec 16 := BitVec.ofNat 16 (rdF (primBase st s + 0x11C) 31 16 s)
/-- The number of the next control request (R85). -/
def nextTx (st : Nat) (s : State) : BitVec 16 := BitVec.ofNat 16 (rdF (primBase st s + 0x11C) 15 0 s)

/-- The port comes up (R73, R78, R80, R108). -/
def comeUp (st : Nat) (peer : BitVec 16) (s : State) : State :=
  let x := (cport st s).initSeq
  let s := updPort st (fun p => { p with session := x, initSeq := x + 0x1000, outst := [], waiting := [], retries := 0, line := none }) s
  let s := showSeq st peer x (fillBucket st (setPortBit st clUP true s))
  let s := feStat st fsSYNC false (feStat st fsPORT true (updFe st (fun f => { f with d := none }) s))
  showSs st s

/-- A camera HELLO (R73, R78) on a port that is coming up. -/
def helloIn (st : Nat) (f : List Byte) (s : State) : State :=
  if !linking st s then s else
    let pl := f.drop 16
    if leAt pl 2 1 = bondWidth st s ∧ leAt pl 3 1 = cfg 0x20 st 3 1 s ∧ leAt pl 8 2 = lineWidth st s ∧ leAt pl 10 1 = cfg 0x20 st 6 1 s ∧
        leAt pl 11 1 = fmtOf st s then
      let s := setPortBit st clHELLOBAD false s
      if (leAt f 1 1).testBit 0 ∧ (cport st s).seen then
        comeUp st (BitVec.ofNat 16 (leAt pl 4 2)) (updPort st (fun p => { p with sof := decide (leAt pl 12 1 = 1) }) s)
      else updPort st (fun p => { p with seen := true, sof := decide (leAt pl 12 1 = 1) }) s
    else laneFault 0x5006 st st (setPortBit st clHELLOBAD true (updPort st (fun p => { p with seen := false }) s))

/-- Every 10 µs before the port is up, a HELLO goes out (R73). -/
def camHelloTimer (st : Nat) (s : State) : State :=
  if linking st s then txFrame st (ctrlFrame 5 (b2n (cport st s).seen) 0 [] [] (helloPayload st s)) s else s

/-! ### Control requests (R86) -/

/-- A request's frame. -/
def reqFrame (r : CReq) : List Byte := ctrlFrame 2 0 r.seq.toNat (natLE 2 r.op) r.arg r.data
/-- Waiting requests are sent while fewer than 4 are outstanding (R86), at most `k` of them. -/
def sendReqs (st : Nat) : Nat → State → State
  | 0, s => s
  | k + 1, s =>
    let p := cport st s
    match p.waiting with
    | [] => s
    | r :: rest =>
      if 4 ≤ p.outst.length then s else
        let r := { r with seq := nextTx st s }
        let s := updPort st (fun p => { p with waiting := rest, outst := p.outst ++ [r] }) s
        sendReqs st k (txFrame st (reqFrame r) (showSeq st (nextRx st s) (nextTx st s + 1) s))
/-- A control request of SVC_CAM_CTRL joins a port that is up. -/
def camSend (st : Nat) (r : CReq) (s : State) : State := sendReqs st 4 (updPort st (fun p => { p with waiting := p.waiting ++ [r] }) s)

/-- A CTRL_ACK (R86): every outstanding request up to its SEQ is done; those below it with an unknown STATUS. -/
def ackIn (st : Nat) (f : List Byte) (s : State) : State :=
  let n := BitVec.ofNat 16 (leAt f 2 2)
  let p := cport st s
  match p.outst.find? fun r => decide (r.seq = n) with
  | none => s
  | some r =>
    let before := p.outst.takeWhile fun x => decide (x.seq ≠ n)
    let s := updPort st (fun p => { p with outst := p.outst.drop (before.length + 1), retries := 0 }) s
    let s := eachDo (fun (x : CReq) s => camDone x.fn stOK [] 0xFF 0 s) before s
    let s := if r.op = 3 then camData r.fn ((f.drop 16).take (leAt f 6 2)) s else s
    sendReqs st 4 (camDone r.fn stOK ((f.drop 8).take 8) (leAt f 4 1) 0 s)

/-- The retransmission timer expires (R86): go-back-N, or the port goes down. -/
def retryBody (st : Nat) (s : State) : State :=
  let p := cport st s
  if p.outst.isEmpty then s
  else if fld 23 16 (rdForce (primBase st s + 0x118) s) < p.retries + 1 then
    portDown st (laneFault 0x5004 st st (clEvt (laneFirst st s) 5 s))
  else
    let s := updPort st (fun p => { p with retries := p.retries + 1 }) s
    eachDo (fun (r : CReq) s => txFrame st (reqFrame r) (chk st 0x140 s)) p.outst s

/-! ### Events (R85, R478) -/

/-- The key of word `i` of the record `r` of a stream's camera event ring. -/
def kEVT (st r i : Nat) : Nat := 0x2800000 + st * 0x600 + r % 4 * 0x180 + 4 * i
/-- A record's 384 bytes (R478). -/
def eventBytes (r : Nat) (f : List Byte) (s : State) : List Byte :=
  natLE 4 r ++ natLE 2 (leAt f 4 2) ++ natLE 2 (leAt f 6 2) ++ padTo 8 ((f.drop 8).take 8) ++ natLE 8 (nowNs s).toNat ++ zeros 8 ++
  padTo 256 ((f.drop 16).take (leAt f 6 2)) ++ zeros 96
/-- The acknowledgement of a camera's sequenced frame: STATUS 0, no result. -/
def ackFrame (seq : Nat) : List Byte := ctrlFrame 3 0 seq [0, 0] [] []
/-- An EVENT frame that passed R79 (R85): executed once, acknowledged again, or out of window. -/
def eventIn (st : Nat) (f : List Byte) (s : State) : State :=
  let seq := leAt f 2 2
  let d := (BitVec.ofNat 16 seq - nextRx st s).toInt
  if d = 0 then
    let r := rd (ssBase st + 8) s
    if 4 ≤ (r - rd (ssBase st + 0xC) s).toNat then chk st 0x138 s else
      let bs := eventBytes r.toNat f s
      let s := eachDo (fun i s => wr (kEVT st r.toNat i) (wd (leAt bs (4 * i) 4)) s) (upTo 96) s
      let s := inc (ssBase st + 8) 1 s
      let s := match streamPart st s with | some p => fireInt (p + 1) 4 s | none => s
      txFrame st (ackFrame seq) (showSeq st (nextRx st s + 1) (nextTx st s) s)
  else if -8 ≤ d ∧ d ≤ -1 then txFrame st (ackFrame seq) (chk st 0x13C s)
  else quarFail st (chk st 0x144 s)

/-! ### Receiving (R67, R69, R76 to R80) -/

/-- The frame's own form (R77, R78); failing it is failing the CRC. -/
def shapeOk (st : Nat) (f : List Byte) (s : State) : Bool :=
  let typ := leAt f 0 1
  if typ = 1 then
    let off := leAt f 8 2; let cnt := leAt f 10 2; let fmt := leAt f 13 1; let len := leAt f 14 2
    let lim := if fmt = 0x08 then 16384 else if fmt = 0x0C then 10922 else 8192
    let bits := if fmt = 0x08 then 8 else if fmt = 0x0C then 12 else 16
    decide (32 ≤ f.length) && decide (fmt = fmtOf st s) && decide (1 ≤ cnt) && decide (cnt ≤ lim) && decide (off ≤ 32767) &&
      decide (off + cnt ≤ 32768) && decide (leAt f 12 1 < planesOf st s) && decide (len = ((cnt * bits + 7) / 8 + 3) / 4 * 4) &&
      decide (f.length = 32 + len)
  else if 2 ≤ typ ∧ typ ≤ 5 then
    let len := leAt f 6 2
    decide (20 ≤ f.length) && decide (len ≤ 256) && decide (len % 4 = 0) && decide (f.length = 20 + len) && (decide (typ ≠ 5) || decide (len = 32))
  else true

/-- How a frame fares at the checks of R79. -/
inductive Verdict where
  | pass | oversize | crc | unknown | policed | noRoom
deriving DecidableEq, Repr

/-- One step of a front end's service of its receive buffers (R95): deficit round-robin over samples with a quantum of 16,384; none where
nothing waits or the head segment is not processed yet. -/
def drainStep (d : FeDrain) (qs : List (List (Nat × Nat))) : Option (FeDrain × List (List (Nat × Nat))) :=
  if qs.all (·.isEmpty) then none else
    match qs.getD d.turn [] with
    | (_, n) :: rest =>
      if d.defs.getD d.turn 0 < n then some (nextTurn d qs)
      else if d.credit < 5 * n then none
      else some ({ d with defs := setAt d.defs d.turn (d.defs.getD d.turn 0 - n), credit := d.credit - 5 * n }, setAt qs d.turn rest)
    | [] => some (nextTurn { d with defs := setAt d.defs d.turn 0 } qs)
where
  /-- The next port's turn; one with a segment waiting gets its quantum. -/
  nextTurn (d : FeDrain) (qs : List (List (Nat × Nat))) : FeDrain × List (List (Nat × Nat)) :=
    let t := (d.turn + 1) % 4
    ({ d with turn := t, defs := if (qs.getD t []).isEmpty then d.defs else setAt d.defs t (d.defs.getD t 0 + 16384) }, qs)
/-- At most `n` steps of the service; a front end with nothing waiting keeps no credit. -/
def drainRun : Nat → FeDrain → List (List (Nat × Nat)) → FeDrain × List (List (Nat × Nat))
  | 0, d, qs => (d, qs)
  | n + 1, d, qs => match drainStep d qs with
    | some x => drainRun n x.1 x.2
    | none => (if qs.all (·.isEmpty) then { d with credit := 0 } else d, qs)
/-- The receive buffers of front end `f` as they stand now: 3.5 Gpixel/s are 28/5 samples a tick (R95). -/
def drainFe (f : Nat) (s : State) : State :=
  let d := Fam.get {} f s.drains
  let sts := (upTo 4).map fun i => 4 * f + i
  let qs := sts.map fun st => (cport st s).segs
  let r := drainRun (9 * (qs.map List.length).foldl (· + ·) 0 + 9) { d with credit := d.credit + 28 * ticksSince d.since s, since := tick s } qs
  eachDo (fun (x : Nat × List (Nat × Nat)) s => if (cport x.1 s).segs = x.2 then s else updPort x.1 (fun p => { p with segs := x.2 }) s) (sts.zip r.2)
    { s with drains := s.drains.set f r.1 }
/-- Bytes that a port's receive buffer holds. -/
def bufHeld (st : Nat) (s : State) : Nat := ((cport st s).segs.map (·.1)).foldl (· + ·) 0
/-- The wipe of a lane group's domain ends (R264): the receive buffers of its camera ports are empty. -/
def wipeBuffers (d : Nat) (s : State) : State :=
  eachDo (fun st s => if laneFirst st s / 8 = d - 134 then updPort st (fun p => { p with segs := [] }) s else s)
    ((upTo 64).filter fun st => streamUsed st s) { s with pwr := { s.pwr with wiping := s.pwr.wiping.filter (· != d) } }
/-- A segment enters the receive buffer. -/
def bufTake (st bytes samples : Nat) (s : State) : State :=
  let s := if s.pwr.wiping.contains (134 + laneFirst st s / 8) then wipeBuffers (134 + laneFirst st s / 8) s else s
  updPort st (fun p => { p with segs := p.segs ++ [(bytes, samples)] }) s

/-- The checks of R79 in their order; a HELLO of another PROTO or ROLE fails check 3 (R78). -/
def police (st : Nat) (f : RxFrame) (s : State) : Verdict :=
  let b := primBase st s
  let bs := f.bytes
  let typ := leAt bs 0 1
  let p := cport st s
  let lvl : Int := min (625 * (rdForce (b + 0x108) s).toNat : Int)
    (p.bucket + fld 15 0 (rdForce (b + 0x104) s) * (ticksSince p.bucketTick s - ticksSince f.since s : Nat))
  if fld 15 0 (rdForce (b + 0x10C) s) < bs.length then .oversize
  else if f.broken || decide (bs.length < 8) || decide (leAt bs (bs.length - 4) 4 ≠ (crc32 (bs.take (bs.length - 4))).toNat) ||
      (bondLanes st s).any (fun n => rdB (laneBase n + 4) clHIBER s) || !shapeOk st bs s then .crc
  else if !(decide (typ = 1) || decide (typ = 3) || decide (typ = 4) || decide (typ = 5)) ||
      (decide (typ = 5) && (decide (leAt bs 16 1 ≠ 1) || decide (leAt bs 17 1 ≠ 1))) then .unknown
  else if lvl < 0 then .policed
  else if typ = 4 ∧ fld 7 0 (rdForce (b + 0x110) s) ≤ p.events then .policed
  else if 65536 < bufHeld st s + bs.length then .noRoom else .pass

/-- A frame admitted: it takes its length from the bucket and counts in the partition's lane bytes (R80, R312). -/
def admitFrame (st len : Nat) (s : State) : State :=
  let s := settleBucket st s
  let floor : Int := -(625 * (fld 15 0 (rdForce (primBase st s + 0x10C) s)) : Nat)
  let s := updPort st (fun p => { p with bucket := max floor (p.bucket - 625 * len) }) s
  match streamPart st s with | some p => cntAdd (acctBase p + 0x28) len s | none => s

/-- A frame at an aligned camera port. One that is dropped marks the line in progress bad only where it is a segment (R79, R83). -/
def rxFrame (st : Nat) (f : RxFrame) (s : State) : State :=
    let s := drainFe (st / 4) s
    let typ := leAt f.bytes 0 1
    let v := police st f s
    let spoil := fun (s : State) => if typ = 1 then lineBad st s else s
    if inQuar st s then chk st 0x148 s
    else if !camUp st s ∧ typ ≠ 5 ∧ (v = .pass ∨ v = .policed ∨ v = .noRoom) then chk st 0x14C s
    else match v with
      | .pass =>
        let s := admitFrame st f.bytes.length s
        if typ = 5 then helloIn st f.bytes s
        else if typ = 1 then segment st f true (bufTake st f.bytes.length (leAt f.bytes 10 2) s)
        else if typ = 3 then ackIn st f.bytes s
        else eventIn st f.bytes (updPort st (fun p => { p with events := p.events + 1 }) s)
      | .oversize => quarFail st (spoil (chk st 0x12C s))
      | .crc => quarFail st (spoil (chk st 0x128 s))
      | .unknown => quarFail st (chk st 0x130 s)
      | .policed => quarFail st (if typ = 1 then segment st f false (chk st 0x134 s) else chk st 0x134 s)
      | .noRoom => if typ = 1 then segment st f false (chk st 0x138 s) else chk st 0x138 s

/-- A logical block at an aligned port, `ago` rounds before now (R66, R67): data extends the frame in progress, a terminate block ends it, an
invalid or a start block breaks it. -/
def rxBlock (st : Nat) (b : Block) (ago : Nat) (s : State) : State :=
  let f := (cport st s).rx
  let put := fun (r : Option RxFrame) s => updPort st (fun p => { p with rx := r }) s
  let cut := fun (s : State) => match f with | some f => rxFrame st { f with broken := true } (put none s) | none => s
  match blockKind b, f with
  | .data l, some f => put (some { f with bytes := f.bytes ++ l }) s
  | .term l, some f => rxFrame st { f with bytes := f.bytes ++ l } (put none s)
  | .start l, _ =>
    let t := blockTime (cfg 0x20 st 3 1 s) * ago
    let s := cut s
    put (some { bytes := l, since := tick s - BitVec.ofNat 64 (t / 160), t0 := nowNs s - BitVec.ofNat 64 (t / 100),
                pos := encPos (cfg 0x20 st 7 1 s) s }) s
  | .invalid, _ => cut s
  | _, _ => s
/-- The invalid blocks and sync headers of a locked lane are counted (R67, R89). -/
def countBlocks (base : Nat) (l : List Block) (s : State) : State :=
  if !rdB (base + 4) clLOCK s then s else
    let up := fun (k n : Nat) (s : State) => if n = 0 then s else inc k n s
    up (base + 0x18) (l.filter fun b => decide (blockKind b = .invalid)).length (up (base + 0x10) (l.filter blockBadHdr).length s)
/-- A stretch of blocks at a stream's bond: counted on every lane, and rebuilt into frames while the bond is aligned (R70). -/
def rxStretch (st : Nat) (x : Stretch) (s : State) : State :=
  if !streamUsed st s then s else
    let lanes := bondLanes st s
    let s := eachDo (fun (l : Nat × List Block) s => countBlocks (laneBase l.1) l.2 s) (lanes.zip x) s
    if !aligned st s then s else eachDo (fun (b : Block × Nat) s => rxBlock st b.1 b.2 s) (rebuild (bondWidth st s) x) s

/-- LINE_SEG (R77, R83). -/
def execLineSeg (st : Fin 64) (x : Stretch) (s : State) : Host.Outcome State Fault Refusal := .next (rxStretch st.val x s)
/-- CTRL_ACK (R86). -/
def execCtrlAck (st : Fin 64) (x : Stretch) (s : State) : Host.Outcome State Fault Refusal := .next (rxStretch st.val x s)
/-- EVENT (R85). -/
def execEvent (st : Fin 64) (x : Stretch) (s : State) : Host.Outcome State Fault Refusal := .next (rxStretch st.val x s)
/-- HELLO (R73). -/
def execHello (st : Fin 64) (x : Stretch) (s : State) : Host.Outcome State Fault Refusal := .next (rxStretch st.val x s)
/-- A frame of unknown TYPE, or a camera's CTRL_REQ (R76). -/
def execUnknownFrame (st : Fin 64) (x : Stretch) (s : State) : Host.Outcome State Fault Refusal := .next (rxStretch st.val x s)
/-- CTRL_RETRY_TIMEOUT (R86). -/
def execCtrlRetryTimeout (st : Fin 64) (s : State) : Host.Outcome State Fault Refusal := .next (retryBody st.val s)

/-- The end of a quarantine window (R82): the count restarts; a count that a lower THRESH now meets quarantines. -/
def quarWindow (st : Nat) (s : State) : State :=
  let n := (cport st s).fails
  let s := updPort st (fun p => { p with fails := 0 }) s
  if streamUsed st s ∧ 0 < n ∧ fld 15 0 (rdForce (primBase st s + 0x114) s) ≤ n then quarPort st s else s
/-- QUAR_WINDOW_END (R82). -/
def execQuarWindowEnd (st : Fin 64) (s : State) : Host.Outcome State Fault Refusal := .next (quarWindow st.val s)
/-- EVENT_RATE_WINDOW_END (R79): the count of EVENT frames restarts. -/
def execEventRateWindowEnd (st : Fin 64) (s : State) : Host.Outcome State Fault Refusal :=
  .next (updPort st.val (fun p => { p with events := 0 }) s)
/-- HOLD × 16 ms in quarantine have passed (R82). -/
def holdExpiry (st : Nat) (s : State) : State :=
  if streamUsed st s ∧ inQuar st s ∧ fld 31 26 (rdForce (primBase st s + 0x114) s) ≠ 0 then releasePort st s else s
/-- QUAR_HOLD_EXPIRY (R82). -/
def execQuarHoldExpiry (st : Fin 64) (s : State) : Host.Outcome State Fault Refusal := .next (holdExpiry st.val s)

/-- The stream whose CHK_PORT_CTL lies in a lane's block, where the function reaches it (R88, R89, R392). -/
def portCtlOf (fn n : Nat) (s : State) : Option Nat :=
  match laneStream n s with
  | some st => if rdB kCLK_EN1 (20 + n / 8) s ∧ laneFirst st s = n ∧ ((fn = 0 ∧ expert s) ∨ streamPart st s = some (fn - 1) ∧ fn ≠ 0) then some st else none
  | none => none
/-- A write of CHK_PORT_CTL (R89): QUAR governs. -/
def portCtl (fn n : Nat) (v : Word) (s : State) : State :=
  match portCtlOf fn n s with
  | some st => if bitOf 0 v then quarPort st s else if bitOf 1 v ∧ inQuar st s then releasePort st s else s
  | none => s
/-- CHK_PORT_CTL_QUAR (R82). -/
def execChkPortCtlQuar (fn : Fin 17) (lane : Fin 64) (v : Word) (s : State) : Host.Outcome State Fault Refusal :=
  .next (viaHost fn.val (portCtl fn.val lane.val (v ||| 1)) s)
/-- CHK_PORT_CTL_RELEASE (R82). -/
def execChkPortCtlRelease (fn : Fin 17) (lane : Fin 64) (v : Word) (s : State) : Host.Outcome State Fault Refusal :=
  .next (viaHost fn.val (portCtl fn.val lane.val (v ||| 2)) s)

end Sys2Proof.Machine
end

