-- ==== Sys2Proof/Machine/Span.lean ====
section
/-! DEFINITION. Span links and global operations (04_chanak_lanes.md, R90 to R93; 19_determinism_and_multi_module.md, R440 to R445). -/

namespace Sys2Proof.Machine

open Sys2Proof

/-! ### The SPAN section and the torus (R440) -/

def spCfg (o k : Nat) (s : State) : Nat := cfg 0x60 0 o k s
def spX (s : State) : Nat := spCfg 0 1 s
def spY (s : State) : Nat := spCfg 1 1 s
def spDX (s : State) : Nat := max 1 (spCfg 2 1 s)
def spDY (s : State) : Nat := max 1 (spCfg 3 1 s)
/-- This module's position: bits 1:0 x, bits 3:2 y. -/
def spSelf (s : State) : Nat := spX s + 4 * spY s
def linkUsed (m : Nat) (s : State) : Bool := (spCfg 4 1 s).testBit m
/-- Pn takes part in span traffic. -/
def spPart (p : Nat) (s : State) : Bool := (spCfg 6 2 s).testBit p
/-- The neighbour that a link faces: +X, −X, +Y, −Y (R90). -/
def neighbour (m : Nat) (s : State) : Nat :=
  let x := spX s; let y := spY s; let dx := spDX s; let dy := spDY s
  if m = 0 then (x + 1) % dx + 4 * y else if m = 1 then (x + dx - 1) % dx + 4 * y
  else if m = 2 then x + 4 * ((y + 1) % dy) else x + 4 * ((y + dy - 1) % dy)
/-- The link on which a frame for a position leaves: along X, then Y, the shorter way, + on a tie. -/
def routeLink (dst : Nat) (s : State) : Nat :=
  let dx := (dst % 4 + spDX s - spX s) % spDX s
  let dy := (dst / 4 + spDY s - spY s) % spDY s
  if dx ≠ 0 then (if 2 * dx ≤ spDX s then 0 else 1) else (if 2 * dy ≤ spDY s then 2 else 3)
/-- Bit 4y + x of every module of the torus. -/
def torusAll (s : State) : BitVec 16 :=
  (upTo 16).foldl (fun a i => if i % 4 < spDX s ∧ i / 4 < spDY s then a ||| BitVec.ofNat 16 (2 ^ i) else a) 0
/-- The diameter H. -/
def spH (s : State) : Nat := spDX s / 2 + spDY s / 2

/-! ### Links -/

/-- The blocks of a span lane and of a link. -/
def spLane (n : Nat) : Nat := spanLaneBase n
def linkBase (m : Nat) : Nat := spanLaneBase (4 * m)
def sp (m : Nat) (s : State) : SpLink := Fam.get {} m s.spans
def updSp (m : Nat) (f : SpLink → SpLink) (s : State) : State := { s with spans := s.spans.set m (f (sp m s)) }
def spLanes (m : Nat) : List Nat := (upTo 4).map fun i => 4 * m + i
/-- SPAN_STAT.LINK_UP. -/
def linkIsUp (m : Nat) (s : State) : Bool := rdB (linkBase m + 0x100) 0 s
def spAligned (m : Nat) (s : State) : Bool := rdB (spLane (4 * m) + 4) clALIGNED s
/-- SYS_SPAN's UP and ALL_UP as the links stand (R445). -/
def showSpan (s : State) : State :=
  let up := (upTo 4).foldl (fun a m => a + (if linkIsUp m s then 2 ^ m else 0)) 0
  let all := (upTo 4).all fun m => !linkUsed m s || linkIsUp m s
  wrB kSYS_STAT 16 (all && (upTo 4).any fun m => linkUsed m s) (wrF kSYS_STAT 15 12 up s)
/-- The used links that are up. -/
def upLinks (s : State) : List Nat := (upTo 4).filter fun m => linkUsed m s && linkIsUp m s

/-- Element `i` of a triple of counts changed. -/
def bump (l : List Nat) (i d : Nat) : List Nat := l.set i (l.getD i 0 + d)

/-- A frame of a link with its header and CRC (R91). -/
def spanBytesOut (typ vc seq ack src dst : Nat) (credit : List Nat) (payload : List Byte) : List Byte :=
  withCrc (natLE 1 typ ++ natLE 1 vc ++ natLE 2 seq ++ natLE 2 ack ++ natLE 2 payload.length ++ natLE 1 src ++ natLE 1 dst ++
    (upTo 3).flatMap (fun i => natLE 1 (credit.getD i 0)) ++ zeros 3 ++ payload)
/-- A frame leaves on a link, striped across its four lanes (R90); it carries the acknowledgement, so none is due any more (R92). -/
def sendRaw (m : Nat) (bs : List Byte) (s : State) : State := updSp m (fun x => { x with ackDue := false }) (emit (.span m (stripe 4 (frameBlocks bs))) s)
/-- The SEQ last received in order. -/
def lastRx (m : Nat) (s : State) : Nat := ((sp m s).nextRx - 1).toNat
/-- A DATA frame leaves on a link with its number and the acknowledgement (R91, R92). -/
def sendData (m : Nat) (f : SpFrame) (s : State) : State :=
  sendRaw m (spanBytesOut 0x41 f.vc f.seq.toNat (lastRx m s) f.src f.dst f.credit f.payload) s

/-- Waiting frames are sent while the window of 64 has room and their channel a credit (R92, R93), at most `k` of them. -/
def pumpLink (m : Nat) : Nat → State → State
  | 0, s => s
  | k + 1, s =>
    let x := sp m s
    if !linkIsUp m s || decide (64 ≤ x.unacked.length) then s else
      match x.waiting.find? fun f => decide (0 < x.credits.getD f.vc 0) with
      | none => s
      | some f =>
        let g := { f with seq := x.nextTx, credit := x.freed }
        let s := updSp m (fun x => { x with
          waiting := x.waiting.erase f, unacked := x.unacked ++ [g], nextTx := x.nextTx + 1, freed := [0, 0, 0],
          credits := x.credits.set f.vc (x.credits.getD f.vc 0 - 1) }) s
        pumpLink m k (sendData m g s)
/-- A frame joins a link's waiting frames. -/
def queueFrame (m : Nat) (f : SpFrame) (s : State) : State := pumpLink m 64 (updSp m (fun x => { x with waiting := x.waiting ++ [f] }) s)

/-- A link goes down (R92): sequence states and frames not delivered go. -/
def spanDown (m : Nat) (s : State) : State :=
  let s := updSp m (fun x => { ({} : SpLink) with initSeq := x.initSeq, rx := x.rx }) s
  showSpan (wrF (linkBase m + 0x100) 5 2 0 (wrB (linkBase m + 0x100) 0 false s))

/-! ### Detectors of a span lane (R68, R71) -/

/-- A CL_EVT bit of a span lane. -/
def slEvt (n b : Nat) (s : State) : State := wrB (spLane n + 8) b true s
/-- A bond loses alignment: its link goes down. -/
def spanAlignLost (m : Nat) (s : State) : State :=
  let s := updSp m (fun x => { x with rx := none }) { s with sbonds := s.sbonds.set m (0, 0) }
  if !spAligned m s then spanDown m s else
    spanDown m (eachDo (fun n s => slEvt n 2 (wrF (spLane n + 4) 23 16 0 (wrB (spLane n + 4) clALIGNED false s))) (spLanes m) s)
/-- A span lane without block lock is out of its bond. -/
def spanUnlock (n : Nat) (s : State) : State :=
  let b := spLane n
  if !rdB (b + 4) clLOCK s then s else
    spanAlignLost (n / 4) (slEvt n 1 (inc (b + 0x14) 1 (wrB (b + 4) clLOCK false (wrB (b + 4) clHIBER false s))))
/-- A lane fault of a span link in use, unit 64 + lane, raised to the PF. -/
def spanLaneFault (code n : Nat) (s : State) : State := if linkUsed (n / 4) s then raiseFault code (64 + n) 0xFF 0 [0] s else s
/-- A span lane loses its signal (R68, R90). -/
def spanLosEnter (n : Nat) (s : State) : State := spanUnlock n (spanLaneFault 0x5001 n (slEvt n 0 (wrB (spLane n + 4) clLOS true s)))
/-- A span lane loses block lock (R68, R90). -/
def spanLockLost (n bad : Nat) (s : State) : State :=
  if !rdB (spLane n + 4) clLOCK s then s else spanUnlock n (spanLaneFault 0x5002 n (inc (spLane n + 0x10) bad s))
/-- A marker set at a link (R71, R90). -/
def spanMarkers (m : Nat) (ms : List (Option Marker)) (s : State) : State :=
  if !linkUsed m s then s else
    let locked := (spLanes m).all fun n => rdB (spLane n + 4) clLOCK s
    let x := Fam.get (0, 0) m s.sbonds
    if setOk 4 ms ∧ locked then
      let s := { s with sbonds := s.sbonds.set m (x.1 + 1, 0) }
      if 2 ≤ x.1 + 1 ∨ spAligned m s then
        eachDo (fun (y : Nat × Option Marker) s =>
          wrF (spLane y.1 + 4) 23 16 (match y.2 with | some k => k.skew | none => 0) (wrB (spLane y.1 + 4) clALIGNED true s)) ((spLanes m).zip ms) s
      else s
    else
      let s := { s with sbonds := s.sbonds.set m (0, x.2 + 1) }
      if spAligned m s ∧ 3 ≤ x.2 + 1 then spanAlignLost m s else s

/-! ### Span areas (R441) -/

/-- Pn's span area: the first 64 KiB of its first HBM region. -/
def spanArea (p : Nat) (s : State) : Option Nat :=
  ((upTo 16).find? fun r => rdB (kRGN p r + 0xC) 31 s && decide (rd (kRGN p r + 4) s < 8)).map fun r =>
    (rd (kRGN p r) s).toNat / 4096 * 4096 + rdF (kRGN p r + 4) 15 0 s * 2 ^ 32
/-- A 64-byte line of the area read and written whole by the span unit. -/
def spanRead (p o len : Nat) (s : State) : List Byte × State :=
  match spanArea p s with
  | some a => let r := devRead mSpan 0 p (a + o) len s; (r.1, r.2.2.2)
  | none => (zeros len, s)
/-- A line written to a partition's span area (R443). -/
def spanWrite (p o : Nat) (bs : List Byte) (s : State) : State :=
  match spanArea p s with
  | some a => (devWrite mSpan 0 p (a + o) (padTo 64 bs) s).2.2
  | none => s

def gop (p : Nat) (s : State) : Gop := Fam.get {} p s.gops
def updGop (p : Nat) (f : Gop → Gop) (s : State) : State := { s with gops := s.gops.set p (f (gop p s)) }

/-! ### Global operations (R443, R444) -/

/-- STATUS of a completion line. -/
abbrev gsOK : Nat := 0
abbrev gsTIMEOUT : Nat := 1
abbrev gsDOWN : Nat := 2
abbrev gsMISMATCH : Nat := 3
abbrev gsNOSYNC : Nat := 4

/-- An operation of partition p completes on this module: its completion line, and after a failure only RESET is accepted. -/
def gopDone (p : Nat) (seq : Word) (status : Nat) (s : State) : State :=
  let bad := decide (status = gsTIMEOUT ∨ status = gsDOWN ∨ status = gsMISMATCH)
  let s := updGop p (fun g => { g with last := seq, needReset := bad, cur := none }) s
  spanWrite p 0x40 (natLE 4 seq.toNat ++ natLE 1 status ++ zeros 3 ++ natLE 8 (nowNs s).toNat) s

/-- The payload of a global-operation frame. -/
def gopPayload (p : Nat) (c : GopCur) (off : Nat) (data : List Byte) : List Byte :=
  natLE 1 c.op ++ natLE 1 p ++ zeros 2 ++ natLE 4 c.seq.toNat ++ natLE 2 c.arrived.toNat ++ zeros 2 ++ natLE 4 off ++
  natLE 8 c.ts.toNat ++ zeros 8 ++ data
/-- A frame of the operation goes to the neighbours on every used link but one. -/
def gopFlood (p : Nat) (c : GopCur) (off : Nat) (data : List Byte) (skip : Option Nat) (s : State) : State :=
  eachDo (fun m s => queueFrame m { vc := 2, src := spSelf s, dst := neighbour m s, part := p, payload := gopPayload p c off data } s)
    ((upLinks s).filter fun m => decide (some m ≠ skip)) s

/-- The chunks of a broadcast: offsets of up to 4,064 bytes. -/
def chunks (len : Nat) : List Nat := (upTo ((len + 4063) / 4064)).map (· * 4064)

/-- The root has every request: it sends the data (R443). -/
def sendBroadcast (p : Nat) (c : GopCur) (s : State) : State :=
  eachDo (fun o s =>
    let r := devRead mSpan 0 p (c.addr + o) (min 4064 (c.len - o)) s
    gopFlood p c o r.1 none r.2.2.2) (chunks c.len) s

/-- What an operation does once its conditions hold: a barrier when every module has requested it; a broadcast when the data is sent, or
here; a reset at its root when every module has acted. -/
def gopCheck (p : Nat) (s : State) : State :=
  match (gop p s).cur with
  | none => s
  | some c =>
    let all := decide (c.arrived = torusAll s)
    if c.op = 1 ∧ c.own ∧ all then gopDone p c.seq gsOK s
    else if c.op = 2 ∧ c.own ∧ all then
      (if c.root = spSelf s then gopDone p c.seq gsOK (sendBroadcast p c s)
       else if (chunks c.len).all fun o => c.got.contains o then gopDone p c.seq gsOK s else s)
    else if c.op = 4 ∧ c.own ∧ all then gopDone p c.seq gsOK s
    else s

/-- RESET on this module (R443): queued descriptors, waiting frames and partial operations of the partition go; HEAD moves to TAIL. -/
def gopReset (p : Nat) (s : State) : State :=
  let s := { s with spans := s.spans.map fun l => (l.1, { l.2 with waiting := l.2.waiting.filter fun f => decide (f.part ≠ p) }) }
  updGop p (fun g => { g with cur := none, head := g.tail, busy := false, refused := [] }) s

/-- T_S of a snapshot at the root: at least now + 0.8 µs + 0.5 µs × H + 2.0 µs (R444). -/
def snapTime (ts : BitVec 64) (s : State) : BitVec 64 :=
  let low := nowNs s + BitVec.ofNat 64 (2800 + 500 * spH s)
  if ts = 0 ∨ 0 < (low - ts).toInt then low else ts

/-- A request of the partition (R443): ignored unless its SEQ is the next and no failure asks for a RESET. -/
def gopRequest (p : Nat) (l : List Byte) (s : State) : State :=
  let seq := wd (leAt l 0 4); let op := leAt l 4 1; let root := leAt l 5 1 % 16
  let addr := leAt l 8 8; let len := leAt l 16 4; let ts := BitVec.ofNat 64 (leAt l 20 8)
  let g := gop p s
  let self := BitVec.ofNat 16 (2 ^ spSelf s)
  let rootOnly := decide (op = 3 ∨ op = 4)
  if op = 0 ∨ 4 < op ∨ (rootOnly ∧ root ≠ spSelf s) ∨ (op = 2 ∧ (len % 8 ≠ 0 ∨ 1048576 < len)) then s
  else if op ≠ 4 ∧ (seq ≠ g.last + 1 ∨ g.needReset ∨ g.cur.any fun c => c.own) then s
  else if (upTo 4).any fun m => linkUsed m s && !linkIsUp m s then gopDone p seq gsDOWN s
  else
    let new : GopCur := { seq := seq, op := op, root := root, addr := addr, len := len, ts := ts, own := true, arrived := self, since := tick s }
    if op = 4 then
      let s := updGop p (fun g => { g with cur := some new }) (gopReset p s)
      gopCheck p (gopFlood p new 0 [] none s)
    else if op = 3 then
      let c := { new with ts := snapTime ts s }
      gopFlood p c 0 [] none (updGop p (fun g => { g with cur := some c }) s)
    else match g.cur with
      | some c =>
        if c.op ≠ op then gopDone p seq gsMISMATCH s else
          let c := { new with arrived := c.arrived ||| self }
          gopCheck p (gopFlood p c 0 [] none (updGop p (fun g => { g with cur := some c }) s))
      | none => gopCheck p (gopFlood p new 0 [] none (updGop p (fun g => { g with cur := some new }) s))

/-- The watched request line is read, where the partition takes part; `op` restricts the request to one operation. -/
def requestLine (p : Nat) (op : Option Nat) (s : State) : State :=
  if !spPart p s || (spanArea p s).isNone then s else
    let r := spanRead p 0 64 s
    match op with
    | some o => if leAt r.1 4 1 = o then gopRequest p r.1 r.2 else r.2
    | none => gopRequest p r.1 r.2

/-- A global-operation frame arrives (R443): requests are counted and passed on, data is written, a snapshot or reset is taken. -/
def gopFrame (m : Nat) (pl : List Byte) (s : State) : State :=
  let op := leAt pl 0 1; let p := leAt pl 1 1; let seq := wd (leAt pl 4 4); let arr := BitVec.ofNat 16 (leAt pl 8 2)
  let off := leAt pl 12 4; let ts := BitVec.ofNat 64 (leAt pl 16 8); let data := pl.drop 32
  if 16 ≤ p ∨ !spPart p s then inc (linkBase m + 0x114) 1 s else
    let g := gop p s
    let self := BitVec.ofNat 16 (2 ^ spSelf s)
    let new : GopCur := { seq := seq, op := op, root := 0, addr := 0, len := 0, ts := ts, own := false, arrived := arr, since := tick s }
    if op = 4 then
      match g.cur with
      | some c =>
        if c.op = 4 ∧ c.seq = seq then
          (if c.arrived ||| arr = c.arrived then s else
            let c := { c with arrived := c.arrived ||| arr }
            gopCheck p (gopFlood p c 0 [] (some m) (updGop p (fun g => { g with cur := some c }) s)))
        else gopDone p seq gsOK (gopFlood p { new with arrived := arr ||| self } 0 [] none (gopReset p s))
      | none =>
        if g.last = seq then gopFlood p { new with arrived := arr ||| self } 0 [] (some m) s
        else gopDone p seq gsOK (gopFlood p { new with arrived := arr ||| self } 0 [] none (gopReset p s))
    else if seq ≠ g.last + 1 ∨ g.needReset then s
    else match g.cur with
      | none =>
        if op = 3 then gopFlood p new 0 [] (some m) (updGop p (fun g => { g with cur := some new }) s)
        else if op = 1 ∨ op = 2 then gopFlood p new 0 [] (some m) (updGop p (fun g => { g with cur := some new }) s)
        else s
      | some c =>
        if c.op ≠ op then (if c.own then gopDone p seq gsMISMATCH s else s)
        else if op = 3 then s
        else
          let grown := decide (c.arrived ||| arr ≠ c.arrived)
          let c := { c with arrived := c.arrived ||| arr }
          if data.isEmpty then
            let s := updGop p (fun g => { g with cur := some c }) s
            gopCheck p (if grown then gopFlood p c 0 [] (some m) s else s)
          else if !c.own || c.got.contains off then updGop p (fun g => { g with cur := some c }) s
          else if c.root = spSelf s ∨ c.len < off + data.length then gopDone p seq gsMISMATCH s
          else
            let s := (devWrite mSpan 0 p (c.addr + off) data s).2.2
            let c := { c with got := off :: c.got }
            gopCheck p (gopFlood p c off data (some m) (updGop p (fun g => { g with cur := some c }) s))

/-- The snapshot record (R444). -/
def snapBytes (p : Nat) (ts : BitVec 64) (s : State) : List Byte :=
  natLE 8 ts.toNat ++ natLE 8 (tick s).toNat ++
  ((upTo 6).flatMap fun i => if encRead p i s then natLE 4 (encPos i s).toNat else zeros 4) ++
  natLE 8 (cntGet (acctBase p + 0x10) s).toNat ++ natLE 8 (cntGet (acctBase p + 0x38) s).toNat ++ natLE 4 (rd kTIME_ERR s).toNat ++
  natLE 1 (qual s) ++ zeros 3
/-- SNAPSHOT_CAPTURE: module time reaches T_S (R444). -/
def snapCapture (p : Nat) (s : State) : State :=
  match (gop p s).cur with
  | some c =>
    if c.op = 3 ∧ 0 ≤ (nowNs s - c.ts).toInt then
      gopDone p c.seq (if qual s = 0 ∨ qual s = 4 then gsNOSYNC else gsOK) (spanWrite p 0x100 (snapBytes p c.ts s) s)
    else s
  | none => s

/-- SPAN_GOP_TIMEOUT: GOP_TO has passed since the module's own request (R443). -/
def gopTimeout (p : Nat) (s : State) : State :=
  match (gop p s).cur with
  | some c =>
    if c.own ∧ spCfg 5 1 s * 62500 ≤ ticksSince c.since s then
      raiseFault 0x5007 p p 0 [p + 1, 0] (gopDone p c.seq gsTIMEOUT s)
    else s
  | none => s

/-! ### Transfers (R442) -/

/-- The status line. -/
def transferStatus (p : Nat) (s : State) : State :=
  let g := gop p s
  spanWrite p 0xC0 (natLE 4 g.head.toNat ++ natLE 4 g.errors.toNat ++ natLE 4 (g.firstBad.getD 0).toNat) s
/-- A descriptor's error is reported, and HEAD advances. -/
def transferDone (p : Nat) (refused : Bool) (s : State) : State :=
  let s := updGop p (fun g => { g with
    head := g.head + 1, busy := false, errors := if refused then g.errors + 1 else g.errors,
    firstBad := if refused then (match g.firstBad with | some i => some i | none => some g.head) else g.firstBad }) s
  transferStatus p s

/-- Lines a frame of a transfer carries. -/
def spanLines : Nat := 1 + Config.spanChunk % 62
/-- The frames of a transfer: offsets. -/
def transferOffs (len : Nat) : List Nat := (upTo ((len + 64 * spanLines - 1) / (64 * spanLines))).map (· * (64 * spanLines))

/-- A frame of a transfer is taken at the destination (R442): its lines are written under the destination's Pn; with the last one visible
and none refused the counter is incremented. A refused transfer raises SPAN_REFUSED. -/
def transferIn (m src : Nat) (pl : List Byte) (s : State) : State :=
  let p := Config.spanPart pl
  if 16 ≤ p ∨ !spPart p s then inc (linkBase m + 0x114) 1 s else
    let r := devWrite mSpan m p (Config.spanAddr pl) (Config.spanData pl) s
    let s := r.2.2
    let s := if r.1 ≠ 0 then updGop p (fun g => { g with refused := if g.refused.contains src then g.refused else src :: g.refused }) s else s
    if !Config.spanLast pl then s else
      let bad := (gop p s).refused.contains src
      let s := updGop p (fun g => { g with refused := g.refused.filter (· != src) }) s
      let s := if bad then raiseFault 0x5008 p p 0 [p + 1] s else
        match Config.spanCnt pl with
        | some a =>
          let v := devRead mSpan m p a 8 s
          (devWrite mSpan m p a (natLE 8 (leNat v.1 + 1)) v.2.2.2).2.2
        | none => s
      queueFrame (routeLink src s) { vc := 1, src := spSelf s, dst := src, part := p, payload := Config.spanBytes [p, b2n bad] [] } s

/-- The descriptor at HEAD starts (R442): its source is read with Pn's tag and sent on VC 0. A descriptor out of range is an error, and
the next one is tried, at most `k` of them. -/
def transferStart (p : Nat) : Nat → State → State
  | 0, s => s
  | k + 1, s =>
    let g := gop p s
    if g.busy || decide (g.head = g.tail) || g.needReset then s else
      let r := spanRead p (0x1000 + g.head.toNat % 512 * 32) 32 s
      let d := r.1
      let dst := leAt d 0 1; let len := leAt d 4 4
      if 16 ≤ dst ∨ spDX s ≤ dst % 4 ∨ spDY s ≤ dst / 4 ∨ len < 64 ∨ 1048576 < len ∨ len % 64 ≠ 0 then
        transferStart p k (transferDone p true r.2)
      else
        let cnt := if (leAt d 1 1).testBit 0 then leAt d 24 8 + 1 else 0
        let s := updGop p (fun g => { g with busy := true }) r.2
        eachDo (fun o s =>
          let n := min (64 * spanLines) (len - o)
          let x := devRead mSpan 0 p (leAt d 8 8 + o) n s
          let pl := Config.spanBytes [p, leAt d 16 8 + o, b2n (decide (len ≤ o + n)), cnt] x.1
          if dst = spSelf s then transferIn 0 dst pl x.2.2.2
          else queueFrame (routeLink dst s) { vc := 0, src := spSelf s, dst := dst, part := p, payload := pl } x.2.2.2) (transferOffs len) s

/-- The doorbell line is read: TAIL (R441). -/
def doorbellBody (p : Nat) (s : State) : State :=
  if !spPart p s || (spanArea p s).isNone then s else
    let r := spanRead p 0x80 64 s
    transferStart p 512 (updGop p (fun g => { g with tail := wd (leAt r.1 0 4) }) r.2)
/-- The destination answers (R442). -/
def transferComplete (p : Nat) (refused : Bool) (s : State) : State :=
  if !(gop p s).busy then s else
    let s := transferDone p refused s
    transferStart p 512 (if refused then raiseFault 0x5008 p p 0 [p + 1] s else s)

/-! ### Receiving (R91 to R93) -/

/-- The HELLO payload of a span link (R440). -/
def spanHello (m : Nat) (s : State) : List Byte :=
  [1, 2, 4, 1] ++ natLE 2 (sp m s).initSeq.toNat ++ natLE 2 4116 ++ zeros 2 ++ natLE 1 (spDX s) ++ natLE 1 (spDY s) ++ zeros 4 ++
  natLE 8 Config.serial.toNat ++ natLE 8 (spCfg 8 8 s)

/-- The module's HELLO on a link (R73, R92). -/
def sendHello (m : Nat) (s : State) : State :=
  emit (.span m (stripe 4 (frameBlocks (spanBytesOut 0x43 (b2n (sp m s).seen) 0 0 (spSelf s) (neighbour m s) [] (spanHello m s))))) s
/-- Every 10 µs before a used, aligned link is up, a HELLO goes out (R73, R92). -/
def spanHelloTimer (m : Nat) (s : State) : State := if linkUsed m s && spAligned m s && !linkIsUp m s then sendHello m s else s

/-- A span HELLO on a link that is coming up (R73, R92, R440). DESIGN CHOICE (notes/assumptions/28.md): it is answered at once, so that
neither of two modules stops before the other has seen its SEEN. -/
def helloSpan (m : Nat) (f : List Byte) (s : State) : State :=
  if linkIsUp m s then s else
    let pl := f.drop 16
    if leAt pl 10 1 ≠ spDX s ∨ leAt pl 11 1 ≠ spDY s ∨ leAt pl 24 8 ≠ spCfg 8 8 s then
      raiseFault 0x5006 (64 + m) 0xFF 0 [0] (updSp m (fun x => { x with seen := false }) s)
    else if leAt f 8 1 ≠ neighbour m s ∨ leAt pl 0 1 ≠ 1 ∨ leAt pl 1 1 ≠ 2 then updSp m (fun x => { x with seen := false }) s
    else
      let up := (leAt f 1 1).testBit 0 && (sp m s).seen
      let s := updSp m (fun x => { x with seen := true }) s
      let s := sendHello m s
      if !up then s else
        let s := updSp m (fun x => { ({} : SpLink) with
          seen := true, rx := x.rx, nextTx := x.initSeq, nextRx := BitVec.ofNat 16 (leAt pl 4 2), initSeq := x.initSeq + 0x1000, credits := [32, 32, 32] }) s
        showSpan (wrF (linkBase m + 0x100) 5 2 (leAt f 8 1) (wrB (linkBase m + 0x100) 0 true s))

/-- ACK and CREDIT of an accepted frame (R91, R92). -/
def takeAck (m : Nat) (f : List Byte) (s : State) : State :=
  let ack := BitVec.ofNat 16 (leAt f 4 2)
  let x := sp m s
  let done := (x.unacked.filter fun g => decide (0 ≤ (ack - g.seq).toInt)).length
  let s := updSp m (fun x => { x with
    unacked := x.unacked.filter fun g => !decide (0 ≤ (ack - g.seq).toInt), expiries := if 0 < done then 0 else x.expiries,
    credits := (upTo 3).foldl (fun c i => bump c i (leAt f (10 + i) 1)) x.credits }) s
  pumpLink m 64 s

/-- A DATA frame accepted in order is delivered, or forwarded to its destination (R92, R440). -/
def deliverSpan (m : Nat) (f : List Byte) (s : State) : State :=
  let vc := leAt f 1 1 % 4; let dst := leAt f 9 1 % 16; let pl := (f.drop 16).take (leAt f 6 2)
  let s := updSp m (fun x => { x with nextRx := x.nextRx + 1, ackDue := true, freed := bump x.freed vc 1 }) s
  if dst ≠ spSelf s then queueFrame (routeLink dst s) { vc := vc, src := leAt f 8 1, dst := dst, part := 16, payload := pl } s
  else if vc = 0 then transferIn m (leAt f 8 1 % 16) pl s
  else if vc = 2 then gopFrame m pl s
  else s

/-- A frame at a used, aligned span link (R91 to R93). -/
def spanRx (m : Nat) (fr : RxFrame) (s : State) : State :=
  let f := fr.bytes
  let typ := leAt f 0 1; let len := leAt f 6 2
  if fr.broken || decide (f.length ≠ 20 + len) || decide (4096 < len) || decide (len % 8 ≠ 0) ||
      decide (leAt f (f.length - 4) 4 ≠ (crc32 (f.take (f.length - 4))).toNat) || (spLanes m).any (fun n => rdB (spLane n + 4) clHIBER s) then
    inc (linkBase m + 0x110) 1 s
  else if typ = 0x43 then (if len = 32 then helloSpan m f s else inc (linkBase m + 0x110) 1 s)
  else if !linkIsUp m s then inc (linkBase m + 0x114) 1 s
  else if typ = 0x42 then takeAck m f s
  else if typ = 0x41 ∧ leAt f 1 1 % 4 ≠ 3 ∧ BitVec.ofNat 16 (leAt f 2 2) = (sp m s).nextRx then deliverSpan m f (takeAck m f s)
  else inc (linkBase m + 0x114) 1 s

/-- A logical block at a span link (R66, R67). -/
def spanBlock (m : Nat) (b : Block) (s : State) : State :=
  let f := (sp m s).rx
  let put := fun (r : Option RxFrame) s => updSp m (fun x => { x with rx := r }) s
  let cut := fun (s : State) => match f with | some f => spanRx m { f with broken := true } (put none s) | none => s
  match blockKind b, f with
  | .data l, some f => put (some { f with bytes := f.bytes ++ l }) s
  | .term l, some f => spanRx m { f with bytes := f.bytes ++ l } (put none s)
  | .start l, _ => put (some { bytes := l }) (cut s)
  | .invalid, _ => cut s
  | _, _ => s
/-- A stretch of blocks at a span link (R67, R70, R90). -/
def spanStretch (m : Nat) (x : Stretch) (s : State) : State :=
  if !linkUsed m s then s else
    let s := eachDo (fun (l : Nat × List Block) s => countBlocks (spLane l.1) l.2 s) ((spLanes m).zip x) s
    if !spAligned m s then s else eachDo (fun (b : Block × Nat) s => spanBlock m b.1 s) (rebuild 4 x) s

/-- No frame went back within 1 µs of an acceptance (R92). -/
def ackTimer (m : Nat) (s : State) : State :=
  if !linkIsUp m s || !(sp m s).ackDue then s else
    let s' := updSp m (fun x => { x with freed := [0, 0, 0] }) s
    sendRaw m (spanBytesOut 0x42 0 0 (lastRx m s) (spSelf s) (neighbour m s) (sp m s).freed []) s'
/-- SPAN_RTO passes without progress (R92): the frames go again, or the link goes down. -/
def rtoBody (m : Nat) (s : State) : State :=
  if !linkIsUp m s || (sp m s).unacked.isEmpty then s
  else if rdF (linkBase m + 0x108) 7 0 s ≤ (sp m s).expiries + 1 then raiseFault 0x5005 m 0xFF 0 [0] (spanDown m s)
  else
    let s := updSp m (fun x => { x with expiries := x.expiries + 1 }) s
    eachDo (fun f s => inc (linkBase m + 0x10C) 1 (sendData m f s)) (sp m s).unacked s

/-! ### The commands -/

/-- SPAN_DATA (R92). -/
def execSpanData (link : Fin 4) (x : Stretch) (s : State) : Host.Outcome State Fault Refusal := .next (spanStretch link.val x s)
/-- SPAN_ACK (R92). -/
def execSpanAck (link : Fin 4) (x : Stretch) (s : State) : Host.Outcome State Fault Refusal := .next (spanStretch link.val x s)
/-- SPAN_HELLO (R440). -/
def execSpanHello (link : Fin 4) (x : Stretch) (s : State) : Host.Outcome State Fault Refusal := .next (spanStretch link.val x s)
/-- GOP_FRAME (R443). -/
def execGopFrame (link : Fin 4) (x : Stretch) (s : State) : Host.Outcome State Fault Refusal := .next (spanStretch link.val x s)
/-- HELLO_TIMER (R73, R92). -/
def execHelloTimer (bond : BondId) (s : State) : Host.Outcome State Fault Refusal :=
  .next (match bond with
    | .cam st => camHelloTimer st.val s
    | .span m => spanHelloTimer m.val s)
/-- SPAN_ACK_TIMER (R92). -/
def execSpanAckTimer (link : Fin 4) (s : State) : Host.Outcome State Fault Refusal := .next (ackTimer link.val s)
/-- SPAN_RTO (R92). -/
def execSpanRto (link : Fin 4) (s : State) : Host.Outcome State Fault Refusal := .next (rtoBody link.val s)
/-- SPAN_REQUEST_LINE (R443). -/
def execSpanRequestLine (p : Fin 16) (s : State) : Host.Outcome State Fault Refusal := .next (requestLine p.val none s)
/-- BARRIER (R444). -/
def execBarrier (p : Fin 16) (s : State) : Host.Outcome State Fault Refusal := .next (requestLine p.val (some 1) s)
/-- BROADCAST (R444). -/
def execBroadcast (p : Fin 16) (s : State) : Host.Outcome State Fault Refusal := .next (requestLine p.val (some 2) s)
/-- SNAPSHOT (R444). -/
def execSnapshot (p : Fin 16) (s : State) : Host.Outcome State Fault Refusal := .next (requestLine p.val (some 3) s)
/-- RESET (R443). -/
def execReset (p : Fin 16) (s : State) : Host.Outcome State Fault Refusal := .next (requestLine p.val (some 4) s)
/-- SNAPSHOT_CAPTURE (R444). -/
def execSnapshotCapture (p : Fin 16) (s : State) : Host.Outcome State Fault Refusal := .next (snapCapture p.val s)
/-- SPAN_GOP_TIMEOUT (R443). -/
def execSpanGopTimeout (p : Fin 16) (s : State) : Host.Outcome State Fault Refusal := .next (gopTimeout p.val s)
/-- SPAN_TRANSFER_DOORBELL (R442). -/
def execSpanTransferDoorbell (p : Fin 16) (s : State) : Host.Outcome State Fault Refusal := .next (doorbellBody p.val s)
/-- SPAN_TRANSFER_COMPLETE (R442). -/
def execSpanTransferComplete (p : Fin 16) (refused : Bool) (s : State) : Host.Outcome State Fault Refusal :=
  .next (transferComplete p.val refused s)

end Sys2Proof.Machine
end

