-- ==== Sys2Proof/Machine/LaneEv.lean ====
section
/-! DEFINITION. What the detectors of the camera and span lanes report (04_chanak_lanes.md, R68, R71) and the cages of the pluggables
(21_electrical_and_mechanical.md, R464). -/

namespace Sys2Proof.Machine

open Sys2Proof

/-- The block of a lane. -/
def laneBlk : LaneId → Nat
  | .cam n => laneBase n
  | .span n => spanLaneBase n
/-- The cage of a lane (R463). -/
def laneCage : LaneId → Nat
  | .cam n => n / 8
  | .span n => 8 + n / 4

/-- LOS is entered: the lane has lost lock (R68). -/
def losEnter : LaneId → State → State
  | .cam n, s => camLosEnter n s
  | .span n, s => spanLosEnter n s
/-- LOS_ENTER (R68): a lane without signal stays so. -/
def losEnterBody (l : LaneId) (s : State) : State := if rdB (laneBlk l + 4) clLOS s then s else losEnter l s
/-- LOS_ENTER (R68). -/
def execLosEnter (lane : LaneId) (s : State) : Host.Outcome State Fault Refusal := .next (losEnterBody lane s)

/-- LOS_EXIT (R68): the signal is there; a pluggable in low-power mode gives none (R464). -/
def losExitBody (l : LaneId) (s : State) : State := if cageDark (laneCage l) s then s else wrB (laneBlk l + 4) clLOS false s
/-- LOS_EXIT (R68). -/
def execLosExit (lane : LaneId) (s : State) : Host.Outcome State Fault Refusal := .next (losExitBody lane s)

/-- BLOCK_LOCK (R68): a lane with signal gains lock. -/
def blockLockBody (l : LaneId) (s : State) : State :=
  if rdB (laneBlk l + 4) clLOS s then s else wrB (laneBlk l + 4) clLOCK true s
/-- BLOCK_LOCK (R68). -/
def execBlockLock (lane : LaneId) (s : State) : Host.Outcome State Fault Refusal := .next (blockLockBody lane s)

/-- LOCK_LOST (R68): with `badHdr` invalid headers not yet counted. -/
def lockLostBody : LaneId → Nat → State → State
  | .cam n, b, s => camLockLost n b s
  | .span n, b, s => spanLockLost n b s
/-- LOCK_LOST (R68). -/
def execLockLost (lane : LaneId) (badHdr : Nat) (s : State) : Host.Outcome State Fault Refusal := .next (lockLostBody lane badHdr s)

/-- HI_BER_ENTER (R68): only while locked; `badHdr` invalid headers not yet counted. -/
def hiBerBody (l : LaneId) (bad : Nat) (s : State) : State :=
  let b := laneBlk l
  if !rdB (b + 4) clLOCK s then s else
    let s := inc (b + 0x10) bad s
    if rdB (b + 4) clHIBER s then s else inc (b + 0x1C) 1 (wrB (b + 4) clHIBER true s)
/-- HI_BER_ENTER (R68). -/
def execHiBerEnter (lane : LaneId) (badHdr : Nat) (s : State) : Host.Outcome State Fault Refusal := .next (hiBerBody lane badHdr s)

/-- HI_BER_WINDOW_END (R68): a full window with `badHdr` invalid headers ends; fewer than 16 leave HI_BER. -/
def hiBerEndBody (l : LaneId) (bad : Nat) (s : State) : State :=
  let b := laneBlk l
  if !rdB (b + 4) clLOCK s then s else
    let s := inc (b + 0x10) bad s
    if bad < 16 then wrB (b + 4) clHIBER false s else s
/-- HI_BER_WINDOW_END (R68). -/
def execHiBerWindowEnd (lane : LaneId) (badHdr : Nat) (s : State) : Host.Outcome State Fault Refusal :=
  .next (hiBerEndBody lane badHdr s)

/-- ALIGNMENT_MARKER (R71): a marker set of a bond. -/
def markersBody : BondId → List (Option Marker) → State → State
  | .cam st, ms, s => camMarkers st ms s
  | .span m, ms, s => spanMarkers m ms s
/-- ALIGNMENT_MARKER (R70, R71). -/
def execAlignmentMarker (bond : BondId) (ms : List (Option Marker)) (s : State) : Host.Outcome State Fault Refusal :=
  .next (markersBody bond ms s)

/-! ### Cages (R463, R464) -/

/-- A cage's number, its largest class in 0.1 W, and the lanes it carries. -/
def cageNo : Cage → Nat
  | .qsfpDd j => j
  | .qsfp28 m => 8 + m
  | .sfp p => 12 + p
/-- The greatest power class of a cage in 0.1 W (R464). -/
def cageLimit : Cage → Nat
  | .qsfpDd _ => 50
  | .qsfp28 _ => 35
  | .sfp _ => 15
/-- The lanes of a cage (R464); an SFP cage has an Ethernet port instead. -/
def cageLanes : Cage → List LaneId
  | .qsfpDd j => (upTo 8).map fun k => .cam (Fin.ofNat 64 (8 * j + k))
  | .qsfp28 m => (upTo 4).map fun k => .span (Fin.ofNat 16 (4 * m + k))
  | .sfp _ => []

/-- PLUGGABLE_INSERTION (R464): a pluggable within the cage's class is enabled; another is left in low-power mode and its lanes see loss
of signal. -/
def insertBody (c : Cage) (dw : Nat) (s : State) : State :=
  let ok := decide (dw ≤ cageLimit c)
  let s := { s with cages := s.cages.set (cageNo c) { classDw := dw, enabled := ok } }
  if ok then s else
    let s := eachDo losEnterBody (cageLanes c) s
    match c with
    | .sfp p => linkDownBody p s
    | _ => s
/-- PLUGGABLE_INSERTION (R464). -/
def execPluggableInsertion (cage : Cage) (classDw : Nat) (s : State) : Host.Outcome State Fault Refusal :=
  .next (insertBody cage classDw s)

end Sys2Proof.Machine
end

