-- ==== Sys2Proof/Machine/Clock.lean ====
section
/-! DEFINITION. REFCLK, its watching and the internal oscillator (18_clocks_power_ageing.md, R408 to R414). Offsets are in 0.1 ppm. -/

namespace Sys2Proof.Machine

open Sys2Proof

/-- Bits of CLK_STAT (R428). -/
abbrev csREFOK : Nat := 0
abbrev csOOR : Nat := 1
abbrev csTWILIGHT : Nat := 2
abbrev csOSC : Nat := 3
abbrev csTRIMMED : Nat := 6

def updClk (f : Clk → Clk) (s : State) : State := { s with clk := f s.clk }
/-- A CLK_EVT bit set. -/
def clkEvt (b : Nat) (s : State) : State := wrB kCLK_EVT b true s
/-- REF_OK: REFCLK drives the clocks and is not out of range (notes/assumptions/62.md). -/
def showRef (s : State) : State :=
  let ok := s.boot.osc && s.boot.refPresent && !holdover s && !rdB kCLK_STAT csOOR s
  let s := wrB kCLK_STAT csREFOK ok (wrB kSYS_GSTAT 2 (holdover s) s)
  if holdover s then s else wrF kCLK_STAT 5 4 (b2n ok) s
/-- The hottest die sensor as PWR_TJ shows it. -/
def tjNow (s : State) : Nat := rdF kPWR_TJ 7 0 s

/-- The oscillator is trimmed (R410): the code is a free value. -/
def trimOsc (s : State) : State :=
  let v := (Config.freeWord s.fresh).toNat % 2 ^ 20
  let s := wrB kCLK_STAT csTRIMMED true (wr kCLK_OSC_TRIM (wd v) (draw 1 s))
  updClk (fun c => { c with trimTj := tjNow s, trimTick := tick s }) s

/-- The oscillator's accuracy in ppb since its last trim (R410). -/
def oscPpb (s : State) : Nat :=
  if !rdB kCLK_STAT csTRIMMED s then 1000000 else
    2000 + 500 * ((tjNow s : Int) - s.clk.trimTj).natAbs + 1000 * (ticksSince s.clk.trimTick s / 54000000000000)

/-- The stream whose start-of-frame marks trim the oscillator, while its port is up and its camera declared SOF (R410). -/
def sofSource (s : State) : Option Nat :=
  let st := pwrByte 14 s
  if decide (st < 64) && camUp st s && (cport st s).sof then some st else none
where
  /-- A byte of the POWER section (R419). -/
  pwrByte (o : Nat) (s : State) : Nat := if (secOf s.img 0x02 0).isNone then 0xFF else cfg 0x02 0 o 1 s

/-- TRIM_SRC in holdover follows the start-of-frame source, while its port is up or not (R410). -/
def showTrim (s : State) : State := if holdover s then wrF kCLK_STAT 5 4 (if (sofSource s).isSome then 2 else 0) s else s

/-- Every lane and Ethernet port loses lock (R75, R374). -/
def allUnlock (s : State) : State :=
  let s := eachDo (fun n => camLockLost n 0) (upTo 64) s
  let s := eachDo (fun n => spanLockLost n 0) (upTo 16) s
  eachDo linkDownBody (upTo 2) s

/-- Twilight holdover begins (R413): cause 1 STOP, 2 RATE, 3 ABSENT. -/
def enterHoldover (cause : Nat) (s : State) : State :=
  let src := sofSource s
  let s := wrF kCLK_STAT 15 8 cause (wrB kCLK_STAT csTWILIGHT true s)
  let s := inc kCLK_CNT_LOST 1 (clkEvt 0 (updClk (fun c => { c with outRun := 0, backRun := 0, mark := none, marks := 0 }) s))
  let s := setQual 4 (oscPpb s) s
  let s := allUnlock (showRef s)
  let s := wrF kCLK_STAT 5 4 (if src.isSome then 2 else 0) s
  let s := raiseFault 0xB001 0 0xFF (wd cause) (allFns s) s
  if src.isSome then s else raiseFault 0xB00B 0 0xFF 0 [0] s

/-- REFCLK is back (R414). -/
def leaveHoldover (s : State) : State :=
  let s := clkEvt 1 (wrB kCLK_STAT csTWILIGHT false s)
  let s := showRef (updClk (fun c => { c with backRun := 0, outRun := 0 }) s)
  let s := setQual (if s.ptp.slave.isSome then 1 else 0) 0 s
  raiseFault 0xB003 0 0xFF 0 (allFns s) (allUnlock s)

/-- REFCLK_OOR set (R412). -/
def setOor (s : State) : State :=
  let s := wrB kCLK_STAT csOOR true (updClk (fun c => { c with okRun := 0 }) s)
  raiseFault 0xB002 0 0xFF 0 [0] (showRef s)

/-- REFCLK_GLITCH (R412). -/
def glitchBody (s : State) : State :=
  if !s.boot.osc then s else
    setOor (inc kCLK_CNT_GLITCH 1 (clkEvt 3 (clkEvt 2 (updClk (fun c => { c with glitch := true }) s))))
/-- REFCLK_GLITCH (R412). -/
def execRefclkGlitch (s : State) : Host.Outcome State Fault Refusal := .next (glitchBody s)

/-- A 16-bit signed field, saturating. -/
def satS16 (x : Int) : Int := if x < -32768 then -32768 else if 32767 < x then 32767 else x

/-- The runs of windows that a 1 ms window extends or breaks (R412, R414). -/
def countWindow (ppm10 : Int) (c : Clk) : Clk :=
  let out := decide (2000 < ppm10.natAbs)
  { c with
    outRun := if out then c.outRun + 1 else 0,
    okRun := if out || c.glitch then 0 else c.okRun + 1,
    backRun := if c.glitch || decide (1000 < ppm10.natAbs) then 0 else c.backRun + 1,
    glitch := false }

/-- REFCLK_WINDOW: a 1 ms window in which REFCLK was measured at `ppm10` from the oscillator ends (R410, R412, R414). -/
def windowBody (ppm10 : Int) (s : State) : State :=
  if !s.boot.osc then s else
    let s := wr kCLK_REF_PPM (wd ((wdi (satS16 ppm10)).toNat % 65536)) { s with boot := { s.boot with refPresent := true } }
    let s := updClk (countWindow ppm10) s
    let s := if 2000 < ppm10.natAbs then setOor (inc kCLK_CNT_OOR 1 (clkEvt 2 s)) else s
    let s := if 100 ≤ s.clk.okRun then showRef (wrB kCLK_STAT csOOR false s) else s
    if holdover s then (if 100 ≤ s.clk.backRun then trimOsc (leaveHoldover s) else s)
    else if 10 ≤ s.clk.outRun then enterHoldover 2 s
    else if rdB kCLK_STAT csOOR s then s else trimOsc s
/-- REFCLK_WINDOW (R412). -/
def execRefclkWindow (ppm10 : Int) (s : State) : Host.Outcome State Fault Refusal := .next (windowBody ppm10 s)

/-- REFCLK_LOSS (R412, R413). -/
def lossBody (s : State) : State :=
  if !s.boot.osc then s else
    let s := updClk (fun c => { c with okRun := 0, outRun := 0, backRun := 0 }) { s with boot := { s.boot with refPresent := false } }
    if holdover s then showRef s else enterHoldover 1 s
/-- REFCLK_LOSS (R413). -/
def execRefclkLoss (s : State) : Host.Outcome State Fault Refusal := .next (lossBody s)

/-- SOF_MARK: in holdover, 16 consecutive marks of the chosen port trim the oscillator (R410, R75). -/
def sofBody (st : Nat) (count : BitVec 24) (s : State) : State :=
  if !holdover s || decide (sofSource s ≠ some st) then s else
    let n := if s.clk.mark = some (count - 1) then s.clk.marks + 1 else 1
    let s := updClk (fun c => { c with mark := some count, marks := n }) (wrF kCLK_STAT 5 4 2 s)
    if n < 16 then s else updClk (fun c => { c with mark := none, marks := 0 }) (trimOsc s)
/-- SOF_MARK (R410). -/
def execSofMark (st : Fin 64) (count : BitVec 24) (s : State) : Host.Outcome State Fault Refusal := .next (sofBody st.val count s)

/-- The oscillator is stable (R409, R411, R413): the time base starts and counts from 0; without REFCLK the module starts in holdover. -/
def oscStart (refclk : Bool) (s : State) : State :=
  let s := { s with boot := { s.boot with osc := true, refPresent := refclk }, time := { s.time with running := true, c := 0 } }
  let s := wrB kCLK_STAT csOSC true s
  if refclk then showRef s else enterHoldover 3 s

end Sys2Proof.Machine
end

