-- ==== Sys2Proof/Machine/Operands.lean ====
section
/-! DEFINITION. A core's registers and operand forms (10_dispatch_programs.md, R208, R211), the 64-bit dispatch words (R210), the program
counter with its hardware loops (R213), tokens (R214) and the items its units hold. -/

namespace Sys2Proof

/-- The MODE code (R223). -/
def TileMode.code : TileMode → Nat
  | .w8a8 => 0
  | .w4a8 => 1
  | .kb8 => 2
/-- The COND code (R212). -/
def Cond.code : Cond → Nat
  | .eq => 0
  | .ne => 1
  | .lt => 2
  | .ge => 3
  | .ltu => 4
  | .geu => 5
  | .always => 6
/-- The target code of VQ (R226). -/
def VqTarget.code : VqTarget → Nat
  | .int8 => 0
  | .int16 => 1
  | .b16 => 2
  | .kb8 => 3
/-- The format code (R229). -/
def VFmt.code : VFmt → Nat
  | .u8 => 0
  | .int8 => 1
  | .int16 => 2
  | .e4m3 => 3
  | .e5m2 => 4
  | .b16 => 5
  | .kb8 => 6
/-- The FN code of VEW (R229). -/
def VewFn.code : VewFn → Nat
  | .add => 0
  | .max => 1
  | .min => 2

/-! The meanings of the codes of legal words. -/
def modeOf (k : Nat) : TileMode := if k = 0 then .w8a8 else if k = 1 then .w4a8 else .kb8
/-- COND of BR by its code (R212). -/
def condOf (k : Nat) : Cond := [Cond.eq, .ne, .lt, .ge, .ltu, .geu].getD k .always
/-- TGT of VQ by its code (R226). -/
def tgtOf (k : Nat) : VqTarget := [VqTarget.int8, .int16, .b16].getD k .kb8
/-- A vector format by its code (R229). -/
def fmtOfCode (k : Nat) : VFmt := [VFmt.u8, .int8, .int16, .e4m3, .e5m2, .b16].getD k .kb8
/-- FN of VEW by its code (R229). -/
def vewFnOf (k : Nat) : VewFn := [VewFn.add, .max].getD k .min

end Sys2Proof

namespace Sys2Proof.Machine

open Sys2Proof

/-! ### Registers of the sequencer -/

/-- A scalar register: s0 reads 0 (R207). -/
def sreg (n : Nat) (r : SReg) (s : State) : Word := if r.val = 0 then 0 else Fam.get 0 r.val (coreOf n s).s
/-- A scalar register written: a write to s0 is ignored (R207). -/
def setS (n : Nat) (r : SReg) (v : Word) (s : State) : State :=
  if r.val = 0 then s else updCore n (fun c => { c with s := c.s.set r.val v }) s
/-- An address register. -/
def areg (n : Nat) (r : AReg) (s : State) : BitVec 48 := Fam.get 0 r.val (coreOf n s).a
/-- An address register written. -/
def setA (n : Nat) (r : AReg) (v : BitVec 48) (s : State) : State := updCore n (fun c => { c with a := c.a.set r.val v }) s
/-- The second operand b: imm when I = 1 and rt otherwise (R211). -/
def opB (n : Nat) (rt : SReg) (useImm : Bool) (imm : Word) (s : State) : Word := if useImm then imm else sreg n rt s

/-- A token counter (R214), at SEQ_TOKk. -/
def kTOK (n k : Nat) : Nat := coreBase n + 0x80 + 4 * k
/-- A token counter (R214). -/
def tokVal (n k : Nat) (s : State) : BitVec 16 := (rd (kTOK n k) s).setWidth 16
/-- A token counter advanced, modulo 2^16. -/
def tokInc (n k : Nat) (s : State) : State := wr (kTOK n k) ((tokVal n k s + 1).setWidth 32) s
/-- The code a TOK field is kept as: 0 without SIG, else k + 1. -/
def tokCode : Tok → Nat
  | none => 0
  | some k => k.val + 1
/-- An item's completion increments its token (R214). -/
def tokSignal (n code : Nat) (s : State) : State := if code = 0 then s else tokInc n (code - 1) s

/-! ### Dispatch words (R210 to R235) -/

/-- A word from its class, OP and assigned fields, each a value at its low bit. -/
def dword (cls op : Nat) (fs : List (Nat × Nat)) : Nat := fs.foldl (fun a f => a + f.2 <<< f.1) (cls <<< 59 + op <<< 54)
/-- The TOK field. -/
def tokBits : Tok → Nat
  | none => 0
  | some k => 16 + k.val
/-- A field of a 64-bit word. -/
def wf (hi lo w : Nat) : Nat := (w >>> lo) % 2 ^ (hi + 1 - lo)

/-- The bits a layout assigns, from its fields as (high, low), with CLASS and OP. -/
def maskOf (fs : List (Nat × Nat)) : Nat := (([(63, 54)] ++ fs).map fun (f : Nat × Nat) => (2 ^ (f.1 + 1 - f.2) - 1) <<< f.2).foldl (· + ·) 0

/-- The assigned fields of each CLASS and OP, or none for an illegal pair (R210). -/
def wordFields (cls op : Nat) : Option (List (Nat × Nat)) :=
  match cls with
  | 1 =>
    if op = 0 ∨ op = 25 then some [] else if op = 1 then some [(53, 49), (31, 0)]
    else if 2 ≤ op ∧ op ≤ 11 then some [(53, 49), (48, 44), (43, 39), (38, 38), (31, 0)]
    else if op = 12 then some [(53, 49), (38, 35), (15, 0)] else if op = 13 then some [(48, 44), (38, 35), (15, 0)]
    else if op = 14 then some [(38, 35), (31, 0)] else if op = 15 then some [(38, 35), (15, 0)]
    else if op = 16 then some [(43, 39), (38, 35), (34, 31), (30, 30), (29, 0)] else if op = 17 then some [(53, 49), (34, 31)]
    else if op = 18 then some [(48, 44), (43, 39), (38, 36), (35, 35), (31, 16), (15, 0)] else if op = 19 then some [(48, 44), (15, 0)]
    else if op = 21 then some [(53, 50), (48, 44), (31, 16), (15, 0)] else if op = 22 then some [(53, 50), (46, 39)]
    else if op = 23 then some [(11, 0)] else if op = 24 then some [(15, 0)] else if op = 26 then some [(53, 49)] else none
  | 2 => if op = 0 then some [(53, 52), (38, 35), (4, 0)] else none
  | 3 => if op = 0 then some [(53, 52), (51, 51), (38, 35), (30, 16), (4, 0)]
         else if op = 1 then some [(53, 52), (51, 51), (50, 50), (49, 49), (48, 39), (37, 28), (27, 24), (23, 19), (18, 15), (4, 0)] else none
  | 4 => if op = 0 then some [(38, 35), (4, 0)] else if op = 1 then some [(48, 44), (43, 39)] else none
  | 5 => if op = 0 then some [(53, 52), (38, 35), (4, 0)]
         else if op = 1 then some [(53, 51), (50, 49), (48, 47), (46, 45), (44, 40), (39, 35), (34, 31), (30, 27), (4, 0)]
         else if op = 2 ∨ op = 3 then some [(53, 52), (48, 44), (43, 39), (38, 35), (4, 0)]
         else if op = 4 then some [(53, 53), (52, 52), (48, 44), (43, 39), (4, 0)]
         else if op = 5 then some [(53, 51), (50, 48), (47, 43), (42, 39), (38, 35), (34, 29), (28, 13), (4, 0)]
         else if op = 6 then some [(53, 52), (51, 51), (48, 44), (38, 35), (34, 31), (30, 27), (4, 0)] else none
  | 6 => if op = 0 then some [(53, 51), (50, 43), (42, 38)] else if op = 1 then some [(53, 48), (47, 45), (44, 37), (36, 32), (31, 16), (15, 0)] else none
  | 7 => if op = 0 then some [(48, 44), (43, 39)] else none
  | 8 => if op = 0 then some [(15, 0)] else none
  | _ => none

/-- Codes that the layouts call illegal (R212, R223, R229). -/
def wordCodesOk (cls op w : Nat) : Bool :=
  let tokOk := w.testBit 4 || decide (wf 3 0 w = 0)
  match cls with
  | 1 => !(op = 18 && wf 38 36 w = 7)
  | 2 => tokOk
  | 3 => tokOk && decide (wf 53 52 w ≠ 3) && !(op = 1 && w.testBit 50 && wf 27 15 w ≠ 0)
  | 4 => op = 1 || tokOk
  | 5 => tokOk && !(op = 5 && (wf 53 51 w = 7 || wf 50 48 w = 7)) && !(op = 6 && wf 53 52 w = 3)
  | _ => true

/-- A word is legal under R210. -/
def wordLegal (w : Nat) : Bool :=
  match wordFields (wf 63 59 w) (wf 58 54 w) with
  | none => false
  | some fs => decide (w &&& (2 ^ 64 - 1 - maskOf fs) = 0) && wordCodesOk (wf 63 59 w) (wf 58 54 w) w

/-! ### The program counter and loops (R213) -/

/-- The next address after the word at `pc`, with the loops that end there. -/
def nextPc (pc : BitVec 48) : List LoopSt → BitVec 48 × List LoopSt
  | [] => (pc + 8, [])
  | l :: r => if l.last = pc then
      (if 1 < l.left then (l.first, { l with left := l.left - 1 } :: r) else nextPc pc r)
    else (pc + 8, l :: r)

/-- The loops that stay active at a branch target (R213): the outer ones whose body holds it. -/
def loopsAt (t : BitVec 48) (ls : List LoopSt) : List LoopSt :=
  (ls.reverse.takeWhile fun l => decide (l.first.toNat ≤ t.toNat) && decide (t.toNat ≤ l.last.toNat)).reverse

/-- The PC registers and the loop count shown. -/
def showPc (n : Nat) (s : State) : State :=
  let c := coreOf n s
  wrF (coreBase n) 18 16 c.loops.length (wr (coreBase n + 0xC) (wd (c.pc.toNat / 2 ^ 32)) (wr (coreBase n + 8) (wd c.pc.toNat) s))

/-- The program counter and loop stack set. -/
def setPc (n : Nat) (pc : BitVec 48) (ls : List LoopSt) (s : State) : State :=
  showPc n (updCore n (fun c => { c with pc := pc, loops := ls }) s)

/-- A word issued: counted (R242). -/
def countWord (n : Nat) (s : State) : State := cntAdd (coreBase n + 0x30) 1 (wrB (coreBase n) 2 false s)
/-- A word done: on to the next one. -/
def advance (n : Nat) (s : State) : State :=
  let c := coreOf n s
  let p := nextPc c.pc c.loops
  setPc n p.1 p.2 (countWord n s)
/-- `off` words from the word at the PC (R206). -/
def pcOff (n : Nat) (off : BitVec 16) (s : State) : BitVec 48 := (coreOf n s).pc + BitVec.ofInt 48 (off.toInt * 8)
/-- A branch taken. -/
def branchTo (n : Nat) (t : BitVec 48) (s : State) : State := setPc n t (loopsAt t (coreOf n s).loops) s

/-! ### Items of the units -/

/-- A core's DMA queue. -/
def dmaQ (q : Nat) (c : Core) : List DmaItem := Fam.get [] q c.dma
/-- The items a core's units still hold, of the units a mask names (R216): DMA queues 0 to 3, engine, conv, vector, post port. -/
def itemsOf (units : Nat) (c : Core) : List Nat :=
  ((upTo 4).flatMap fun q => if units.testBit q then (dmaQ q c).map (·.item) else []) ++
  (if units.testBit 4 then c.eng.loads.map (·.item) ++ c.eng.ops.map (·.item) else []) ++
  (if units.testBit 5 then c.conv.pend.map (·.item) else []) ++
  (if units.testBit 6 then c.vecs.map (·.item) else []) ++
  (if units.testBit 7 then c.posts.map (·.item) else [])
/-- Items and waiting words outstanding on a core, the post port among them (R236). -/
def allItems (c : Core) : List Nat := itemsOf 0xFF c ++ c.fences.map (·.k) ++ c.padvs.map (·.k)

/-- Unit status registers as the queues give them: DMA_STAT, ENG_STAT.PENDING and BUSY, VU_STAT.BUSY. -/
def showUnits (n : Nat) (s : State) : State :=
  let c := coreOf n s
  let b := coreBase n
  let s := wr (b + 0x100) (wd ((upTo 4).foldl (fun a q => a + (dmaQ q c).length * 32 ^ q) 0)) s
  let s := wrF (b + 0x804) 17 16 c.eng.ops.length s
  let s := wrB (b + 0x804) 0 (!c.eng.loads.isEmpty || !c.eng.ops.isEmpty) s
  let s := wrB (b + 0x804) 3 (match c.eng.ops with | o :: _ => o.retried | [] => false) s
  let s := match c.eng.ops with | o :: _ => wrF (b + 0x804) 9 8 o.mode s | [] => s
  let s := wrB (b + 0x804) 1 (Fam.get {} 0 c.eng.bufs).valid (wrB (b + 0x804) 2 (Fam.get {} 1 c.eng.bufs).valid s)
  wrB (b + 0xA00) 0 (!c.vecs.isEmpty) s

/-- An item leaves: the fences and progress advances that waited for it no longer do. -/
def itemDone (n item : Nat) (s : State) : State :=
  showUnits n (updCore n (fun c => { c with
    fences := c.fences.map fun f => { f with items := f.items.filter (· != item) },
    padvs := c.padvs.map fun p => { p with items := p.items.filter (· != item) } }) s)

/-- A new item's number. -/
def newItem (n : Nat) (s : State) : Nat × State := ((coreOf n s).nextItem, updCore n (fun c => { c with nextItem := c.nextItem + 1 }) s)

/-- Issue stalled on a full queue: the word is tried again (R218, R223, R224, R230, R235). -/
def stall (n : Nat) (s : State) : State := wrB (coreBase n) 2 true s

/-- A core's events set in SEQ_EVT. -/
def seqEvt (n bit : Nat) (s : State) : State := wrB (coreBase n + 4) bit true s

/-- A memory of the core wipes (R264): what would access it waits (R265). -/
def coreWiping (n : Nat) (s : State) : Bool := s.pwr.wiping.contains (50 + 2 * n) || s.pwr.wiping.contains (51 + 2 * n)
/-- The sequencer can issue a word: a job runs and nothing holds it. -/
def issuing (n : Nat) (s : State) : Bool :=
  let c := coreOf n s
  !coreWiping n s && c.job.isSome && c.wait.isNone && !c.ending && c.yielding.isNone && !c.flushing && !quarantined n s

end Sys2Proof.Machine
end

