-- ==== Sys2Proof/Machine/Conv.lean ====
section
/-! DEFINITION. The convolution path (09_convolution_path.md): configuration fields and checks, the ring, windows, padding and folding. -/

namespace Sys2Proof.Machine

open Sys2Proof

/-! Fields of the conv descriptor (R224). -/
def cvPool (d : List Byte) : Bool := (leAt d 0 1).testBit 0
def cvOrder (d : List Byte) : Bool := (leAt d 0 1).testBit 1
def cvPadVal (d : List Byte) : Bool := (leAt d 0 1).testBit 2
/-- ELEM: 0 INT8, 1 KB8, 2 INT16. -/
def cvElem (d : List Byte) : Nat := leAt d 0 1 / 8 % 4
def cvG (d : List Byte) : Nat := match leAt d 1 1 with | 0 => 1 | 1 => 4 | 2 => 16 | _ => 32
def cvCB (d : List Byte) : Nat := leAt d 2 1
def cvKH (d : List Byte) : Nat := leAt d 4 1
def cvKW (d : List Byte) : Nat := leAt d 5 1
def cvSHY (d : List Byte) : Nat := leAt d 6 1
def cvSHX (d : List Byte) : Nat := leAt d 7 1
def cvDILY (d : List Byte) : Nat := leAt d 8 1
def cvDILX (d : List Byte) : Nat := leAt d 9 1
def cvPADT (d : List Byte) : Nat := leAt d 10 1
def cvPADL (d : List Byte) : Nat := leAt d 11 1
def cvIMGH (d : List Byte) : Nat := leAt d 12 2
def cvIMGW (d : List Byte) : Nat := leAt d 14 2
def cvOUTH (d : List Byte) : Nat := leAt d 16 2
def cvXOUT0 (d : List Byte) : Nat := leAt d 18 2
def cvOUTW (d : List Byte) : Nat := leAt d 20 2
def cvXIN0 (d : List Byte) : Nat := leAt d 22 2
def cvWIN (d : List Byte) : Nat := leAt d 24 2
def cvLBBASE (d : List Byte) : Nat := leAt d 28 4
def cvLBROWS (d : List Byte) : Nat := leAt d 32 1
/-- Element size in bytes (R185). -/
def cvE (d : List Byte) : Nat := if cvElem d = 2 then 2 else 1
def cvT (d : List Byte) : Nat := cvKH d * cvKW d
/-- EXP_OFF of R185. -/
def cvEXPOFF (d : List Byte) : Nat := (cvCB d * cvWIN d * 32 + 63) / 64 * 64
/-- ROW_BYTES of R185. -/
def cvROWBYTES (d : List Byte) : Nat :=
  if cvElem d = 1 then cvEXPOFF d + (cvCB d * cvWIN d + 63) / 64 * 64 else (cvCB d * cvWIN d * cvG d * cvE d + 63) / 64 * 64
/-- R_v: the vectors of a pixel (R191, R204). -/
def cvRV (d : List Byte) : Nat :=
  if cvPool d then cvT d * ((cvCB d * cvG d + 63) / 64) else (cvT d * cvCB d * cvG d + 63) / 64

/-- A number in a range. -/
def inR (lo hi x : Nat) : Bool := decide (lo ≤ x) && decide (x ≤ hi)

/-- The image column that tap column `kx` of output column `xo` reads (R190). -/
def cvIx (d : List Byte) (xo kx : Nat) : Int := (xo * cvSHX d : Int) - cvPADL d + kx * cvDILX d
/-- The input row that tap row `ky` of output row `y` reads (R190). -/
def cvIy (d : List Byte) (y ky : Nat) : Int := (y * cvSHY d : Int) - cvPADT d + ky * cvDILY d

/-- Every image column the stripe needs lies in the line buffer (R186). -/
def cvColumnsOk (d : List Byte) : Bool :=
  (upTo (cvOUTW d)).all fun x => (upTo (cvKW d)).all fun kx =>
    let ix := cvIx d (cvXOUT0 d + x) kx
    decide (ix < 0) || decide ((cvIMGW d : Int) ≤ ix) || (decide ((cvXIN0 d : Int) ≤ ix) && decide (ix < cvXIN0 d + cvWIN d))

/-- The checks of R186 on a descriptor. -/
def cvOk (d : List Byte) : Bool :=
  decide (leAt d 0 1 / 32 = 0) && decide (leAt d 1 1 ≤ 3) && decide (leAt d 3 1 = 0) && decide (leAt d 26 2 = 0) && decide (leAt d 33 31 = 0) &&
  decide (cvElem d ≠ 3) && (cvElem d != 1 || (cvG d = 32 && !cvPool d)) && (cvElem d != 2 || cvPool d) &&
  inR 1 64 (cvCB d) && (!cvPool d || cvOrder d) && inR 1 9 (cvKH d) && inR 1 9 (cvKW d) && inR 1 4 (cvSHY d) && inR 1 4 (cvSHX d) &&
  inR 1 (if cvPool d then 1 else 4) (cvDILY d) && inR 1 (if cvPool d then 1 else 4) (cvDILX d) &&
  inR 0 16 (cvPADT d) && inR 0 16 (cvPADL d) && (!cvPadVal d || cvPool d) &&
  inR 1 65535 (cvIMGH d) && inR 1 32768 (cvIMGW d) && inR 1 65535 (cvOUTH d) && inR 0 32767 (cvXOUT0 d) && inR 1 4096 (cvOUTW d) &&
  inR 1 4160 (cvWIN d) && decide (cvLBBASE d % 64 = 0) && inR 1 64 (cvLBROWS d) &&
  decide (cvLBBASE d + cvLBROWS d * cvROWBYTES d ≤ 0x200000) && cvColumnsOk d

/-- The checks of R193 for `v` pixels from `pix0` with vector `r`. -/
def cvSpanOk (d : List Byte) (pix0 r v : Nat) : Bool :=
  decide (r < cvRV d) && decide (pix0 + v - 1 < cvOUTH d * cvOUTW d) &&
  decide (((pix0 + v - 1) / cvOUTW d - pix0 / cvOUTW d) * cvSHY d + (cvKH d - 1) * cvDILY d + 1 ≤ cvLBROWS d)

/-- The input rows inside the image that an operation needs. -/
def cvRows (d : List Byte) (pix0 v : Nat) : List Nat :=
  let ya := pix0 / cvOUTW d
  let yb := (pix0 + v - 1) / cvOUTW d
  ((upTo (yb - ya + 1)).flatMap fun k => (upTo (cvKH d)).map fun ky => cvIy d (ya + k) ky).filterMap fun (iy : Int) =>
    if 0 ≤ iy ∧ iy < cvIMGH d then some iy.toNat else none

/-- Row `iy` is present (R188). -/
def cvPresent (d : List Byte) (lbIn iy : Nat) : Bool := decide (lbIn ≤ iy + cvLBROWS d) && decide (iy < lbIn)

/-- Where an element lies, or none for padding: the tap `t`, the channel block and the element (R188 to R190). -/
def cvAddr (d : List Byte) (p t cb c : Nat) : Option Nat :=
  let iy := cvIy d (p / cvOUTW d) (t / cvKW d)
  let ix := cvIx d (cvXOUT0 d + p % cvOUTW d) (t % cvKW d)
  if 0 ≤ iy ∧ iy < cvIMGH d ∧ 0 ≤ ix ∧ ix < cvIMGW d then
    let slot := iy.toNat % cvLBROWS d
    let col := ix.toNat - cvXIN0 d
    some (cvLBBASE d + slot * cvROWBYTES d + ((cb * cvWIN d + col) * cvG d + c) * cvE d)
  else none

/-- Where the exponent of a KB8 piece lies, or none for padding. -/
def cvExpAddr (d : List Byte) (p t cb : Nat) : Option Nat :=
  (cvAddr d p t cb 0).map fun _ =>
    let slot := (cvIy d (p / cvOUTW d) (t / cvKW d)).toNat % cvLBROWS d
    let col := (cvIx d (cvXOUT0 d + p % cvOUTW d) (t % cvKW d)).toNat - cvXIN0 d
    cvLBBASE d + slot * cvROWBYTES d + cvEXPOFF d + cb * cvWIN d + col

/-- The piece and the element within it that element `i` of vector `r` carries, or none beyond the last (R191, R204). -/
def cvPiece (d : List Byte) (r i : Nat) : Option (Nat × Nat × Nat) :=
  if cvPool d then
    let q := (cvCB d * cvG d + 63) / 64
    let ch := 64 * (r % q) + i
    if ch < cvCB d * cvG d then some (r / q, ch / cvG d, ch % cvG d) else none
  else
    let k := (64 * r + i) / cvG d
    if k < cvT d * cvCB d then
      some (if cvOrder d then (k / cvCB d, k % cvCB d, (64 * r + i) % cvG d) else (k % cvT d, k / cvT d, (64 * r + i) % cvG d))
    else none

/-- The activation-bank offsets a pixel's vector reads. -/
def cvReads (d : List Byte) (p r : Nat) : List Nat :=
  ((upTo 64).filterMap fun i => (cvPiece d r i).bind fun x => cvAddr d p x.1 x.2.1 x.2.2) ++
  (if cvElem d = 1 then (upTo 2).filterMap fun b => (cvPiece d r (32 * b)).bind fun x => cvExpAddr d p x.1 x.2.1 else [])

/-- Vector `r` of pixel `p`: its 64 elements, `rb` reading `k` bytes at a bank offset (R189, R191). -/
def cvVector (d : List Byte) (rb : Nat → Nat → Nat) (p r : Nat) : List Int :=
  (upTo 64).map fun i =>
    match cvPiece d r i with
    | none => 0
    | some x => match cvAddr d p x.1 x.2.1 x.2.2 with
      | some a => sx (8 * cvE d) (rb a (cvE d))
      | none => if cvPadVal d then intLo (8 * cvE d) else 0

/-- The two block exponents of a KB8 vector; padding has −24 (R189). -/
def cvExps (d : List Byte) (rb : Nat → Nat → Nat) (p r : Nat) : Int × Int :=
  let f := fun b => match (cvPiece d r (32 * b)).bind fun x => cvExpAddr d p x.1 x.2.1 with
    | some a => sx 8 (rb a 1)
    | none => -24
  (f 0, f 1)

/-- The configuration an issued word meets: the last one waiting, or the one in force. -/
def cvAhead (c : Core) : Option (List Byte) := match c.conv.pend.getLast? with | some x => some x.desc | none => c.conv.cfg

/-- The number of the configuration that an issued word meets. -/
def epAhead (c : Core) : Nat := c.conv.ep + c.conv.pend.length

/-- The rows that issued operations of configuration `ep` hold (R188): tile operations without a verdict, pooling ones not complete, but for
the item `skip`. -/
def rowsHeld (c : Core) (ep skip : Nat) : List Nat :=
  (c.eng.ops.filter fun o => o.conv && decide (o.ep = ep)).flatMap (fun o => cvRows o.desc o.pix0 o.v) ++
  c.vecs.flatMap fun x => match x.op with
    | .pool _ _ _ v p0 _ d e => if e = ep ∧ x.item ≠ skip then cvRows d p0 v else []
    | _ => []

/-- The path's next operation, where it stands at the head of its unit's queue: its descriptor, first pixel and pixels. -/
def pathHead (c : Core) : Option (List Byte × Nat × Nat) :=
  match c.eng.ops.head?.filter fun o => o.conv with
  | some o => some (o.desc, o.pix0, o.v)
  | none => c.vecs.head?.bind fun x => match x.op with | .pool _ _ _ v p0 _ d _ => some (d, p0, v) | _ => none

/-- Registers of the path that follow its state (R205). -/
def showConv (n : Nat) (s : State) : State :=
  let c := coreOf n s
  let b := coreBase n + 0x900
  let held := rowsHeld c c.conv.ep 0
  let rows := match pathHead c with
    | some (d, p0, v) => some ((cvRows d p0 v).all fun iy => cvPresent d (rdF (b + 8) 23 0 s) iy)
    | none => none
  let s := wrB b 0 (rows == some true && c.conv.pend.isEmpty) (wrB b 1 (rows == some false && c.conv.pend.isEmpty) s)
  let s := wrB b 4 c.conv.cfg.isSome (wrB b 3 (!held.isEmpty) s)
  let s := wrF b 9 8 (match c.conv.cfg with | some d => b2n (cvPool d) | none => 0) s
  match held with
  | [] => s
  | h :: t => wr (b + 0xC) (wd (t.foldl min h)) s

/-- Beats in which a vector is stalled for a row (R194), counted at a tick: a tick of 1.6 ns has 2.56 beats of 0.625 ns at pace 1.000. -/
def stallTick (n : Nat) (s : State) : State :=
  let b := coreBase n + 0x900
  if !rdB b 1 s then s else
    let x := (coreOf n s).conv.stall + 64 * rdF (coreBase n + 0xB00) 15 0 s
    inc (b + 0x18) (x / 102400) (updCore n (fun c => { c with conv := { c.conv with stall := x % 102400 } }) s)

end Sys2Proof.Machine
end

