-- ==== Sys2Proof/Machine/Engine.lean ====
section
/-! DEFINITION. The engine array (07_engine_array.md): tiles, column sums, the two checksums, the accumulator bank. -/

namespace Sys2Proof.Machine

open Sys2Proof

/-! ### The accumulator bank (R153) -/

/-- The rows a mode addresses. -/
def accRows (mode : Nat) : Nat := if mode = 0 then 1024 else 512
/-- The physical rows of a row in a mode. -/
def physRows (mode row : Nat) : List Nat := if mode = 0 then [row] else [2 * row, 2 * row + 1]
/-- The physical rows whose residues a tile operation checks as it reads and updates them (R157). -/
def opRows (o : TileOp) : List Nat := (upTo o.v).flatMap fun i => physRows o.mode (o.accBase + i)
/-- The lanes of a row: 64, or 128 in W4A8. -/
def accLanes (mode : Nat) : Nat := if mode = 1 then 128 else 64
/-- An accumulator lane. -/
def accGet (e : Engine) (row lane : Nat) : BitVec 48 := Fam.get 0 (64 * row + lane) e.acc
/-- An accumulator written with its residue (R157). -/
def accSet (e : Engine) (row lane : Nat) (v : BitVec 48) : Engine :=
  { e with acc := e.acc.set (64 * row + lane) v, res := e.res.set (64 * row + lane) (v.toNat % 3) }
/-- An upset flips a bit and leaves the residue as it was. -/
def accFlip (u : AccUpset) (e : Engine) : Engine :=
  { e with acc := e.acc.set (64 * u.row.val + u.lane.val) (accGet e u.row.val u.lane.val ^^^ BitVec.ofNat 48 (2 ^ u.bit.val)) }
/-- The first accumulator of some physical rows whose residue does not match: its lane and row (R157). -/
def accBad (e : Engine) (rows : List Nat) : Option (Nat × Nat) :=
  (rows.flatMap fun r => (upTo 64).map fun l => (l, r)).find? fun (x : Nat × Nat) =>
    decide (Fam.get 0 (64 * x.2 + x.1) e.res ≠ (accGet e x.2 x.1).toNat % 3)
/-- The width of an accumulator: 48 bits, 96 in KB8. -/
def accW (mode : Nat) : Nat := if mode = 2 then 96 else 48
/-- A logical accumulator as a signed number. -/
def accInt (e : Engine) (mode row lane : Nat) : Int :=
  if mode = 0 then (accGet e row lane).toInt
  else if mode = 1 then (accGet e (2 * row + lane / 64) (lane % 64)).toInt
  else sx 96 ((accGet e (2 * row) lane).toNat + (accGet e (2 * row + 1) lane).toNat * 2 ^ 48)
/-- A logical accumulator set, modulo its width. -/
def accPut (e : Engine) (mode row lane : Nat) (v : Int) : Engine :=
  if mode = 0 then accSet e row lane (BitVec.ofInt 48 v)
  else if mode = 1 then accSet e (2 * row + lane / 64) (lane % 64) (BitVec.ofInt 48 v)
  else accSet (accSet e (2 * row) lane (BitVec.ofInt 48 v)) (2 * row + 1) lane (BitVec.ofInt 48 (v / 2 ^ 48))
/-- The mode tag of a physical row (R154); W8A8 before any write (notes/assumptions/6.md). -/
def accTag (e : Engine) (row : Nat) : Nat := Fam.get 0 row e.tags
/-- A row's precision tag set, for the physical rows it takes (R153). -/
def setTag (mode row : Nat) (e : Engine) : Engine := { e with tags := (physRows mode row).foldl (fun t r => t.set r mode) e.tags }

/-- The rows an operation writes carry its tag: rows `row … row + n − 1` of a mode. -/
def tagRows (mode row n : Nat) (t : Fam Nat) : Fam Nat :=
  (upTo n).foldl (fun t i => (physRows mode (row + i)).foldl (fun t r => t.set r mode) t) t

/-- The tags as they will stand after every issued operation (R154): the tile operations and the pooling writes, in issue order. -/
def tagsAhead (c : Core) : Fam Nat :=
  let ws := c.eng.ops.map (fun o => (o.item, o.mode, o.accBase, o.v)) ++
    c.vecs.filterMap (fun x => match x.op with | .pool _ true row v .. => some (x.item, 0, row, v) | _ => none)
  (sortBy (fun a b => decide (a.1 ≤ b.1)) ws).foldl (fun t w => tagRows w.2.1 w.2.2.1 w.2.2.2 t) c.eng.tags

/-- Every physical row of `n` rows from `row` carries the mode's tag. -/
def tagsMatch (mode row n : Nat) (t : Fam Nat) : Bool :=
  (upTo n).all fun i => (physRows mode (row + i)).all fun r => decide (Fam.get 0 r t = mode)

/-! ### Sums (R142, R151, R152) -/

/-- The weight of row `i` and logical column `j` in a tile's bytes (R145). -/
def tileW (mode : Nat) (bs : List Byte) (i j : Nat) : Int :=
  if mode = 1 then
    let b := (bs.getD (64 * i + j / 2) 0).toNat
    sx 4 (if j % 2 = 0 then b % 16 else b / 16)
  else (bs.getD (64 * i + j) 0).toInt

/-- The rows of a block: all 64, or 32 of each block in KB8 (R152). -/
def blockRows (mode b : Nat) : List Nat := if mode = 2 then (upTo 32).map (· + 32 * b) else upTo 64
/-- The blocks of a mode. -/
def blocksOf (mode : Nat) : Nat := if mode = 2 then 2 else 1
/-- A sum of exact integers. -/
def sumI (l : List Int) : Int := l.foldl (· + ·) 0

/-- A column sum of one block (R142, R174). -/
def colSum (mode : Nat) (bs : List Byte) (x : List Int) (b j : Nat) : Int :=
  sumI ((blockRows mode b).map fun i => x.getD i 0 * tileW mode bs i j)

/-- The checksum-column weight of a row (R145, R151), with bits an injection flipped. -/
def ckW (mode : Nat) (w : WBuf) (i : Nat) : Int :=
  let v := sumI ((upTo (accLanes mode)).map fun j => tileW mode w.loaded i j)
  w.ckFlip.foldl (fun v f => if f.1 = i then (if (BitVec.ofInt 32 v).getLsbD f.2 then v - 2 ^ f.2 else v + 2 ^ f.2) else v) v

/-- The sum leaving the checksum column for one block. -/
def ckSum (mode : Nat) (w : WBuf) (x : List Int) (b : Nat) : Int := sumI ((blockRows mode b).map fun i => x.getD i 0 * ckW mode w i)

/-- The change an injected flip of bit `k` makes in a sum. -/
def flipDelta (p : Int) (k : Nat) : Int := if (BitVec.ofInt 64 p).getLsbD k then -(2 ^ k) else 2 ^ k

/-- Vector 0 with the injected activation of target 2. -/
def injVec (inj : Option Inject) (v : Nat) (x : List Int) : List Int :=
  match inj with
  | some i => if i.target = 2 ∧ v = 0 then
      x.set i.row ((BitVec.ofInt 8 (x.getD i.row 0)) ^^^ BitVec.ofNat 8 (2 ^ i.bit)).toInt else x
  | none => x

/-- The change target 1 makes in the sum of physical column `j` and block `b` for vector 0: the partial sum leaving the cell flips. -/
def injSum (mode : Nat) (inj : Option Inject) (v b j : Nat) (p : Nat → Int) : Int :=
  match inj with
  | some i => if i.target = 1 ∧ v = 0 ∧ i.col = j ∧ i.row ∈ blockRows mode b then
      flipDelta (sumI (((blockRows mode b).filter (· ≤ i.row)).map p)) i.bit else 0
  | none => 0

/-- The physical column of a logical column. -/
def physCol (mode j : Nat) : Nat := if mode = 1 then j / 2 else j
/-- The logical column an injected sum error is put on: the first of the cell's. -/
def isFirstLog (mode j : Nat) : Bool := mode != 1 || j % 2 == 0

/-- The column sum of vector `v` as it leaves row 63, injected errors included. -/
def colOut (mode : Nat) (w : WBuf) (inj : Option Inject) (v : Nat) (x : List Int) (b j : Nat) : Int :=
  let x' := injVec inj v x
  colSum mode w.bytes x' b j +
    (if isFirstLog mode j then injSum mode inj v b (physCol mode j) (fun i => x'.getD i 0 * tileW mode w.bytes i j) else 0)

/-- The checksum column's sum as it leaves, injected errors included. -/
def ckOut (mode : Nat) (w : WBuf) (inj : Option Inject) (v : Nat) (x : List Int) (b : Nat) : Int :=
  let x' := injVec inj v x
  ckSum mode w x' b + injSum mode inj v b 64 (fun i => x'.getD i 0 * ckW mode w i)

/-- The three checksum slices of a run of vectors (R149). -/
def sliceVecs (xs : List (List Int)) : List (List Int) :=
  let s := fun i => sumI (xs.map fun x => x.getD i 0)
  [(upTo 64).map fun i => s i % 256, (upTo 64).map fun i => s i / 256 % 256, (upTo 64).map fun i => s i / 65536]

/-- The first vector or slice whose column check fails (R158). -/
def colCheck (mode : Nat) (w : WBuf) (inj : Option Inject) (xs : List (List Int)) : Option Nat :=
  let all := xs ++ sliceVecs xs
  (upTo all.length).find? fun v => (upTo (blocksOf mode)).any fun b =>
    let x := all.getD v []
    sumI ((upTo (accLanes mode)).map fun j => colOut mode w inj v x b j) != ckOut mode w inj v x b

/-- The first physical column whose row check fails (R159). -/
def rowCheck (mode : Nat) (w : WBuf) (inj : Option Inject) (xs : List (List Int)) : Option Nat :=
  let sl := sliceVecs xs
  let comb := fun (f : Nat → List Int → Int) => f 1 (sl.getD 0 []) + 256 * f 1 (sl.getD 1 []) + 65536 * f 1 (sl.getD 2 [])
  let bad := fun (f : Nat → List Int → Int) => sumI (xs.zipIdx.map fun p => f p.2 p.1) != comb f
  ((upTo (accLanes mode + 1)).find? fun j => (upTo (blocksOf mode)).any fun b =>
    bad fun v x => if j = accLanes mode then ckOut mode w inj v x b else colOut mode w inj v x b j).map
    fun j => if j = accLanes mode then 64 else physCol mode j

/-- One output vector added to, or written in, accumulator row `row`; the flag says that an addition wrapped (R155, R175, R176). -/
def accVec (mode : Nat) (w : WBuf) (accOp : Bool) (row : Nat) (x : List Int) (ex : Int × Int) (e : Engine × Bool) : Engine × Bool :=
  (upTo (accLanes mode)).foldl (fun (e : Engine × Bool) j =>
    let old := if accOp then accInt e.1 mode row j else 0
    let adds := (upTo (blocksOf mode)).map fun b =>
      let p := colSum mode w.bytes x b j
      if mode = 2 then
        let we := ((w.bytes.getD (4096 + 64 * b + j) 0).toInt)
        kb8Addend p ((if b = 0 then ex.1 else ex.2) + we)
      else p
    let r := adds.foldl (fun (r : Int × Bool) a => ((BitVec.ofInt (accW mode) (r.1 + a)).toInt, r.2 || wraps (accW mode) (r.1 + a))) (old, false)
    (accPut e.1 mode row j r.1, e.2 || r.2)) e

/-- The cell-beats gated for one entry (R163): whole rows with a zero activation, and cells whose weights are zero. -/
def gatedBeats (mode : Nat) (w : WBuf) (x : List Int) : Nat :=
  (upTo 64).foldl (fun a i =>
    if x.getD i 0 = 0 then a + 65 else a + ((upTo 64).filter fun j => w.bytes.getD (64 * i + j) 0 = 0).length +
      (if ckW mode w i = 0 then 1 else 0)) 0

/-- A bit of a weight register flipped by an injection of target 0: a data cell, or the checksum cell of column 64 (R167). -/
def injWeight (w : WBuf) (i : Inject) : WBuf :=
  if i.col = 64 then { w with ckFlip := (i.row, i.bit) :: w.ckFlip }
  else { w with bytes := w.bytes.set (64 * i.row + i.col) (w.bytes.getD (64 * i.row + i.col) 0 ^^^ BitVec.ofNat 8 (2 ^ i.bit)) }

end Sys2Proof.Machine
end

