-- ==== Sys2Proof/Machine/Dma.lean ====
section
/-! DEFINITION. A core's DMA (R218 to R222): the descriptor, its checks, the line-buffer ring and the moves, with fixed-rate
compression (R200, R201). -/

namespace Sys2Proof.Machine

open Sys2Proof

/-! Fields of the DMA descriptor (R219). -/
def dmSRC (d : List Byte) : Nat := leAt d 0 6
def dmDST (d : List Byte) : Nat := leAt d 8 6
def dmX (d : List Byte) : Nat := leAt d 16 4
def dmY (d : List Byte) : Nat := leAt d 20 2
def dmZ (d : List Byte) : Nat := leAt d 22 2
def dmSRCYS (d : List Byte) : Nat := leAt d 24 4
def dmSRCZS (d : List Byte) : Nat := leAt d 28 4
def dmDSTYS (d : List Byte) : Nat := leAt d 32 4
def dmDSTZS (d : List Byte) : Nat := leAt d 36 4
def dmFRC (d : List Byte) : Nat := leAt d 40 1
def dmDIR (d : List Byte) : Nat := dmFRC d % 4
def dmRATE (d : List Byte) : Bool := (dmFRC d).testBit 2
def dmW (d : List Byte) : Nat := if (dmFRC d).testBit 3 then 16 else 8
def dmHEAD (d : List Byte) : Bool := (dmFRC d).testBit 4
def dmTAIL (d : List Byte) : Bool := (dmFRC d).testBit 5
def dmLB (d : List Byte) : Bool := (leAt d 41 1).testBit 0
def dmROWEND (d : List Byte) : Bool := (leAt d 41 1).testBit 1
def dmDSTOFF (d : List Byte) : Nat := leAt d 8 3 % 2 ^ 21

/-- The bytes a row reads and writes (R220). -/
def dmReadLen (d : List Byte) : Nat :=
  if dmDIR d = 1 then dmX d * frcBytes (dmW d) (dmRATE d) else if dmDIR d = 2 then dmX d * 32 * (dmW d / 8) else dmX d
/-- Bytes a row writes (R220, R200). -/
def dmWriteLen (d : List Byte) : Nat :=
  if dmDIR d = 1 then dmX d * 32 * (dmW d / 8) - (b2n (dmHEAD d) + b2n (dmTAIL d)) * 16 * (dmW d / 8)
  else if dmDIR d = 2 then dmX d * frcBytes (dmW d) (dmRATE d) else dmX d

/-- The checks of R222, with the bytes of a ring slot where LB is set. -/
def dmOk (d : List Byte) (slot : Option Nat) : Bool :=
  inR 1 1048576 (dmX d) && decide (0 < dmY d) && decide (0 < dmZ d) &&
  decide (leAt d 6 2 = 0) && decide (leAt d 14 2 = 0) && decide (dmFRC d / 64 = 0) && decide (leAt d 41 1 / 4 = 0) && decide (leAt d 42 22 = 0) &&
  (!dmLB d || decide (leAt d 8 8 / 2 ^ 21 = 0)) && decide (dmDIR d ≠ 3) && (dmDIR d = 1 || (!dmHEAD d && !dmTAIL d)) &&
  (!dmLB d || match slot with
    | none => false
    | some rb => decide (dmDSTOFF d + (dmY d - 1) * dmDSTYS d + dmWriteLen d ≤ rb))

/-- A signed element list of a byte run. -/
def elems (w : Nat) (bs : List Byte) : List Int := (upTo (bs.length / (w / 8))).map fun i => sx w (leAt bs (i * (w / 8)) (w / 8))
/-- The bytes of signed elements. -/
def elemBytes (w : Nat) (xs : List Int) : List Byte := xs.flatMap fun x => natLE (w / 8) (BitVec.ofInt w x).toNat

/-- The bytes a row's read becomes (R220): the skipped halves are left out, and what is written stands from d on. -/
def dmConvert (d : List Byte) (kb8 : Bool) (bs : List Byte) : List Byte :=
  if dmDIR d = 1 then
    let bb := frcBytes (dmW d) (dmRATE d)
    let xs := (upTo (dmX d)).flatMap fun k => frcDecode (dmW d) (dmRATE d) (if kb8 then -127 else intLo (dmW d)) ((bs.drop (k * bb)).take bb)
    let xs := if dmHEAD d then xs.drop 16 else xs
    elemBytes (dmW d) (if dmTAIL d then xs.take (xs.length - 16) else xs)
  else if dmDIR d = 2 then
    let n := 32 * (dmW d / 8)
    (upTo (dmX d)).flatMap fun k => frcEncode (dmW d) (dmRATE d) (elems (dmW d) ((bs.drop (k * n)).take n))
  else bs

/-- Where row (z, y) of a transfer reads and writes (R220, R221). -/
def dmRow (n : Nat) (t : DmaItem) (z y : Nat) : Nat × Nat :=
  let d := t.desc
  (dmSRC d + z * dmSRCZS d + y * dmSRCYS d,
   if dmLB d then actBank n + t.lbBase + (t.r0 + z) % t.lbRows * t.rowBytes + dmDSTOFF d + y * dmDSTYS d
   else dmDST d + z * dmDSTZS d + y * dmDSTYS d)

/-- The rows of a transfer in their order (R220). -/
def dmRows (t : DmaItem) : List (Nat × Nat) := (upTo (dmZ t.desc)).flatMap fun z => (upTo (dmY t.desc)).map fun y => (z, y)

/-- Two ranges share a byte. -/
def overlap (a la b lb : Nat) : Bool := decide (0 < la) && decide (0 < lb) && decide (a < b + lb) && decide (b < a + la)

/-- The activation-bank bytes that unverdicted operations hold (R148), and the slots of the rows present that they hold (R188), but for the
item `skip`. -/
def heldRanges (lbIn skip : Nat) (c : Core) : List (Nat × Nat) :=
  ((c.eng.ops.filter fun o => !o.conv).flatMap fun o =>
    ((upTo o.v).map fun v => (o.aAddr + v * o.aStride, 64)) ++ (if o.mode = 2 then [(o.eAddr, 2 * o.v)] else [])) ++
  match c.conv.cfg with
  | some d => ((rowsHeld c c.conv.ep skip).filter fun iy => cvPresent d lbIn iy).map fun iy => (cvLBBASE d + iy % cvLBROWS d * cvROWBYTES d, cvROWBYTES d)
  | none => []

/-- A write of the core to its activation bank waits for a verdict (R148, R188). -/
def writeHeld (n a len : Nat) (s : State) : Bool :=
  (heldRanges (rdF (coreBase n + 0x908) 23 0 s) 0 (coreOf n s)).any fun r => overlap (actBank n + r.1) r.2 a len

/-- A row of a transfer has to wait: a ring row of the configuration in force while row iy − LB_ROWS is held, every other one while a byte it
writes is held. -/
def dmRowWaits (n : Nat) (t : DmaItem) (z y : Nat) (s : State) : Bool :=
  let c := coreOf n s
  if dmLB t.desc && decide (t.ep = c.conv.ep) then decide (t.lbRows ≤ t.r0 + z) && (rowsHeld c t.ep 0).contains (t.r0 + z - t.lbRows)
  else writeHeld n (dmRow n t z y).2 (dmWriteLen t.desc) s
/-- The rows of a transfer that are not moved yet. -/
def dmLeft (t : DmaItem) : List (Nat × Nat) := (dmRows t).drop t.done
/-- The transfer can move nothing: its next row has to wait. -/
def dmWaits (n : Nat) (t : DmaItem) (s : State) : Bool := match dmLeft t with | (z, y) :: _ => dmRowWaits n t z y s | [] => false

/-- The bytes of a write that are not refused. -/
def bytesPassed (master unit t a len : Nat) (s : State) : Nat :=
  (((linesOf a len).filter fun (x : Nat × Nat) => reaches master unit t x.1 x.2 true s).map (·.2)).foldl (· + ·) 0

/-- Rows of a transfer moved until one has to wait (R220, R221): the refused accesses, whether a word was uncorrectable, the rows moved. Each
input row that a ROWEND transfer completes advances CV_LB_IN. -/
def dmMove (n tag : Nat) (t : DmaItem) : List (Nat × Nat) → State → Nat × Bool × Nat × State
  | [], s => (0, false, 0, s)
  | (z, y) :: r, s =>
    if dmRowWaits n t z y s then (0, false, 0, s) else
      let p := dmRow n t z y
      let (bs, f, u, s) := devRead mDma n tag p.1 (dmReadLen t.desc) s
      let out := dmConvert t.desc t.kb8 bs
      let s := cntAdd (coreBase n + 0x104) (bytesPassed mDma n tag p.2 out.length s) s
      let (f', u', s) := devWrite mDma n tag p.2 out s
      let s := if dmLB t.desc && dmROWEND t.desc && decide (y + 1 = dmY t.desc) then
          wr (coreBase n + 0x908) (wd ((rdF (coreBase n + 0x908) 23 0 s + 1) % 2 ^ 24)) s else s
      let (f'', u'', k, s) := dmMove n tag t r s
      (f + f' + f'', u || u' || u'', k + 1, s)

end Sys2Proof.Machine
end

