-- ==== Sys2Proof/Machine/Arb.lean ====
section
/-! DEFINITION. Arbitration (12_arbitration.md, R269 to R286) and the banks of cluster memory (R251, R278): bursts and their paths, requests,
revocation, deficit rounds, fixed slots, the ARB block's commit and the bounds of R279 that admission adds. -/

namespace Sys2Proof

/-- An arbitration point's number. -/
def ArbPoint.no : ArbPoint → Nat
  | .hbm h => h.val
  | .outb k => 2 + k.val
  | .inb k => 6 + k.val

end Sys2Proof

namespace Sys2Proof.Machine

open Sys2Proof

/-! ### Settings in force (R286) -/

def kARB_TAG (t : Nat) : Nat := arbBase + 0x40 + 4 * t
abbrev kARB_STAT : Nat := 0x060004
abbrev kARB_GLOBAL : Nat := 0x060008
/-- REVOKE_LIMIT, N, and the fields of a tag. -/
def revokeLimit (s : State) : Nat := fld 3 0 (rdForce kARB_GLOBAL s)
/-- The slots of a bank that the cluster DMA may claim in a row (R278). -/
def dmaShare (s : State) : Nat := max 1 (fld 14 8 (rdForce kARB_GLOBAL s))
/-- A tag's share in force: HBM_SHARE of its ARB_TAG, 8 for tags 16 and 17 (R273). -/
def tagShare (t : Nat) (s : State) : Nat := if t < 16 then fld 31 24 (rdForce (kARB_TAG t) s) else 8
/-- A priority field of a tag in force. -/
def tagPrio (lo t : Nat) (s : State) : Nat := if t < 16 then fld (lo + 2) lo (rdForce (kARB_TAG t) s) else 0
/-- Core DMA queue `q` of a tag is deadline class (R270). -/
def dlQueue (t q : Nat) (s : State) : Bool := bitOf 16 (rdForce (kARB_TAG t) s) && bitOf (20 + q) (rdForce (kARB_TAG t) s)
/-- The clear path is active (ARB_STAT.CLEARING). -/
def clearing (s : State) : Bool := rdB kARB_STAT 3 s

/-- Tags in descending priority, ties in ascending tag (R273, R278). -/
def byPrio (lo : Nat) (ts : List Nat) (s : State) : List Nat :=
  ((List.range 8).reverse).flatMap fun p => ts.filter fun t => decide (tagPrio lo t s = p)

/-! ### Bursts (R269 to R271) -/

/-- The class of a source (R270). DESIGN CHOICE (notes/assumptions/41.md): the sources that R270 does not list are bulk. -/
def srcDeadline (b : Burst) (s : State) : Bool :=
  match b.src with
  | .frontEnd _ => true
  | .launch _ _ => true
  | .core _ q => decide (b.tag.val < 16) && dlQueue b.tag.val q.val s
  | _ => false
/-- The tag is the one that the hardware sets from the master's ownership (R27). -/
def srcTagOk (b : Burst) (s : State) : Bool :=
  let t := b.tag.val
  match b.src with
  | .core n _ => decide (coreOwner n.val s = some t)
  | .fetch n => decide (coreOwner n.val s = some t)
  | .cluster _ => decide (t < 16) && partUsed t s
  | .frontEnd st => decide (streamPart st.val s = some t)
  | .table st => decide (streamPart st.val s = some t)
  | .launch p q => decide (lqOwner p.val q.val s = some t)
  | .codec k => decide (cdsOwner k.val s = some t)
  | .host fn => decide (fnTag fn.val = t)
  | .steward => decide (t = 16)
  | .clear => decide (t = 16)
  | .unit => decide (t < 16) && partUsed t s
/-- The directions in which a source moves data. -/
def srcWriteOk (b : Burst) : Bool :=
  match b.src with
  | .frontEnd _ => b.write
  | .clear => b.write
  | .table _ => !b.write
  | .launch _ _ => !b.write
  | .fetch _ => !b.write
  | _ => true
/-- The burst is what the master makes of a range in the burst's 4 KiB block: all the lines of the range in that block (R269). -/
def ofRange (b : Burst) (a len : Nat) : Bool :=
  let blk := b.addr / 4096 * 4096
  let lo := max (a / 64 * 64) blk
  let hi := min ((a + len + 63) / 64 * 64) (blk + 4096)
  decide (0 < len) && decide (b.addr = lo) && decide (lo + 64 * b.len = hi)
/-- A burst of a core's DMA queue is one of those that a row of a transfer in the queue becomes (R269); other masters' transfers are what the
commands say. -/
def srcRangeOk (b : Burst) (s : State) : Bool :=
  match b.src with
  | .core n q => (Fam.get [] q.val (coreOf n.val s).dma).any fun t => (dmRows t).any fun zy =>
      let r := dmRow n.val t zy.1 zy.2
      if b.write then ofRange b r.2 (dmWriteLen t.desc) else ofRange b r.1 (dmReadLen t.desc)
  | _ => true
/-- The cluster whose outbound port a source's bursts meet (R271). -/
def srcCluster (b : Burst) : Option Nat :=
  match b.src with
  | .core n _ => some (n.val / 8)
  | .cluster k => some k.val
  | _ => none
/-- The points of a burst's path in their order (R271); none where the die has no memory. -/
def burstPath (b : Burst) (s : State) : List Nat :=
  let k := srcCluster b
  let out := match k with | some c => [2 + c] | none => []
  let into := fun (c : Nat) => if k = some c then [] else out ++ [6 + c]
  if inHbm b.addr then out ++ [(hbmPlace b.addr s).1]
  else if inCluster b.addr then into ((b.addr - 0x1000000000) / 0x2000000)
  else if inScratch b.addr then into (scratchCore b.addr / 8)
  else []
/-- A burst that its source can present (R269, R270): the form, the tag, the direction, the range. -/
def burstOk (b : Burst) (s : State) : Bool :=
  decide (1 ≤ b.len) && decide (b.len ≤ 64) && decide (b.addr % 64 = 0) && decide (b.addr % 4096 + 64 * b.len ≤ 4096) &&
    srcTagOk b s && srcWriteOk b && srcRangeOk b s
/-- A burst as it sets out. -/
def newBurst (b : Burst) (s : State) : BurstSt := { b := b, deadline := srcDeadline b s, path := burstPath b s }
/-- The point after the one a burst is at. -/
def nextPoint (x : BurstSt) : Option Nat := x.path[x.leg + 1]?
/-- The tag that a burst is charged to. -/
def burstTag (x : BurstSt) : Nat := x.b.tag.val

/-! ### Ports -/

def port (k : Nat) (s : State) : Port := Fam.get {} k s.ports
def updArb (k : Nat) (f : Port → Port) (s : State) : State := { s with ports := s.ports.set k (f (port k s)) }
/-- A point is an HBM port. -/
def isHbmPort (k : Nat) : Bool := decide (k < 2)
/-- Q of a tag at a point (R273). -/
def quantum (k t : Nat) (s : State) : Nat :=
  if !isHbmPort k then 64 else if t = 16 then (if clearing s then 104 else 8) else tagShare t s
/-- The round of a point. -/
def roundOf (k : Nat) (s : State) : List Nat := byPrio (if isHbmPort k then 0 else 4) (upTo 18) s
/-- A sealed burst: no point revokes it again (R277, R284). -/
def sealedBurst (x : BurstSt) (s : State) : Bool := x.isSealed || decide (revokeLimit s ≤ x.count)

/-- Lines of buffer space of a point that bursts from other points have taken: those that wait there and those granted on the way. -/
def roomTaken (k : Nat) (s : State) : Nat :=
  let here := (port k s).waiting.filter fun x => decide (0 < x.leg)
  let coming := (upTo 10).filterMap fun j => (port j s).holder.filter fun x => decide (nextPoint x = some k)
  ((here ++ coming).map fun x => x.b.len).foldl (· + ·) 0
/-- A burst may be granted: the next point of its path has buffer space for all of its lines (R282). DESIGN CHOICE (notes/assumptions/42.md): the
space of a point is a free number, at least 64 lines; a destination always has space. -/
def hasRoom (x : BurstSt) (s : State) : Bool :=
  match nextPoint x with
  | none => true
  | some k => decide (roomTaken k s + x.b.len ≤ 64 + Config.pointRoom k)
/-- The bursts of a tag that wait for a grant; the clear path's do so while it is active (R439). -/
def tagBursts (t k : Nat) (s : State) : List BurstSt :=
  (port k s).waiting.filter fun x => decide (burstTag x = t) && (decide (x.b.src ≠ .clear) || clearing s)
/-- The head of a tag's bursts: deadline class first, each in arrival order (R273). -/
def headBurst (t k : Nat) (s : State) : Option BurstSt :=
  match (tagBursts t k s).find? (·.deadline) with | some x => some x | none => (tagBursts t k s).head?
/-- The head of a tag's bursts where it may be granted. -/
def readyBurst (t k : Nat) (s : State) : Option BurstSt := (headBurst t k s).filter fun x => hasRoom x s

/-- Counters of a point: revocations, sealed bursts, wasted lines. -/
def countRevoke (k : Nat) (s : State) : State :=
  if k < 2 then inc (arbBase + 0x100 + 0x20 * k) 1 s
  else if k < 6 then inc (arbBase + 0x140 + 0x20 * (k - 2)) 1 s else inc (arbBase + 0x144 + 0x20 * (k - 6)) 1 s
/-- A burst sealed at a point (R277). -/
def countSealed (k : Nat) (s : State) : State :=
  if k < 2 then inc (arbBase + 0x104 + 0x20 * k) 1 s else inc (arbBase + 0x148 + 0x20 * ((k - 2) % 4)) 1 s
/-- Lines moved in vain by a revoked burst (R276). -/
def countWaste (k n : Nat) (s : State) : State :=
  if k < 2 then cntAdd (arbBase + 0x108 + 0x20 * k) n s else inc (arbBase + 0x14C + 0x20 * ((k - 2) % 4)) n s

def bank (c b : Nat) (s : State) : Bank := Fam.get {} (32 * c + b) s.banks
def setBank (c b : Nat) (x : Bank) (s : State) : State := { s with banks := s.banks.set (32 * c + b) x }
/-- The lines of a burst that an inbound port grants request their banks (R250, R271). -/
def linesToBanks (c : Nat) (x : BurstSt) (s : State) : State :=
  if !inCluster x.b.addr then s else eachDo (fun i s =>
    let j := (x.b.addr / 64 + i) % 32
    setBank c j { bank c j s with lines := (bank c j s).lines ++ [{ tag := burstTag x, deadline := x.deadline, b := some x.b }] } s) (upTo x.b.len) s
/-- The lines still queued for a revoked burst are withdrawn (R276). -/
def withdrawLines (c : Nat) (x : BurstSt) (s : State) : State := eachDo (fun j s =>
  if (bank c j s).lines.any fun l => decide (l.b = some x.b) then
    setBank c j { bank c j s with lines := (bank c j s).lines.filter fun l => decide (l.b ≠ some x.b) } s
  else s) (upTo 32) s

/-- A burst takes the port; its lines are charged to its tag (R273, R274). -/
def grantBurst (k : Nat) (x : BurstSt) (s : State) : State :=
  let s := updArb k (fun p => { p with
    waiting := p.waiting.erase x, holder := some { x with charge := x.b.len },
    deficit := p.deficit.set (burstTag x) (Fam.get 0 (burstTag x) p.deficit - x.b.len) }) s
  if k < 6 then s else linesToBanks (k - 6) x s

/-- A bulk burst that holds the port is revoked (R275 to R277): it stops after the line in progress, of which the manual gives no number, and
requests again at the first point of its path, at the head of its tag's bulk bursts. DEDUCED (notes/assumptions/43.md): what it was charged at this
point is given back; at points that it had passed the charge stands. -/
def revokeHolder (k : Nat) (s : State) : State :=
  match (port k s).holder with
  | none => s
  | some x =>
    let moved := 1 + (Config.freeWord s.fresh).toNat % (max 1 x.b.len)
    let now := decide (revokeLimit s ≤ x.count + 1) && !x.isSealed
    let y := { x with leg := 0, count := x.count + 1, isSealed := x.isSealed || now, charge := 0 }
    let s := updArb k (fun p => { p with holder := none, deficit := p.deficit.set (burstTag x) (Fam.get 0 (burstTag x) p.deficit + x.charge) }) (draw 1 s)
    let s := updArb (x.path.headD k) (fun p => { p with waiting := y :: p.waiting }) (if k < 6 then s else withdrawLines (k - 6) x s)
    let s := countWaste k moved (countRevoke k s)
    if now then countSealed k s else s

/-- The deadline-class burst that may be granted out of turn (R274): of a tag with a positive deficit, one burst per tag per rotation. -/
def outOfTurn (k : Nat) (s : State) : Option BurstSt :=
  let p := port k s
  let may := (roundOf k s).filterMap fun t =>
    if 0 < Fam.get 0 t p.deficit then (readyBurst t k s).filter (·.deadline) else none
  match may.find? fun x => !p.oot.contains (burstTag x) with | some x => some x | none => may.head?
/-- An out-of-turn grant notes the tag in the rotation. -/
def grantOut (k : Nat) (x : BurstSt) (s : State) : State :=
  let t := burstTag x
  updArb k (fun p => { p with oot := if p.oot.contains t then [t] else p.oot ++ [t] }) (grantBurst k x s)

/-- A burst requests a point (R272): it waits there; a deadline-class one that may be granted takes the port from a bulk burst that is not
sealed (R275). -/
def arrive (k : Nat) (x : BurstSt) (s : State) : State :=
  let s := updArb k (fun p => { p with waiting := p.waiting ++ [x] }) s
  match (port k s).holder, outOfTurn k s with
  | some h, some d =>
    if !det s && x.deadline && decide (0 < Fam.get 0 (burstTag x) (port k s).deficit) && !h.deadline && !sealedBurst h s then
      grantOut k d (revokeHolder k s)
    else s
  | _, _ => s

/-- The burst that holds the port has passed it whole: it requests the next point of its path (R271). A burst that has passed an HBM port counts
for its partition (R312) and the controller (R268). -/
def finishHolder (k : Nat) (s : State) : State :=
  match (port k s).holder with
  | none => s
  | some x =>
    let s := updArb k (fun p => { p with holder := none }) s
    let s := if !isHbmPort k then s else
      let s := cntAdd (hbmBase k + 0x20) (64 * x.b.len) s
      if x.b.tag.val < 16 then cntAdd (acctBase x.b.tag.val + (if x.b.write then 0x20 else 0x18)) (64 * x.b.len) s else s
    match nextPoint x with
    | some j => arrive j { x with leg := x.leg + 1, charge := 0 } s
    | none => s

/-- A tag's turn begins with its quantum (R273). -/
def creditTurn (k t i : Nat) (s : State) : State :=
  updArb k (fun p => { p with turn := i, deficit := p.deficit.set t (Fam.get 0 t p.deficit + quantum k t s) }) s

/-- The turn at a port (R273): the tag whose turn it is while its deficit reaches; otherwise the next, credited its quantum. A tag of
quantum 0 takes a turn only when no other tag waits, and moves one burst in it. DESIGN CHOICE (notes/assumptions/42.md): a tag whose head burst has
no space ahead is passed over, its deficit as it stands. At most `fuel` turns. -/
def roundGrant (k : Nat) : Nat → State → State
  | 0, s => s
  | fuel + 1, s =>
    let p := port k s
    let round := roundOf k s
    let fits := fun (t : Nat) (x : BurstSt) => decide ((x.b.len : Int) ≤ Fam.get 0 t p.deficit)
    let here := if p.turn = 0 then none else round[p.turn - 1]?
    match here.bind fun t => (readyBurst t k s).filter (fits t) with
    | some x => grantBurst k x s
    | none =>
      match outOfTurn k s with
      | some x => grantOut k x s
      | none =>
        let i := p.turn % round.length + 1
        let t := round.getD (i - 1) 0
        if (tagBursts t k s).isEmpty then roundGrant k fuel (updArb k (fun p => { p with turn := i, deficit := p.deficit.set t 0 }) s)
        else match readyBurst t k s with
          | none => roundGrant k fuel (updArb k (fun p => { p with turn := i }) s)
          | some x =>
            if 0 < quantum k t s then roundGrant k fuel (creditTurn k t i s)
            else if (port k s).waiting.all fun y => decide (burstTag y = t) then
              updArb k (fun p => { p with turn := i, deficit := p.deficit.set t 0 }) (grantBurst k x s)
            else roundGrant k fuel (updArb k (fun p => { p with turn := i }) s)

/-- BURST_REQUEST: a burst that its source can present requests the first point of its path (R272). -/
def requestBody (k : Nat) (b : Burst) (s : State) : State :=
  if burstOk b s && decide ((burstPath b s).head? = some k) then arrive k (newBurst b s) s else s
/-- BURST_REQUEST (R272). -/
def execBurstRequest (pt : ArbPoint) (b : Burst) (s : State) : Host.Outcome State Fault Refusal := .next (requestBody pt.no b s)

/-- A burst that waits at a point may be granted. -/
def anyReady (k : Nat) (s : State) : Bool := (upTo 18).any fun t => (readyBurst t k s).isSome
/-- BURST_GRANT: the port is free, its last burst having passed, and grants the next (R273, R274). -/
def grantBody (k : Nat) (s : State) : State :=
  if det s then s else
    let s := finishHolder k s
    match outOfTurn k s with
    | some x => grantOut k x s
    | none => if (port k s).holder.isNone && anyReady k s then roundGrant k 4096 s else s
/-- BURST_GRANT (R273). -/
def execBurstGrant (pt : ArbPoint) (s : State) : Host.Outcome State Fault Refusal := .next (grantBody pt.no s)

/-! ### Fixed slots (R281, R439) -/

/-- S of every tag, and the length of an HBM wheel. -/
def wheelShares (s : State) : List Nat := (upTo 18).map fun t => quantum 0 t s
/-- Slots of the HBM wheel, with those of the clear path while it is active (R281). -/
def wheelLen (s : State) : Nat := if clearing s then 352 else 256
/-- The gaps between the slots of a tag, around the wheel. -/
def slotGaps (l : List Nat) (t : Nat) : List Nat :=
  let at' := (l.zipIdx.filter fun (x : Nat × Nat) => decide (x.1 = t)).map (·.2)
  match at' with
  | [] => []
  | a :: r => (at'.zip (r ++ [a + l.length])).map fun (x : Nat × Nat) => x.2 - x.1
/-- A layout that R281 allows: S slots of each tag, no two further apart than twice the wheel's length over S, rounded up. -/
def layoutOk (shares : List Nat) (w : Nat) (l : List Nat) : Bool :=
  decide (l.length = w) && shares.zipIdx.all fun (x : Nat × Nat) =>
    decide (l.count x.2 = x.1) && (slotGaps l x.2).all fun g => decide (g ≤ 2 * ((w + x.1 - 1) / x.1))
/-- The tag with the nearest deadline among those whose next slot may come at slot `i`; `used` slots of each are laid. -/
def nearest (w i : Nat) (shares used : List Nat) : Option Nat :=
  (upTo shares.length).foldl (fun (best : Option Nat) t =>
    let due := fun (t : Nat) => ((used.getD t 0 + 1) * w + shares.getD t 0 - 1) / max 1 (shares.getD t 0)
    if used.getD t 0 < shares.getD t 0 ∧ used.getD t 0 * w / max 1 (shares.getD t 0) ≤ i then
      (match best with | some b => if due t < due b then some t else best | none => some t)
    else best) none
/-- A layout by nearest deadline: slot j of a tag between j and j + 1 of its S equal parts of the wheel. -/
def layWheel (w : Nat) (shares : List Nat) : Nat → Nat → List Nat → List Nat
  | 0, _, _ => []
  | n + 1, i, used =>
    match nearest w i shares used with
    | some t => t :: layWheel w shares n (i + 1) (used.set t (used.getD t 0 + 1))
    | none => 18 :: layWheel w shares n (i + 1) used
/-- The wheel of an HBM port. DESIGN CHOICE (notes/assumptions/44.md): the steward's layout is a free value; where that free value is none that R281
allows, the layout by nearest deadline stands for it. -/
def wheelOf (shares : List Nat) (w : Nat) : List Nat :=
  let l := Config.wheel shares w
  if layoutOk shares w l then l else layWheel w shares w 0 (shares.map fun _ => 0)
/-- The largest gap of a layout. -/
def maxGap (shares : List Nat) (l : List Nat) : Nat := ((upTo shares.length).flatMap fun t => slotGaps l t).foldl max 0

/-- A tag has a region or a core in cluster `c`. -/
def inClusterTag (c t : Nat) (s : State) : Bool :=
  let lo := 0x1000000000 + c * 0x2000000
  (partCores t s).any (fun n => decide (n / 8 = c)) || (upTo 16).any fun r =>
    let b := kRGN t r
    let attr := rd (b + 0xC) s
    let base := (rd b s).toNat / 4096 * 4096 + fld 15 0 (rd (b + 4) s) * 2 ^ 32
    let last := (rd (b + 8) s).toNat / 4096 * 4096 + 4095 + fld 15 0 attr * 2 ^ 32
    bitOf 31 attr && decide (base < lo + 0x1800000) && decide (lo ≤ last)
/-- The slots of a cluster port's wheel: the tags of the cluster in ascending order, tag 16 among them. DESIGN CHOICE (notes/assumptions/44.md): R281
gives their number, not their order. -/
def clusterWheel (c : Nat) (s : State) : List Nat := (upTo 18).filter fun t => decide (t = 16) || inClusterTag c t s
/-- The owner of the slot in force at a point (R439). -/
def slotOwner (k : Nat) (s : State) : Option Nat :=
  let c := s.time.c.toNat
  if isHbmPort k then ((wheelOf (wheelShares s) (wheelLen s))[c / 6 % wheelLen s]?).filter fun t => decide (t < 18)
  else
    let w := clusterWheel ((k - 2) % 4) s
    w[c / 20 % max 1 w.length]?
/-- FIXED_SLOT_START: the owner's head burst has the slot; an unused one may go to the clear path while it is active. -/
def slotBody (k : Nat) (s : State) : State :=
  if !det s then s else
    let s := finishHolder k s
    match (slotOwner k s).bind fun t => readyBurst t k s with
    | some x => grantBurst k x s
    | none =>
      match (tagBursts 16 k s).find? fun x => decide (x.b.src = .clear) && hasRoom x s with
      | some x => grantBurst k x s
      | none => s
/-- FIXED_SLOT_START (R281). -/
def execFixedSlotStart (pt : ArbPoint) (s : State) : Host.Outcome State Fault Refusal := .next (slotBody pt.no s)

/-- The largest gaps of the wheels shown (R281, R286): 0 with DET clear. -/
def showGap (s : State) : State :=
  let g := if det s then maxGap (wheelShares s) (wheelOf (wheelShares s) (wheelLen s)) else 0
  eachDo (fun h s => wr (arbBase + 0x110 + 0x20 * h) (wd g) s) (upTo 2) s
/-- The clear path has a burst to move. -/
def clearWork (s : State) : Bool := (upTo 10).any fun k => ((port k s).waiting ++ (port k s).holder.toList).any fun x => decide (x.b.src = .clear)
/-- The clear path becomes active and inactive at a tick at which ⌊C / 6⌋ begins to be a multiple of 2,816 (R439). DESIGN CHOICE
(notes/assumptions/45.md): it does so as a burst of it is in the transfer system or not. -/
def clearTick (s : State) : State :=
  if s.time.c.toNat % (6 * 2816) = 0 ∧ clearWork s ≠ clearing s then showGap (wrB kARB_STAT 3 (clearWork s) s) else s

/-! ### Banks (R251, R278) -/

/-- The core served: the turn rotates in ascending number among those that request. -/
def coreServed (b : Bank) : Option Nat :=
  let asc := (upTo 8).filter fun n => b.cores.contains n
  match asc.find? fun n => decide (b.coreTurn ≤ n) with | some n => some n | none => asc.head?
/-- The line served (R278): of the tag next in the round after the last served that requests; a deadline-class one first, in arrival order. -/
def lineServed (b : Bank) (s : State) : Option BankLine :=
  let round := byPrio 8 (upTo 18) s
  let has := fun (t : Nat) => b.lines.any fun l => decide (l.tag = t)
  let after := match round.dropWhile fun t => decide (t + 1 ≠ b.tagTurn) with | _ :: r => r | [] => []
  match (after.find? has).or (round.find? has) with
  | none => none
  | some t => match b.lines.find? fun l => decide (l.tag = t) && l.deadline with
    | some l => some l
    | none => b.lines.find? fun l => decide (l.tag = t)

/-- A bank whose slot goes to the core class, and one whose slot goes to the DMA class. -/
def giveCore (x : Bank) : Bank := match coreServed x with | some i => { x with cores := x.cores.erase i, coreTurn := i + 1 } | none => x
/-- The slot goes to the cluster DMA line that is served. -/
def giveDma (s : State) (x : Bank) : Bank :=
  match lineServed x s with | some l => { x with lines := x.lines.erase l, tagTurn := l.tag + 1, waited := 0 } | none => x
/-- The requests that reach a bank other than through the cluster port: the cores' and the cluster DMA's. -/
def bankArrive (cores tags : List Nat) (x : Bank) : Bank :=
  { x with cores := x.cores ++ cores, lines := x.lines ++ tags.map fun t => { tag := t } }

/-- BANK_SLOT: requests reach the bank, and one slot of it goes to the core class or to the DMA class (R251). -/
def bankBody (c b : Nat) (cores tags : List Nat) (s : State) : State :=
  let x := bankArrive cores tags (bank c b s)
  let n := dmaShare s
  if det s then
    let y := { x with slot := x.slot + 1 }
    setBank c b (if x.slot % n = 0 then giveDma s y else giveCore y) s
  else
    let forced := !x.lines.isEmpty && decide (n - 1 ≤ x.waited)
    if forced || (x.cores.isEmpty && !x.lines.isEmpty) then
      let s := if forced then inc (cluBase c + 0x18) 1 s else s
      let s := if x.cores.isEmpty then inc (cluBase c + 0x14) 1 s else s
      setBank c b (giveDma s x) s
    else setBank c b (giveCore { x with waited := if x.lines.isEmpty then 0 else x.waited + 1 }) s
/-- BANK_SLOT (R251). -/
def execBankSlot (cl : Fin 4) (bank : Fin 32) (coreReq : List (Fin 8)) (dmaReq : List BankReq) (s : State) : Host.Outcome State Fault Refusal :=
  .next (bankBody cl.val bank.val (coreReq.map (·.val)) (dmaReq.map fun r => r.tag.val) s)

/-! ### Commit (R284, R285) -/

/-- The shadows of the ARB block in range. -/
def arbInRange (s : State) : Bool :=
  let g := rd kARB_GLOBAL s
  decide (1 ≤ fld 3 0 g) && decide (2 ≤ fld 14 8 g ∧ fld 14 8 g ≤ 64) && (upTo 16).all fun t => decide (fld 31 24 (rd (kARB_TAG t) s) ≤ 240)
/-- A burst under new settings: sealed where its count is at the limit, its charge gone with the deficits (R284). -/
def takeLimit (s : State) (x : BurstSt) : BurstSt := { x with isSealed := x.isSealed || decide (revokeLimit s ≤ x.count), charge := 0 }
/-- The shadows take effect: deficits at 0, rounds at their start, bursts at the new limit sealed (R284). -/
def arbTake (s : State) : State :=
  let s := eachDo takeShadow (kARB_GLOBAL :: (upTo 16).map kARB_TAG) s
  let s := eachDo (fun k s => updArb k (fun p => { p with
    deficit := [], turn := 0, oot := [], waiting := p.waiting.map (takeLimit s), holder := p.holder.map (takeLimit s) }) s) (upTo 10) s
  let s := wrB kARB_STAT 2 (det s) (wrB kARB_STAT 1 false (wrB kARB_STAT 0 false s))
  showGap s
/-- A write of ARB_COMMIT by the PF (R285). -/
def arbGo (fn : Nat) (v : Word) (s : State) : State :=
  if fn ≠ 0 ∨ ¬ expert s ∨ ¬ bitOf 0 v then s
  else if ((upTo 16).any fun p => decide (partState p s = 2 ∨ partState p s = 3)) ||
      decide (240 < ((upTo 16).map fun t => fld 31 24 (rd (kARB_TAG t) s)).foldl (· + ·) 0) || !arbInRange s then wrB kARB_STAT 1 true s
  else arbTake s
/-- ARB_COMMIT_GO (R284). -/
def execArbCommitGo (fn : Fin 17) (v : Word) (s : State) : Host.Outcome State Fault Refusal :=
  .next (viaHost fn.val (arbGo fn.val v) s)

/-! ### Bounds (R279, R280) -/

/-- The lowest checked pace among some cores, 0 for none (R296). -/
def paceChecked (ns : List Nat) (s : State) : Nat :=
  match ns.map fun n => rdF (coreBase n + 0xB00) 31 16 s with
  | [] => 0
  | h :: t => t.foldl min h

/-- The settings that admission computes bounds with: shares by tag, the partitions with a deadline-class queue, REVOKE_LIMIT, N, DET, the
tags with traffic at a cluster port, the lowest pace of the last Morning check. -/
structure ArbSet where
  shares : List Nat
  dl : List Bool
  k : Nat
  n : Nat
  det : Bool
  tags : Nat
  pace : Nat
deriving DecidableEq, Repr

/-- Times in 0.1 ps: a line at an HBM port, a line at a cluster port (a quarter of a beat), a bank slot of 2 beats (R250, R271). -/
abbrev hbmLine : Nat := 1302
/-- A cluster port's line-time in 0.1 ps at the slowest pace (R271). -/
def cluLine (a : ArbSet) : Nat := 6400000 / max 1 a.pace + 1
/-- A bank slot is eight line-times of its cluster (R278). -/
def bankSlotTime (a : ArbSet) : Nat := 8 * cluLine a
/-- G of R279 for a burst of length L with quantum q, at a port where the quanta of `n` tags sum to `sum`. -/
def grantBound (q sum n len : Nat) : Nat := 64 + (len + max 1 q - 1) / max 1 q * (sum + 126 * n)
/-- The wait for a grant and the lines themselves at a port, in its line-times (R279): the larger of the two grant bounds for a burst of
deadline class. -/
def pointBound (dl : Bool) (q sum n len : Nat) : Nat :=
  (if dl then max (64 * n) (grantBound q sum n len) else grantBound q sum n len) + len
/-- The bound of one burst of the burst table for partition p, in 0.1 ps: its ports (R279) or their fixed slots (R281), its banks (R251, R278)
and the unloaded latency (R257); HBM reads its first data within 200 ns (R255). DEDUCED (notes/assumptions/46.md): a row is of deadline class where
the partition has a deadline-class queue. -/
def burstBound (a : ArbSet) (p : Nat) (r : BurstRow) : Nat :=
  let dl := r.deadline && a.dl.getD p false
  let share := a.shares.getD p 0
  let hn := (a.shares.filter (· ≠ 0)).length + 2
  let hbm := pointBound dl share (a.shares.foldl (· + ·) 0 + 112) hn r.lines * hbmLine
  let clu := pointBound dl 64 (64 * a.tags) a.tags r.lines * cluLine a
  let times := if dl then 1 else a.k + 1
  let perBank := (r.lines + 31) / 32
  let dmaBank := perBank * a.n * min 18 a.tags * bankSlotTime a
  let coreBank := perBank * (if a.det then 16 else 8) * bankSlotTime a
  let beats := fun (n : Nat) => 4 * n * cluLine a
  let slotH := (2 * ((352 + max 1 share - 1) / max 1 share) + 1) * 96000
  let slotC := (a.tags + 1) * 320000
  if r.path = 0 then coreBank + beats 40
  else if r.path = 1 then (if a.det then 2 * slotC else times * (2 * clu)) + dmaBank + beats 96
  else (if a.det then slotC + slotH else times * (clu + hbm)) + 2000000 + beats 64
/-- A of R296 in ns: the bounds of all bursts of a job. -/
def arbBound (a : ArbSet) (p : Nat) (rows : List BurstRow) : Nat :=
  (rows.map fun r => r.count * burstBound a p r).foldl (· + ·) 0 / 10000 + 1
/-- The settings in force, with the lowest pace of the last Morning check of any core (R280). -/
def arbSetNow (s : State) : ArbSet :=
  { shares := (upTo 16).map fun t => tagShare t s,
    dl := (upTo 16).map fun t => (upTo 4).any fun q => dlQueue t q s,
    k := revokeLimit s, n := dmaShare s, det := det s, tags := (usedVfs s).length + 2,
    pace := paceChecked (((upTo 16).flatMap fun p => liveCores p s).filter fun n => decide (rdF (coreBase n + 0xB00) 31 16 s ≠ 0)) s }

end Sys2Proof.Machine
end

