-- ==== Sys2Proof/Machine/Audit.lean ====
section
/-! DEFINITION. The audit log (02_partitions_and_roles.md, R44 to R47). -/

namespace Sys2Proof.Machine

open Sys2Proof

/-- The records a segment holds (R44). -/
abbrev auditCap : Nat := 682

/-- The bytes of a record (R45). -/
def auditBytes (seq time cmd status slot func part : Nat) (nonceTag digest prev : List Byte) : List Byte :=
  let head := natLE 4 seq ++ natLE 8 time ++ natLE 2 cmd ++ natLE 2 status ++ natLE 1 slot ++ natLE 1 func ++ natLE 1 part ++ [0]
  let tail := padTo 8 nonceTag ++ padTo 32 digest ++ padTo 32 prev
  head ++ natLE 4 (crc32 (head ++ tail)).toNat ++ tail

/-- PREV_HASH of the next record: the hash of the last, or the segment header's field (R45). -/
def auditPrev (f : Flash) : List Byte := match f.audit.getLast? with | some r => sha256 r | none => f.segPrev

/-- The log takes a record: the segment is not full and not read-only (R46, R47). That a read-only log answers as a full one does, with
ST_AUDIT_FULL and the count, is the model's choice (notes/assumptions/20.md). -/
def auditRoom (s : State) : Bool := decide (s.flash.audit.length < auditCap) && !s.flash.auditRO

/-- A record appended; with 32 left, AUDIT_NEAR_FULL (R47). -/
def auditPut (cmd status slot func part : Nat) (nonceTag digest : List Byte) (s : State) : State :=
  let f := s.flash
  let r := auditBytes f.auditSeq (nowNs s).toNat cmd status slot func part nonceTag digest (auditPrev f)
  let s := { s with flash := { f with audit := f.audit ++ [r], auditSeq := f.auditSeq + 1, auditExported := false } }
  if f.audit.length + 1 + 32 = auditCap then raiseFault 0x1004 0 0xFF 0 [0] s else s

/-- What could not be recorded counts (R47). -/
def auditLose (s : State) : State := { s with flash := { s.flash with auditLost := s.flash.auditLost + 1 } }

/-- An event recorded without a command (R45), or counted when the log takes none (R47). -/
def auditEvent (code status part : Nat) (digest : List Byte) (s : State) : State :=
  if auditRoom s then auditPut code status 0xFF 0xFF part [] digest s else auditLose s

/-- The steward meets uncorrectable words (R260): each is reported, and recorded with its address. -/
def stewardMet (ws : List Nat) (s : State) : State := eachDo (fun w s => auditEvent 0xE007 0 0xFF (natLE 8 w) (reportUnc w s)) ws s

/-- The 64-byte segment header (R45). -/
def auditHeader (f : Flash) : List Byte :=
  natLE 4 0x4C414744 ++ natLE 4 f.segNo ++ natLE 8 Config.serial.toNat ++ padTo 32 f.segPrev ++ zeros 16

/-- The 64 KiB of the segment (R44). -/
def auditSegment (f : Flash) : List Byte := padTo 65536 (auditHeader f ++ f.audit.flatten)

/-- Whether the hash chain of the segment holds, and every CRC but the last record's is good (R46). -/
def auditChain : List Byte → List (List Byte) → Bool
  | _, [] => true
  | prev, r :: rs => decide (r.drop 64 = prev) &&
      (rs.isEmpty || decide (leAt r 20 4 = (crc32 (r.take 20 ++ r.drop 24)).toNat)) && auditChain (sha256 r) rs

/-- The last record is incomplete or fails its CRC: a torn append (R46). -/
def auditTornLast (f : Flash) : Bool :=
  f.torn || match f.audit.getLast? with
  | some r => decide (leAt r 20 4 ≠ (crc32 (r.take 20 ++ r.drop 24)).toNat)
  | none => false

/-- The start-up check of the log (R46): a torn record, which has taken no SEQ, gives way to AUDIT_TORN, a broken chain makes the log read-only;
the end of an expert unlock by the reset is appended (R42). -/
def auditCheck (s : State) : State :=
  let s := if auditTornLast s.flash then
      let s := { s with flash := { s.flash with audit := s.flash.audit.dropLast, torn := false } }
      raiseFault 0x1006 0 0xFF 0 [0] (auditEvent 0xE001 0 0xFF [] s)
    else s
  let s := if auditChain s.flash.segPrev s.flash.audit then s
    else raiseFault 0x1005 0 0xFF 0 [0] { s with flash := { s.flash with auditRO := true } }
  if s.flash.expertOpen then
    auditEvent 0xE003 3 0xFF [] { s with flash := { s.flash with expertOpen := false } }
  else s

end Sys2Proof.Machine
end

