-- ==== Sys2Proof/Machine/Ledger.lean ====
section
/-! DEFINITION. The ejection ledger (14_motion_and_ejection.md, R331 to R347), the valve outputs with their group budget (R340 to R343)
and the Nightfall state's hold on them (15_field_io_and_supervisor.md, R357 to R359). -/

namespace Sys2Proof.Machine

open Sys2Proof

/-! ### Blocks and settings -/

def ldsBase (st : Nat) : Nat := ledBase + 0x800 + 0x40 * st
def viewBase (st : Nat) : Nat := ledBase + 0x2000 + 0x40 * st
def ldpBase (p : Nat) : Nat := ledBase + 0x3000 + 0x40 * p
def grpBase (g : Nat) : Nat := ledBase + 0x600 + 0x10 * g
abbrev kLDG_STAT : Nat := 0x040040
abbrev kLDG_EVT : Nat := 0x040044
abbrev kLDG_POSTS : Nat := 0x040048
abbrev kFIO_STAT : Nat := 0x050000
abbrev kFIO_EVT : Nat := 0x050004
abbrev kFIO_DO : Nat := 0x05000C
abbrev kFIO_CAUSE : Nat := 0x050014
abbrev kFIO_CNT_NF : Nat := 0x050024
abbrev kSUP_STAT : Nat := 0x3000004
abbrev kSUP_CTL : Nat := 0x3000008

/-- The Nightfall state holds. -/
def night (s : State) : Bool := rdB kFIO_STAT 1 s
/-- A field of FIELDIO: pull-in time in µs and SAFE of an output (R354). -/
def pullinUs (d : Nat) (s : State) : Nat := cfg 0x41 0 (4 * d) 2 s
def safeOf (d : Nat) (s : State) : Nat := cfg 0x41 0 (4 * d + 2) 1 s
/-- Ticks in a number of µs. -/
def usTicks (us : Nat) : Nat := us * 625
/-- A number of ticks has passed since an earlier tick. -/
def passed (t0 : BitVec 64) (n : Nat) (s : State) : Bool := decide (n ≤ ticksSince t0 s)

/-! ### Entries -/

def ent (e : Nat) (s : State) : Option LEntry := Fam.find e s.ents
def setEnt (e : Nat) (x : LEntry) (s : State) : State := { s with ents := s.ents.set e x }
def updEnt (e : Nat) (f : LEntry → LEntry) (s : State) : State := match ent e s with | some x => setEnt e (f x) s | none => s
/-- FLAGS bits of R346. -/
abbrev fDEFAULT : Nat := 0
abbrev fLATE : Nat := 1
abbrev fCLIPPED : Nat := 2
abbrev fFIRED : Nat := 3
abbrev fMISSED : Nat := 4
abbrev fPASSED : Nat := 5
abbrev fSUPPRESSED : Nat := 6
abbrev fEXTSENT : Nat := 7
abbrev fEXTDROP : Nat := 8
abbrev fNOJOB : Nat := 9
abbrev fDELAYED : Nat := 10
abbrev fFALLBACK : Nat := 11
def LEntry.flag (x : LEntry) (b : Nat) : LEntry := { x with flags := x.flags ||| BitVec.ofNat 16 (2 ^ b) }
def LEntry.has (x : LEntry) (b : Nat) : Bool := x.flags.getLsbD b

/-- The code of STATE (R334). -/
def stCode : EntSt → Nat
  | .opened => 1
  | .decided => 2
  | .defaulted => 3
  | .firing => 4
  | .drain => 5

/-- The decision that posts form (R335): OR of masks, largest class, the score of its first post in binding order. -/
def combine (x : LEntry) : Word × Nat × Nat :=
  let ps := x.jobs.filterMap fun j => x.posts.find? fun p => p.job = j
  let mask := ps.foldl (fun m p => m ||| p.mask) 0
  let best := ps.foldl (fun (b : Option LPost) p => match b with
    | none => some p
    | some q => if q.cls < p.cls then some p else some q) none
  match best with
  | some p => (mask, p.score, p.cls)
  | none => (mask, 0, 0)

/-- The late decision (R336): of every counted post, once the entry has taken its default. -/
def lateOf (x : LEntry) : Option (Word × Nat × Nat) := if x.has fDEFAULT && !x.posts.isEmpty then some (combine x) else none

/-- The record of an entry (R346), with the byte of STATE given. -/
def entBytes (x : LEntry) (state : Nat) (showLate : Bool) : List Byte :=
  let l := if showLate then lateOf x else none
  let fl := if l.isSome then (x.flag fLATE).flags else x.flags
  let lt := l.getD (0, 0, 0)
  natLE 4 x.obj.toNat ++ natLE 1 x.stream ++ natLE 1 x.src ++ natLE 1 (x.jobs.length + 16 * x.posts.length) ++ natLE 1 state ++
  natLE 4 x.target.toNat ++ natLE 4 x.kRec.toNat ++ natLE 4 x.mask.toNat ++ natLE 4 x.missed.toNat ++
  natLE 2 x.score ++ natLE 1 x.cls ++ [0] ++ natLE 2 fl.toNat ++ [0, 0] ++
  natLE 4 x.firePos.toNat ++ natLE 4 x.decidePos.toNat ++ natLE 8 x.fireTime.toNat ++
  natLE 4 lt.1.toNat ++ natLE 2 lt.2.1 ++ natLE 1 lt.2.2 ++ [0] ++ natLE 4 x.gen.toNat ++ zeros 4

/-- Every job of an entry's window has ended. -/
def allEnded (x : LEntry) : Bool := x.jobs.all fun j => x.ended.contains j

/-- The entry view of a stream and FOUND (R348): the open entry of the object that LDS_FIND names. -/
def showView (st : Nat) (s : State) : State :=
  let hit := s.ents.find? fun e => e.2.stream = st ∧ e.2.obj = rd (ldsBase st + 0x24) s
  let bs := match hit with | some e => entBytes e.2 (stCode e.2.st) (allEnded e.2) | none => zeros 64
  let s := wrB (ldsBase st + 0x20) 2 hit.isSome s
  eachDo (fun i s => wr (viewBase st + 4 * i) (wd (leAt bs (4 * i) 4)) s) (upTo 16) s

/-- LDG_STAT, LDP_USED, LDS_STAT and the view as the entries give them. -/
def showLedger (st p : Nat) (s : State) : State :=
  let s := wr kLDG_STAT (wd s.ents.length) s
  let s := wrF (ldpBase p + 0x14) 12 0 ((s.ents.filter fun e => e.2.part = p).length) s
  let s := wrF (ldsBase st + 0x20) 28 16 ((s.ents.filter fun e => e.2.stream = st).length) s
  showView st s

/-- A record in the partition's ledger log (R346): discarded and counted when the ring is full or none is set; the LEDGER source counts
records for the VF and for the PF (R394). -/
def logRecord (p : Nat) (bs : List Byte) (s : State) : State :=
  let b := ldpBase p
  let n := rdF (b + 8) 16 0 s
  let wrc := rd (b + 0xC) s
  if n = 0 ∨ n ≤ (wrc - rd (b + 0x10) s).toNat then inc (b + 0x1C) 1 (wrB kLDG_EVT 4 true s)
  else
    let a := rdAddr b s / 64 * 64 % 2 ^ 48 + wrc.toNat % n * 64
    let s := (devWrite mLedger p p a bs s).2.2
    let s := inc (b + 0xC) 1 s
    let step := fun fn key s =>
      let k := Fam.get 0 key (ring fn s).ldp + 1
      let lim := rdF (ringBase fn + oINT_LDP) 15 0 s
      if lim ≤ k then fireInt fn 2 (updRing fn (fun r => { r with ldp := r.ldp.set key 0 }) s)
      else updRing fn (fun r => { r with ldp := r.ldp.set key k }) s
    step 0 p (step (p + 1) p s)

/-- An entry leaves the ledger: its record is written, and it is free (R346). -/
def freeEnt (e : Nat) (s : State) : State :=
  match ent e s with
  | none => s
  | some x => showLedger x.stream x.part (logRecord x.part (entBytes x 0 (allEnded x)) { s with ents := s.ents.del e })

/-- An entry in DRAIN whose jobs have all ended is recorded and freed (R334, R346). -/
def drainEnt (e : Nat) (s : State) : State :=
  match ent e s with
  | some x => if x.st = .drain ∧ allEnded x then freeEnt e s else showLedger x.stream x.part s
  | none => s

/-! ### Valve outputs (R340 to R343) -/

def doSt (d : Nat) (s : State) : Option DoSt := Fam.find d s.dos
/-- Outputs of a group in pull-in, in hold, waiting. -/
def grpPull (g : Nat) (s : State) : List Nat := (upTo 4).filter fun i => match doSt (4 * g + i) s with | some x => x.pull.isSome | none => false
/-- Outputs of a group that hold. -/
def grpHold (g : Nat) (s : State) : List Nat := (upTo 4).filter fun i => match doSt (4 * g + i) s with | some x => x.pull.isNone | none => false
/-- Outputs of a group that wait for the budget. -/
def grpWait (g : Nat) (s : State) : List Nat := (upTo 4).filter fun i => s.reqs.any fun r => r.d = 4 * g + i
/-- The committed current of a group in mA. -/
def grpMa (g : Nat) (s : State) : Nat := 1500 * (grpPull g s).length + 400 * (grpHold g s).length
/-- Places of a group as a mask. -/
def maskOf4 (l : List Nat) : Nat := l.foldl (fun a i => a + 2 ^ i) 0

/-- GRP_STAT, FIO_DO and SUP_DO as the outputs stand. -/
def showGrp (g : Nat) (s : State) : State :=
  let on := maskOf4 (grpPull g s) + maskOf4 (grpHold g s)
  let s := wr (grpBase g) (wd (on + 16 * maskOf4 (grpPull g s) + 256 * maskOf4 (grpWait g s) + 65536 * grpMa g s)) s
  let s := wrF kFIO_DO (4 * g + 3) (4 * g) on s
  wr (supBase + 0x14) (rd kFIO_DO s) s

/-- The pulse's end for an entry whose pull-in is admitted now (R340), and whether it fell back to counts. -/
def pulseEnd (x : LEntry) (s : State) : PulseEnd × Bool :=
  let mode := fld 5 4 x.ctl
  let p := encPos x.src s
  let maxT := tick s + BitVec.ofNat 64 (usTicks (x.pmax * 1000))
  if mode = 1 then
    if holdover s ∧ cfg 0x01 0 3 1 s = 1 then ({ src := x.src, pos := some (p + wd x.lenC), due := maxT }, true)
    else ({ src := x.src, pos := none, due := tick s + BitVec.ofNat 64 (usTicks x.lenT) }, false)
  else if mode = 2 then ({ src := x.src, pos := some (p + (x.trail - x.lead) + wd x.lenC), due := maxT }, false)
  else ({ src := x.src, pos := some (p + wd x.lenC), due := maxT }, false)

/-- An asker's output is driven from now on: its entry records FIRED, its pulse end joins. -/
def askerFires (delayed : Bool) (d : Nat) (a : Asker) (s : State) : State :=
  match a with
  | .entry e =>
    match ent e s with
    | none => s
    | some x =>
      let (pe, fb) := pulseEnd x s
      let s := if x.has fFIRED then s else inc (ldsBase x.stream + 0x28) 1 s
      let x := x.flag fFIRED
      let x := if delayed then x.flag fDELAYED else x
      let x := if fb then x.flag fFALLBACK else x
      let s := setEnt e x s
      { s with dos := s.dos.upd { pull := none, who := [], ends := [] } d fun o => { o with who := o.who ++ [e], ends := o.ends ++ [pe] } }
  | .test ms =>
    { s with dos := s.dos.upd { pull := none, who := [], ends := [] } d fun o => { o with ends := o.ends ++
        [{ src := 0, pos := none, due := tick s + BitVec.ofNat 64 (usTicks (ms * 1000)) }] } }
  | .night => { s with dos := s.dos.upd { pull := none, who := [], ends := [] } d fun o => { o with night := true } }

/-- A pull-in is admitted (R341): the output is in pull-in from this tick. -/
def admitReq (delayed : Bool) (r : DoReq) (s : State) : State :=
  let s := { s with dos := s.dos.set r.d { pull := some (tick s), who := [], ends := [] } }
  let s := if delayed && r.who.any (fun a => a != .night) then inc (grpBase (r.d / 4) + 4) 1 s else s
  eachDo (askerFires delayed r.d) r.who s

/-- Requests of a group admitted in order while the budget allows (R341), at most `k`. -/
def admitGrp (delayed : Bool) (g : Nat) : Nat → State → State
  | 0, s => s
  | k + 1, s =>
    match s.reqs.find? fun r => r.d / 4 = g with
    | none => s
    | some r => if grpMa g s + 1500 ≤ 2500 then admitGrp delayed g k (admitReq delayed r { s with reqs := s.reqs.erase r }) else s

/-- One request (R341, R342): it merges with a driven output or a waiting request of the same output, is admitted if nothing of its
group waits and the budget allows, or waits. -/
def request (r : DoReq) (s : State) : State :=
  let g := r.d / 4
  match doSt r.d s with
  | some _ => eachDo (askerFires false r.d) r.who (inc (grpBase g + 0xC) 1 s)
  | none =>
    if s.reqs.any (fun q => q.d = r.d) then
      inc (grpBase g + 0xC) 1 { s with reqs := mapWhere (fun q => q.d = r.d) (fun q => { q with who := q.who ++ r.who }) s.reqs }
    else if s.reqs.all (fun q => q.d / 4 ≠ g) && decide (grpMa g s + 1500 ≤ 2500) then admitReq false r s
    else { s with reqs := s.reqs ++ [r] }

/-- An entry in FIRING with nothing driven or waiting for it passes to DRAIN (R334). -/
def firedEnt (e : Nat) (s : State) : State :=
  match ent e s with
  | none => s
  | some x =>
    let busy := (s.dos.any fun o => o.2.who.contains e) || (s.reqs.any fun r => r.who.contains (.entry e))
    if x.st = .firing ∧ ¬ busy then drainEnt e (setEnt e { x with st := .drain } s) else s

/-- An output turns off; what fired through it is settled. -/
def doOff (d : Nat) (s : State) : State :=
  match doSt d s with
  | none => s
  | some o => showGrp (d / 4) (eachDo firedEnt o.who { s with dos := s.dos.del d })

/-- Waiting requests of a source dropped once P − F exceeds GRACE (R343). -/
def dropMissed (src : Nat) (s : State) : State :=
  let p := encPos src s
  let late := fun (r : DoReq) => r.src = src && match r.grace with | some g => decide ((g : Int) < (p - r.f).toInt) | none => false
  eachDo (fun (r : DoReq) s =>
    let s := { s with reqs := s.reqs.erase r }
    let s := eachDo (fun a s => match a with
      | .entry e => match ent e s with
        | some x =>
          let s := setEnt e { (x.flag fMISSED) with missed := x.missed ||| BitVec.ofNat 32 (2 ^ r.d) } s
          let s := inc (ldsBase x.stream + 0x30) 1 (wrB kLDG_EVT 1 true s)
          firedEnt e (raiseFault 0x4002 x.stream x.part 0 [x.part + 1] s)
        | none => s
      | _ => s) r.who (inc (grpBase (r.d / 4) + 8) 1 s)
    showGrp (r.d / 4) s) (s.reqs.filter late) s

/-- Pulse ends reached by the position of a source are met for good (R340). -/
def reachEnds (src : Nat) (s : State) : State :=
  let p := encPos src s
  let met := fun (e : PulseEnd) => e.src = src && match e.pos with | some q => decide (0 ≤ (p - q).toInt) | none => false
  { s with dos := s.dos.map fun o => (o.1, { o.2 with ends := o.2.ends.filter fun e => !met e }) }

/-- An output's pull-in time ends (R340): it holds, and waiting requests may be admitted. -/
def pullinEndBody (d : Nat) (s : State) : State :=
  match doSt d s with
  | some o => match o.pull with
    | some t => if passed t (usTicks (pullinUs d s)) s then
        showGrp (d / 4) (admitGrp true (d / 4) 4 { s with dos := s.dos.set d { o with pull := none } }) else s
    | none => s
  | none => s

/-- A pulse ends (R340, R342): once every end it waits for is met or due, the output turns off and the budget is freed. -/
def pulseEndBody (d : Nat) (s : State) : State :=
  match doSt d s with
  | none => s
  | some o =>
    let left := o.ends.filter fun e => !decide (0 ≤ (tick s - e.due).toInt)
    if o.night ∨ ¬ left.isEmpty then s else showGrp (d / 4) (admitGrp true (d / 4) 4 (doOff d s))

/-! ### Decisions (R335 to R339) -/

/-- An entry takes its stream's default (R336). -/
def takeDefault (x : LEntry) (pos : Word) (s : State) : LEntry × State :=
  let eject := cfg 0x20 x.stream 9 1 s = 1
  (({ x with st := .defaulted, mask := if eject then wd (cfg 0x20 x.stream 20 4 s) else 0, score := 0, cls := 0,
             decidePos := pos, kSeen := true }).flag fDEFAULT,
   inc (ldsBase x.stream + 0x2C) 1 s)

/-- The combined decision of its posts takes effect (R335). -/
def takeDecision (x : LEntry) (pos : Word) : LEntry :=
  let c := combine x
  { x with st := .decided, mask := c.1, score := c.2.1, cls := c.2.2, decidePos := pos }

/-- Every job of the window has posted. -/
def complete (x : LEntry) : Bool := !x.jobs.isEmpty && x.jobs.all fun j => x.posts.any fun p => p.job = j

/-- Lc of R338. -/
def leadCounts (x : LEntry) (s : State) : Int := max (encSpeed x.src s) 0 * x.leadT / 1000000
/-- The firing point is reached: T − P ≤ Lc (R338). -/
def atFire (x : LEntry) (pos : Word) (s : State) : Bool := decide ((x.target - pos).toInt ≤ leadCounts x s)
/-- The commit count is reached: P − K ≥ 0 (R333). -/
def atCommit (x : LEntry) (pos : Word) : Bool := decide (0 ≤ (pos - x.commit).toInt)

/-- The payload of an external frame (R345). -/
def extPayload (x : LEntry) (tf : Nat) (s : State) : List Byte :=
  let action := if x.has fDEFAULT then cfg 0x20 x.stream 9 1 s else if x.cls = 0 then 0 else 1
  let mode := fld 5 4 x.ctl
  let pulse := if mode = 1 then 2 ^ 31 + x.lenT
    else if mode = 2 then ((x.trail - x.lead).toNat + x.lenC) % 2 ^ 31 else x.lenC
  [0x01] ++ natLE 1 (b2n (x.has fDEFAULT) + 2 * b2n (x.has fCLIPPED) + 4 * b2n (holdover s)) ++ natLE 1 x.stream ++ natLE 1 action ++
  natLE 4 x.obj.toNat ++ natLE 4 x.target.toNat ++ natLE 4 x.mask.toNat ++ natLE 2 x.score ++ natLE 1 x.cls ++ [0] ++
  natLE 4 pulse ++ natLE 8 tf

/-- The predicted fire time t_f (R345), rounded to 1.6 ns, in whole ns. -/
def fireTime (x : LEntry) (pos : Word) (th : Nat) (s : State) : Nat :=
  let d := (x.target - pos).toInt
  let v := encSpeed x.src s
  if 0 < d ∧ 0 < v then
    let k := (d * 1000000000 * 5 + 4 * v) / (8 * v)
    th + (k * 8 / 5).toNat
  else th

/-- The external route at the firing point (R345). -/
def extFire (e : Nat) (pos : Word) (s : State) : State :=
  match ent e s with
  | none => s
  | some x =>
    if !bitOf 1 x.ctl then s else
      let th := (nowNs s).toNat
      let (ok, s) := lqHand (fld 8 8 x.ctl) (fld 11 9 x.ctl) (th + 10000) (extPayload x (fireTime x pos th s) s) s
      if ok then setEnt e (x.flag fEXTSENT) s
      else inc (ldsBase x.stream + 0x3C) 1 (wrB kLDG_EVT 5 true (setEnt e (x.flag fEXTDROP) s))

/-- An entry's step at an evaluation (R333, R336, R338): expiry, commit count, firing point. The outputs it requests are left to the
caller, so that requests of one evaluation are admitted in DO order (R341). -/
def evalEnt (e : Nat) (s : State) : List DoReq × State :=
  match ent e s with
  | none => ([], s)
  | some x =>
    let pos := encPos x.src s
    if 2 ^ 31 - 2 ^ 24 ≤ (pos - x.p0).toInt.natAbs then
      ([], freeEnt e { (setEnt e (x.flag fPASSED) (inc (ldsBase x.stream + 0x34) 1 (wrB kLDG_EVT 2 true s))) with
        reqs := s.reqs.filter fun r => !r.who.contains (.entry e) })
    else
      let (x, s) := if x.kSeen || !atCommit x pos then (x, s)
        else if x.st = .opened then
          (if det s && complete x then ({ takeDecision x pos with kSeen := true }, s) else takeDefault x pos s)
        else ({ x with kSeen := true }, s)
      let due := (x.st = .opened || x.st = .decided || x.st = .defaulted) && atFire x pos s
      if !due then ([], setEnt e x s)
      else
        let (x, s) := if x.st = .opened then
            (let r := takeDefault { x with kRec := pos } pos s
             (r.1.flag fCLIPPED, r.2)) else (x, s)
        let x := { x with firePos := pos, fireTime := nowNs s }
        if night s then ([], drainEnt e (setEnt e ({ x with st := .drain }.flag fSUPPRESSED) s))
        else
          let s := extFire e pos (setEnt e { x with st := .firing } s)
          let ds := if bitOf 0 x.ctl then bitsSet 32 x.mask.toNat else []
          (ds.map fun d => { d := d, who := [.entry e], src := x.src, f := pos, grace := some x.grace }, s)

/-- The evaluation of every entry of a source (R338): requests of one evaluation in DO order (R341). An undecided input is not acted
on (R319). -/
def evalSrc (src : Nat) (s : State) : State :=
  if !srcDecided src s then s else
    let s := reachEnds src s
    let es := (s.ents.filter fun e => e.2.src = src).map (·.1)
    let r := es.foldl (fun (a : List DoReq × State) e => let q := evalEnt e a.2; (a.1 ++ q.1, q.2)) ([], s)
    let s := eachDo request (sortBy (fun a b => decide (a.d ≤ b.d)) r.1) r.2
    let s := dropMissed src s
    let s := eachDo firedEnt es s
    eachDo showGrp (upTo 8) s

/-- A position update of a source: the emulated outputs and the ledger (R318, R328, R338). -/
def posMoved (src : Nat) (dp : Int) (s : State) : State :=
  let s := updSrc src (fun x => { x with moved := x.moved + dp }) s
  evalSrc src (eachDo (fun m s => emuMove m src dp s) (upTo 4) s)

/-- The lowest free entry number. -/
def freeEntNo (s : State) : Nat := ((upTo 4096).find? fun i => (ent i s).isNone).getD 0

/-- A window opens its entry (R331, R332, R339): the settings in force are copied; a full quota opens none. -/
def openEntry (st : Nat) (win : List Word) (jobs : List Nat) (s : State) : Option Nat × State :=
  match streamPart st s with
  | none => (none, s)
  | some p =>
    if cfg 0x10 p 12 2 s ≤ (s.ents.filter fun e => e.2.part = p).length ∨ 4096 ≤ s.ents.length then
      (none, raiseFault 0x4001 st p 0 [p + 1] (inc (ldpBase p + 0x18) 1 (wrB kLDG_EVT 0 true s)))
    else
      let g := fun o => rdForce (ldsBase st + o) s
      let lead := win.getD 3 0
      let trail := win.getD 4 0
      let src := cfg 0x20 st 7 1 s
      let k := trail + wd (cfg 0x20 st 16 4 s)
      let e := freeEntNo s
      let x : LEntry := {
        part := p, stream := st, src := src, obj := win.getD 0 0, lead := lead, trail := trail, jobs := jobs,
        ctl := g 0, leadT := fld 15 0 (g 8), grace := fld 15 0 (g 0xC), lenC := fld 15 0 (g 0x10), lenT := fld 19 0 (g 0x14),
        pmax := fld 13 0 (g 0x18), target := (if bitOf 2 (g 0) then trail else lead) + g 4, commit := k, kRec := k, p0 := encPos src s }
      let x := if jobs.isEmpty then x.flag fNOJOB else x
      let pos := encPos src s
      let s := setEnt e x s
      if !srcDecided src s then (some e, showLedger st p s)
      else if atFire x pos s then
        let r := takeDefault x pos s
        let s := setEnt e ({ r.1 with st := .drain, passed := true }.flag fPASSED) r.2
        let s := inc (ldsBase st + 0x34) 1 (wrB kLDG_EVT 2 true s)
        (some e, drainEnt e (raiseFault 0x4003 st p 0 [p + 1] s))
      else
        let r := evalEnt e s
        (some e, showLedger st p r.2)

/-- The entry of a job's window, if it has one. -/
def entOf (p num : Nat) (s : State) : Option Nat := (s.ents.find? fun e => e.2.part = p ∧ num ∈ e.2.jobs).map (·.1)

/-- A post is discarded as stale (R337). -/
def staleAt (st : Nat) (s : State) : State := inc (ldsBase st + 0x38) 1 (wrB kLDG_EVT 3 true s)

/-- A post reaches the ledger (R335 to R337): whether it was counted after the commit count. `live` is the job's ATTEMPT_GEN while the
job exists. -/
def ledgerPost (p num : Nat) (gen : Word) (live : Option Word) (mask : Word) (score cls : Nat) (s : State) : Option Bool × State :=
  let s := inc kLDG_POSTS 1 s
  match entOf p num s with
  | none => (none, s)
  | some e =>
    match ent e s with
    | none => (none, s)
    | some x =>
      if live ≠ some gen ∨ num ∈ x.ended ∨ x.posts.any (fun q => q.job = num) then (none, staleAt x.stream s)
      else
        let x := { x with posts := x.posts ++ [{ job := num, mask := mask, score := score, cls := cls }], gen := gen }
        let late := (x.kSeen && !x.has fPASSED) || atCommit x (encPos x.src s)
        let x := if x.st = .opened && complete x && !det s then takeDecision x (encPos x.src s) else x
        (some late, showLedger x.stream x.part (setEnt e x s))

/-- A job of a window has ended (R293, R335): without a decision its open entry carries NO_JOB. -/
def ledgerJobEnded (p num : Nat) (s : State) : State :=
  match entOf p num s with
  | none => s
  | some e =>
    let s := updEnt e (fun x =>
      let x := { x with ended := x.ended ++ [num] }
      if x.st = .opened && x.posts.all (fun q => q.job ≠ num) then x.flag fNOJOB else x) s
    drainEnt e s

/-! ### The Nightfall state (R357 to R359) -/

/-- SUP_STAT and its copy as the island stands: a change of NIGHT or FAULT sets INT (R366),
which start-up holds until READY (R358). -/
def showSup (s : State) : State :=
  let f := rd kFIO_STAT s
  let old := rd kSUP_STAT s
  let ch := (bitOf 1 f != bitOf 2 old) || (bitOf 0 f != bitOf 4 old)
  let v := setBit 2 (bitOf 1 f) (setBit 3 (bitOf 2 f) (setBit 4 (bitOf 0 f) old))
  let v := if ch && (isReady s || s.boot.restarting) then setBit 5 true v else v
  wrB kSYS_GSTAT 1 (bitOf 1 f) (wr supPfBase v (wr kSUP_STAT v s))

/-- SUP_INT_N is asserted: INT and INT_EN are both 1 (R366). -/
def supInt (s : State) : Bool := rdB kSUP_STAT 5 s && rdB kSUP_CTL 2 s
/-- CLEAR_READY (R359): heartbeat, no NIGHT_REQ, no firmware update in progress. -/
def showFio (s : State) : State :=
  showSup (wrB kFIO_STAT 3 (rdB kFIO_STAT 2 s && !rdB kSUP_CTL 0 s && !s.fio.fwUpdate) s)

/-- The functions that receive 0x9001 and 0x9002: the PF and every partition that owns a group. -/
def groupFns (s : State) : List Nat := 0 :: ((upTo 16).filter fun p => decide (cfg 0x10 p 6 1 s ≠ 0)).map (· + 1)

/-- Step 1 of R358: pulses end, waiting requests are discarded and their entries record SUPPRESSED. -/
def nightStop (s : State) : State :=
  let waiting := s.reqs.flatMap fun r => r.who.filterMap fun a => match a with | .entry e => some e | _ => none
  let s := eachDo (fun e s => updEnt e (fun x => x.flag fSUPPRESSED) s) waiting { s with reqs := [] }
  let es := s.ents.map (·.1)
  eachDo firedEnt es { s with dos := s.dos.map fun o => (o.1, { o.2 with who := [], ends := [], night := true }) }

/-- Steps 2 and 3 of R358: each output takes its SAFE state; an on output that is off requests a pull-in, in ascending DO number. -/
def nightSafe (s : State) : State :=
  let s := { s with dos := s.dos.filter fun o => safeOf o.1 s ≠ 0 }
  eachDo (fun d s => if safeOf d s = 1 ∧ (doSt d s).isNone then
      request { d := d, who := [.night], src := 0, f := 0, grace := none } s else s) (upTo 32) s

/-- The Nightfall state begins, or a further cause joins it (R357, R358). At start-up every output stays off (R358). -/
def nightfall (cause : Nat) (atStart : Bool) (s : State) : State :=
  let first := rdF kFIO_CAUSE 3 0 s = 0 && !night s
  let s := wrB kFIO_CAUSE cause true s
  if night s then showFio s
  else
    let s := if first then wrF kFIO_CAUSE 11 8 cause s else s
    let s := wrB kFIO_EVT 1 true (wrB kFIO_STAT 1 true s)
    let s := inc kFIO_CNT_NF 1 { s with fio := { s.fio with startNight := atStart } }
    let s := nightStop s
    let s := if atStart then { s with dos := [] } else nightSafe s
    let s := eachDo showGrp (upTo 8) s
    let s := raiseFault 0x9002 0 0xFF 0 (groupFns s) (showFio s)
    eachDo (fun fn s => fireInt fn 6 s) (groupFns s) s

/-- The Nightfall state ends (R359) when its three conditions hold: every output turns off, the causes clear. The answer says whether
the clear was accepted. -/
def nightClear (s : State) : Bool × State :=
  if !night s then (true, s)
  else if !rdB kFIO_STAT 3 s then (false, s)
  else
    let s := wr kFIO_CAUSE 0 (wrB kFIO_EVT 2 true (wrB kFIO_STAT 1 false s))
    let s := { s with dos := [], reqs := [], fio := { s.fio with startNight := false } }
    let s := showFio (eachDo showGrp (upTo 8) s)
    (true, eachDo (fun fn s => fireInt fn 6 s) (groupFns s) s)

end Sys2Proof.Machine
end

