-- ==== Sys2Proof/Machine/Vector.lean ====
section
/-! DEFINITION. The vector unit (R225 to R231): requantisation, raw rows, pooling, conversion and element-wise operations. -/

namespace Sys2Proof.Machine

open Sys2Proof

/-- What a vector operation reports beside its writes: saturated elements, NaN and infinite inputs. -/
structure VFlags where
  sat : Nat := 0
  nan : Nat := 0
  inf : Nat := 0
deriving DecidableEq, Repr

/-- Counts of two parts of an operation. -/
def VFlags.plus (a b : VFlags) : VFlags := ⟨a.sat + b.sat, a.nan + b.nan, a.inf + b.inf⟩

/-! Parameters of a slot (R225). -/
def vpMUL (p : List Byte) (l : Nat) : Int := sx 32 (leAt p (4 * l) 4)
def vpBIAS (p : List Byte) (l : Nat) : Int := sx 64 (leAt p (256 + 8 * l) 8)
def vpSH (p : List Byte) (l : Nat) : Nat := leAt p (768 + l) 1 % 64
def vpZP (p : List Byte) (l : Nat) : Int := sx 16 (leAt p (832 + 2 * l) 2)
def vpCLO (p : List Byte) : Int := sx 16 (leAt p 960 2)
def vpCHI (p : List Byte) : Int := sx 16 (leAt p 962 2)

/-- The integer result of VQ under ACT (R226), and whether it saturated. -/
def vqInt (w act : Nat) (p : List Byte) (l : Nat) (x : Dy) (tbl : Nat → Int) : Int × Bool :=
  let raw := rhe x + vpZP p l
  let r := sat raw (intLo w) (intHi w)
  let sd := decide (r ≠ raw)
  if act = 1 then (max r (vpZP p l), sd)
  else if act = 2 then (min (max r (vpCLO p)) (vpCHI p), sd)
  else if act = 3 then (tbl (r + 128).toNat, sd)
  else (r, sd)

/-- The exact value after ACT for binary16 and KB8 (R226). -/
def vqAct (act : Nat) (p : List Byte) (x : Dy) : Dy :=
  if act = 1 then x.max ⟨0, 0⟩
  else if act = 2 then (x.max (Dy.ofInt (vpCLO p))).min (Dy.ofInt (vpCHI p))
  else x

/-- The bytes of an output row: (piece offset pairs are placed by the descriptor) each element's bytes, the exponent bytes of KB8
blocks, the elements saturated. -/
def vqRow (tgt act : Nat) (ps : Nat → List Byte) (lane : Nat → Int) (lanes f : Nat) (tbl : Nat → Int) : List (List Byte) × List Byte × Nat :=
  let x := fun l => let p := ps (l / 64); requantX (lane l) (vpBIAS p (l % 64)) (vpMUL p (l % 64)) (vpSH p (l % 64)) f
  if tgt = 0 ∨ tgt = 1 then
    let w := if tgt = 0 then 8 else 16
    let rs := (upTo lanes).map fun l => vqInt w act (ps (l / 64)) (l % 64) (x l) tbl
    (rs.map fun r => natLE (w / 8) (BitVec.ofInt w r.1).toNat, [], (rs.filter (·.2)).length)
  else if tgt = 2 then
    let rs := (upTo lanes).map fun l => fmtB16.encode (vqAct act (ps (l / 64)) (x l))
    (rs.map fun r => natLE 2 r.1, [], (rs.filter (·.2)).length)
  else
    let bl := (upTo (lanes / 32)).map fun b => toKb8 ((upTo 32).map fun k => vqAct act (ps ((32 * b + k) / 64)) (x (32 * b + k)))
    (bl.flatMap fun b => b.2.1.map fun m => natLE 1 (BitVec.ofInt 8 m).toNat,
     bl.map fun b => BitVec.ofInt 8 b.1, (bl.map fun b => b.2.2).foldl (· + ·) 0)

/-! The output descriptor (R226). -/
def odDST (d : List Byte) : Nat := leAt d 0 4
def odRS (d : List Byte) : Nat := leAt d 4 4
def odQS (d : List Byte) : Nat := leAt d 8 4
def odG (d : List Byte) : Nat := leAt d 12 1
def odEXP (d : List Byte) : Nat := leAt d 16 4
def odERS (d : List Byte) : Nat := leAt d 20 4
def odEQS (d : List Byte) : Nat := leAt d 24 4

/-- Bytes of an element of a VQ target. -/
def vqE (tgt : Nat) : Nat := if tgt = 1 ∨ tgt = 2 then 2 else 1

/-- Where the elements of output row `i` go: (bank offset, bytes). -/
def vqPlaces (d : List Byte) (e i : Nat) (els : List (List Byte)) : List (Nat × List Byte) :=
  els.zipIdx.map fun p => (odDST d + i * odRS d + p.2 / odG d * odQS d + p.2 % odG d * e, p.1)
/-- Where its block exponents go. -/
def vqExpPlaces (d : List Byte) (i : Nat) (ex : List Byte) : List (Nat × List Byte) :=
  ex.zipIdx.map fun p => (odEXP d + i * odERS d + p.2 * odEQS d, [p.1])

/-- Element formats of VCVT by code (R229): the bytes of an element. -/
def vfBytes (f : Nat) : Nat := if f = 2 ∨ f = 5 then 2 else 1
/-- The bytes `n` elements take: KB8 carries n / 32 exponents behind them. -/
def vfLen (f n : Nat) : Nat := if f = 6 then n + n / 32 else n * vfBytes f

/-- Decoding of element `k` of `n` (R168, R171). -/
def vfDecode (f n k : Nat) (bs : List Byte) : Elem :=
  let b := leAt bs (k * vfBytes f) (vfBytes f)
  if f = 0 then .fin (Dy.ofInt b) else if f = 1 then .fin (Dy.ofInt (sx 8 b)) else if f = 2 then .fin (Dy.ofInt (sx 16 b))
  else if f = 3 then fmtE4M3.decode b else if f = 4 then fmtE5M2.decode b else if f = 5 then fmtB16.decode b
  else .fin ⟨sx 8 b, sx 8 (leAt bs (n + k / 32) 1)⟩

/-- The largest finite value of a format, signed (R171). -/
def vfMax (f : Nat) (neg : Bool) : Dy :=
  let m : Dy := if f = 0 then Dy.ofInt 255 else if f = 1 then Dy.ofInt 127 else if f = 2 then Dy.ofInt 32767
    else if f = 3 then Dy.ofInt 448 else if f = 4 then Dy.ofInt 57344 else if f = 5 then Dy.ofInt 65504 else ⟨127, 10⟩
  if neg then
    (if f = 0 then Dy.ofInt 0 else if f = 1 then Dy.ofInt (-128) else if f = 2 then Dy.ofInt (-32768) else ⟨-m.m, m.e⟩)
  else m

/-- Encoding of a value in a format other than KB8, and whether it saturated. -/
def vfEncode (f : Nat) (x : Dy) : List Byte × Bool :=
  if f ≤ 2 then
    let w := if f = 2 then 16 else 8
    let lo := if f = 0 then 0 else intLo w
    let hi := if f = 0 then 255 else intHi w
    let r := rhe x
    (natLE (w / 8) (BitVec.ofInt w (sat r lo hi)).toNat, decide (sat r lo hi ≠ r))
  else
    let g := if f = 3 then fmtE4M3 else if f = 4 then fmtE5M2 else fmtB16
    let r := g.encode x
    (natLE (g.width / 8) r.1, r.2)

/-- VCVT of `n` elements (R229): the output bytes and what it reports. -/
def vcvt (inF outF n : Nat) (sc off : Int) (bs : List Byte) : List Byte × VFlags :=
  let es := (upTo n).map fun k => vfDecode inF n k bs
  let val := fun (e : Elem) => match e with
    | .fin x => (x.add (Dy.ofInt off)).scale sc
    | .nan => (Dy.ofInt off).scale sc
    | .inf neg => vfMax outF neg
  let fl : VFlags := ⟨0, (es.filter (· = .nan)).length, (es.filter fun e => e = .inf true || e = .inf false).length⟩
  if outF = 6 then
    let bl := (upTo (n / 32)).map fun b => toKb8 ((upTo 32).map fun k => val (es.getD (32 * b + k) (.fin ⟨0, 0⟩)))
    ((bl.flatMap fun b => b.2.1.map fun m => BitVec.ofInt 8 m) ++ bl.map fun b => BitVec.ofInt 8 b.1,
     fl.plus ⟨(bl.map fun b => b.2.2).foldl (· + ·) 0, 0, 0⟩)
  else
    let rs := es.map fun e => vfEncode outF (val e)
    (rs.flatMap (·.1), fl.plus ⟨(rs.filter (·.2)).length, 0, 0⟩)

/-- VEW of `n` elements of `w` bits (R229). -/
def vew (fn w n : Nat) (a b : List Byte) : List Byte × VFlags :=
  let rs := (upTo n).map fun k =>
    let x := sx w (leAt a (k * (w / 8)) (w / 8))
    let y := sx w (leAt b (k * (w / 8)) (w / 8))
    let r := if fn = 0 then x + y else if fn = 1 then max x y else min x y
    (sat r (intLo w) (intHi w), r)
  (rs.flatMap fun r => natLE (w / 8) (BitVec.ofInt w r.1).toNat, ⟨(rs.filter fun r => r.1 ≠ r.2).length, 0, 0⟩)

/-- Bytes of a lane in raw form (R178). -/
def rawLane (mode : Nat) : Nat := if mode = 2 then 16 else 8
/-- Bytes of a raw row (R227). -/
def rawRow (mode : Nat) : Nat := rawLane mode * accLanes mode

/-- A row in raw form: sign-extended (R178). -/
def rawBytes (e : Engine) (mode row : Nat) : List Byte :=
  (upTo (accLanes mode)).flatMap fun l => natLE (rawLane mode) (BitVec.ofInt (8 * rawLane mode) (accInt e mode row l)).toNat

/-- A raw add of a row's bytes, modulo the accumulator's width (R178); the flag says that it wrapped. -/
def rawAdd (mode row : Nat) (bs : List Byte) (e : Engine × Bool) : Engine × Bool :=
  (upTo (accLanes mode)).foldl (fun (e : Engine × Bool) l =>
    let x := sx (accW mode) (leAt bs (l * rawLane mode) (rawLane mode))
    let v := accInt e.1 mode row l + x
    (accPut e.1 mode row l v, e.2 || wraps (accW mode) v)) e

/-- A pooled vector into its row (R228); the flag says that an addition wrapped. -/
def poolRow (sum init : Bool) (row : Nat) (x : List Int) (e : Engine × Bool) : Engine × Bool :=
  let r := (upTo 64).foldl (fun (e : Engine × Bool) l =>
    let v := x.getD l 0
    let o := accInt e.1 0 row l
    let n := if init then v else if sum then o + v else max o v
    (accPut e.1 0 row l n, e.2 || wraps 48 n)) e
  (setTag 0 row r.1, r.2)

/-- The activation-bank bytes an operation reads and writes: (offset, length). -/
def vecReads (op : VecOp) : List (Nat × Nat) :=
  match op with
  | .param _ a => [(a, 1024)]
  | .quant _ act _ _ _ _ _ tbl => if act = 3 then [(tbl, 256)] else []
  | .rawadd m _ n a => [(a, n * rawRow m)]
  | .cvt f _ n _ src _ _ => [(src, vfLen f n)]
  | .ew _ w n _ a b => [(a, n * (if w then 2 else 1)), (b, n * (if w then 2 else 1))]
  | .rawst .. | .pool .. => []

/-- Writes of VQ are scattered: the element and exponent places of every row. -/
def vqWrites (tgt mode n : Nat) (d : List Byte) : List (Nat × Nat) :=
  (upTo n).flatMap fun i =>
    ((upTo (accLanes mode)).map fun l => (odDST d + i * odRS d + l / odG d * odQS d + l % odG d * vqE tgt, vqE tgt)) ++
    (if tgt = 3 then (upTo (accLanes mode / 32)).map fun b => (odEXP d + i * odERS d + b * odEQS d, 1) else [])

/-- What a vector operation writes in its scratchpad. -/
def vecWrites (op : VecOp) : List (Nat × Nat) :=
  match op with
  | .quant tgt _ _ mode _ n d _ => vqWrites tgt mode n d
  | .rawst m _ n a => [(a, n * rawRow m)]
  | .cvt _ f n dst _ _ _ => [(dst, vfLen f n)]
  | .ew _ w n dst _ _ => [(dst, n * (if w then 2 else 1))]
  | _ => []

/-- An address outside the activation bank traps (R208, R239, cause VEC_FIELD). -/
def vecInBank (op : VecOp) : Bool := (vecReads op ++ vecWrites op).all fun r => decide (r.1 < 0x200000) && decide (r.1 + r.2 ≤ 0x200000)

/-- The physical accumulator rows an operation uses. -/
def vecAccRows (op : VecOp) : List Nat :=
  match op with
  | .quant _ _ _ m row n _ _ | .rawst m row n _ | .rawadd m row n _ => (upTo n).flatMap fun i => physRows m (row + i)
  | .pool _ _ row v .. => (upTo v).map (row + ·)
  | _ => []

/-- An earlier tile operation still has to give its verdict on a row the operation uses (R156, R227). -/
def vecWaits (n : Nat) (x : VecItem) (s : State) : Bool :=
  let c := coreOf n s
  coreWiping n s ||
  (c.eng.ops.any fun o => decide (o.item < x.item) &&
    (opRows o).any fun r => decide (r ∈ vecAccRows x.op)) ||
  ((vecWrites x.op).any fun w => (heldRanges (rdF (coreBase n + 0x908) 23 0 s) x.item c).any fun r => overlap r.1 r.2 w.1 w.2) ||
  (match x.op with
   | .pool _ _ _ v p0 _ d ep => decide (ep ≠ c.conv.ep) || !((cvRows d p0 v).all fun iy => cvPresent d (rdF (coreBase n + 0x908) 23 0 s) iy)
   | _ => false)

end Sys2Proof.Machine
end

