-- ==== Sys2Proof/Machine/Units.lean ====
section
/-! DEFINITION. What the completion of an item of a core's unit does (R214), what a void one leaves (R238), and the flush of a core's
internal queues (R237). -/

namespace Sys2Proof.Machine

open Sys2Proof

/-- The core's job met an access fault (R16, R231): flag, event. -/
def accessFlag (n count : Nat) (s : State) : State :=
  if count = 0 then s else
    inc (coreBase n + 0x10C) count (seqEvt n 3 (updCore n (fun c => { c with fAccess := true }) s))

/-- Bytes mixed of old and new, each by a free choice (R238). -/
def mixBytes (fresh : Nat) (old new : List Byte) : List Byte :=
  (old.zip new).zipIdx.map fun p => if Config.freeBit (fresh + p.2) then p.1.2 else p.1.1

/-- A device range left an undefined mix of its bytes and new ones. -/
def mixWrite (a : Nat) (new : List Byte) (s : State) : State :=
  let s := awaitRange a new.length s
  draw new.length (memStore [(a, mixBytes s.fresh (memRead a new.length s) new)] s)

/-! ### DMA -/

/-- A transfer's tag: the core's partition. -/
def coreTag (n : Nat) (s : State) : Nat := (coreOwner n s).getD 0

/-- The head of a DMA queue removed. -/
def dropDma (n q : Nat) (s : State) : State := updCore n (fun c => { c with dma := c.dma.set q ((dmaQ q c).drop 1) }) s

/-- A transfer moves on (R214, R221): with its last row it completes and its token counts; where a row has to wait, the rows before it are
moved. The flag says that a word was uncorrectable. -/
def dmaComplete (n q : Nat) (t : DmaItem) (s : State) : Bool × State :=
  let (f, u, k, s) := dmMove n (coreTag n s) t (dmLeft t) s
  let s := accessFlag n f s
  let s := if k = (dmLeft t).length then itemDone n t.item (tokSignal n t.tok (dropDma n q s))
    else updCore n (fun c => { c with dma := c.dma.set q ({ t with done := t.done + k } :: (dmaQ q c).drop 1) }) s
  (u, showConv n s)

/-- A void transfer (R238): each destination byte it names holds its old value or the new one, of a source line that is refused zeros
(R16). Which of its accesses were made is open: none is counted. -/
def dmaVoid (n : Nat) (t : DmaItem) (s : State) : State :=
  eachDo (fun r s =>
    let p := dmRow n t r.1 r.2
    let new := dmConvert t.desc t.kb8 (devRead mDma n (coreTag n s) p.1 (dmReadLen t.desc) s).1
    eachDo (fun ln s => if reaches mDma n (coreTag n s) ln.1 ln.2 true s then mixWrite ln.1 ((new.drop (ln.1 - p.2)).take ln.2) s else s)
      (linesOf p.2 new.length) s) (dmLeft t) s

/-! ### Engine -/

/-- A weight buffer. -/
def wbuf (n b : Nat) (s : State) : WBuf := Fam.get {} b (coreOf n s).eng.bufs
def updEng (n : Nat) (f : Engine → Engine) (s : State) : State := updCore n (fun c => { c with eng := f c.eng }) s
/-- A weight buffer written. -/
def setBuf (n b : Nat) (w : WBuf) (s : State) : State := updEng n (fun e => { e with bufs := e.bufs.set b w }) s

/-- The bytes of a tile (R145). -/
def tileBytes (mode : Nat) : Nat := if mode = 2 then 4224 else 4096

/-- A load waits for every earlier operation that names its buffer (R146). -/
def loadWaits (n : Nat) (l : LoadItem) (s : State) : Bool := coreWiping n s || (coreOf n s).eng.ops.any fun o => decide (o.wbuf = l.wbuf) && decide (o.item < l.item)
/-- The load at the head of the queue fills its buffer as soon as it waits no more: the buffer holds no complete tile until it ends (R146, R167). -/
def beginLoad (n : Nat) (s : State) : State :=
  match (coreOf n s).eng.loads with
  | l :: _ => if loadWaits n l s then s else showUnits n (setBuf n l.wbuf { wbuf n l.wbuf s with valid := false } s)
  | [] => s

/-- A weight load completes (R145): the flag says that a word was uncorrectable. -/
def loadComplete (n : Nat) (l : LoadItem) (s : State) : Bool × State :=
  let a := weightBank n + l.addr
  let k := tileBytes l.mode
  let ws := poisonedWords a k s
  let bs := memRead a k s
  let s := eachDo reportUnc ws s
  let s := setBuf n l.wbuf { valid := true, mode := l.mode, bytes := bs, loaded := bs } s
  let s := updEng n (fun e => { e with loads := e.loads.drop 1 }) s
  (!ws.isEmpty, beginLoad n (itemDone n l.item (tokSignal n l.tok s)))

/-- A byte reader over the activation bank. -/
def actRead (n : Nat) (s : State) (o k : Nat) : Nat := leNat (memRead (actBank n + o) k s)

/-- The vectors of an operation and their exponents (R147, R152, R193). -/
def opVectors (n : Nat) (o : TileOp) (s : State) : List (List Int) × List (Int × Int) :=
  if o.conv then
    ((upTo o.v).map fun v => cvVector o.desc (actRead n s) (o.pix0 + v) o.r, (upTo o.v).map fun v => cvExps o.desc (actRead n s) (o.pix0 + v) o.r)
  else ((upTo o.v).map fun v => elems 8 (memRead (actBank n + o.aAddr + v * o.aStride) 64 s),
    (upTo o.v).map fun v => (sx 8 (actRead n s (o.eAddr + 2 * v) 1), sx 8 (actRead n s (o.eAddr + 2 * v + 1) 1)))

/-- Uncorrectable words among the bytes an operation reads. -/
def opPoison (n : Nat) (o : TileOp) (s : State) : List Nat :=
  if s.poison.isEmpty then [] else
  let rs : List (Nat × Nat) := if o.conv then (upTo o.v).flatMap fun v => (cvReads o.desc (o.pix0 + v) o.r).map fun a => (a, 1)
    else ((upTo o.v).map fun v => (o.aAddr + v * o.aStride, 64)) ++ (if o.mode = 2 then [(o.eAddr, 2 * o.v)] else [])
  s.poison.filter fun w => rs.any fun r => overlap w 8 (actBank n + r.1) r.2

/-- An operation cannot give its verdict yet: its buffer is loading, its configuration or its rows are not there, or an earlier raw
add on its rows is still to be done (R146, R188, R227). -/
def opWaits (n : Nat) (o : TileOp) (s : State) : Bool :=
  let c := coreOf n s
  coreWiping n s || (c.eng.loads.any fun l => decide (l.wbuf = o.wbuf) && decide (l.item < o.item)) ||
  (c.vecs.any fun x => decide (x.item < o.item) && match x.op with
    | .rawadd .. | .pool .. => (opRows o).any fun r => decide (r ∈ vecAccRows x.op)
    | _ => false) ||
  (o.conv && (decide (o.ep ≠ c.conv.ep) || !((cvRows o.desc o.pix0 o.v).all fun iy => cvPresent o.desc (rdF (coreBase n + 0x908) 23 0 s) iy)))

/-- The entry beats of an attempt and its gated cell-beats counted (R149, R161, R163). -/
def countBeats (n : Nat) (o : TileOp) (xs : List (List Int)) (w : WBuf) (s : State) : State :=
  let b := coreBase n + 0x800
  let s := cntAdd (b + 0x18) (o.v + 3) s
  let s := if o.conv then cntAdd (coreBase n + 0x910) o.v s else s
  if rdB b 0 s then cntAdd (b + 0x20) ((xs ++ sliceVecs xs).foldl (fun a x => a + gatedBeats o.mode w x) 0) s else s

/-- Nanoseconds that an engine has spent on retries within the attempt, the one that streams now among them (R161). -/
def retryNow (e : Engine) (s : State) : Nat :=
  e.retryNs + match e.ops with | o :: _ => if o.retried then (tick s - o.retryTick).toNat * 8 / 5 else 0 | [] => 0

/-- A verdict that passes (R159): the rows are written, the token counts. -/
def opPass (n : Nat) (o : TileOp) (xs : List (List Int)) (ex : List (Int × Int)) (s : State) : State :=
  let w := wbuf n o.wbuf s
  let b := coreBase n + 0x800
  let r := (xs.zipIdx).foldl (fun e p => accVec o.mode w o.accOp (o.accBase + p.2) p.1 (ex.getD p.2 (0, 0)) e) ((coreOf n s).eng, false)
  let e := { r.1 with ops := r.1.ops.drop 1, tags := tagRows o.mode o.accBase o.v r.1.tags,
                      retryNs := if (coreOf n s).job.isSome then retryNow r.1 s else 0 }
  let s := updEng n (fun _ => e) s
  let s := if r.2 then wrB (b + 8) 5 true s else s
  let s := if o.retried then wrB (b + 8) 2 true s else s
  let s := inc (b + 0x10) 1 s
  showConv n (beginLoad n (itemDone n o.item (tokSignal n o.tok s)))

/-! ### Convolution path -/

/-- A configuration waits for the operations before it that take vectors from the path (R186). -/
def cfgWaits (n : Nat) (x : CfgItem) (s : State) : Bool :=
  let c := coreOf n s
  (c.eng.ops.any fun o => o.conv && decide (o.item < x.item)) ||
  (c.vecs.any fun v => decide (v.item < x.item) && match v.op with | .pool .. => true | _ => false)

/-- A configuration comes into force: CV_LB_IN and R0 restart (R188, R221). -/
def cfgComplete (n : Nat) (x : CfgItem) (s : State) : State :=
  let s := updCore n (fun c => { c with conv := { c.conv with cfg := some x.desc, ep := c.conv.ep + 1, pend := c.conv.pend.drop 1, r0 := 0 } }) s
  let s := wr (coreBase n + 0x90C) 0 (wr (coreBase n + 0x908) 0 s)
  showConv n (itemDone n x.item (tokSignal n x.tok s))

/-! ### Vector unit -/

/-- The bytes a reader of the activation bank gets for a range. -/
def actBytes (n : Nat) (s : State) (r : Nat × Nat) : List Byte := memRead (actBank n + r.1) r.2 s

/-- What a vector operation would write: bank bytes, the engine after it, its flags, whether an addition wrapped. -/
def vecRun (n : Nat) (x : VecOp) (s : State) : List (Nat × List Byte) × Engine × VFlags × Bool :=
  let c := coreOf n s
  let e := c.eng
  match x with
  | .param .. => ([], e, {}, false)
  | .quant tgt act ps mode row cnt d tbl =>
    let prm := fun h => Fam.get [] (ps + h) c.params
    let t := fun k => sx 8 (actRead n s (tbl + k) 1)
    let rows := (upTo cnt).map fun i =>
      (i, vqRow tgt act prm (fun l => accInt e mode (row + i) l) (accLanes mode) (if mode = 2 then 48 else 0) t)
    (rows.flatMap fun r => vqPlaces d (vqE tgt) r.1 r.2.1 ++ vqExpPlaces d r.1 r.2.2.1, e,
     ⟨(rows.map fun r => r.2.2.2).foldl (· + ·) 0, 0, 0⟩, false)
  | .rawst mode row cnt a => ((upTo cnt).map fun i => (a + i * rawRow mode, rawBytes e mode (row + i)), e, {}, false)
  | .rawadd mode row cnt a =>
    let r := (upTo cnt).foldl (fun e i => rawAdd mode (row + i) (actBytes n s (a + i * rawRow mode, rawRow mode)) e) (e, false)
    ([], r.1, {}, r.2)
  | .pool sum init row v p0 rv d _ =>
    let r := (upTo v).foldl (fun e i => poolRow sum init (row + i) (cvVector d (actRead n s) (p0 + i) rv) e) (e, false)
    ([], r.1, {}, r.2)
  | .cvt i o cnt dst src sc off => let r := vcvt i o cnt sc off (actBytes n s (src, vfLen i cnt)); ([(dst, r.1)], e, r.2, false)
  | .ew fn wide cnt dst a b =>
    let w := if wide then 16 else 8
    let r := vew fn w cnt (actBytes n s (a, cnt * (w / 8))) (actBytes n s (b, cnt * (w / 8)))
    ([(dst, r.1)], e, r.2, false)

/-- Uncorrectable words among the bytes a vector operation reads. -/
def vecPoison (n : Nat) (x : VecOp) (s : State) : List Nat :=
  if s.poison.isEmpty then [] else
  let rs := vecReads x ++ (match x with
    | .pool _ _ _ v p0 rv d _ => (upTo v).flatMap fun i => (cvReads d (p0 + i) rv).map fun a => (a, 1)
    | _ => [])
  s.poison.filter fun w => rs.any fun r => overlap w 8 (actBank n + r.1) r.2

/-- The flags of an operation: the job's sticky flags, VU_EVT and the counters (R231). -/
def vecFlags (n : Nat) (f : VFlags) (s : State) : State :=
  let b := coreBase n + 0xA00
  let s := updCore n (fun c => { c with fSat := c.fSat || decide (0 < f.sat), fSpecial := c.fSpecial || decide (0 < f.nan + f.inf) }) s
  let s := if 0 < f.nan then wrB (b + 4) 0 true s else s
  let s := if 0 < f.inf then wrB (b + 4) 1 true s else s
  let s := if 0 < f.sat then wrB (b + 4) 2 true s else s
  cntAdd (b + 0x10) f.sat (inc (b + 0xC) f.inf (inc (b + 8) f.nan s))

/-- A vector operation completes: the flag says that a word it read, or wrote in part, was uncorrectable (R260, R261). -/
def vecComplete (n : Nat) (x : VecItem) (s : State) : Bool × State :=
  let ws := vecPoison n x.op s
  let r := vecRun n x.op s
  let s := eachDo reportUnc ws s
  let put := r.1.map fun w => (actBank n + w.1, w.2)
  let part := partWords put s
  let s := memStore put s
  let s := updEng n (fun _ => r.2.1) s
  let s := match x.op with
    | .param ps a => wrB (coreBase n + 0xA00) (ps + 1) true (updCore n (fun c => { c with params := c.params.set ps (actBytes n s (a, 1024)) }) s)
    | _ => s
  let s := match x.op with | .pool _ _ _ v .. => cntAdd (coreBase n + 0x910) v s | _ => s
  let s := if r.2.2.2 then wrB (coreBase n + 0x808) 5 true s else s
  let s := updCore n (fun c => { c with vecs := c.vecs.drop 1 }) (vecFlags n r.2.2.1 s)
  (!ws.isEmpty || !part.isEmpty, showConv n (itemDone n x.item (tokSignal n x.tok s)))

/-- A void vector operation (R238): an undefined mix within the bytes and rows it names. -/
def vecVoid (n : Nat) (x : VecOp) (s : State) : State :=
  let r := vecRun n x s
  let s := eachDo (fun w s => mixWrite (actBank n + w.1) w.2 s) r.1 s
  let f := s.fresh
  let old := (coreOf n s).eng
  let keys := (vecAccRows x).flatMap fun row => (upTo 64).map fun l => (row, l)
  let e := keys.zipIdx.foldl (fun (e : Engine) k => if Config.freeBit (f + k.2) then accSet e k.1.1 k.1.2 (accGet r.2.1 k.1.1 k.1.2) else e) old
  match x with
  | .rawadd .. | .pool .. => draw keys.length (updEng n (fun _ => { e with tags := r.2.1.tags }) s)
  | _ => s

/-! ### Flush (R237) -/

/-- An item made void: counted, with its event (R237). -/
def voidCount (n : Nat) (k : Nat) (s : State) : State := if k = 0 then s else inc (coreBase n + 0x48) k (seqEvt n 4 s)

/-- Every item still in progress becomes void (R237, R238). -/
def voidAll (n : Nat) (s : State) : State :=
  let c := coreOf n s
  let ds := (upTo 4).flatMap fun q => dmaQ q c
  let s := eachDo (fun t s => dmaVoid n t s) ds s
  let s := eachDo (fun l s => setBuf n l.wbuf { wbuf n l.wbuf s with valid := false } s) c.eng.loads s
  let s := eachDo (fun x s => vecVoid n x.op s) c.vecs s
  let k := ds.length + c.eng.loads.length + c.eng.ops.length + c.conv.pend.length + c.vecs.length
  let s := updCore n (fun c => { c with
      dma := [], vecs := [], conv := { c.conv with pend := [], starts := [] }, eng := { c.eng with loads := [], ops := [] },
      fences := [], padvs := [], flushing := false, wait := none, ending := false, yielding := none, yieldReq := false }) s
  let s := wrB (coreBase n + 0x900) 2 false (wrF (coreBase n) 4 2 0 (wrB (coreBase n) 7 false s))
  showConv n (showUnits n (voidCount n k s))

/-- The items not yet started, discarded (R237). In progress are the transfers at the heads of the DMA queues, the load, the configuration and
the vector operation that wait for nothing, and of the tile operations that wait for nothing the first ones: the array takes one after the
other, so how many it has begun is free. -/
def discardWaiting (n : Nat) (s : State) : State :=
  let c := coreOf n s
  let ready := (c.eng.ops.takeWhile fun o => !opWaits n o s).length
  let ops := if ready = 0 then 0 else 1 + (Config.freeInt s.fresh).toNat % ready
  let s := draw 1 (updCore n (fun c => { c with
    dma := (upTo 4).foldl (fun m q => if (dmaQ q c).isEmpty then m else m.set q ((dmaQ q c).take 1)) c.dma,
    vecs := (c.vecs.take 1).filter fun x => !vecWaits n x s,
    conv := { c.conv with pend := (c.conv.pend.take 1).filter fun x => !cfgWaits n x s, starts := [] },
    eng := { c.eng with loads := (c.eng.loads.take 1).filter fun l => !loadWaits n l s, ops := c.eng.ops.take ops },
    fences := [], padvs := [], wait := none, ending := false, yielding := none, yieldReq := false }) s)
  showConv n (showUnits n (wrB (coreBase n + 0x900) 2 false (wrF (coreBase n) 4 2 0 s)))

/-- A flushed core has no item left: the flush is complete (R237). -/
def flushSettle (n : Nat) (s : State) : State :=
  if (coreOf n s).flushing && (itemsOf 0x7F (coreOf n s)).isEmpty then
    wrB (coreBase n) 7 false (updCore n (fun c => { c with flushing := false }) s) else s

/-- A flush begins (R237); with no grace every item is void at once and the post port hands nothing over. -/
def flushCore (n : Nat) (grace : Bool) (s : State) : State :=
  if grace then
    flushSettle n (wrB (coreBase n) 7 true (updCore n (fun c => { c with flushing := true }) (discardWaiting n s)))
  else updCore n (fun c => { c with posts := [] }) (voidAll n s)

end Sys2Proof.Machine
end

