-- ==== Sys2Proof/Machine/Jobs.lean ====
section
/-! DEFINITION. Jobs, their queues and outcomes, placement and the deadline monitor's measures (13_scheduling_and_deadlines.md). -/

namespace Sys2Proof.Machine

open Sys2Proof

/-! ### Accounting (R312) -/

abbrev aENGINE : Nat := 0x10
abbrev aHBMRD : Nat := 0x18
abbrev aHBMWR : Nat := 0x20
abbrev aLANE : Nat := 0x28
abbrev aETH : Nat := 0x30
abbrev aENERGY : Nat := 0x38
abbrev aDONE : Nat := 0x40
abbrev aLATE : Nat := 0x48
abbrev aDUSK : Nat := 0x50
abbrev aFAILED : Nat := 0x58
abbrev aSKIPPED : Nat := 0x60
abbrev aOVERRATE : Nat := 0x68
abbrev aRESTARTED : Nat := 0x70
abbrev aYIELDS : Nat := 0x78
/-- A partition's live counter advanced: the registers hold the copy of the last latch (R314). -/
def acct (p o n : Nat) (s : State) : State := cntAdd (acctBase p + o) n s

/-! ### The job list -/

/-- A job of a partition. -/
def jobIs (p num : Nat) (j : Job) : Bool := decide (j.part = p) && decide (j.num = num)
def findJob (p num : Nat) (s : State) : Option Job := s.jobs.find? (jobIs p num)
def updJob (p num : Nat) (f : Job → Job) (s : State) : State := { s with jobs := mapWhere (jobIs p num) f s.jobs }
def dropJob (p num : Nat) (s : State) : State := { s with jobs := s.jobs.filter fun j => !jobIs p num j }
/-- The tier of a job (R294). -/
def jobTier (j : Job) : Nat := if j.bg then 3 else if j.overRate then 2 else 1
/-- A job waits to be placed. -/
def isQueued (j : Job) : Bool := decide (j.st = .queued) || decide (j.st = .yielded)
/-- The jobs waiting in a tier. -/
def tierJobs (p t : Nat) (s : State) : List Job := s.jobs.filter fun j => decide (j.part = p) && isQueued j && decide (jobTier j = t)
/-- The places of a tier (R294). -/
def tierCap (t : Nat) : Nat := if t = 1 then 1024 else 128

/-- Queue order within a tier (R294): jobs put back at the head, then by deadline, stream and number; tier 3 by number. -/
def jobBefore (now : BitVec 64) (a b : Job) : Bool :=
  if a.front ≠ b.front then a.front
  else if a.bg then decide (a.num ≤ b.num)
  else
    let da := (a.deadline - now).toInt
    let db := (b.deadline - now).toInt
    if da ≠ db then decide (da < db) else if a.stream ≠ b.stream then decide (a.stream < b.stream) else decide (a.num ≤ b.num)

/-- The job at the head of the highest tier that holds one (R294). -/
def headJob (p : Nat) (s : State) : Option Job :=
  let pick := fun t => match tierJobs p t s with
    | [] => none
    | j :: r => some (r.foldl (fun h x => if jobBefore (nowNs s) h x then h else x) j)
  match pick 1 with
  | some j => some j
  | none => match pick 2 with | some j => some j | none => pick 3

/-- SCHED_QDEPTH, SCHED_STAT.RUNNING and STR_STAT.QUEUED as the jobs give them (R315). -/
def showSched (p : Nat) (s : State) : State :=
  let q := fun t => (tierJobs p t s).length
  let s := wr (acctBase p + 0x8C) (wd (q 1 + satN 255 (q 2) * 2 ^ 16 + satN 255 (q 3) * 2 ^ 24)) s
  let run := ((s.jobs.filter fun j => decide (j.part = p) && decide (j.st = .running)).map fun j => j.live.length).foldl (· + ·) 0
  let s := wrF (acctBase p + 0x80) 21 16 run s
  eachDo (fun st s => wrF (strBase st) 26 16 ((s.jobs.filter fun j => decide (j.stream = st) && isQueued j).length) s)
    ((upTo 64).filter fun st => decide (streamPart st s = some p)) s

/-- A SCHED_EVT bit set, with its interrupt (R394, R315). -/
def schedEvt (p bit : Nat) (s : State) : State := fireInt 0 3 (fireInt (p + 1) 3 (wrB (acctBase p + 0x84) bit true s))

/-! ### Cores of jobs -/

/-- The cores that a Morning check asked for by a command is to measure (R425). -/
def underCheck (s : State) : List Nat :=
  match (ring 0 s).busy with
  | some (.morning _ ns) => ns
  | some (.startStream _ ns) => ns
  | some (.coreRelease _ n) => [n]
  | _ => []

/-- A core takes an attempt: none runs, no flush is in progress, it is live, is not being checked (R425) and no memory of it wipes (R265). -/
def coreIdle (n : Nat) (s : State) : Bool :=
  (coreOf n s).job.isNone && !(coreOf n s).flushing && !quarantined n s && rdB kCLK_EN0 n s && !(underCheck s).contains n && !coreWiping n s

/-- The idle live cores of a partition in ascending number. -/
def idleCores (p : Nat) (s : State) : List Nat := (liveCores p s).filter fun n => coreIdle n s

/-- An attempt leaves a core: its engine time is charged, retries excluded (R161, R312), and the core shows idle, with no loop. -/
def freeCore (n : Nat) (s : State) : State :=
  let c := coreOf n s
  if c.job.isNone then s else
    let dt := (nowNs s).toNat - c.sinceNs - retryNow c.eng s
    let s := acct c.part aENGINE dt { s with pwr := { s.pwr with coreNs := s.pwr.coreNs.upd 0 n (· + dt) } }
    let s := updCore n (fun c => { c with job := none, loops := [], eng := { c.eng with retryNs := 0 } }) s
    showPc n (wrF (coreBase n) 1 0 1 s)

/-! ### Models and bindings -/

/-- A model of the table. -/
def model (h : Nat) (s : State) : Option Model := Fam.find h s.models
def bindingOf (st : Nat) (s : State) : Option Binding := Fam.find st s.binds
/-- A stream has a Dusk model (R301). -/
def hasDusk (st : Nat) (s : State) : Bool := match bindingOf st s with | some b => b.dusks.any (·.isSome) | none => false

/-! ### Hand-over of decisions (R235, R134, R303, R337) -/

/-- The commit count of a job's window less the position of its source, signed (R300). -/
def commitLeft (st : Nat) (win : List Word) (s : State) : Int :=
  ((win.getD 4 0 + wd (cfg 0x20 st 16 4 s)) - encPos (cfg 0x20 st 7 1 s) s).toInt

/-- A decision for a replay's window is a record in the slot's result log, discarded where the ring is full (R134). -/
def resultLog (slot epoch : Nat) (j : Job) (mask hi : Word) (s : State) : State :=
  let b := cdsBase slot
  let w := rd (b + 0x18) s
  if 16384 ≤ (w - rd (b + 0x1C) s).toNat then inc (b + 0x20) 1 s else
    let bs := natLE 4 (j.win.getD 0 0).toNat ++ natLE 4 epoch ++ natLE 4 (j.win.getD 3 0).toNat ++ natLE 4 (j.win.getD 4 0).toNat ++
      natLE 2 j.model ++ natLE 2 (fld 23 16 (j.win.getD 6 0)) ++ natLE 4 mask.toNat ++ natLE 4 hi.toNat ++ zeros 4
    inc (b + 0x18) 1 (devWrite mCodec slot j.part (cdsRes slot s + w.toNat % 16384 * 32) bs s).2.2

/-- What a job's decision leaves in the stream record: the slack, its minimum, and a post after the commit count (R303, R315). -/
def countPost (j : Job) (late : Bool) (s : State) : State :=
  let b := strBase j.stream
  let left := commitLeft j.stream j.win s
  let s := wr (b + 4) (wdi left) s
  let s := if left < (rd (b + 8) s).toInt then wr (b + 8) (wdi left) s else s
  if late then inc (b + 0x10) 1 (acct j.part aLATE 1 s) else s

/-- A job that has handed over its post is not stopped by a switch (R305, R306), unless part of it has yielded already. -/
def keepRunning (j : Job) (s : State) : State :=
  if (Fam.get {} j.part s.parts).switching.isSome && !j.front then
    eachDo (fun n s => updCore n (fun c => { c with yieldReq := false }) s) j.live s else s
/-- A decision leaves a core's post port: into the result log for a replay, into the ledger otherwise; stale ones go nowhere (R310). -/
def handOver (n : Nat) (q : PostSt) (s : State) : State :=
  let s := updCore n (fun c => { c with posts := c.posts.filter fun x => decide (x.item ≠ q.item) }) s
  let j := findJob q.part q.job s
  let s := match q.rep with
    | some r => (match j with
      | some j => if j.gen = q.gen then resultLog r.1 r.2 j q.mask q.hi s else s
      | none => s)
    | none =>
      let r := ledgerPost q.part q.job q.gen (j.map (·.gen)) q.mask (fld 15 0 q.hi) (fld 23 16 q.hi) s
      (match j with
      | some j => if j.gen = q.gen then countPost j (r.1.getD (decide (commitLeft j.stream j.win r.2 ≤ 0))) r.2 else r.2
      | none => r.2)
  let s := match j with
    | some j => if j.gen = q.gen then keepRunning j (updJob q.part q.job (fun j => { j with handed := true }) s) else s
    | none => s
  itemDone n q.item s

/-- The decisions that a job's cores still hold are handed over (R293, MEMERR). -/
def handOverAll (j : Job) (s : State) : State :=
  eachDo (fun n s => eachDo (fun q s => if q.part = j.part ∧ q.job = j.num then handOver n q s else s) (coreOf n s).posts s) j.place s

/-- How a job ends (R293). -/
inductive Outcome5 where
  | done | trapped | memerr | skipped
deriving DecidableEq, Repr

/-- Cores that still run an ended or discarded attempt are flushed and freed (R237). -/
def stopCores (ns : List Nat) (s : State) : State := eachDo (fun n s => flushCore n true (freeCore n s)) ns s

/-- A stream's STR_STAT.LATE (R302): it has no Dusk model to move to, and an overrun stands predicted for one of its jobs. -/
def showLate (st : Nat) (s : State) : State :=
  wrB (strBase st) 2 (!(hasDusk st s && !det s) && s.jobs.any fun j => decide (j.stream = st) && j.pred) s
/-- The last job from before a stream's move to DUSK has gone: DUSK_HOLD counts from here on (R301). -/
def lastPreDusk (j : Job) (s : State) : State :=
  if j.preDusk && s.jobs.all fun k => decide (k.stream ≠ j.stream) || !k.preDusk then
    updStrm j.stream (fun x => { x with overrunTick := tick s }) s else s

/-- A job ends (R293): its counters, its slot, its cores; its entry learns of it (R346). -/
def jobEnd (p num : Nat) (o : Outcome5) (s : State) : State :=
  match findJob p num s with
  | none => s
  | some j =>
    let s := stopCores j.live (match o with | .memerr => handOverAll j s | _ => s)
    let s := match o with
      | .done => acct p aDONE 1 s
      | .trapped | .memerr => acct p aFAILED 1 s
      | .skipped => inc (strBase j.stream + 0x1C) 1 (acct p aSKIPPED 1 s)
    let s := if j.dusk && decide (j.attempt ≠ 0) then acct p aDUSK 1 s else s
    let s := showLate j.stream (lastPreDusk j (ledgerJobEnded p num (dropJob p num s)))
    let more := s.jobs.any fun k => decide (k.part = p) && decide (k.stream = j.stream) && decide (k.win = j.win)
    showSched p (if more then s else windowDone j.stream (j.win.getD 0 0) s)

/-- A core has ended its program (R236): the job is done when its last core has. -/
def coreEnded (n : Nat) (s : State) : State :=
  let c := coreOf n s
  match c.job with
  | none => s
  | some num =>
    let p := c.part
    let s := freeCore n (updCore n (fun c => { c with ending := false, wait := none }) s)
    let s := updJob p num (fun j => { j with live := j.live.filter (· != n) }) s
    match findJob p num s with
    | some j => if j.live.isEmpty then jobEnd p num .done s else showSched p s
    | none => s

/-- A core's job ends badly (R239, R260): the whole job ends, its cores flushed. -/
def coreFails (n : Nat) (o : Outcome5) (s : State) : State :=
  let c := coreOf n s
  match c.job with
  | none => flushCore n true s
  | some num => jobEnd c.part num o (flushCore n true (freeCore n s))

/-! ### Deadlines (R294, R296, R300) -/

/-- The lowest live pace of some cores (R424). -/
def paceOf (ns : List Nat) (s : State) : Nat :=
  match ns.map fun n => rdF (coreBase n + 0xB00) 15 0 s with
  | [] => 0x1000
  | h :: t => t.foldl min h

/-- The marker's worst-case time w_m (R287). -/
def markerNs (m : Model) (k : Option Nat) : Nat := match k with | none => 0 | some k => ((m.markers.find? fun p => p.1 = k).map (·.2)).getD 0

/-- The monitor predicts an overrun of a job (R300): E_run or E_queue exceeds t_c − DUSK_MARGIN. -/
def overrun (j : Job) (aNs : Nat) (s : State) : Bool :=
  match bindingOf j.stream s, model j.model s with
  | some b, some m =>
    let now : Int := (nowNs s).toNat
    let v := encSpeed (cfg 0x20 j.stream 7 1 s) s
    if v ≤ 0 then false else
      let e : Int × Nat := match j.st with
        | .running =>
          let p := paceOf j.place s; let c := max 1 m.cNs; let left := m.cNs - markerNs m j.marker
          (((j.tMark.toNat + 1000) * (p * c) + left * 4096 * c + aNs * left * p : Nat), p * c)
        | _ =>
          let p := paceOf (liveCores j.part s) s
          ((((nowNs s).toNat + aNs + 1000) * p + m.cNs * 4096 : Nat), p)
      decide (((now - b.duskMarginUs * 1000) * v + commitLeft j.stream j.win s * 1000000000) * e.2 < e.1 * v)
  | _, _ => false

/-- The Dusk model of a model in a stream's binding. -/
def duskOf (st m : Nat) (s : State) : Option Nat :=
  match bindingOf st s with
  | some b => ((b.models.zip b.dusks).find? fun p => p.1 = some m).bind (·.2)
  | none => none

/-- Queued, not yet started jobs of a stream take their Dusk models (R301). -/
def retargetDusk (st : Nat) (s : State) : State :=
  { s with jobs := s.jobs.map fun j =>
      if j.stream = st ∧ j.st = .queued ∧ ¬ j.bg then
        (match duskOf st j.model s with | some d => { j with model := d, dusk := true } | none => j) else j }

/-- A stream moves to DUSK (R301). -/
def duskIn (st : Nat) (s : State) : State :=
  match streamPart st s with
  | none => s
  | some p =>
    let s := wrF (strBase st) 1 0 1 s
    let s := inc (strBase st + 0xC) 1 (schedEvt p 0 s)
    let s := { s with jobs := s.jobs.map fun j => if j.stream = st then { j with preDusk := true } else j }
    retargetDusk st (updStrm st (fun x => { x with overrunTick := tick s }) s)

/-- An evaluation of a job says whether an overrun is predicted (R300 to R302): a stream with Dusk models moves to DUSK, another one (with
DET, any) is LATE as long as the prediction stands for one of its jobs. -/
def predicts (p num st : Nat) (overRate : Bool) (s : State) : State :=
  let s := updJob p num (fun j => { j with pred := overRate }) s
  if !overRate then showLate st s else
    let s := updStrm st (fun x => { x with overrunTick := tick s }) s
    if hasDusk st s && !det s then (if rdF (strBase st) 1 0 s = 0 then duskIn st s else s)
    else showLate st (if rdB (strBase st) 2 s then s else schedEvt p 3 s)

/-- An evaluation of one job (R300). -/
def monitorJob (p num aNs : Nat) (s : State) : State :=
  match findJob p num s with
  | none => s
  | some j => if j.bg then s else predicts p num j.stream (overrun j aNs s) s

/-- A timeout report: an overrun is predicted at once (R300). -/
def monitorTimeout (n : Nat) (s : State) : State :=
  let c := coreOf n s
  match c.job with
  | none => s
  | some num => match findJob c.part num s with
    | some j => if j.bg then s else predicts c.part num j.stream true s
    | none => s

/-! ### Job start (R207, R295) -/

/-- The launch record of a job (R291). -/
def launchRecord (j : Job) : List Byte :=
  (j.win.flatMap fun w => natLE 4 w.toNat) ++ zeros (64 - 4 * j.win.length) ++ natLE 4 j.num ++ natLE 4 j.gen.toNat ++ natLE 2 j.model ++
  natLE 1 j.place.length ++ natLE 1 j.attempt ++ natLE 4 (b2n j.dusk + 2 * b2n j.overRate + 4 * b2n j.bg) ++
  (j.place.map fun n => BitVec.ofNat 8 n) ++ List.replicate (32 - j.place.length) 0xFF ++ zeros 16

/-- A core takes an attempt with the state of R207; the scrub of its banks pauses (R262). -/
def startCore (p : Nat) (j : Job) (m : Model) (slotAddr : Nat) (idx n : Nat) (s : State) : State :=
  let prog := m.progs.getD (min idx (m.progs.length - 1)) (0, 0)
  let sreg : Fam Word := [(1, wd j.num), (2, j.win.getD 0 0), (3, wd idx), (4, wd j.place.length), (5, wd j.model)]
  let areg : Fam (BitVec 48) := [(0, BitVec.ofNat 48 m.addr), (1, BitVec.ofNat 48 slotAddr)]
  let s := updCore n (fun c => { c with
    part := p, job := some j.num, list := j.place, pc := BitVec.ofNat 48 (m.addr + prog.1), s := sreg, a := areg, loops := [],
    fAccess := false, fSat := false, fSpecial := false, wait := none, ending := false, yielding := none, yieldReq := false,
    sinceNs := (nowNs s).toNat, slotAddr := slotAddr }) s
  let s := eachDo (fun k s => wr (kTOK n k) 0 s) (upTo 16) s
  let s := wr (coreBase n + 0x14) j.gen (wr (coreBase n + 0x10) (wd j.num) s)
  showPc n (wrB (coreBase n + 0x200) 2 false (wrF (coreBase n) 7 0 2 s))

/-- The layout of the 320-byte save area (R234, notes/assumptions/13.md): s0 to s31, a0 to a15 in 6 bytes, the tokens, four loops of
14 bytes, the resume address in 8. -/
def saveBytes (n : Nat) (resume : BitVec 48) (s : State) : List Byte :=
  let c := coreOf n s
  ((upTo 32).flatMap fun r => natLE 4 (Fam.get 0 r c.s).toNat) ++ ((upTo 16).flatMap fun r => natLE 6 (Fam.get 0 r c.a).toNat) ++
  ((upTo 16).flatMap fun k => natLE 2 (tokVal n k s).toNat) ++
  ((upTo 4).flatMap fun i => match c.loops[i]? with
    | some l => natLE 6 l.first.toNat ++ natLE 4 ((l.last.toNat - l.first.toNat) / 8 + 1) ++ natLE 4 l.left
    | none => zeros 14) ++ natLE 8 resume.toNat

/-- The state restored from a save area (R234). -/
def restoreCore (n : Nat) (bs : List Byte) (s : State) : State :=
  let loops := (upTo 4).filterMap fun i =>
    let o := 256 + 14 * i
    if leAt bs (o + 6) 4 = 0 then none else
      some { first := BitVec.ofNat 48 (leAt bs o 6), last := BitVec.ofNat 48 (leAt bs o 6 + (leAt bs (o + 6) 4 - 1) * 8), left := leAt bs (o + 10) 4 }
  let s := updCore n (fun c => { c with
    s := (upTo 31).map fun r => (r + 1, wd (leAt bs (4 * (r + 1)) 4)),
    a := (upTo 16).map fun r => (r, BitVec.ofNat 48 (leAt bs (128 + 6 * r) 6)),
    loops := loops, pc := BitVec.ofNat 48 (leAt bs 312 8) }) s
  showPc n (eachDo (fun k s => wr (kTOK n k) (wd (leAt bs (224 + 2 * k) 2)) s) (upTo 16) s)

/-- A job slot of a partition's area that no job holds (R291): which of them is a free choice. -/
def freeSlot (p : Nat) (s : State) : Option Nat :=
  let used := s.jobs.filterMap fun j => if j.part = p then j.slot else none
  let free := (upTo 1280).filter fun i => !used.contains i
  free[(Config.freeWord s.fresh).toNat % free.length]?

/-- A yielded job's cores take its state from the save area (R234); one that meets an uncorrectable word ends the job (R260). -/
def resumeCores (p a : Nat) : List Nat → State → State
  | [], s => s
  | n :: r, s =>
    let d := devRead mFetch n p a 320 s
    if d.2.2.1 then coreFails n .memerr d.2.2.2 else resumeCores p a r (restoreCore n d.1 d.2.2.2)

/-- A job starts on its cores (R295): launch record, cleared progress counters, the attempt on every core; a yielded one resumes. -/
def startJob (p : Nat) (j : Job) (place : List Nat) (s : State) : State :=
  match model j.model s, (part p s).area with
  | some m, some area =>
    match (match j.slot with | some i => some i | none => freeSlot p s) with
    | none => s
    | some slot =>
      let a := area + slot * 512
      let resumed := decide (j.st = .yielded)
      let j' := { j with
        place := place, live := place, slot := some slot, st := .running, front := false, attempt := if j.attempt = 0 then 1 else j.attempt,
        gen := if j.attempt = 0 then rd (kPART_GEN p) s else j.gen, tMark := nowNs s, marker := if resumed then j.marker else none }
      let s := updJob p j.num (fun _ => j') (if j.slot.isSome then s else draw 1 s)
      let s := (devWrite mSched p p a (launchRecord j') s).2.2
      let s := eachDo (fun n s => eachDo (fun k s => wr (coreBase n + 0x940 + 4 * k) 0 s) (upTo 8) s) place s
      let s := eachDo (fun (x : Nat × Nat) s => startCore p j' m a x.2 x.1 s) place.zipIdx s
      showSched p (if resumed then resumeCores p (a + 128) place s else s)
  | _, _ => s

/-- Every core that runs a BACKGROUND job of the partition is asked to yield (R295, R305). -/
def askYield (f : Job → Bool) (p : Nat) (s : State) : State :=
  eachDo (fun (j : Job) s => if decide (j.part = p) && decide (j.st = .running) && f j then
      eachDo (fun n s => updCore n (fun c => { c with yieldReq := true }) s) j.live s else s) s.jobs s

end Sys2Proof.Machine
end

