-- ==== Sys2Proof/Machine/Admit.lean ====
section
/-! DEFINITION. Admission (13_scheduling_and_deadlines.md, R289, R296 to R298; 19_determinism_and_multi_module.md, R436), in exact
fractions. Times are in ns. -/

namespace Sys2Proof.Machine

open Sys2Proof

/-! ### Fractions -/

/-- The exact value `n / d`. -/
structure Fr where
  n : Int
  d : Nat
deriving DecidableEq, Repr

/-- A fraction in lowest terms. -/
def frMk (n : Int) (d : Nat) : Fr := let g := max 1 (Nat.gcd n.natAbs d); ⟨n / g, d / g⟩
def frInt (n : Int) : Fr := ⟨n, 1⟩
def frAdd (x y : Fr) : Fr := if x.d = y.d then ⟨x.n + y.n, x.d⟩ else frMk (x.n * y.d + y.n * x.d) (x.d * y.d)
def frSub (x y : Fr) : Fr := frAdd x ⟨-y.n, y.d⟩
def frMul (x y : Fr) : Fr := frMk (x.n * y.n) (x.d * y.d)
def frLe (x y : Fr) : Bool := decide (x.n * y.d ≤ y.n * x.d)
def frMax (x y : Fr) : Fr := if frLe x y then y else x
def frSum (l : List Fr) : Fr := l.foldl frAdd (frInt 0)
/-- The least integer not below a fraction. -/
def frCeil (x : Fr) : Int := -((-x.n) / (x.d : Int))
/-- A fraction rounded half-even (R298 in 0.1 µs; the rounding is the model's). -/
def frRound (x : Fr) : Int :=
  let q := x.n / (x.d : Int)
  let r := x.n - q * x.d
  if 2 * r < x.d then q else if (x.d : Int) < 2 * r then q + 1 else if q % 2 = 0 then q else q + 1

/-! ### Sets of models (R289) -/

/-- The streams of a set with their bindings: started ones, and replaying ones. -/
structure AdmSet where
  live : List (Nat × Binding)
  rep : List (Nat × Binding)
deriving DecidableEq, Repr

/-- A binding's models and its Dusk models. -/
def bindModels (b : Binding) : List Nat := b.models.filterMap id
/-- A binding's Dusk models. -/
def bindDusks (b : Binding) : List Nat := b.dusks.filterMap id
/-- The handles of a set: bound models of started streams with their Dusk models, and bound models of replaying ones. -/
def setHandles (a : AdmSet) : List Nat :=
  ((a.live.flatMap fun x => bindModels x.2 ++ bindDusks x.2) ++ a.rep.flatMap fun x => bindModels x.2).eraseDups
/-- The streams of a partition, each with its binding, as they stand. -/
def setNow (p : Nat) (s : State) : AdmSet :=
  let own := (upTo 64).filter fun st => decide (streamPart st s = some p)
  let pick := fun (f : Strm → Bool) => own.filterMap fun st => if f (strm st s) then (bindingOf st s).map fun b => (st, b) else none
  { live := pick fun x => x.started, rep := pick fun x => x.replay.isSome }
/-- The active set of a partition (R289). -/
def activeSet (p : Nat) (s : State) : List Nat := setHandles (setNow p s)

/-! ### Terms (R296) -/

/-- SCHED_PACE shown. -/
def showPace (p : Nat) (s : State) : State := wr (acctBase p + 0x88) (wd (paceChecked (liveCores p s) s)) s

/-- C′ of a model at a pace: C / p_a + A + E (R296). -/
def cPrime (m : Model) (pace : Nat) (s : State) : Fr :=
  let p := max 1 pace
  let a := arbBound (arbSetNow s) m.part m.bursts
  frMk ((8 * m.cNs + 5 * (m.vMax + 140)) * 4096 + a * 8 * p) (8 * p)
/-- D of a stream at a SPEED_MAX. -/
def deadlineFr (st speed : Nat) (s : State) : Fr :=
  let get := fesNow st
  let (n, d) := countsPerSlot (fld 2 0 (get (fes st + 0x10) s)) s
  let counts : Int := (cfg 0x20 st 16 4 s : Int) * d - (lagSlots get st s : Int) * n
  let v := max 1 speed
  frMk (counts * 1000000000 - ((fld 31 16 (get (fes st + 0x14) s) * 100 + 8000) * v * d : Nat)) (v * d)
/-- The frame wait F of R436. -/
def frameWait (st speed : Nat) (s : State) : Fr :=
  let (n, d) := countsPerSlot (fld 2 0 (fesNow st (fes st + 0x10) s)) s
  frMk ((frameLines st s * n * 1000000000 : Nat)) (max 1 speed * d)
/-- MAX_RATE of a stream (R53). -/
def maxRate (st : Nat) (s : State) : Nat := cfg 0x20 st 12 4 s

/-- A job type: a DEADLINE model on a started stream. -/
structure JobType where
  st : Nat
  handle : Nat
  m : Model
  speed : Nat
deriving DecidableEq, Repr

/-- The job types of a set; the Dusk models of the streams `dusk` stand for their models. -/
def jobTypes (dusk : Nat → Bool) (a : AdmSet) (s : State) : List JobType :=
  a.live.flatMap fun x => (x.2.models.zip (x.2.dusks ++ List.replicate 4 none)).filterMap fun (y : Option Nat × Option Nat) =>
    match y.1 with
    | none => none
    | some h =>
      let h := if dusk x.1 then y.2.getD h else h
      (model h s).bind fun m => if m.bg then none else some { st := x.1, handle := h, m := m, speed := x.2.speedMax }

/-- The models that run where the streams `dusk` are on their Dusk models (R297): those in place of their models, the other streams' models
with their Dusk models, and the replaying streams' models. -/
def runHandles (dusk : Nat → Bool) (a : AdmSet) : List Nat :=
  (a.live.flatMap fun x =>
    if dusk x.1 then (x.2.models.zip (x.2.dusks ++ List.replicate 4 none)).filterMap fun (y : Option Nat × Option Nat) => y.1.map fun h => y.2.getD h
    else bindModels x.2 ++ bindDusks x.2) ++ a.rep.flatMap fun x => bindModels x.2
/-- B of R296 over a set. -/
def blocking (hs : List Nat) (pace : Nat) (s : State) : Fr :=
  (hs.filterMap fun h => (model h s).map fun m => if m.bg then frMk (m.yNs * 4096) (max 1 pace) else cPrime m pace s).foldl frMax (frInt 0)

/-! ### Refusals (R298) -/

/-- A refused admission: REASON, model, stream (0xFF for none), R and D in 0.1 µs. -/
structure Refuse where
  reason : Nat
  model : Nat
  stream : Nat := 0xFF
  r : Int := 0
  d : Int := 0
deriving DecidableEq, Repr

/-- The result field of a refusal. -/
def refuseBytes (r : Refuse) : List Byte :=
  natLE 1 r.reason ++ [0] ++ natLE 2 r.model ++ natLE 1 r.stream ++ zeros 3 ++ natLE 4 (wdi r.r).toNat ++ natLE 4 (wdi r.d).toNat

/-- The first answer of a list. -/
def firstOf {α : Type} (l : List (Option α)) : Option α := l.findSome? id
/-- The first model of which a test fails. -/
def refuseIf (reason : Nat) (hs : List Nat) (bad : Nat → Model → Bool) (s : State) : Option Refuse :=
  (hs.find? fun h => match model h s with | some m => bad h m | none => false).map fun h => { reason := reason, model := h }

/-- The whole of a range lies in one region of a partition with the rights of some bits of RGN_ATTR. -/
def inOneRegion (p a len : Nat) (rights : List Nat) (s : State) : Bool :=
  (upTo 16).any fun r => rights.all fun b => regionHolds p r a b s && regionHolds p r (a + len - 1) b s
/-- Reason 0x04: the package lies in a region with read and fetch rights (R288). -/
def packagePlaced (p a len : Nat) (s : State) : Bool := decide (a % 4096 = 0) && inOneRegion p a len [rgtRead, rgtFetch] s
/-- Reason 0x01: models beyond the partition's slots or 64 in all, with `extra` more of it. -/
def slotsFull (p extra : Nat) (s : State) : Bool :=
  decide (cfg 0x10 p 11 1 s < ((s.models.filter fun x => decide (x.2.part = p)).length + extra)) || decide (64 < s.models.length + extra)
/-- A replay slot names the stream as TARGET (R122). -/
def isTarget (st : Nat) (s : State) : Bool := (upTo 16).any fun n => (cdsOwner n s).isSome && decide (cdsTarget n s = some st)
/-- Two weight ranges overlap. -/
def rangesMeet (a b : Model) : Bool := decide (0 < a.f) && decide (0 < b.f) && decide (a.fOff < b.fOff + b.f) && decide (b.fOff < a.fOff + a.f)

/-- The fit test (R297): reasons 0x01 to 0x06, 0x0A and 0x0B. -/
def fitTest (p : Nat) (ns : List Nat) (a : AdmSet) (s : State) : Option Refuse :=
  let hs := setHandles a
  firstOf [
    if slotsFull p 0 s then (hs.head?).map fun h => { reason := 0x01, model := h } else none,
    refuseIf 0x02 hs (fun h m => decide (0x200000 < m.fOff + m.f) || hs.any fun g => decide (g ≠ h) && match model g s with
      | some x => rangesMeet m x | none => false) s,
    refuseIf 0x03 hs (fun _ m => decide (2097152 < m.act)) s,
    refuseIf 0x04 hs (fun _ m => !packagePlaced p m.addr m.len s) s,
    refuseIf 0x05 hs (fun _ m => decide (ns.length < m.cores) ||
      (det s && m.groups.any fun g => g.any fun n => decide (coreOwner n s ≠ some p))) s,
    refuseIf 0x06 hs (fun _ m => decide (tagShare p s = 0) && m.bursts.any fun r => decide (2 ≤ r.path) && decide (0 < r.count)) s,
    refuseIf 0x0A hs (fun _ m => decide (m.batch ≠ 1)) s,
    (a.live ++ a.rep).findSome? fun x => if isTarget x.1 s then none else
      (refuseIf 0x0B (bindModels x.2) (fun _ m => m.bg) s).map fun r => { r with stream := x.1 }]

/-- The load and response tests of R297 on job types. -/
def rateTest (ns : List Nat) (pace : Nat) (b : Fr) (ts : List JobType) (s : State) : Option Refuse :=
  let n := ns.length
  let work := ts.map fun t => (t, frMul (frInt t.m.cores) (cPrime t.m pace s), maxRate t.st s)
  let load := frSum (work.map fun (w : JobType × Fr × Nat) => frMul w.2.1 (frInt w.2.2))
  if !frLe (frMul load (frInt 20)) (frInt (19 * n * 1000000000 : Nat)) then
    some { reason := 0x07, model := (ts.head?.map (·.handle)).getD 0xFFFF }
  else
    ts.findSome? fun t =>
      let d := deadlineFr t.st t.speed s
      let c := cPrime t.m pace s
      let w := frSum (work.map fun (x : JobType × Fr × Nat) => frMul x.2.1 (frAdd (frInt 1) (frMul (frMk x.2.2 1000000000) d)))
      let r := frAdd (frAdd b (frMul (frSub w (frMul (frInt t.m.cores) c)) (frMk 1 (max 1 (n + 1 - t.m.cores))))) c
      if decide (d.n ≤ 0) || !frLe r d then
        some { reason := 0x08, model := t.handle, stream := t.st, r := frRound (frMul r (frMk 1 100)), d := frRound (frMul d (frMk 1 100)) }
      else none

/-- The pace at a rail voltage from a Morning check line (R426): through the two reference points that bracket it, or the nearest two;
in 2^−16. -/
def linePace (l : List Int) (mv : Nat) : Int :=
  let (i, v0) := if mv < 750 then (0, 700) else (1, 750)
  let x0 := l.getD i 0; let x1 := l.getD (i + 1) 0
  x0 + (x1 - x0) * ((mv : Int) - v0) / 50
/-- A pace as unsigned Q4.12, rounded down. -/
def q412 (x : Int) : Nat := satN 0xFFFF (x / 16).toNat
/-- A field of the POWER section (R419). -/
def pwrCfg (o k : Nat) (s : State) : Nat := cfg 0x02 0 o k s
/-- p_s of a group (R436). -/
def groupPace (g : List Nat) (s : State) : Nat :=
  match g.map fun n => q412 (linePace (Fam.get {} n s.flash.ageing).line (pwrCfg 0 2 s + s.flash.deltaV)) with
  | [] => 0
  | h :: t => t.foldl min h

/-- The per-core load and the response test of R436. -/
def detTest (ns : List Nat) (ts : List JobType) (s : State) : Option Refuse :=
  let gs := ts.flatMap fun t => t.m.groups.map fun g => (t, g, cPrime t.m (groupPace g s) s)
  let bad := ns.find? fun n =>
    let load := frSum ((gs.filter fun (x : JobType × List Nat × Fr) => x.2.1.contains n).map fun (x : JobType × List Nat × Fr) =>
      frMul x.2.2 (frMk (maxRate x.1.st s) (max 1 x.1.m.groups.length)))
    !frLe (frMul load (frInt 20)) (frInt 19000000000)
  match bad with
  | some n => some { reason := 0x07, model := ((gs.find? fun (x : JobType × List Nat × Fr) => x.2.1.contains n).map (·.1.handle)).getD 0xFFFF }
  | none => gs.findSome? fun (x : JobType × List Nat × Fr) =>
      let d := deadlineFr x.1.st x.1.speed s
      let others := gs.filter fun (y : JobType × List Nat × Fr) => y.2.1.any fun n => x.2.1.contains n
      let sum := frSum (others.map fun (y : JobType × List Nat × Fr) =>
        frMul y.2.2 (frInt (frCeil (frMul (frMk (maxRate y.1.st s) (max 1 y.1.m.groups.length * 1000000000)) d))))
      let r := frAdd (frAdd (frameWait x.1.st x.1.speed s) x.2.2) sum
      if decide (d.n ≤ 0) || !frLe r d then
        some { reason := 0x08, model := x.1.handle, stream := x.1.st, r := frRound (frMul r (frMk 1 100)), d := frRound (frMul d (frMk 1 100)) }
      else none

/-- Both tests, with DET those of R436; the load test is kept (R436). -/
def bothTests (ns : List Nat) (pace : Nat) (b : Fr) (ts : List JobType) (s : State) : Option Refuse :=
  if !det s then rateTest ns pace b ts s
  else match rateTest ns pace b ts s with
    | some r => if r.reason = 0x07 then some r else detTest ns ts s
    | none => detTest ns ts s

/-- The Dusk test (R297). -/
def duskTest (ns : List Nat) (pace : Nat) (held : Nat → Bool) (a : AdmSet) (s : State) : Option Refuse :=
  let pairs := (a.live.filter fun x => !held x.1).flatMap fun x => (x.2.models.zip x.2.dusks).filterMap fun (y : Option Nat × Option Nat) => match y.1, y.2 with
    | some m, some d => some (x.1, m, d)
    | _, _ => none
  if pairs.isEmpty then none else
  match pairs.find? fun (x : Nat × Nat × Nat) => match model x.2.1 s, model x.2.2 s with
      | some m, some d => !frLe (frMul (frInt 2) (cPrime d pace s)) (cPrime m pace s)
      | _, _ => false with
  | some x => some { reason := 0x09, model := x.2.2, stream := x.1 }
  | none => (bothTests ns pace (blocking (runHandles (fun _ => true) a) pace s) (jobTypes (fun _ => true) a s) s).map fun r => { r with reason := 0x09 }

/-- Admission of a partition's set (R297): what refuses it, if anything. The Dusk models of the streams `held` stand
for their models (R308). -/
def admission (p : Nat) (held : Nat → Bool) (a : AdmSet) (s : State) : Option Refuse :=
  let ns := liveCores p s
  let pace := paceChecked ns s
  let b := blocking (runHandles held a) pace s
  firstOf [fitTest p ns a s, bothTests ns pace b (jobTypes held a s) s, duskTest ns pace held a s]

end Sys2Proof.Machine
end

