-- ==== Sys2Proof/Machine/MemEcc.lean ====
section
/-! DEFINITION. Errors in stored words and their scrubbing (11_memory.md, R258 to R262; R119 for the front ends' tables). -/

namespace Sys2Proof.Machine

open Sys2Proof

/-- A memory of R258 with counters of its own: the banks of a core, a cluster memory, a stack, the mailbox. -/
def memoryOf (a : Nat) : Nat :=
  if inScratch a then 2 * scratchCore a + (if (a - 0x1100000000) % 0x400000 < 0x200000 then 0 else 1)
  else if inCluster a then 64 + (a - 0x1000000000) / 0x2000000
  else if inHbm a then 68 else 70

/-- Ticks in an hour. -/
abbrev hourTicks : Nat := 2250000000000

/-- The newest 1,001 corrections of a memory all lie within one hour. -/
def overHour (ts : List (BitVec 64)) : Bool :=
  match ts.head?, ts[1000]? with
  | some a, some b => decide ((a - b).toNat < hourTicks)
  | _, _ => false
/-- A correction counts for its memory (R259): ECC_RATE is raised when its corrections within one hour come to exceed 1,000
(notes/assumptions/37.md). -/
def countHour (m unit : Nat) (s : State) : State :=
  let old := Fam.get [] m s.eccHour
  let new := (tick s :: old).take 1001
  let s := { s with eccHour := s.eccHour.set m new }
  if overHour new && !overHour old then raiseFault 0x8005 unit 0xFF 0 [0] s else s

/-- A corrected word of device memory (R259): the memory's event and counter; the mailbox has no register for either. -/
def eccCorrected (a : Nat) (s : State) : State :=
  if inScratch a then
    let n := scratchCore a
    let b := coreBase n + 0x200
    let act := decide (0x200000 ≤ (a - 0x1100000000) % 0x400000)
    countHour (memoryOf a) n (inc (b + (if act then 0xC else 8)) 1 (wrB (b + 4) (b2n act) true s))
  else if inCluster a then
    let k := (a - 0x1000000000) / 0x2000000
    countHour (memoryOf a) k (inc (cluBase k + 8) 1 (wrB (cluBase k + 4) 0 true s))
  else if inHbm a then
    let h := (hbmPlace a s).1
    countHour (68 + h) h (inc (hbmBase h + 8) 1 (wrB (hbmBase h + 4) 0 true s))
  else if inMailbox a then countHour 70 0 s
  else s

/-- A correction that the stack reports (R268). -/
def eccStack (a : Nat) (s : State) : State :=
  if inHbm a then
    let h := (hbmPlace a s).1
    inc (hbmBase h + 0xC) 1 (wrB (hbmBase h + 4) 1 true s)
  else s

/-- A word that turns out uncorrectable is poisoned, and its memory records it (R260, R261). -/
def poisonWord (a : Nat) (s : State) : State := reportUnc a (spoil a s)

/-- Whether a scrub reaches the word (R262): a powered memory holds it, no wipe runs there, and the core of a scratchpad is idle. -/
def scrubs (a : Nat) (s : State) : Bool :=
  if inHbm a then let h := (hbmPlace a s).1; domOn (26 + h) s && domOn (28 + h) s
  else if inMailbox a then true
  else match sramDom a with
    | some d => domOn d s && !s.pwr.wiping.contains d && (!inScratch a || (coreOf (scratchCore a) s).job.isNone)
    | none => false

/-- A scrub pass runs until it has read its memory's last word (R266, R268): the order in which a pass reads the words is the world's
(notes/assumptions/38.md). -/
def showScrub (a : Nat) (s : State) : State :=
  if inHbm a then
    let p := hbmPlace a s
    wr (hbmBase p.1 + 0x1C) (wd (p.2 / 4096 % 2 ^ 22)) (wrB (hbmBase p.1) 1 (decide (p.2 + 8 < 0x400000000)) s)
  else if inScratch a then wrB (coreBase (scratchCore a) + 0x200) 2 (decide ((a - 0x1100000000) % 0x400000 + 8 < 0x400000)) s
  else s

/-- A scrub reads one word of device memory. -/
def scrubMem (a : Nat) (e : EccEvent) (s : State) : State :=
  if !scrubs a s then s else
    let s := showScrub a s
    match e with
    | .clean => s
    | .corrected => eccCorrected a s
    | .stackCorrected => eccStack a s
    | .uncorrectable => poisonWord a s

/-- A scrub or a reader finds a word of a stream's active table (R119): a correction counts, an uncorrectable word raises FE_TABLE_ECC and
marks the next line that reads the table bad. -/
def scrubTable (st : Nat) (e : EccEvent) (s : State) : State :=
  match e with
  | .clean | .stackCorrected => s
  | .corrected => inc (feBase (st / 4) + 8) 1 s
  | .uncorrectable =>
    let s := feEvt st 6 (updFe st (fun f => { f with eccLine := true }) s)
    match streamPart st s with
    | some p => raiseFault 0x6001 st p 0 [p + 1] s
    | none => s

/-- A stream's front-end tables are powered and do not wipe. -/
def tableUp (st : Nat) (s : State) : Bool := domOn (130 + st / 16) s && !s.pwr.wiping.contains (130 + st / 16)
/-- What a scrub of a word does. -/
def scrubBody (w : EccPlace) (e : EccEvent) (s : State) : State :=
  match w with
  | .mem a => scrubMem a e s
  | .table st => if tableUp st.val s then scrubTable st.val e s else s

/-- SCRUB_PASS (R262). -/
def execScrubPass (w : EccPlace) (e : EccEvent) (s : State) : Host.Outcome State Fault Refusal := .next (scrubBody w e s)

end Sys2Proof.Machine
end

