-- ==== Sys2Proof/Machine/Seq.lean ====
section
/-! DEFINITION. The core sequencer (10_dispatch_programs.md): fetch, traps, the issue of every dispatch word, waits, fences, progress,
yield, posting, END and the completions of the units' items. -/

namespace Sys2Proof.Machine

open Sys2Proof

/-! ### Traps (R239) -/

/-- A trap ends the job (R239): cause, word and address recorded, queues flushed, the fault raised to the owner. -/
def trapCore (n cause arg w : Nat) (s : State) : State :=
  let b := coreBase n
  let pc := (coreOf n s).pc.toNat
  let p := (coreOf n s).part
  let s := wr (b + 0x18) (wd (cause * 65536 + arg)) s
  let s := wr (b + 0x20) (wd (pc / 2 ^ 32)) (wr (b + 0x1C) (wd pc) s)
  let s := wr (b + 0x28) (wd (w / 2 ^ 32)) (wr (b + 0x24) (wd w) s)
  let s := inc (b + 0x3C) 1 (seqEvt n 0 s)
  let s := coreFails n .trapped s
  raiseFault 0x7010 n p (wd (cause * 65536 + arg)) [fnOf p] (wrB b 5 true s)

/-- An uncorrectable word ends the job (R260): no trap is recorded. -/
def memErrCore (n : Nat) (s : State) : State := coreFails n .memerr s

/-- The job's partition, of whose regions a fetch needs one with the right (R206). -/
def fetchOk (n : Nat) (s : State) : Bool :=
  let pc := (coreOf n s).pc.toNat
  (inHbm pc || inCluster pc) && permits (coreOf n s).part pc 8 rgtFetch s

/-- A word at the head of issue (R206): nothing happens on a core that does not issue; a fetch outside every fetch-right region traps, a
poisoned word ends the job, otherwise the word runs. -/
def issue (n : Nat) (body : State → State) (s : State) : State :=
  if !issuing n s then s
  else if !fetchOk n s then
    trapCore n 0x02 0 0 (refuseAccess mFetch n (coreOf n s).part (coreOf n s).pc.toNat false s)
  else if poisonedIn (coreOf n s).pc.toNat 8 s then memErrCore n (reportUnc (coreOf n s).pc.toNat s)
  else body s

/-! ### Control words (R211) -/

/-- An arithmetic word: rd = rs op b. -/
def aluBody (f : Word → Word → Word) (n : Nat) (rd rs rt : SReg) (useImm : Bool) (imm : Word) (s : State) : State :=
  advance n (setS n rd (f (sreg n rs s) (opB n rt useImm imm s)) s)

/-- The word of an arithmetic operation. -/
def aluWord (op : Nat) (rd rs rt : SReg) (useImm : Bool) (imm : Word) : Nat :=
  dword 1 op [(49, rd.val), (44, rs.val), (39, rt.val), (38, b2n useImm), (0, imm.toNat)]

/-- SHL, SHR, SRA and SLT (R211); a shift takes the low five bits. -/
def opShl (a b : Word) : Word := a <<< (b.toNat % 32)
def opShr (a b : Word) : Word := a >>> (b.toNat % 32)
def opSra (a b : Word) : Word := a.sshiftRight (b.toNat % 32)
def opSlt (a b : Word) : Word := if a.toInt < b.toInt then 1 else 0

/-- The narrow view's offset: ab plus a signed displacement, modulo 2^48. -/
def narrowAddr (n : Nat) (ab : AReg) (imm : BitVec 16) (s : State) : Nat := (areg n ab s + imm.signExtend 48).toNat

/-- A narrow access is in range and aligned (R208, R209). -/
def narrowOk (a : Nat) : Bool := decide (a < 0x400000) && decide (a % 4 = 0)

/-- LD (R211). -/
def ldBody (n : Nat) (rd : SReg) (ab : AReg) (imm : BitVec 16) (w : Nat) (s : State) : State :=
  let a := narrowAddr n ab imm s
  if !narrowOk a then trapCore n 0x03 0 w s
  else if poisonedIn (weightBank n + a) 4 s then memErrCore n (eachDo reportUnc (poisonedWords (weightBank n + a) 4 s) s)
  else advance n (setS n rd (wd (leNat (memRead (weightBank n + a) 4 s))) s)

/-- ST (R211). -/
def stBody (n : Nat) (rs : SReg) (ab : AReg) (imm : BitVec 16) (w : Nat) (s : State) : State :=
  let a := narrowAddr n ab imm s
  if !narrowOk a then trapCore n 0x03 0 w s
  else if writeHeld n (weightBank n + a) 4 s then stall n s
  else if poisonedIn (weightBank n + a) 4 s then memErrCore n (eachDo reportUnc (poisonedWords (weightBank n + a) 4 s) s)
  else advance n (memWrite (weightBank n + a) (natLE 4 (sreg n rs s).toNat) s)

/-- COND of R212. -/
def condHolds (c : Cond) (a b : Word) : Bool :=
  match c with
  | .eq => a == b
  | .ne => a != b
  | .lt => decide (a.toInt < b.toInt)
  | .ge => decide (b.toInt ≤ a.toInt)
  | .ltu => decide (a.toNat < b.toNat)
  | .geu => decide (b.toNat ≤ a.toNat)
  | .always => true

/-- BR (R211, R212). -/
def brBody (n : Nat) (rs rt : SReg) (c : Cond) (useImm : Bool) (imm off : BitVec 16) (s : State) : State :=
  let b := if useImm then imm.signExtend 32 else sreg n rt s
  if condHolds c (sreg n rs s) b then branchTo n (pcOff n off s) (countWord n s) else advance n s

/-- LOOP (R213): n passes of the body, or none; a fifth active loop traps. The offset is signed (R206) and at least 1: any other names no body,
and the word is no LOOP (notes/assumptions/14.md). -/
def loopBody (n : Nat) (rs : SReg) (off : BitVec 16) (w : Nat) (s : State) : State :=
  let c := coreOf n s
  let last := c.pc + BitVec.ofNat 48 (8 * off.toNat)
  let k := (sreg n rs s).toNat
  if off.toInt < 1 then trapCore n 0x01 0 w s
  else if k = 0 then
    let p := nextPc last c.loops
    setPc n p.1 p.2 (countWord n s)
  else if c.loops.length = 4 then trapCore n 0x04 0 w s
  else setPc n (c.pc + 8) ({ first := c.pc + 8, last := last, left := k } :: c.loops) (countWord n s)

/-! ### Waits (R215, R198) -/

/-- The signed difference TOKk − rs is 0 or more (R215). -/
def tokReached (n k : Nat) (t : BitVec 16) (s : State) : Bool := decide (0 ≤ (tokVal n k s - t).toInt)

/-- WAIT (R215). -/
def waitBody (n : Nat) (k : Fin 16) (rs : SReg) (tmo off : BitVec 16) (s : State) : State :=
  let t := (sreg n rs s).setWidth 16
  if tokReached n k.val t s then advance n s
  else
    let s := wrF (coreBase n) 15 12 k.val (wrB (coreBase n) 3 true s)
    updCore n (fun c => { c with wait := some (.tok k.val t tmo.toNat off (tick s)) }) s

/-- A wait ends and the program goes on after the word. -/
def waitDone (n : Nat) (s : State) : State :=
  let s := wrF (coreBase n) 15 12 0 (wrB (coreBase n) 4 false (wrB (coreBase n) 3 false s))
  let s := wrB (coreBase n + 0x900) 2 false s
  advance n (updCore n (fun c => { c with wait := none }) s)

/-- A wait times out: the program goes on at its timeout path (R215). -/
def waitExpire (n : Nat) (off : BitVec 16) (s : State) : State :=
  let s := wrF (coreBase n) 15 12 0 (wrB (coreBase n) 4 false (wrB (coreBase n) 3 false s))
  let s := wrB (coreBase n + 0x900) 2 false s
  let s := updCore n (fun c => { c with wait := none }) s
  branchTo n (pcOff n off s) (countWord n s)

/-- The awaited token has come (R215). -/
def waitCompleteBody (n : Nat) (s : State) : State :=
  match (coreOf n s).wait with
  | some (.tok k t _ _ _) => if tokReached n k t s then waitDone n s else s
  | _ => s

/-- A token wait times out once TO × 0.1 µs has passed (R215): reported to the monitor, on at PC + off. -/
def tokTimeoutBody (n : Nat) (s : State) : State :=
  match (coreOf n s).wait with
  | some (.tok k t tmo off since) =>
    if tokReached n k t s ∨ ticksSince since s < nsTicksUp (tmo * 100) then s else
      monitorTimeout n (waitExpire n off (inc (coreBase n + 0x38) 1 (seqEvt n 1 s)))
  | _ => s

/-- The core a PWAIT names (R232): a list index or an offset from register s3; none outside 0 to s4 − 1 or the placement list. -/
def peerOf (n : Nat) (peer : BitVec 6) (s : State) : Option Nat :=
  let c := coreOf n s
  let i : Int := if peer.getLsbD 5 then (sreg n 3 s).toInt + (peer.setWidth 5).toInt else (peer.setWidth 5).toNat
  if 0 ≤ i ∧ i < (sreg n 4 s).toNat then c.list[i.toNat]? else none

/-- A progress counter as a wait of core `n` sees it (R198): 0 for a core of another partition or a quarantined one. -/
def progSeen (n m k : Nat) (s : State) : Word :=
  if coreOwner m s = coreOwner n s ∧ quarantined m s = false then rd (coreBase m + 0x940 + 4 * k) s else 0

/-- The counter holds the TAG with at least n rows (R198). -/
def progReached (n m k : Nat) (tag : Byte) (rows : Word) (s : State) : Bool :=
  let v := progSeen n m k s
  decide (fld 31 24 v = tag.toNat) && decide (rows.toNat ≤ fld 23 0 v)

/-- PWAIT (R232). -/
def pwaitBody (n : Nat) (peer : BitVec 6) (k : Fin 8) (tag : Byte) (rs : SReg) (tmo off : BitVec 16) (s : State) : State :=
  match peerOf n peer s with
  | none => advance n s
  | some m =>
    if progReached n m k.val tag (sreg n rs s) s then advance n s
    else
      let s := inc (coreBase n + 0x91C) 1 (wrB (coreBase n + 0x900) 2 true (wrB (coreBase n) 4 true s))
      updCore n (fun c => { c with wait := some (.prog m k.val tag (sreg n rs s) tmo.toNat off (tick s)) }) s

/-- A wait for progress ends with its step reached (R232). -/
def progCompleteBody (n : Nat) (s : State) : State :=
  match (coreOf n s).wait with
  | some (.prog m k tag rows _ _ _) => if progReached n m k tag rows s then waitDone n s else s
  | _ => s

/-- A wait for progress ends by its timeout (R232). -/
def progTimeoutBody (n : Nat) (s : State) : State :=
  match (coreOf n s).wait with
  | some (.prog m k tag rows tmo off since) =>
    if progReached n m k tag rows s ∨ ticksSince since s < nsTicksUp (tmo * 100) then s else
      monitorTimeout n (waitExpire n off (inc (coreBase n + 0x920) 1 (wrB (coreBase n + 0x904) 3 true s)))
  | _ => s

/-! ### Ends -/

/-- A core whose program has ended and whose items are all complete reports its job done (R236). -/
def endSettle (n : Nat) (s : State) : State :=
  if (coreOf n s).ending && (allItems (coreOf n s)).isEmpty then coreEnded n s else s

/-- After an item has left: a flush may be complete, or an ended program done. -/
def settle (n : Nat) (s : State) : State := flushSettle n (endSettle n s)

/-! ### Fences, progress, markers, yield (R216, R197, R233, R234) -/

/-- SIGNAL (R216): with no unit named the counter counts at once, otherwise a fence waits for the units' items. -/
def signalBody (n : Nat) (k : Fin 16) (units : BitVec 8) (s : State) : State :=
  if units = 0 then advance n (tokInc n k.val s)
  else advance n (updCore n (fun c => { c with fences := c.fences ++ [{ k := k.val, items := itemsOf units.toNat c }] }) s)

/-- A fence whose items have all completed counts its token (R216). -/
def signalFireBody (n : Nat) (s : State) : State :=
  match (coreOf n s).fences.find? fun f => f.items.isEmpty with
  | none => s
  | some f => settle n (tokInc n f.k (updCore n (fun c => { c with fences := c.fences.erase f }) s))

/-- PADV (R197, R232): the advance waits for the DMA transfers issued before it. -/
def padvBody (n : Nat) (k : Fin 8) (tag : Byte) (rs : SReg) (s : State) : State :=
  let rows := wd ((sreg n rs s).toNat % 2 ^ 24)
  advance n (updCore n (fun c => { c with padvs := c.padvs ++ [{ k := k.val, tag := tag, rows := rows, items := itemsOf 0xF c }] }) s)

/-- The oldest advance whose DMA writes are all complete is published (R197). -/
def publishBody (n : Nat) (s : State) : State :=
  match (coreOf n s).padvs with
  | p :: r => if p.items.isEmpty then
      settle n (wr (coreBase n + 0x940 + 4 * p.k) (wd (p.tag.toNat * 2 ^ 24 + p.rows.toNat)) (updCore n (fun c => { c with padvs := r }) s)) else s
  | [] => s

/-- The arbitration bound the monitor uses is admission's A (R300), given by the caller. -/
def markBody (aNs : Job → State → Nat) (n : Nat) (m : BitVec 12) (s : State) : State :=
  let s := advance n s
  let c := coreOf n s
  match c.job with
  | none => s
  | some num =>
    let s := updJob c.part num (fun j => { j with marker := some m.toNat, tMark := nowNs s }) s
    match findJob c.part num s with
    | some j => monitorJob c.part num (aNs j s) s
    | none => s

/-- YIELD (R234): nothing without a request; with one the core stops issuing. -/
def yieldBody (n : Nat) (off : BitVec 16) (s : State) : State :=
  if (coreOf n s).yieldReq then updCore n (fun c => { c with yielding := some (pcOff n off s) }) (countWord n s) else advance n s

/-- A core that has yielded and holds no item writes its save area and is free (R234); the job is yielded when its last core has. -/
def yieldSaveBody (n : Nat) (s : State) : State :=
  let c := coreOf n s
  match c.yielding, c.job with
  | some resume, some num =>
    if !(allItems c).isEmpty then s else
      let s := (devWrite mFetch n c.part (c.slotAddr + 128) (saveBytes n resume s) s).2.2
      let s := inc (coreBase n + 0x44) 1 (seqEvt n 5 s)
      let s := acct c.part aYIELDS 1 s
      let s := freeCore n (updCore n (fun c => { c with yielding := none, yieldReq := false }) s)
      let s := wrB (coreBase n) 6 true s
      let s := updJob c.part num (fun j => let l := j.live.filter (· != n)
          { j with live := l, st := if l.isEmpty then .yielded else j.st, front := true }) s
      showSched c.part s
  | _, _ => s

/-! ### END (R236) -/

/-- END (R236). -/
def endBody (n : Nat) (s : State) : State := endSettle n (updCore n (fun c => { c with ending := true }) (countWord n s))

/-- TESTF (R231). -/
def testfBody (n : Nat) (rd : SReg) (s : State) : State :=
  let c := coreOf n s
  let v := wd (b2n c.fAccess + 2 * b2n c.fSat + 4 * b2n c.fSpecial)
  advance n (setS n rd v (updCore n (fun c => { c with fAccess := false, fSat := false, fSpecial := false }) s))

/-! ### DMA words (R218, R222) -/

/-- The bytes at a bank offset, 64 of them, for a descriptor. -/
def descAt (n : Nat) (ad : AReg) (s : State) : Nat := (areg n ad s).toNat

/-- An offset of a descriptor of `len` bytes: aligned to 64 and inside the activation bank. -/
def descOk (o len : Nat) : Bool := decide (o % 64 = 0) && decide (o + len ≤ 0x200000)

/-- COPY (R218). -/
def copyBody (n : Nat) (q : Fin 4) (ad : AReg) (tok : Tok) (w : Nat) (s : State) : State :=
  let o := descAt n ad s
  if !descOk o 64 then trapCore n 0x09 0 w s
  else if 16 ≤ (dmaQ q.val (coreOf n s)).length then stall n s
  else if poisonedIn (actBank n + o) 64 s then memErrCore n (eachDo reportUnc (poisonedWords (actBank n + o) 64 s) s)
  else
    let d := memRead (actBank n + o) 64 s
    let cv := (coreOf n s).conv
    let slot := cv.cfg.map cvROWBYTES
    if !dmOk d slot then trapCore n 0x09 0 w s
    else
      let (i, s) := newItem n s
      let t : DmaItem := match cv.cfg with
        | some g => { item := i, desc := d, tok := tokCode tok, lbBase := cvLBBASE g, lbRows := cvLBROWS g, rowBytes := cvROWBYTES g, r0 := cv.r0,
                      kb8 := dmLB d && decide (cvElem g = 1), ep := cv.ep }
        | none => { item := i, desc := d, tok := tokCode tok }
      let s := updCore n (fun c => { c with
        dma := c.dma.set q.val (dmaQ q.val c ++ [t]),
        conv := if dmLB d && dmROWEND d then { c.conv with r0 := c.conv.r0 + dmZ d } else c.conv }) s
      advance n (showUnits n s)

/-- Errors the memories find in words as they are read (R259, R260): a correction counts, an uncorrectable word is poisoned. -/
def eccHits (hit : Nat → State → State) (es : List EccHit) (s : State) : State :=
  eachDo (fun e s => if e.uncorrectable then spoil e.addr s else hit e.addr s) es s

/-- The transfer at the head of a queue moves on, and completes with its last row (R214), unless a held destination keeps it waiting (R148,
R188). -/
def dmaCompleteBody (corr : Nat → State → State) (n : Nat) (q : Fin 4) (ecc : List EccHit) (s : State) : State :=
  match dmaQ q.val (coreOf n s) with
  | [] => s
  | t :: _ =>
    if dmWaits n t s then s else
      let (u, s) := dmaComplete n q.val t (eccHits corr ecc s)
      if u then memErrCore n s else settle n s

/-! ### Tile words (R223) -/

/-- TLOAD (R223). -/
def tloadBody (n : Nat) (mode : TileMode) (b : Fin 2) (ad : AReg) (off : BitVec 15) (tok : Tok) (w : Nat) (s : State) : State :=
  let base := (areg n ad s).toNat
  let a := base + 64 * off.toNat
  if 0x200000 ≤ base ∨ a % 64 ≠ 0 ∨ 0x200000 < a + tileBytes mode.code then trapCore n 0x05 0 w s
  else
    let (i, s) := newItem n s
    let s := updEng n (fun e => { e with loads := e.loads ++ [{ item := i, mode := mode.code, wbuf := b.val, addr := a, tok := tokCode tok }] }) s
    advance n (showUnits n (beginLoad n s))

/-- A tile load completes (R145). -/
def loadCompleteBody (n : Nat) (s : State) : State :=
  match (coreOf n s).eng.loads with
  | [] => s
  | l :: _ => if loadWaits n l s then s else
      let (u, s) := loadComplete n l s
      if u then memErrCore n s else settle n s

/-- The mode of the load that fills or filled a buffer, as an operation issued now meets it (R147). -/
def bufMode (n b : Nat) (s : State) : Option Nat :=
  match ((coreOf n s).eng.loads.filter fun l => decide (l.wbuf = b)).getLast? with
  | some l => some l.mode
  | none => if (wbuf n b s).valid then some (wbuf n b s).mode else none

/-- The field checks of a tile operation (R147): rows, vectors, exponents, the buffer's mode. -/
def tstreamOk (n : Nat) (t : TStreamWord) (a stride e : Nat) (s : State) : Bool :=
  let m := t.mode.code
  let v := t.vLess1.toNat + 1
  decide (t.accBase.toNat + v ≤ accRows m) && decide (v ≤ accRows m) && decide (bufMode n t.wbuf.val s = some m) &&
  (t.conv || (decide (a % 64 = 0) && decide (stride % 64 = 0) && decide (stride ≤ 2097088) && decide (a + (v - 1) * stride + 64 ≤ 0x200000) &&
    (m != 2 || decide (e + 2 * v ≤ 0x200000))))

/-- An armed fault goes into the next tile operation issued (R167). -/
def takeInjection (n : Nat) (s : State) : Option Inject × State :=
  let k := coreBase n + 0x800
  let r := rd k s
  if bitOf 31 r ∧ fld 30 29 r ≠ 3 then
    (some { target := fld 30 29 r, row := fld 28 23 r, col := fld 22 16 r, bit := fld 15 11 r }, wrB (k + 8) 7 true (wrB k 31 false s))
  else (none, s)

/-- TSTREAM (R223): with SRC = convolution path the address fields must be 0. -/
def tstreamBody (n : Nat) (t : TStreamWord) (w : Nat) (s : State) : State :=
  let a := (areg n t.ad s).toNat
  let stride := (sreg n t.rs s).toNat
  let e := (areg n t.ae s).toNat
  let m := t.mode.code
  let v := t.vLess1.toNat + 1
  let c := coreOf n s
  if t.conv && !(t.ad == 0 && t.rs == 0 && t.ae == 0) then trapCore n 0x01 0 w s
  else if 3 ≤ c.eng.ops.length then stall n s
  else if !tstreamOk n t a stride e s then trapCore n 0x05 0 w s
  else if t.accOp && !tagsMatch m t.accBase.toNat v (tagsAhead c) then trapCore n 0x06 0 w (wrB (coreBase n + 0x808) 6 true s)
  else
    let st := c.conv.starts.head?
    let spanOk := match cvAhead c, st with
      | some d, some x => cvSpanOk d x.1 x.2 v && !cvPool d
      | _, _ => false
    if t.conv && !spanOk then trapCore n 0x08 0 w (wrB (coreBase n + 0x904) 1 true s)
    else
      let (i, s) := newItem n s
      let (inj, s) := takeInjection n s
      let p := st.getD (0, 0)
      let o : TileOp := {
        item := i, mode := m, wbuf := t.wbuf.val, conv := t.conv, accOp := t.accOp, v := v, accBase := t.accBase.toNat,
        aAddr := a, aStride := stride, eAddr := e, pix0 := p.1, r := p.2, desc := if t.conv then (cvAhead c).getD [] else [], ep := epAhead c, inj := inj, retried := false, retryTick := 0, tok := tokCode t.tok }
      let s := updCore n (fun c => { c with
        eng := { c.eng with ops := c.eng.ops ++ [o] },
        conv := if t.conv then { c.conv with starts := c.conv.starts.drop 1 } else c.conv }) s
      advance n (showConv n (showUnits n s))

/-! ### Verdicts and quarantine (R159 to R162) -/

/-- A core is quarantined (R162): it stops at once, the flash and the audit log record it, CORES_LIVE falls, a re-plan waits. -/
def quarantine (n : Nat) (s : State) : State :=
  let p := coreOwner n s
  let b := coreBase n + 0x800
  let s := flushCore n false (freeCore n s)
  let s := wrB (b + 8) 3 true (wrB (b + 4) 4 true s)
  let s := { s with flash := { s.flash with quar := s.flash.quar ||| BitVec.ofNat 32 (2 ^ n) } }
  let s := raiseFault 0x7002 n (p.getD 0xFF) 0 ((match p with | some p => [p + 1] | none => []) ++ [0]) s
  let s := auditEvent 0xE004 0 (p.getD 0xFF) (natLE 1 n) s
  match p with
  | some p =>
    let s := wrF (kPART_STATUS p) 21 16 (liveCores p s).length s
    updPart p (fun x => { x with replan := x.replan ++ [n] }) s
  | none => s

/-- ENG_LAST_FAIL (R167). -/
def lastFail (n kind col vec : Nat) (s : State) : State := wr (coreBase n + 0x80C) (wd (kind * 2 ^ 30 + col * 2 ^ 22 + vec)) s

/-- An accumulator residue mismatches (R157): quarantine without retry. -/
def residueFail (n lane row : Nat) (s : State) : State :=
  let p := coreOwner n s
  let s := lastFail n 3 lane row (wrB (coreBase n + 0x808) 4 true s)
  quarantine n (raiseFault 0x7003 n (p.getD 0xFF) 0 ((match p with | some p => [p + 1] | none => []) ++ [0]) s)

/-- A verdict that fails (R161): a first failure is retried, a second quarantines the core. -/
def opFail (n : Nat) (o : TileOp) (col : Option Nat) (row : Option Nat) (s : State) : State :=
  let b := coreBase n + 0x800
  let s := if col.isSome then wrB (b + 8) 0 true s else s
  let s := if row.isSome then wrB (b + 8) 1 true s else s
  let s := match col, row with
    | some v, _ => lastFail n 1 0x7F v s
    | none, some j => lastFail n 2 j 0x7FF s
    | none, none => s
  if o.retried then quarantine n s
  else
    let p := coreOwner n s
    let s := inc (b + 0x14) 1 s
    let s := showUnits n (updEng n (fun e => { e with ops := { o with retried := true, inj := none, retryTick := tick s } :: e.ops.drop 1 }) s)
    raiseFault 0x7001 n (p.getD 0xFF) 0 ((match p with | some p => [p + 1] | none => []) ++ [0]) s

/-- The oldest tile operation's verdict (R159): its checksums as the module computes them, or an upset of the world. The residues of its rows
are checked as it updates them (R157). -/
def verdictBody (n : Nat) (e : TileErr) (s : State) : State :=
  match (coreOf n s).eng.ops with
  | [] => s
  | o :: _ =>
    if opWaits n o s then s else
      let bad := opPoison n o s
      if !bad.isEmpty then memErrCore n (eachDo reportUnc bad s) else
        let s := match o.inj with
          | some i => if i.target = 0 then setBuf n o.wbuf (injWeight (wbuf n o.wbuf s) i) s else s
          | none => s
        let (xs, ex) := opVectors n o s
        let w := wbuf n o.wbuf s
        let s := countBeats n o xs w s
        let s := match e with | .residue u => updEng n (accFlip u) s | _ => s
        match accBad (coreOf n s).eng (opRows o) with
        | some x => residueFail n x.1 x.2 s
        | none =>
          let col := match e with | .col v => some v | _ => colCheck o.mode w o.inj xs
          let row := match e with | .row j => some j | _ => rowCheck o.mode w o.inj xs
          if col.isNone && row.isNone then settle n (opPass n o xs ex s) else opFail n o col row s

/-! ### Convolution words (R224) -/

/-- CCFG (R224). -/
def ccfgBody (n : Nat) (ad : AReg) (tok : Tok) (w : Nat) (s : State) : State :=
  let o := descAt n ad s
  if !descOk o 64 then trapCore n 0x07 0 w (wrB (coreBase n + 0x904) 0 true s)
  else if poisonedIn (actBank n + o) 64 s then memErrCore n (eachDo reportUnc (poisonedWords (actBank n + o) 64 s) s)
  else
    let d := memRead (actBank n + o) 64 s
    if !cvOk d then trapCore n 0x07 0 w (wrB (coreBase n + 0x904) 0 true s)
    else
      let (i, s) := newItem n s
      advance n (updCore n (fun c => { c with conv := { c.conv with pend := c.conv.pend ++ [{ item := i, desc := d, tok := tokCode tok }] } }) s)

/-- A configuration takes effect (R224). -/
def ccfgCompleteBody (n : Nat) (s : State) : State :=
  match (coreOf n s).conv.pend with
  | [] => s
  | x :: _ => if cfgWaits n x s then s else settle n (cfgComplete n x s)

/-- CSTART (R193, R224): a third waiting start stalls. -/
def cstartBody (n : Nat) (rs rt : SReg) (s : State) : State :=
  if 2 ≤ (coreOf n s).conv.starts.length then stall n s
  else advance n (updCore n (fun c => { c with conv := { c.conv with starts := c.conv.starts ++ [((sreg n rs s).toNat, (sreg n rt s).toNat)] } }) s)

/-! ### Vector words (R225 to R229) -/

/-- A vector operation enters the queue; a ninth stalls (R230). -/
def vecIssue (n : Nat) (op : VecOp) (tok : Tok) (s : State) : State :=
  let (i, s) := newItem n s
  advance n (showConv n (showUnits n (updCore n (fun c => { c with vecs := c.vecs ++ [{ item := i, op := op, tok := tokCode tok }] }) s)))

/-- The queue check first, then the operation's own checks as a trap cause, then issue. -/
def vecWord (n : Nat) (op : VecOp) (tok : Tok) (bad : Bool) (mix : Bool) (w : Nat) (s : State) : State :=
  if 8 ≤ (coreOf n s).vecs.length then stall n s
  else if bad || !vecInBank op then trapCore n 0x0A 0 w s
  else if mix then trapCore n 0x06 0 w s
  else vecIssue n op tok s

/-- VPARAM (R225). -/
def vparamBody (n : Nat) (ps : Fin 4) (ad : AReg) (tok : Tok) (w : Nat) (s : State) : State :=
  let a := (areg n ad s).toNat
  vecWord n (.param ps.val a) tok (decide (a % 64 ≠ 0)) false w s

/-- Rows outside the mode's rows are outside the bank. -/
def rowsBad (mode row n : Nat) : Bool := !decide (row + n ≤ accRows mode)

/-- VQ (R226). -/
def vqBody (n : Nat) (x : VqWord) (w : Nat) (s : State) : State :=
  let row := (sreg n x.rs s).toNat
  let cnt := (sreg n x.rt s).toNat
  let o := (areg n x.ad s).toNat
  let m := x.mode.code
  let t := x.tgt.code
  let d := memRead (actBank n + o) 32 s
  let bad := rowsBad m row cnt || !decide (o + 32 ≤ 0x200000) || (x.act = 3 && t != 0) ||
    (m = 1 && decide (2 < x.ps.val)) || !(odG d ∈ [1, 4, 16, 32, 64])
  let op : VecOp := .quant t x.act.val x.ps.val m row (if rowsBad m row cnt then 0 else cnt) d (areg n x.al s).toNat
  let ws := poisonedWords (actBank n + o) 32 s
  if (coreOf n s).vecs.length < 8 && !bad && !ws.isEmpty then memErrCore n (eachDo reportUnc ws s)
  else vecWord n op x.tok bad (!tagsMatch m row cnt (tagsAhead (coreOf n s))) w s

/-- VRAWST (R227). -/
def vrawstBody (n : Nat) (mode : TileMode) (rs rt : SReg) (ad : AReg) (tok : Tok) (w : Nat) (s : State) : State :=
  let row := (sreg n rs s).toNat
  let cnt := (sreg n rt s).toNat
  let m := mode.code
  vecWord n (.rawst m row (if rowsBad m row cnt then 0 else cnt) (areg n ad s).toNat) tok (rowsBad m row cnt)
    (!tagsMatch m row cnt (tagsAhead (coreOf n s))) w s

/-- VRAWADD (R227). -/
def vrawaddBody (n : Nat) (mode : TileMode) (rs rt : SReg) (as_ : AReg) (tok : Tok) (w : Nat) (s : State) : State :=
  let row := (sreg n rs s).toNat
  let cnt := (sreg n rt s).toNat
  let m := mode.code
  vecWord n (.rawadd m row (if rowsBad m row cnt then 0 else cnt) (areg n as_ s).toNat) tok (rowsBad m row cnt)
    (!tagsMatch m row cnt (tagsAhead (coreOf n s))) w s

/-- VPOOL (R228) consumes one CSTART; the checks of R193 trap with CONV_SPAN. -/
def vpoolBody (n : Nat) (sum init : Bool) (rs rt : SReg) (tok : Tok) (w : Nat) (s : State) : State :=
  let row := (sreg n rs s).toNat
  let v := (sreg n rt s).toNat
  let c := coreOf n s
  let span := match cvAhead c, c.conv.starts.head? with
    | some d, some x => cvPool d && cvSpanOk d x.1 x.2 v
    | _, _ => false
  if 8 ≤ c.vecs.length then stall n s
  else if rowsBad 0 row v || decide (v = 0) then trapCore n 0x0A 0 w s
  else if !span then trapCore n 0x08 0 w (wrB (coreBase n + 0x904) 1 true s)
  else if !init && !tagsMatch 0 row v (tagsAhead c) then trapCore n 0x06 0 w s
  else
    let x := c.conv.starts.headD (0, 0)
    let s := updCore n (fun c => { c with conv := { c.conv with starts := c.conv.starts.drop 1 } }) s
    vecIssue n (.pool sum init row v x.1 x.2 ((cvAhead c).getD []) (epAhead c)) tok s

/-- The element count of VCVT and VEW: a multiple of 32 from 32 to 2,097,152 (R229). -/
def countBad (n : Nat) : Bool := decide (n % 32 ≠ 0) || !inR 32 2097152 n

/-- VCVT (R229). -/
def vcvtBody (n : Nat) (x : VcvtWord) (w : Nat) (s : State) : State :=
  let cnt := (sreg n x.rs s).toNat
  vecWord n (.cvt x.inF.code x.outF.code cnt (areg n x.ad s).toNat (areg n x.as_ s).toNat x.sc.toInt x.off.toInt) x.tok (countBad cnt) false w s

/-- VEW (R229). -/
def vewBody (n : Nat) (x : VewWord) (w : Nat) (s : State) : State :=
  let cnt := (sreg n x.rs s).toNat
  vecWord n (.ew x.fn.code x.wide cnt (areg n x.ad s).toNat (areg n x.as_ s).toNat (areg n x.ab s).toNat) x.tok (countBad cnt) false w s

/-- The vector operation at the head completes (R214), unless a verdict or a row keeps it waiting (R156, R188). The residues of the rows it
reads and updates are checked (R157). -/
def vecCompleteBody (n : Nat) (s : State) : State :=
  match (coreOf n s).vecs with
  | [] => s
  | x :: _ => if vecWaits n x s then s else
      match accBad (coreOf n s).eng (vecAccRows x.op) with
      | some b => residueFail n b.1 b.2 s
      | none =>
        let (u, s) := vecComplete n x s
        if u then memErrCore n s else settle n s

/-! ### Posting (R235) -/

/-- A decision the port accepts: no reserved bit, and only valves of the partition's groups (R235). -/
def maskOwned (p : Nat) (mask : Word) (s : State) : Bool :=
  (upTo 32).all fun d => !mask.getLsbD d || (cfg 0x10 p 6 1 s).testBit (d / 4)

/-- POST (R235). -/
def postBody (n : Nat) (rs rt : SReg) (w : Nat) (s : State) : State :=
  let c := coreOf n s
  let mask := sreg n rs s
  let hi := sreg n rt s
  match c.job with
  | none => s
  | some num =>
    if (findJob c.part num s).any (·.posted) then advance n (inc (coreBase n + 0x40) 1 (seqEvt n 2 s))
    else if fld 31 24 hi ≠ 0 || !maskOwned c.part mask s then trapCore n 0x0B 0 w s
    else if 4 ≤ c.posts.length then stall n s
    else
      let (i, s) := newItem n s
      let j := findJob c.part num s
      let q : PostSt := {
        item := i, mask := mask, hi := hi, part := c.part, job := num, gen := rd (coreBase n + 0x14) s,
        stream := (j.map (·.stream)).getD 0, obj := (j.map fun j => j.win.getD 0 0).getD 0, model := (j.map (·.model)).getD 0,
        rep := j.bind (·.rep) }
      advance n (updCore n (fun c => { c with posts := c.posts ++ [q] }) (updJob c.part num (fun j => { j with posted := true }) s))

/-- SYS TRAP (R239). -/
def sysTrapBody (n : Nat) (imm : BitVec 16) (w : Nat) (s : State) : State := trapCore n 0x0C imm.toNat w s

/-- The grace of a flush is over: what is still in progress is void (R237). -/
def graceBody (n : Nat) (s : State) : State := if (coreOf n s).flushing then voidAll n s else s

end Sys2Proof.Machine
end

