-- ==== Sys2Proof/Machine/Sched.lean ====
section
/-! DEFINITION. The scheduler's commands (13_scheduling_and_deadlines.md): windows become jobs (R292, R304), jobs are placed (R295, R303,
R311), the monitor evaluates them (R300), Dusk ends (R301), model sets are switched (R306) and partitions re-planned or halted (R308,
R309). -/

namespace Sys2Proof.Machine

open Sys2Proof

/-- A of a job in ns under the settings in force (R296, R300). -/
def arbNs (j : Job) (s : State) : Nat :=
  match model j.model s with
  | some m => arbBound (arbSetNow s) j.part m.bursts
  | none => 0

/-! ### Windows (R292, R304) -/

/-- The window bucket filled up to now, in 1/625,000,000 window. -/
def bucketLevel (st : Nat) (s : State) : Nat :=
  let x := strm st s
  let rate := maxRate st s
  min (max 4 ((rate + 999) / 1000) * 625000000) (x.bucket + rate * ticksSince x.bucketTick s)
/-- The bucket full, at a stream start. -/
def fillWindows (st : Nat) (s : State) : State :=
  updStrm st (fun x => { x with bucket := max 4 ((maxRate st s + 999) / 1000) * 625000000, bucketTick := tick s }) s
/-- A window arrives at the bucket: whether it is over rate. -/
def takeWindow (st : Nat) (s : State) : Bool × State :=
  let l := bucketLevel st s
  if 625000000 ≤ l then (false, updStrm st (fun x => { x with bucket := l - 625000000, bucketTick := tick s }) s)
  else (true, updStrm st (fun x => { x with bucket := l, bucketTick := tick s }) s)

/-- A job joins its tier, or is not created where the tier is full (R292): its number, if created. -/
def addJob (j : Job) (s : State) : Option Nat × State :=
  let t := jobTier j
  if tierCap t ≤ (tierJobs j.part t s).length then
    (none, schedEvt j.part 2 (inc (strBase j.stream + 0x18) 1 s))
  else
    let no := (part j.part s).jobNo
    let s := updPart j.part (fun x => { x with jobNo := (no + 1) % 2 ^ 32 }) s
    let s := if j.overRate then inc (strBase j.stream + 0x14) 1 (acct j.part aOVERRATE 1 s) else s
    (some no, { s with jobs := s.jobs ++ [{ j with num := no }] })
/-- Jobs created in order: their numbers. -/
def addJobs (js : List Job) (s : State) : List Nat × State :=
  js.foldl (fun (a : List Nat × State) j => let r := addJob j a.2; (a.1 ++ r.1.toList, r.2)) ([], s)

/-- The jobs of a replay's window: one BACKGROUND job per bound model (R292). -/
def replayJobs (p st : Nat) (w : FeWin) (b : Binding) (s : State) : List Job :=
  (bindModels b).map fun h => { part := p, num := 0, stream := st, win := w.words, model := h, bg := true, issued := nowNs s, rep := w.rep }
/-- The jobs of a live window: one per bound DEADLINE model, in DUSK of its Dusk model (R292, R301). -/
def liveJobs (p st : Nat) (w : FeWin) (b : Binding) (overRate : Bool) (s : State) : List Job :=
  let mode := rdF (strBase st) 1 0 s
  (b.models.zip (b.dusks ++ List.replicate 4 none)).filterMap fun (x : Option Nat × Option Nat) =>
    match x.1 with
    | none => none
    | some h =>
      if (model h s).any (fun m => m.bg) then none else
        let d := if mode ≠ 0 then x.2 else none
        some { part := p, num := 0, stream := st, win := w.words, model := d.getD h, dusk := d.isSome, overRate := overRate, issued := nowNs s,
               deadline := nowNs s + BitVec.ofInt 64 (deadlineD st b.speedMax s) }

/-- A window creates no job (R292, R35): its partition is halted, a policy of the binding says so, or it is a live one of a stopped stream. -/
def noJobs (p st : Nat) (w : FeWin) (b : Binding) (s : State) : Bool :=
  let fl := w.words.getD 6 0
  (w.rep.isNone && (!(strm st s).started || bitOf 21 fl)) || decide (partState p s = 4) ||
    (b.onIncomplete && bitOf 16 fl) || (b.onDegraded && bitOf 17 fl)
/-- The jobs of a window, in the order MODEL0 to MODEL3 (R292). -/
def windowJobs (p st : Nat) (w : FeWin) (overRate : Bool) (s : State) : List Job :=
  match bindingOf st s with
  | none => []
  | some b => if noJobs p st w b s then [] else if w.rep.isSome then replayJobs p st w b s else liveJobs p st w b overRate s

/-- OBJECT_WINDOW_ISSUE: the next window is issued, its jobs are created and its ledger entry opens (R115, R292, R331). -/
def windowIssue (st : Nat) (s : State) : State :=
  match takeWin st s, streamPart st s with
  | (some w, s), some p =>
    let none' := fun (s : State) => windowDone st w.obj s
    match w.rep with
    | some _ =>
      let r := addJobs (windowJobs p st w false s) s
      showSched p (if r.1.isEmpty then none' r.2 else r.2)
    | none =>
      let live := (strm st s).started && !bitOf 21 (w.words.getD 6 0)
      let (overRate, s) := if live then takeWindow st s else (false, s)
      let s := if overRate then schedEvt p 1 s else s
      let r := addJobs (windowJobs p st w overRate s) s
      let e := openEntry st w.words r.1 r.2
      let s := { e.2 with jobs := mapWhere (fun j => decide (j.part = p) && r.1.contains j.num) (fun j => { j with entry := e.1 }) e.2.jobs }
      showSched p (if r.1.isEmpty then none' s else s)
  | (_, s), _ => s
/-- OBJECT_WINDOW_ISSUE (R115, R292). -/
def execObjectWindowIssue (st : Fin 64) (s : State) : Host.Outcome State Fault Refusal := .next (windowIssue st.val s)

/-! ### Placement (R295, R303, R311) -/

/-- Jobs at the head whose commit count has passed end SKIPPED (R303), at most `k` of them. -/
def skipLate (p : Nat) : Nat → State → State
  | 0, s => s
  | k + 1, s =>
    match headJob p s with
    | none => s
    | some j =>
      let late := !j.bg && decide (j.st = .queued) && (bindingOf j.stream s).any (fun b => b.skipLate) && decide (commitLeft j.stream j.win s ≤ 0)
      if late then skipLate p k (jobEnd p j.num .skipped s) else s

/-- The cores a job takes, if they are idle: the group of the package's fixed placement with DET (R311, R436), otherwise the lowest idle
live cores. A migrated attempt waits for the flush of the cores of its last placement (R308). -/
def placeOf (p : Nat) (j : Job) (m : Model) (s : State) : Option (List Nat) :=
  if j.place.any fun n => (coreOf n s).flushing then none
  else
    let idle := idleCores p s
    let g := if det s then m.groups.getD ((j.win.getD 0 0).toNat % max 1 m.groups.length) [] else []
    if !g.isEmpty ∧ g.all fun n => (liveCores p s).contains n then (if g.all fun n => idle.contains n then some g else none)
    else if m.cores ≤ idle.length then some (idle.take m.cores) else none

/-- The scheduler places no job: a switch, a re-plan or a halt holds it. -/
def placeHeld (p : Nat) (s : State) : Bool := (part p s).hold || (part p s).switching.isSome || decide (partState p s = 4)

/-- JOB_START: the job at the head of the highest tier is placed, or waits (R295). -/
def jobStartBody (p : Nat) (s : State) : State :=
  if placeHeld p s then s else
    let s := skipLate p 1280 s
    match headJob p s with
    | none => s
    | some j =>
      match model j.model s with
      | none => s
      | some m =>
        match placeOf p j m s with
        | some place =>
          let s := startJob p j place s
          monitorJob p j.num (arbNs j s) s
        | none => if !det s && !j.bg && (idleCores p s).isEmpty then askYield (fun k => k.bg) p s else s
/-- JOB_START (R295). -/
def execJobStart (p : Fin 16) (s : State) : Host.Outcome State Fault Refusal := .next (jobStartBody p.val s)

/-- MONITOR_EVAL (R300). -/
def monitorEval (p num : Nat) (s : State) : State :=
  match findJob p num s with
  | some j => monitorJob p num (arbNs j s) s
  | none => s
/-- MONITOR_EVAL (R300). -/
def execMonitorEval (p : Fin 16) (job : Word) (s : State) : Host.Outcome State Fault Refusal := .next (monitorEval p.val job.toNat s)

/-- The stream returns to normal (R301) when no job from before the move remains and DUSK_HOLD has passed without an overrun. -/
def duskExitBody (st : Nat) (s : State) : State :=
  let b := strBase st
  let hold := match bindingOf st s with | some b => b.duskHoldMs | none => 10
  if rdF b 1 0 s = 1 ∧ (s.jobs.all fun j => decide (j.stream ≠ st) || !j.preDusk) ∧ hold * 625000 ≤ ticksSince (strm st s).overrunTick s then
    wrF b 1 0 0 s else s
/-- DUSK_EXIT (R301). -/
def execDuskExit (st : Fin 64) (s : State) : Host.Outcome State Fault Refusal := .next (duskExitBody st.val s)

/-! ### Weights (R289, R306) -/

/-- A model's weights are copied into the weight bank of a core, by the cluster DMA with the partition's tag. -/
def loadWeights (p n : Nat) (m : Model) (s : State) : State :=
  let r := devRead mClu (n / 8) p (m.addr + m.weightOff) m.f s
  (devWrite mClu (n / 8) p (weightBank n + m.fOff) r.1 r.2.2.2).2.2
/-- Models that enter a partition's set are loaded into every live core. -/
def loadEntering (p : Nat) (hs : List Nat) (s : State) : State :=
  eachDo (fun h s => match model h s with
    | some m => eachDo (fun n s => loadWeights p n m s) (liveCores p s) s
    | none => s) hs s

/-! ### Model-set switches (R306) -/

/-- A switch begins (R306, steps 1 and 2): no job starts, every running job that has not handed over its post is asked to yield. -/
def switchStart (p : Nat) (w : Switch) (s : State) : State :=
  let s := wrB (acctBase p + 0x80) 2 true (updPart p (fun x => { x with switching := some w, hold := true }) s)
  askYield (fun j => !j.handed) p s

/-- Step 3: a job of a model that leaves the set goes to the model that replaces it; a yielded one restarts (R306). -/
def switchJob (w : Switch) (leaving : List Nat) (j : Job) (s : State) : State :=
  if !leaving.contains j.model then s else
    match (w.repl.find? fun x => decide (x.1 = j.stream) && decide (x.2.1 = j.model)).bind (·.2.2) with
    | some h =>
      let again := decide (j.st = .yielded)
      let s := if again then acct j.part aRESTARTED 1 s else s
      updJob j.part j.num (fun j => { j with
        model := h, st := .queued, attempt := if again then j.attempt + 1 else j.attempt, marker := none }) s
    | none => jobEnd j.part j.num .skipped s

/-- A switch completes once no job of the partition runs (R306, steps 3 to 5): its command completes with it. -/
def switchBody (p : Nat) (s : State) : State :=
  match (part p s).switching with
  | none => s
  | some w =>
    if s.jobs.any fun j => decide (j.part = p) && decide (j.st = .running) then s else
      let now := activeSet p s
      let leaving := w.old.filter fun h => !now.contains h
      let s := eachDo (switchJob w leaving) (s.jobs.filter fun j => decide (j.part = p)) s
      let s := loadEntering p (now.filter fun h => !w.old.contains h) s
      let s := wrB (acctBase p + 0x80) 2 false (updPart p (fun x => { x with switching := none, hold := false }) s)
      let s := showSched p s
      match (ring w.fn s).busy with
      | some (.bindSwitch d q) => if q = p then finish w.fn d stOK 0 [] s else s
      | _ => s
/-- MODEL_SET_SWITCH (R306). -/
def execModelSetSwitch (p : Fin 16) (s : State) : Host.Outcome State Fault Refusal := .next (switchBody p.val s)

/-! ### Re-plans and halts (R308, R309, R436) -/

/-- The streams of a partition. -/
def partStreams (p : Nat) (s : State) : List Nat := (upTo 64).filter fun st => decide (streamPart st s = some p)

/-- PART_STATUS.STATE of a partition that is neither halted nor unused (R35). DESIGN CHOICE (notes/assumptions/22.md): with a core in
quarantine it is degraded, whether or not a stream is started; otherwise running or stopped. -/
def runState (p : Nat) (s : State) : Nat :=
  if (liveCores p s).length < (partCores p s).length then 3
  else if (partStreams p s).any fun st => (strm st s).started || (strm st s).replay.isSome then 2 else 1
/-- The state shown, where the partition is used and not halted. -/
def showRun (p : Nat) (s : State) : State :=
  if !partUsed p s ∨ partState p s = 4 then s else wrF (kPART_STATUS p) 2 0 (runState p s) s

/-- A partition is halted (R309): running jobs are flushed, every job ends SKIPPED, its owner learns of it. -/
def haltPart (p : Nat) (s : State) : State :=
  let s := wrF (kPART_STATUS p) 2 0 4 s
  let s := eachDo (fun (j : Job) s => jobEnd p j.num .skipped s) (s.jobs.filter fun j => decide (j.part = p)) s
  let s := updPart p (fun x => { x with hold := false }) s
  showSched p (schedEvt p 5 (raiseFault 0x7020 p p 0 [p + 1] s))

/-- A job with a quarantined core in its placement is migrated (R308): its other cores are flushed, it goes back into its tier. -/
def migrateJob (n : Nat) (j : Job) (s : State) : State :=
  if decide (j.st = .running) && j.place.contains n then
    let s := stopCores (j.live.filter (· != n)) s
    let s := freeCore n s
    let s := acct j.part aRESTARTED 1 s
    updJob j.part j.num (fun j => { j with st := .queued, live := [], attempt := j.attempt + 1, gen := rd (kPART_GEN j.part) s, marker := none, posted := j.handed }) s
  else s

/-- The streams that have Dusk models are held on them (R308, row 2). -/
def holdDusk (p : Nat) (s : State) : State :=
  let sts := (partStreams p s).filter fun st => (strm st s).started && hasDusk st s
  wrB (acctBase p + 0x80) 3 true (eachDo (fun st s => retargetDusk st (wrF (strBase st) 1 0 2 s)) sts s)
/-- Streams in held Dusk return to their own models (R308). -/
def unholdDusk (p : Nat) (s : State) : State :=
  wrB (acctBase p + 0x80) 3 false (eachDo (fun st s => if rdF (strBase st) 1 0 s = 2 then wrF (strBase st) 1 0 0 s else s) (partStreams p s) s)

/-- The table of R308 applied: the set as it stands, with Dusk held, or none. -/
def applyPlan (p : Nat) (s : State) : State :=
  let a := setNow p s
  let s := showPace p s
  if (admission p (fun _ => false) a s).isNone then showRun p (unholdDusk p s)
  else if !det s && a.live.any (fun x => !(bindDusks x.2).isEmpty) && (admission p (fun _ => true) a s).isNone then showRun p (holdDusk p s)
  else haltPart p s

/-- A fixed placement of an active model names a core that is no longer live (R436). -/
def groupLost (p : Nat) (s : State) : Bool :=
  det s && (activeSet p s).any fun h => match model h s with
    | some m => m.groups.any fun g => g.any fun n => !(liveCores p s).contains n
    | none => false

/-- SCHED_STAT.FIXED (R311): with DET while every group is whole. -/
def showFixed (p : Nat) (s : State) : State := wrB (acctBase p + 0x80) 0 (det s && partUsed p s && !groupLost p s) s

/-- REPLAN: the steward re-plans a partition that lost cores (R308): generation, migrations, admission, and the records of it. -/
def replanBody (p : Nat) (s : State) : State :=
  match (part p s).replan with
  | [] => s
  | ns =>
    let back := (part p s).freed
    let s := updPart p (fun x => { x with replan := [], freed := [], hold := x.switching.isSome }) s
    let s := if back.isEmpty then s else
      loadEntering p (activeSet p s) (wrF (kPART_STATUS p) 21 16 (liveCores p s).length s)
    let s := inc (kPART_GEN p) 1 s
    let s := eachDo (fun n s => eachDo (migrateJob n) (s.jobs.filter fun j => decide (j.part = p)) s) ns s
    let s := if partState p s = 4 then showPace p s else applyPlan p s
    let s := if groupLost p s ∧ rdB (acctBase p + 0x80) 0 s then raiseFault 0xB00A 0 0xFF 0 (allFns s) s else s
    let s := schedEvt p 4 (showSched p (showFixed p s))
    auditEvent 0xE005 0 p (natLE 1 (partState p s) ++ zeros 3 ++ natLE 4 (rd (kPART_GEN p) s).toNat) s
/-- REPLAN (R308): suspended while the steward restarts (R452). -/
def execReplan (p : Fin 16) (s : State) : Host.Outcome State Fault Refusal := 
  .next (if s.boot.restarting then s else replanBody p.val s)

/-- POST_HANDOVER: the oldest decision leaves a core's post port (R235). -/
def handOverBody (n : Nat) (s : State) : State :=
  match (coreOf n s).posts with
  | [] => s
  | q :: _ => settle n (handOver n q s)
/-- POST_HANDOVER (R235). -/
def execPostHandover (n : Fin 32) (s : State) : Host.Outcome State Fault Refusal := .next (handOverBody n.val s)

end Sys2Proof.Machine
end

