-- ==== Sys2Proof/Machine/Power.lean ====
section
/-! DEFINITION. Power domains, the governor, temperature, pace and the Morning check (18_clocks_power_ageing.md, R415 to R429). -/

namespace Sys2Proof.Machine

open Sys2Proof

/-! ### Domains (R415 to R418, R264) -/

/-- A register with bits computed one by one. -/
def bitsWord (n : Nat) (f : Nat → Bool) : Word := wd ((upTo n).foldl (fun a i => a + (if f i then 2 ^ i else 0)) 0)
/-- CLK_EN0 to CLK_EN2 as the domains give them (R415). -/
def showEn (s : State) : State :=
  let s' := wr kCLK_EN0 (bitsWord 32 fun n => domOn (50 + 2 * n) s && domOn (51 + 2 * n) s) s
  let s' := wr kCLK_EN1 (bitsWord 32 fun i =>
    if i < 16 then domOn (114 + i) s && domOn (130 + i / 4) s else if i < 20 then domOn (14 + i) s
    else if i < 28 then domOn (114 + i) s else domOn (114 + i) s) s'
  wr kCLK_EN2 (bitsWord 9 fun i =>
    if i = 0 then domOn 146 s && domOn 147 s else if i < 3 then domOn (15 + i) s && domOn (17 + i) s
    else if i < 5 then domOn (23 + i) s && domOn (25 + i) s else s.boot.dawnDone) s'

/-- The registers that report wiping memories and stacks in service (R265 to R268). -/
def showWipe (s : State) : State :=
  eachDo (fun h s' => wrB (hbmBase h) 0 (domOn (26 + h) s && domOn (28 + h) s) s') (upTo 2) (showWiping s)

/-- Domains whose SRAM the Midnight wipe clears (R264): clusters, cores, front-end groups, lane groups. -/
def hasSram (d : Nat) : Bool := (decide (34 ≤ d) && decide (d < 114)) || (decide (130 ≤ d) && decide (d < 142))

/-- A domain is switched (R417): one that wakes has its SRAM wiped; no scrub pass runs in a scratchpad that is off (R262). -/
def switchDom (on : Bool) (d : Nat) (s : State) : State :=
  if domOn d s = on then s else
    let s := wrB (kPWR_DOM (d / 32)) (d % 32) on s
    if !on then
      let s := if 50 ≤ d ∧ d < 114 ∧ d % 2 = 1 then wrB (coreBase ((d - 50) / 2) + 0x200) 2 false s else s
      { s with pwr := { s.pwr with wiping := s.pwr.wiping.filter (· != d) } }
    else if hasSram d then { s with pwr := { s.pwr with wiping := s.pwr.wiping ++ [d] } } else s

/-- The Midnight wipe of a domain (R264): its SRAM reads zero. That of a lane group is the camera ports' receive buffers. -/
def wipeDom (d : Nat) (s : State) : State :=
  if d ∉ s.pwr.wiping then s else
    let s := wipeSram d s
    if d < 50 then s
    else if d < 114 then
      let n := (d - 50) / 2
      if d % 2 = 1 then s else updCore n (fun c => { c with eng := {}, params := [] }) s
    else if d < 134 then wipeTables d s
    else wipeBuffers d s
/-- MIDNIGHT_WIPE (R264). -/
def execMidnightWipe (domain : Fin 148) (s : State) : Host.Outcome State Fault Refusal := .next (showWipe (wipeDom domain.val s))
/-- Every wipe that has not ended ends. -/
def wipeAll (s : State) : State := showWipe (eachDo wipeDom s.pwr.wiping s)

/-- Clusters that a partition uses: it owns a core there, or a region of its lies in the cluster's memory. -/
def clusterUsed (k : Nat) (s : State) : Bool :=
  ((upTo 8).any fun i => (coreOwner (8 * k + i) s).isSome) ||
  s.img.any fun x => decide (x.ty = 0x11) && (upTo (x.body.length / 32)).any fun r =>
    let a := leAt x.body (32 * r) 8
    decide (0x1000000000 + k * 0x2000000 ≤ a) && decide (a < 0x1000000000 + (k + 1) * 0x2000000)
/-- A domain is used by the image in force (R417). -/
def domUsed (d : Nat) (s : State) : Bool :=
  if d < 26 then true
  else if d < 30 then s.img.any fun x => decide (x.ty = 0x10)
  else if d < 34 then clusterUsed (d - 30) s
  else if d < 50 then clusterUsed ((d - 34) / 4) s
  else if d < 114 then (coreOwner ((d - 50) / 2) s).isSome
  else if d < 130 then (feOwner (d - 114) s).isSome
  else if d < 134 then (upTo 4).any fun i => (feOwner (4 * (d - 130) + i) s).isSome
  else if d < 142 then (upTo 8).any fun i => (laneStream (8 * (d - 134) + i) s).isSome
  else if d < 146 then linkUsed (d - 142) s
  else (upTo 16).any fun n => (cdsOwner n s).isSome
/-- The domains as the image in force uses them: those that come into use in ascending order, the others off in descending order (R418). -/
def setDomains (s : State) : State :=
  let ds := (upTo 148).filter fun d => decide (2 ≤ d)
  let s' := eachDo (switchDom true) (ds.filter fun d => domUsed d s) s
  showWipe (showEn (eachDo (switchDom false) (ds.reverse.filter fun d => !domUsed d s) s'))

/-! ### Rails (R419 to R422) -/

/-- The effective setpoint and floor in mV (R421). -/
def railSet (s : State) : Nat := min (pwrCfg 0 2 s + s.flash.deltaV) (pwrCfg 2 2 s)
def railFloor (s : State) : Nat := pwrCfg 4 2 s + s.flash.deltaV
/-- A rail's present setpoint. -/
def rail (k : Nat) (s : State) : Nat := rdF (kPWR_RAIL k) 9 0 s
def setRail (k mv : Nat) (s : State) : State := wr (kPWR_RAIL k) (wd (mv % 1024 + railFloor s % 1024 * 65536)) s
/-- Every rail at the effective setpoint. -/
def railsUp (s : State) : State := eachDo (fun k s => setRail k (railSet s) s) (upTo 4) s
/-- PWR_AGE and PWR_MC_COUNT as the flash gives them. -/
def showAge (s : State) : State := wr kPWR_MC_COUNT (wd s.flash.mcCount) (wr kPWR_AGE (wd s.flash.deltaV) s)

/-- B_MAX in half microjoules (R420). -/
def noonMax (s : State) : Nat := (pwrCfg 10 2 s - pwrCfg 12 2 s) * 6000000
/-- L is NOON_PEAK (R420). -/
def noonOpen (s : State) : Bool := decide (pwrCfg 8 1 s = 1) && decide (100000 < s.pwr.budget)
/-- The budget shown in mJ. -/
def showBudget (s : State) : State := wr kPWR_BUDGET (wd (s.pwr.budget / 2000)) (wrB kPWR_STAT 1 (noonOpen s) s)
/-- B filled, at the end of the Dawn sequence. -/
def fillNoon (s : State) : State := showBudget { s with pwr := { s.pwr with budget := noonMax s } }
/-- B after one sample of P in 0.1 W. -/
def noonStep (p10 : Nat) (s : State) : State :=
  let sus := 10 * pwrCfg 12 2 s
  let b := if sus < p10 then s.pwr.budget - 2 * (p10 - sus) else min (noonMax s) (s.pwr.budget + 5 * (pwrCfg 10 2 s - pwrCfg 12 2 s))
  let was := rdB kPWR_STAT 1 s
  let s := showBudget { s with pwr := { s.pwr with budget := b } }
  if was && !rdB kPWR_STAT 1 s then
    raiseFault 0xB004 0 0xFF 0 [0] (inc kPWR_CNT_NOON 1 (wrB kPWR_EVT 0 true s))
  else s

/-- A core's live pace is below 0.50 (R424). -/
def coreSlow (n : Nat) (s : State) : Bool :=
  rdB kCLK_EN0 n s && decide (rd (coreBase n + 0xB04) s ≠ 0xFFFF) && decide (rdF (coreBase n + 0xB00) 15 0 s < 0x0800)
/-- The VFs of the partitions that own a core. -/
def coreFns (s : State) : List Nat := 0 :: ((upTo 16).filter fun p => !(partCores p s).isEmpty).map (· + 1)
/-- BELOW_FLOOR (R421, R424): a rail below its effective floor, or a core below pace 0.50. -/
def showFloor (s : State) : State :=
  let low := ((upTo 4).any fun k => decide (rail k s < railFloor s)) || (upTo 32).any fun n => coreSlow n s
  let was := rdB kPWR_STAT 3 s
  let s := wrB kPWR_STAT 3 low s
  if low && !was then raiseFault 0xB005 0 0xFF 0 (coreFns s) (inc kPWR_CNT_FLOOR 1 (wrB kPWR_EVT 1 true s)) else s

/-- DET_SLIP (R422, R436). -/
def detSlip (s : State) : State :=
  if rdB kPWR_STAT 6 s then s else raiseFault 0xB00A 0 0xFF 0 (allFns s) (wrB kPWR_EVT 4 true (wrB kPWR_STAT 6 true s))

/-- THERM_LIMIT (R423): from a step down for temperature until the rails may rise again. -/
def showLimit (g : GovReading) (s : State) : State :=
  let below := (upTo 4).any fun k => decide (rail k s < railSet s)
  let was := rdB kPWR_STAT 4 s
  let on := decide (103 ≤ g.tj) || (was && decide (100 ≤ g.tj) && below)
  let s := wrB kPWR_STAT 4 on (wrB kPWR_STAT 2 below s)
  if on && !was then raiseFault 0xB006 0 0xFF 0 [0] (wrB kPWR_EVT 2 true s) else s

/-- HBM_STAT of a stack (R268): its temperature; REFRESH is a free value, because no rule says when it changes. -/
def hbmHeat (h t : Nat) (s : State) : State :=
  if !rdB kCLK_EN2 (3 + h) s then s else
    wrF (hbmBase h) 5 4 ((Config.freeWord s.fresh).toNat % 3) (wrF (hbmBase h) 15 8 (satN 255 t) (draw 1 s))

/-- GOVERNOR_SAMPLE (R420 to R423): the readings are shown; after the Dawn sequence the rails step under the limit L in force and B is
updated. -/
def governorBody (g : GovReading) (s : State) : State :=
  if !s.boot.osc then s else
    let s := wr kPWR_IN (wd (satN 65535 g.p10)) s
    let s := wr kPWR_TJ (wd (satN 255 g.tj + satN 255 (max g.tHbm0 g.tHbm1) * 256)) s
    let s := hbmHeat 1 g.tHbm1 (hbmHeat 0 g.tHbm0 s)
    let s := wr kPWR_VIN (wd (satN 65535 g.vin + satN 65535 g.vfield * 65536)) s
    if !s.boot.dawnDone then s else
      let l := 10 * (if rdB kPWR_STAT 1 s then pwrCfg 10 2 s else pwrCfg 12 2 s)
      let s :=
        if 103 ≤ g.tj ∨ l < g.p10 then
          let s := eachDo (fun k s => setRail k (rail k s - 5) s) (upTo 4) s
          if det s then detSlip s else s
        else if g.p10 + 50 < l ∧ g.tj < 100 then eachDo (fun k s => setRail k (if rail k s < railSet s then min (railSet s) (rail k s + 5) else rail k s) s) (upTo 4) s
        else s
      noonStep g.p10 (showLimit g (showFloor s))
/-- GOVERNOR_SAMPLE (R421). -/
def execGovernorSample (g : GovReading) (s : State) : Host.Outcome State Fault Refusal := .next (governorBody g s)

/-- PACE_SAMPLE (R424): the live pace of the cores and clusters that are on. -/
def paceBody (live clu : List (BitVec 16)) (s : State) : State :=
  if !s.boot.dawnDone then s else
    let s := eachDo (fun (x : BitVec 16 × Nat) s => if rdB kCLK_EN0 x.2 s then
        let b := coreBase x.2 + 0xB00
        wr (b + 4) (wd (min (rd (b + 4) s).toNat x.1.toNat)) (wrF b 15 0 x.1.toNat s) else s) (live.take 32).zipIdx s
    let s := eachDo (fun (x : BitVec 16 × Nat) s => if rdB kCLK_EN1 (16 + x.2) s then wr (kPWR_CLU_PACE x.2) (wd x.1.toNat) s else s)
      (clu.take 4).zipIdx s
    showFloor s
/-- PACE_SAMPLE (R424). -/
def execPaceSample (live : List (BitVec 16)) (clu : List (BitVec 16)) (s : State) : Host.Outcome State Fault Refusal :=
  .next (paceBody live clu s)

/-! ### Thermal trip (R423) -/

/-- The cores and clusters go off: what their SRAM and sequencers held is lost. -/
def coresOff (s : State) : State :=
  showEn (eachDo (switchDom false) ((upTo 84).map fun i => 113 - i) { s with cores := [] })

/-- THERM_TRIP (R423). -/
def tripBody (s : State) : State :=
  if !s.boot.dawnDone then s else
    let s := eachDo (fun n s => flushCore n false s) (upTo 32) s
    let s := eachDo haltPart ((upTo 16).filter fun p => partUsed p s && !(partCores p s).isEmpty) s
    let s := inc kPWR_CNT_THERM 1 (wrB kPWR_EVT 3 true (wrB kPWR_STAT 5 true (coresOff s)))
    raiseFault 0xB007 0 0xFF 0 (allFns s) s
/-- THERM_TRIP (R423). -/
def execThermTrip (s : State) : Host.Outcome State Fault Refusal := .next (tripBody s)

/-- The acknowledgement of a trip (R423): below 90 °C the domains come back; otherwise the cause persists. -/
def tripAck (s : State) : Bool × State :=
  if 90 ≤ tjNow s then (false, s) else
    let s := eachDo (switchDom true) ((upTo 84).map (· + 30) |>.filter fun d => domUsed d s) s
    (true, wrB kPWR_STAT 5 false (showEn (wipeAll s)))

/-! ### The Morning check (R425 to R427) -/

/-- A core's birth record (R426): the paces at the reference points at 70 °C in Q4.12, and TC in 2^−16. -/
def birthRec (n : Nat) (s : State) : List Int × Int :=
  match Fam.find n s.fuses.birth with
  | some b => ((upTo 3).map fun i => (leAt b (2 * i) 2 : Int), sx 16 (leAt b 6 2))
  | none => ((upTo 3).map fun i => (((Config.birth n).toNat / 2 ^ (16 * i) % 65536 : Nat) : Int), sx 16 ((Config.birth n).toNat / 2 ^ 48))

/-- The rail of cluster `k` may be stepped to the reference points while the cores `ns` are checked (R426): every core on it is one of them,
or idle in a partition that is stopped or unused. -/
def railFree (ns : List Nat) (k : Nat) (s : State) : Bool :=
  (upTo 8).all fun i =>
    let n := 8 * k + i
    ns.contains n || ((coreOf n s).job.isNone &&
      match coreOwner n s with | some p => decide (partState p s ≠ 4) && !partRuns p s | none => true)
/-- The readings of a core at the reference points in 2^−16, at `t` °C (R426): measured there, or mapped from the reading at the rail's
present voltage with the birth record's slope, less 0.010. -/
def checkLine (ns : List Nat) (r : CheckReading) (t : Int) (s : State) : List Int :=
  let b := birthRec r.core s
  let norm := b.2 * (t - r.tj)
  let k := r.core.val / 8
  if railFree ns k s then [r.p70, r.p75, r.p80].map fun (p : Nat) => 16 * (p : Int) + norm
  else
    let bl := b.1.map (16 * ·)
    [700, 750, 800].map fun v => 16 * (r.now : Int) + norm + (linePace bl v - linePace bl (rail k s)) - 656

/-- A checked core's line of the ageing log. -/
def ageing (n : Nat) (s : State) : Ageing := Fam.get {} n s.flash.ageing
/-- p_f of a core at a floor, in Q4.12. -/
def paceAt (n mv : Nat) (s : State) : Nat := q412 (linePace (ageing n s).line mv)

/-- A core's readings enter the ageing log; drift is in 0.01 %. -/
def logAge (ns : List Nat) (r : CheckReading) (s : State) : State :=
  let n := r.core.val
  let p := (checkLine ns r 70 s).getD 1 0
  let b := max 1 (16 * (birthRec n s).1.getD 1 1)
  let drift := (p - b) * 10000 / b
  let a : Ageing := { drift := BitVec.ofInt 16 drift, pf := 0, tj := r.tj, norm := !railFree ns (n / 8) s,
                      line := checkLine ns r (pwrCfg 9 1 s) s, lastTick := tick s }
  let s := { s with flash := { s.flash with ageing := s.flash.ageing.set n a } }
  wr (coreBase n + 0xB08) (wd (a.drift.toNat + b2n a.norm * 65536)) s

/-- The smallest offset in 5 mV steps from `d`, at most `k` of them, that satisfies a test. -/
def firstStep (ok : Nat → Bool) : Nat → Nat → Option Nat
  | 0, _ => none
  | k + 1, d => if ok d then some d else firstStep ok k (d + 5)

/-- R427, step 1: ΔV rises to the smallest offset at which every checked core reaches PACE_PLAN at the floor, or as far as VMAX lets it. -/
def raiseDelta (ns : List Nat) (s : State) : State :=
  let d0 := s.flash.deltaV
  let plan := pwrCfg 6 2 s
  let fits := fun d => decide (max (pwrCfg 0 2 s) (pwrCfg 4 2 s) + d ≤ pwrCfg 2 2 s)
  let good := fun d => ns.all fun n => decide (plan ≤ paceAt n (pwrCfg 4 2 s + d) s)
  if good d0 || det s then s else
    let d := match firstStep (fun d => good d || !fits (d + 5)) 64 d0 with | some d => d | none => d0
    let d := if fits d then d else d0
    let s := { s with flash := { s.flash with deltaV := d } }
    if good d then s else raiseFault 0xB009 0 0xFF 0 [0] s

/-- A model fails admission on its own or in its binding (R427): the reason of R298. -/
def unfitNow (h : Nat) (m : Model) (s : State) : Option Nat :=
  let ns := liveCores m.part s
  let solo : Binding := { models := [some h], dusks := [], speedMax := 1, duskMarginUs := 0, duskHoldMs := 0, skipLate := false,
                          onIncomplete := false, onDegraded := false }
  let own := match fitTest m.part ns { live := [], rep := [(64, solo)] } s with
    | some r => if r.reason = 0x0B then none else some r.reason
    | none => none
  let bound := s.binds.findSome? fun b =>
    if decide (streamPart b.1 s = some m.part) && (bindModels b.2 ++ bindDusks b.2).contains h then
      match admission m.part (fun _ => false) (if isTarget b.1 s then { live := [], rep := [b] } else { live := [b], rep := [] }) s with
      | some r => if r.model = h then some r.reason else none
      | none => none
    else none
  own.orElse fun _ => bound

/-- R427, step 3: models are marked unfit or fit again. -/
def markUnfit (s : State) : State :=
  eachDo (fun (x : Nat × Model) s =>
    let bad := unfitNow x.1 x.2 s
    let s := { s with models := s.models.set x.1 { x.2 with unfit := bad } }
    if bad.isSome && x.2.unfit.isNone then raiseFault 0xB008 0 x.2.part (wd x.1) [fnOf x.2.part] s else s) s.models s

/-- R427, step 2: a partition whose p_a fell while it runs takes the table of R308. -/
def replanPace (p : Nat) (s : State) : State :=
  let old := (rd (acctBase p + 0x88) s).toNat
  if paceChecked (liveCores p s) s < old ∧ partRuns p s then applyPlan p s else showPace p s

/-- A Morning check of cores ends (R426, R427): readings, ΔV, checked paces, admission, flags, its audit record. -/
def morningCheckOf (ns : List Nat) (rs : List CheckReading) (s : State) : State :=
  let rs := rs.filter fun r => ns.contains r.core.val
  let s := eachDo (logAge ns) rs s
  let done := rs.map fun r => r.core.val
  let s := raiseDelta done s
  let s := eachDo (fun n s =>
    let pf := paceAt n (railFloor s) s
    wrF (coreBase n + 0xB00) 31 16 pf { s with flash := { s.flash with ageing := s.flash.ageing.set n { ageing n s with pf := pf } } }) done s
  let s := showAge { s with flash := { s.flash with mcCount := s.flash.mcCount + 1 } }
  let s := eachDo (fun k s => setRail k (rail k s) s) (upTo 4) s
  let s := markUnfit (eachDo replanPace ((upTo 16).filter fun p => partUsed p s) s)
  let mask := done.foldl (fun a n => a ||| 2 ^ n) 0
  let s := auditEvent 0xE006 0 0xFF (natLE 4 mask ++ natLE 1 s.flash.deltaV) s
  wrB kPWR_EVT 5 true (wrB kPWR_STAT 7 false s)

/-- The ageing log shown in the core registers, after a reset. -/
def showAgeing (s : State) : State :=
  eachDo (fun n s =>
    let a := ageing n s
    let s := wr (coreBase n + 0xB0C) (wd (BitVec.ofInt 16 (birthRec n s).2).toNat) s
    wr (coreBase n + 0xB08) (wd (a.drift.toNat + b2n a.norm * 65536)) s) (upTo 32) (showAge s)

end Sys2Proof.Machine
end

