-- ==== Sys2Proof/Machine/Acct.lean ====
section
/-! DEFINITION. Accounting: the latches of R314 and the apportionment of energy (13_scheduling_and_deadlines.md, R312 to R315). -/

namespace Sys2Proof.Machine

open Sys2Proof

/-- Engine time of the attempt that occupies a core so far (R312). -/
def runningNs (n : Nat) (s : State) : Nat :=
  let c := coreOf n s
  if c.job.isNone then 0 else (nowNs s).toNat - c.sinceNs - retryNow c.eng s
/-- A partition's counter as it stands: attempts in progress count up to now. -/
def acctNow (p o : Nat) (s : State) : BitVec 64 :=
  let c := cntGet (acctBase p + o) s
  if o = aENGINE then
    c + BitVec.ofNat 64 (((upTo 32).filter fun n => decide ((coreOf n s).part = p)).foldl (fun a n => a + runningNs n s) 0)
  else c

/-- A 64-bit value into a register pair. -/
def wrPair (k : Nat) (v : BitVec 64) (s : State) : State := wr (k + 4) ((v >>> 32).setWidth 32) (wr k (v.setWidth 32) s)
/-- Every counter of a partition is copied, with the time (R314). -/
def latchPart (p : Nat) (s : State) : State :=
  let b := acctBase p
  let s := eachDo (fun i s => wrPair (b + 0x10 + 8 * i) (acctNow p (0x10 + 8 * i) s) s) (upTo 14) s
  wrB (b + 4) 0 true (wrPair (b + 8) (nowNs s) s)
/-- ACCT_LATCH_GO (R314): the partition's own VF, or the PF after the expert unlock. -/
def latchBody (fn p : Nat) (v : Word) (s : State) : State :=
  if bitOf 0 v ∧ ((fn = 0 ∧ expert s) ∨ (fn = p + 1 ∧ partUsed p s)) then latchPart p s else s
/-- ACCT_LATCH_GO (R314). -/
def execAcctLatchGo (fn : Fin 17) (p : Fin 16) (v : Word) (s : State) : Host.Outcome State Fault Refusal :=
  .next (viaHost fn.val (latchBody fn.val p.val v) s)
/-- ACCT_MOD_LATCH (R314). -/
def modLatch (fn : Nat) (v : Word) (s : State) : State :=
  if fn = 0 ∧ expert s ∧ bitOf 0 v then
    let s := eachDo latchPart (upTo 16) s
    wrPair (kACCT_MOD + 8) (cntGet (kACCT_MOD + 8) s) (wrPair kACCT_MOD (cntGet kACCT_MOD s) s)
  else s
/-- ACCT_MOD_LATCH (R314). -/
def execAcctModLatch (fn : Fin 17) (v : Word) (s : State) : Host.Outcome State Fault Refusal := 
  .next (viaHost fn.val (modLatch fn.val v) s)

/-! ### Energy (R313) -/

/-- Engine time on a core within the interval that ends. -/
def intervalNs (n : Nat) (s : State) : Nat := Fam.get 0 n s.pwr.coreNs + runningNs n s - Fam.get 0 n s.pwr.coreLast
/-- Engine time of each partition on some cores within the interval. -/
def engineShares (ns : List Nat) (s : State) : List (Nat × Nat) :=
  (upTo 16).map fun p => (p, (ns.filter fun n => decide (coreOwner n s = some p)).foldl (fun a n => a + intervalNs n s) 0)
/-- What each of some partitions is charged of `e` µJ in proportion to its weight, in whole µJ. -/
def apportion (e : Nat) (ws : List (Nat × Nat)) : List (Nat × Nat) :=
  let t := ws.foldl (fun a (w : Nat × Nat) => a + w.2) 0
  if t = 0 then [] else ws.map fun w => (w.1, e * w.2 / t)
/-- Equal weights for owners; a part without an owner goes to no partition (weight of partition 16). -/
def ownerWeights (os : List (Option Nat)) : List (Nat × Nat) := os.map fun o => (o.getD 16, 1)
/-- The weights by which a domain's energy is charged (R313). -/
def domainWeights (d : Nat) (s : State) : List (Nat × Nat) :=
  if (20 ≤ d ∧ d < 24) ∨ (26 ≤ d ∧ d < 30) then engineShares (upTo 32) s
  else if 30 ≤ d ∧ d < 34 then engineShares ((upTo 8).map (· + 8 * (d - 30))) s
  else if 34 ≤ d ∧ d < 50 then engineShares ((upTo 8).map (· + 8 * ((d - 34) / 4))) s
  else if 50 ≤ d ∧ d < 114 then ownerWeights [coreOwner ((d - 50) / 2) s]
  else if 114 ≤ d ∧ d < 130 then ownerWeights [feOwner (d - 114) s]
  else if 130 ≤ d ∧ d < 134 then ownerWeights ((upTo 4).map fun i => feOwner (4 * (d - 130) + i) s)
  else if 134 ≤ d ∧ d < 142 then ownerWeights ((upTo 8).map fun i => (laneStream (8 * (d - 134) + i) s).bind fun st => streamPart st s)
  else if 146 ≤ d then (upTo 16).map fun p => (p, (part p s).energySamples)
  else []
/-- A domain's energy charged: the partitions' parts, the rest unassigned, the total. -/
def chargeDomain (d e : Nat) (s : State) : State :=
  let parts := (apportion e (domainWeights d s)).filter fun x => decide (x.1 < 16)
  let given := parts.foldl (fun a (x : Nat × Nat) => a + x.2) 0
  let s := eachDo (fun (x : Nat × Nat) s => if x.2 = 0 then s else acct x.1 aENERGY x.2 s) parts s
  cntAdd kACCT_MOD e (cntAdd (kACCT_MOD + 8) (e - given) s)
/-- ENERGY_INTERVAL: the energy of each domain in µJ over the last 1 ms (R313). -/
def energyBody (uj : List Nat) (s : State) : State :=
  let s := eachDo (fun (x : Nat × Nat) s => chargeDomain x.2 x.1 s) (uj.take 148).zipIdx s
  let last := (upTo 32).map fun n => (n, Fam.get 0 n s.pwr.coreNs + runningNs n s)
  { s with pwr := { s.pwr with coreLast := last }, parts := s.parts.map fun x => (x.1, { x.2 with energySamples := 0 }) }
/-- ENERGY_INTERVAL (R313). -/
def execEnergyInterval (uj : List Nat) (s : State) : Host.Outcome State Fault Refusal := .next (energyBody uj s)

end Sys2Proof.Machine
end

