-- ==== Sys2Proof/Machine/FeCmd.lean ====
section
/-! DEFINITION. The commands of the front ends (05_image_front_ends.md): commits and table loads (R118, R119), slots, output lines and
records as they happen. -/

namespace Sys2Proof.Machine

open Sys2Proof

/-- A function reaches a stream's slot-set (R392): its owner's VF, or the PF after the expert unlock, while the front end's clock runs
(R9). -/
def fesReach (fn st : Nat) (s : State) : Bool :=
  rdB kCLK_EN1 (st / 4) s && (if fn = 0 then expert s else decide (feOwner (st / 4) s = some (fn - 1)))

/-- FES_COMMIT (R118, R119): GO makes the shadows pending; with TBL the table swap is armed too. -/
def fesCommit (fn st : Nat) (v : Word) (s : State) : State :=
  if !fesReach fn st s || !bitOf 0 v then s else
    let s := feStat st fsPEND true s
    if bitOf 1 v then feStat st fsTBLPEND true (updFe st (fun f => { f with swap := true }) s) else s
/-- FES_COMMIT_GO (R118). -/
def execFesCommitGo (fn : Fin 17) (st : Fin 64) (v : Word) (s : State) : Host.Outcome State Fault Refusal :=
  .next (viaHost fn.val (fesCommit fn.val st.val v) s)
/-- FES_COMMIT_TBL (R119). -/
def execFesCommitTbl (fn : Fin 17) (st : Fin 64) (v : Word) (s : State) : Host.Outcome State Fault Refusal :=
  .next (viaHost fn.val (fesCommit fn.val st.val (v ||| 2)) s)

/-- Bits of FES_TBL_CTL (R120). -/
abbrev tbBUSY : Nat := 1
abbrev tbERR : Nat := 2
abbrev tbREADY : Nat := 3

/-- A table's bytes for a stream (R119). -/
def tableLen (st : Nat) (s : State) : Nat := tblLen (lineWidth st s) (planesOf st s)

/-- A table load starts (R119): the pending slot is not ready until it has completed; a refused or uncorrectable line fails it. -/
def startLoad (st addr : Nat) (cal : Bool) (s : State) : State :=
  let s := feStat st fsTBLRDY false (wrB (fes st + 0x7C) tbREADY false (wrB (fes st + 0x7C) tbERR false (wrB (fes st + 0x7C) tbBUSY true (awaitTables st s))))
  let r := devRead mFe (st / 4) (feTag st s) addr (tableLen st s) s
  updFe st (fun f => { f with loading := some (if r.2.1 ≠ 0 ∨ r.2.2.1 then [] else r.1), calLoad := cal }) r.2.2.2

/-- A write of FES_TBL_CTL (R119). START is ignored while the load of a calibration run is in progress (R138). -/
def tblStart (fn st : Nat) (v : Word) (s : State) : State :=
  if !fesReach fn st s || !bitOf 0 v || (fe st s).calLoad then s else
    startLoad st ((rd (fes st + 0x74) s).toNat / 64 * 64 + rdF (fes st + 0x78) 15 0 s * 2 ^ 32) false s
/-- FES_TBL_CTL_START (R119). -/
def execFesTblCtlStart (fn : Fin 17) (st : Fin 64) (v : Word) (s : State) : Host.Outcome State Fault Refusal :=
  .next (viaHost fn.val (tblStart fn.val st.val v) s)

/-- A table load ends (R119): the pending slot is ready, or ERR. That of a calibration run arms the swap (R138). -/
def loadDone (st : Nat) (s : State) : State :=
  let f := fe st s
  match f.loading with
  | none => s
  | some bs =>
    let s := wrB (fes st + 0x7C) tbBUSY false s
    if bs.isEmpty then wrB (fes st + 0x7C) tbERR true (updFe st (fun f => { f with loading := none, pending := none, calLoad := false }) s)
    else
      let s := feStat st fsTBLRDY true (wrB (fes st + 0x7C) tbREADY true s)
      let s := updFe st (fun x => { x with loading := none, pending := some bs, calLoad := false, swap := x.swap || f.calLoad }) s
      if f.calLoad then feStat st fsTBLPEND true s else s
/-- TABLE_LOAD_DONE (R119). -/
def execTableLoadDone (st : Fin 64) (s : State) : Host.Outcome State Fault Refusal := .next (loadDone st.val s)

/-- TRIGGER_SLOT_MISSING (R108). -/
def execTriggerSlotMissing (st : Fin 64) (s : State) : Host.Outcome State Fault Refusal := .next (missingBody st.val s)
/-- FRAME_START (R110). -/
def execFrameStart (st : Fin 64) (s : State) : Host.Outcome State Fault Refusal := .next (frameBody st.val s)
/-- OUTPUT_LINE_WRITE (R103, R104). -/
def execOutputLineWrite (st : Fin 64) (n : Fin 4) (s : State) : Host.Outcome State Fault Refusal := .next (outputBody st.val n.val s)
/-- STAT_RECORD_WRITE (R111). -/
def execStatRecordWrite (st : Fin 64) (s : State) : Host.Outcome State Fault Refusal := .next (statBody st.val s)

end Sys2Proof.Machine
end

