-- ==== Sys2Proof/Machine/Field.lean ====
section
/-! DEFINITION. The commands of the motion unit and the field island: counts, edges, windows, presets, outputs (14_motion_and_ejection.md),
inputs, protection, heartbeat and the supervisor port (15_field_io_and_supervisor.md). -/

namespace Sys2Proof.Machine

open Sys2Proof

/-! ### Motion -/

/-- An accepted count (R316, R318, R319): Q and P follow, and a move of P is evaluated by outputs and ledger. -/
def countBody (i : Nat) (fwd : Bool) (s : State) : State :=
  if !srcOn i s then s else
    let x := msrc i s
    let p := encPos i s
    let r := encApply (srcDecided i s) x.pend x.q p fwd
    let s := updSrc i (fun x => { x with pend := r.2.1, q := r.2.2.1 }) s
    let b := srcBase i
    let s := wrF (b + 8) 3 2 (countLevels (rdF (b + 8) 3 2 s) fwd) (wrB (b + 8) 0 r.1 s)
    if r.2.2.2 = p then s else
      posMoved i (r.2.2.2 - p).toInt (wrB (b + 8) 1 (!fwd) (wr (kPOS i) r.2.2.2 s))

/-- An accepted quadrature count (R318). -/
def execEncCount (i : Fin 4) (fwd : Bool) (s : State) : Host.Outcome State Fault Refusal := .next (countBody i.val fwd s)

/-- A rising edge of Z (R321). -/
def execEncZEdge (i : Fin 4) (s : State) : Host.Outcome State Fault Refusal := .next (zEdge i.val s)

/-- An edge copied to a passthrough output (R328). -/
def execPassthroughEdge (m : Fin 4) (pins : BitVec 3) (s : State) : Host.Outcome State Fault Refusal := .next (passBody m.val pins s)

/-- A synthesised edge leaves its output (R328, R329). -/
def execEmuEdge (m : Fin 4) (s : State) : Host.Outcome State Fault Refusal := .next (emuEdgeBody m.val s)

/-- A speed window ends (R323); firing points are evaluated (R338). -/
def execSpeedWindowEnd (src : Fin 6) (s : State) : Host.Outcome State Fault Refusal :=
  .next (if srcOn src.val s then evalSrc src.val (windowEnd src.val s) else s)

/-- An SSI frame period starts (R322). -/
def execSsiFrame (j : Fin 2) (s : State) : Host.Outcome State Fault Refusal := .next (ssiStart j.val s)

/-- An SSI frame ends (R322): the position follows the word, and outputs and ledger are evaluated. -/
def ssiEndBody (j : Nat) (raw : Word) (s : State) : State :=
  if !srcOn (4 + j) s || !rdB (srcBase (4 + j) + 0xC) 1 s then s else
    let first := (msrc (4 + j) s).last.isNone
    let p := encPos (4 + j) s
    let s := ssiWord j raw s
    let d := (encPos (4 + j) s - p).toInt
    let s := if first then s else eachDo (fun m s => emuMove m (4 + j) d s) (upTo 4) s
    evalSrc (4 + j) s

/-- An SSI word is complete (R322). -/
def execSsiFrameEnd (j : Fin 2) (raw : Word) (s : State) : Host.Outcome State Fault Refusal := .next (ssiEndBody j.val raw s)

/-- A pull-in time ends (R340, R341). -/
def execPullinEnd (d : Fin 32) (s : State) : Host.Outcome State Fault Refusal := .next (pullinEndBody d.val s)

/-- A pulse ends (R340, R342). -/
def execPulseEnd (d : Fin 32) (s : State) : Host.Outcome State Fault Refusal := .next (pulseEndBody d.val s)

/-- MOT_SNAP.GO (R324). -/
def execMotSnapGo (fn : Fin 17) (v : Word) (s : State) : Host.Outcome State Fault Refusal := 
  .next (viaHost fn.val (snapBody fn.val v) s)

/-- A source is in use (R325): a started stream's ENC_SRC, or an open ledger entry's. -/
def srcUsed (i : Nat) (s : State) : Bool :=
  ((upTo 64).any fun st => (strm st s).started && decide (cfg 0x20 st 7 1 s = i)) || (s.ents.any fun e => decide (e.2.src = i))

/-- A preset (R325): P takes the value, or the write is ignored while the source is in use. The answer says which. DEDUCED
(notes/assumptions/47.md): a preset is no motion for a comparator either. -/
def preset (i : Nat) (v : Word) (s : State) : Bool × State :=
  if srcUsed i s then (false, if i < 4 then wrB (srcBase i + 0xC) 2 true s else s)
  else
    let p := encPos i s
    let s := updSrc i (fun x => { x with q := v + (x.q - p) }) s
    let shift := fun (x : Nat) (b : Word) => if x = i then b + (v - p) else b
    let s := { s with cmprs := s.cmprs.map fun c => (c.1, { c.2 with x0 := shift c.2.x c.2.x0, y0 := shift c.2.y c.2.y0 }) }
    (true, wr (kPOS i) v (if i < 4 then wrB (srcBase i + 0xC) 1 true s else s))

/-- A write of ENC_PRESET with expert access (R325). -/
def execEncPreset (fn : Fin 17) (i : Fin 4) (v : Word) (s : State) : Host.Outcome State Fault Refusal :=
  .next (viaHost fn.val (fun s => if fn.val = 0 ∧ expert s ∧ gateEn 6 s then (preset i.val v s).2 else s) s)

/-- A write of SSI_PRESET with expert access (R325). -/
def execSsiPreset (fn : Fin 17) (j : Fin 2) (v : Word) (s : State) : Host.Outcome State Fault Refusal :=
  .next (viaHost fn.val (fun s => if fn.val = 0 ∧ expert s ∧ gateEn 6 s then (preset (4 + j.val) v s).2 else s) s)

/-- The ledger settings' fields are in range, and an external route names a queue of the partition (R332). -/
def ldsOk (st p : Nat) (s : State) : Bool :=
  let g := fun o => rd (ldsBase st + o) s
  decide (fld 5 4 (g 0) ≠ 3) && decide (0 < fld 15 0 (g 0x10)) &&
  decide (10 ≤ fld 19 0 (g 0x14)) && decide (fld 19 0 (g 0x14) ≤ 1000000) &&
  decide (1 ≤ fld 13 0 (g 0x18)) && decide (fld 13 0 (g 0x18) ≤ 10000) &&
  (!bitOf 1 (g 0) || (cfg 0x10 p (16 + fld 8 8 (g 0)) 1 s).testBit (fld 11 9 (g 0)))

/-- LDS_COMMIT.GO (R332): the shadows take effect together, or the GO is ignored and sets REFUSED. -/
def ldsGo (st : Nat) (s : State) : State :=
  match streamPart st s with
  | none => s
  | some p =>
    if ldsOk st p s then
      wrF (ldsBase st + 0x20) 1 0 0 (eachDo (fun o s => takeShadow (ldsBase st + o) s) [0, 4, 8, 0xC, 0x10, 0x14, 0x18] s)
    else wrB (ldsBase st + 0x20) 1 true s

/-- A function reaches a stream's MOTION block (R348): its owner, or the PF after the expert unlock. -/
def ldsReach (fn st : Nat) (s : State) : Bool :=
  gateEn 6 s && (if fn = 0 then expert s else decide (streamPart st s = some (fn - 1)))

/-- A write of LDS_COMMIT (R332). -/
def execLdsCommitGo (fn : Fin 17) (st : Fin 64) (v : Word) (s : State) : Host.Outcome State Fault Refusal :=
  .next (viaHost fn.val (fun s => if ldsReach fn.val st.val s ∧ bitOf 0 v then ldsGo st.val s else s) s)

/-- A position record (R327): values of one instant, zero outside ENC_READ, written with the partition's tag. -/
def mirrorBytes (p : Nat) (seq : Word) (s : State) : List Byte :=
  let see := fun i (v : Word) => if encRead p i s then natLE 4 v.toNat else zeros 4
  natLE 4 seq.toNat ++ zeros 4 ++ natLE 8 (nowNs s).toNat ++ (upTo 6).flatMap (fun i => see i (encPos i s)) ++
  (upTo 6).flatMap (fun i => see i (rd (kSPEED i) s))

/-- A mirror period ends (R327). -/
def mirrorBody (p : Nat) (s : State) : State :=
  match Fam.find p s.mirrors with
  | none => s
  | some m =>
    let s := (devWrite mMirror p p m.addr (mirrorBytes p m.seq s) s).2.2
    { s with mirrors := s.mirrors.set p { m with seq := m.seq + 1 } }

/-- A mirror period ends (R327). -/
def execMirrorRecord (p : Fin 16) (s : State) : Host.Outcome State Fault Refusal := .next (mirrorBody p.val s)

/-! ### Inputs (R351 to R353) -/

/-- FIO_DI and its rising-edge counters (R366). -/
abbrev kFIO_DI : Nat := 0x050008
def kDI_CNT (i : Nat) : Nat := 0x050040 + 4 * i

/-- One input's sample (R352): two High in a row set it and count, two Low clear it, a Band restarts the count. -/
def senseOne (i : Nat) (v : DiSample) (s : State) : State :=
  let prev := s.fio.prev.getD i .band
  let on := rdB kFIO_DI i s
  let s := if v = .high ∧ prev = .high ∧ ¬ on then inc (kDI_CNT i) 1 (wrB kFIO_DI i true s)
    else if v = .low ∧ prev = .low ∧ on then wrB kFIO_DI i false s else s
  { s with fio := { s.fio with prev := (s.fio.prev ++ List.replicate (16 - s.fio.prev.length) DiSample.band).set i v } }

/-- All inputs are sensed (R351); an input without a sample in the operand reads Low. -/
def senseBody (smp : List DiSample) (s : State) : State :=
  let s := eachDo (fun i s => senseOne i (smp.getD i .low) s) (upTo 16) s
  wr (supBase + 0x10) (rd kFIO_DI s) s

/-- All inputs are sensed and debounced (R351). -/
def execDiSense (smp : List DiSample) (s : State) : Host.Outcome State Fault Refusal := .next (senseBody smp s)

/-! ### Protection (R355) -/

/-- A protection event: switches off, FAULT, counted and raised; nothing tells which. -/
def fioFault (groups : BitVec 8) (s : State) : State :=
  let s := { s with fio := { s.fio with swOff := s.fio.swOff ||| groups } }
  let s := inc 0x050028 1 (wrB kFIO_EVT 0 true (wrB kFIO_STAT 0 true s))
  raiseFault 0x9001 0 0xFF 0 (groupFns s) (showFio s)

/-- One group's switch trips. -/
def groupTrip (g : Nat) (s : State) : State :=
  let b := BitVec.ofNat 8 (2 ^ g)
  fioFault b { s with fio := { s.fio with tripped := s.fio.tripped ||| b } }

/-- A group's switch carries too much (R355). -/
def execFioShort (g : Fin 8) (s : State) : Host.Outcome State Fault Refusal := .next (groupTrip g.val s)

/-- A group's switch is too hot (R355). -/
def execFioOvertemp (g : Fin 8) (s : State) : Host.Outcome State Fault Refusal :=
  .next (groupTrip g.val s)

/-- The field supply fails (R355): every switch turns off. -/
def execFioUndervoltage (s : State) : Host.Outcome State Fault Refusal :=
  .next (fioFault 0xFF { s with fio := { s.fio with supplyLow := true } })

/-- The field supply is back (R353, R355): the inputs restart from 0. -/
def supplyBack (s : State) : State :=
  if !s.fio.supplyLow then s else
    wr (supBase + 0x10) 0 (wr kFIO_DI 0 { s with fio := { s.fio with supplyLow := false, prev := [] } })

/-- The field supply is back (R355). -/
def execFieldSupplyReturn (s : State) : Host.Outcome State Fault Refusal := .next (supplyBack s)

/-- An acknowledgement of FIO_FAULT (R355): refused while a condition holds (whether a tripped switch's short or heat has gone is
the world's, a free bit); otherwise the switches are enabled with their groups' outputs off. -/
def fioAck (s : State) : Bool × State :=
  let still := s.fio.tripped ≠ 0 && !Config.freeBit s.fresh
  let s := if s.fio.tripped ≠ 0 then draw 1 s else s
  if still || s.fio.supplyLow then (false, s)
  else
    let off := (upTo 8).filter fun g => s.fio.swOff.getLsbD g
    let s := { s with fio := { s.fio with swOff := 0, tripped := 0 } }
    let s := eachDo (fun g s => showGrp g (admitGrp true g 4 (eachDo (fun i s => doOff (4 * g + i) s) (upTo 4) s))) off s
    (true, showFio (wrB kFIO_STAT 0 false s))

/-! ### Heartbeat (R357) -/

/-- A heartbeat (R357): only the steward's counts. -/
def heartbeat (s : State) : State :=
  showFio (inc (supBase + 0x18) 1 (wrB kFIO_STAT 2 true { s with fio := { s.fio with hbTick := tick s } }))

/-- A write of FIO_HB (R357): the PF's is ignored; the heartbeat stops while the steward restarts (R452). -/
def execFioHb (bySteward : Bool) (s : State) : Host.Outcome State Fault Refusal := .next (if bySteward && s.boot.fwRunning then heartbeat s else s)

/-- The heartbeat has stopped for NF_TIMEOUT (R357): the Nightfall state begins. -/
def hbTimeout (s : State) : State :=
  if passed s.fio.hbTick (usTicks (1000 * rdF 0x050010 9 0 s)) s then nightfall 0 false (wrB kFIO_STAT 2 false s) else s

/-- The heartbeat has stopped for NF_TIMEOUT (R357). -/
def execNfHeartbeatTimeout (s : State) : Host.Outcome State Fault Refusal := .next (hbTimeout s)

/-! ### The supervisor port (R360 to R366) -/

/-- The port answers whenever the module is out of reset (R361). -/
def supUp (s : State) : Bool := s.boot.powered && !s.boot.held

/-- A collision that includes a write (R263, R362): flags, counts, the steward's flag, MBX_BUSY. -/
def collide (coll : Option Collision) (bWrites : Bool) (s : State) : State :=
  match coll with
  | none => { s with fio := { s.fio with mbxBusy := false } }
  | some c =>
    if !c.aWrites && !bWrites || decide (0x4000 ≤ c.addr.toNat) then { s with fio := { s.fio with mbxBusy := false } } else
      let s := if c.bLater then
          (let s := if rdB kSUP_STAT 0 s then s else wr (supBase + 0xC) (wd (c.addr.toNat / 4 * 4)) s
           inc (supPfBase + 8) 1 (wrB kSUP_STAT 0 true s)) else s
      let s := if c.aLater then inc (supPfBase + 4) 1 { s with svc := { s.svc with stewardFlag := true } } else s
      showSup { s with fio := { s.fio with mbxBusy := c.bLater } }

/-- A word's address after `i` words: the mailbox wraps within itself (R360). -/
def supAddr (a i : Nat) : Nat := let a := a / 4 * 4; if a < 0x4000 then (a + 4 * i) % 0x4000 else (a + 4 * i) % 0x10000

/-- A transaction's collision is at a word. -/
def hits (coll : Option Collision) (a : Nat) : Bool := match coll with | some c => decide (c.addr.toNat / 4 * 4 = a) && c.aWrites | none => false

/-- One word as the port reads it (R361); a word the steward writes at that moment reads undefined (R263). -/
def supRead (coll : Option Collision) (a i : Nat) (s : State) : Word :=
  if a < 0x4000 then
    (if hits coll a then Config.freeWord (s.fresh + i) else wd (leNat (memRead (mailbox + a) 4 s)))
  else if a < 0x401C then (if a = 0x4008 then rd kSUP_CTL s &&& 5 else rd (supBase + (a - 0x4000)) s)
  else 0

/-- A write of SUP_CTL (R357, R359, R366): NIGHT_REQ and INT_EN are held, a 1 to NIGHT_REQ begins the Nightfall state, CLEAR asks to
end it. -/
def supCtl (v : Word) (s : State) : State :=
  let s := showFio (wr kSUP_CTL (v &&& 5) s)
  let s := if bitOf 0 v then nightfall 1 false s else s
  if bitOf 1 v then (nightClear s).2 else s

/-- One word written over the port (R361); a collision of two writes leaves it undefined (R263). -/
def supWrite (coll : Option Collision) (a : Nat) (v : Word) (s : State) : State :=
  if a < 0x4000 then
    (if hits coll a then draw 1 (memWrite (mailbox + a) (natLE 4 (Config.freeWord s.fresh).toNat) s) else memWrite (mailbox + a) (natLE 4 v.toNat) s)
  else if a = 0x4008 then supCtl v s else s

/-- A read transaction (R360 to R362). -/
def supReadBody (addr : BitVec 16) (words : Nat) (coll : Option Collision) (s : State) : State :=
  if !supUp s then s else
    let as_ := (upTo words).map fun i => (supAddr addr.toNat i, i)
    let s := inc (supPfBase + 0x10) 1 s
    let bad := as_.flatMap fun p => if p.1 < 0x4000 then poisonedWords (mailbox + p.1) 4 s else []
    let vs := as_.map fun p => supRead coll p.1 p.2 s
    let s := eachDo reportUnc bad.eraseDups (collide coll false { s with readData := vs })
    if (as_.any fun p => hits coll p.1) then draw words s else s

/-- A write transaction (R361): whole words are written, a partial one is discarded, flagged and counted. -/
def supWriteBody (addr : BitVec 16) (data : List Byte) (coll : Option Collision) (s : State) : State :=
  if !supUp s then s else
    let s := inc (supPfBase + 0x10) 1 s
    let s := eachDo (fun i s => supWrite coll (supAddr addr.toNat i) (wd (leAt data (4 * i) 4)) s) (upTo (data.length / 4)) s
    let s := collide coll true s
    if data.length % 4 = 0 then s else showSup (inc (supPfBase + 0xC) 1 (wrB kSUP_STAT 1 true s))

/-- READ (R360). -/
def execQspiRead (addr : BitVec 16) (words : Nat) (coll : Option Collision) (s : State) : Host.Outcome State Fault Refusal :=
  .next (supReadBody addr words coll s)

/-- QUAD_READ (R360): the same on four lines. -/
def execQspiQuadRead (addr : BitVec 16) (words : Nat) (coll : Option Collision) (s : State) : Host.Outcome State Fault Refusal :=
  .next (supReadBody addr words coll s)

/-- WRITE (R360, R361). -/
def execQspiWrite (addr : BitVec 16) (data : List Byte) (coll : Option Collision) (s : State) : Host.Outcome State Fault Refusal :=
  .next (supWriteBody addr data coll s)

/-- QUAD_WRITE (R360): the same on four lines. -/
def execQspiQuadWrite (addr : BitVec 16) (data : List Byte) (coll : Option Collision) (s : State) : Host.Outcome State Fault Refusal :=
  .next (supWriteBody addr data coll s)

/-- READ_STATUS (R360, R362): SUP_STAT bits 7:0; COLL, PARTIAL and INT are cleared. -/
def readStatus (s : State) : State :=
  if !supUp s then s else
    let v := rd kSUP_STAT s
    let s := inc (supPfBase + 0x10) 1 { s with readData := [v &&& 0xFF], fio := { s.fio with mbxBusy := false } }
    let w := setBit 0 false (setBit 1 false (setBit 5 false v))
    wr supPfBase w (wr kSUP_STAT w s)

/-- READ_STATUS (R362). -/
def execQspiReadStatus (s : State) : Host.Outcome State Fault Refusal := .next (readStatus s)

/-- The supervisor writes SUP_CTL with a NIGHT_REQ (R357). -/
def execSupCtlNightReq (v : Word) (s : State) : Host.Outcome State Fault Refusal := .next (if supUp s then supCtl v s else s)

/-- The supervisor writes SUP_CTL.CLEAR (R359). -/
def execSupCtlClear (v : Word) (s : State) : Host.Outcome State Fault Refusal := .next (if supUp s then supCtl (v ||| 2) s else s)

/-- The status block of the mailbox (R363): SEQ before, the same value after. -/
def mbxStatus (s : State) : State :=
  let s := stewardMet (poisonedWords (mailbox + 0x2000) 4 s) s
  let seq := wd (leNat (memRead (mailbox + 0x2000) 4 s)) + 1
  let put := fun o (v : Nat) s => memWrite (mailbox + o) (natLE 4 v) s
  let run := (upTo 16).foldl (fun a p => a + (if partRuns p s then 2 ^ p else 0)) 0
  let st := b2n (night s) + 2 * b2n (rdB kFIO_STAT 0 s) + 4 * b2n (!s.img.isEmpty)
  let s := put 0x2000 seq.toNat s
  let s := put 0x2004 (rd (supBase + 0x18) s).toNat s
  put 0x201C seq.toNat (put 0x2010 s.ents.length (put 0x200C run (put 0x2008 st s)))

/-- The steward rewrites the status block (R363). -/
def execMbxStatusUpdate (s : State) : Host.Outcome State Fault Refusal := .next (if s.boot.fwRunning then mbxStatus s else s)

end Sys2Proof.Machine
end

