-- ==== Sys2Proof/Machine/Package.lean ====
section
/-! DEFINITION. Model packages (R287, R288), the verification of their programs (R240) and the load and unload of a model (R43, R289). -/

namespace Sys2Proof.Machine

open Sys2Proof

/-! ### Verification of a program (R240) -/

/-- CTRL operation `op`. -/
def isCtrl (op w : Nat) : Bool := decide (wf 63 54 w = 32 + op)
/-- A PWAIT word. -/
def isPwait (w : Nat) : Bool := decide (wf 63 54 w = 32 * 6 + 1)
/-- PC + off. -/
def wordTarget (i w : Nat) : Int := (i : Int) + sx 16 (wf 15 0 w)
/-- A word R240 refuses for itself: illegal, a LOOP without a body (R213), a wait without a timeout, a target outside the program of `n` words. -/
def badWord (n i w : Nat) : Bool :=
  let out := !(decide (0 ≤ wordTarget i w) && decide (wordTarget i w < n))
  !wordLegal w || (isCtrl 19 w && decide (sx 16 (wf 15 0 w) < 1)) || ((isCtrl 21 w || isPwait w) && decide (wf 31 16 w = 0)) || ((isCtrl 18 w || isCtrl 19 w || isCtrl 24 w) && out)

/-- Where control stands: a word and the bodies of the active loops, innermost first. -/
abbrev Ctl := Nat × List (Nat × Nat)
/-- Control goes to a target: the loops whose bodies do not hold it, and those nested inside them, are left (R213). -/
def leaveTo (n : Nat) (t : Int) (st : List (Nat × Nat)) : List Ctl :=
  if t < 0 ∨ (n : Int) ≤ t then [] else
    let k := t.toNat
    [(k, (st.reverse.takeWhile fun b => decide (b.1 ≤ k) && decide (k ≤ b.2)).reverse)]
/-- Control passes the end of word `i`: back to the start of a body that ends there, or on. -/
def passWord (i : Nat) : List (Nat × Nat) → List Ctl
  | [] => [(i + 1, [])]
  | (a, b) :: r => if b = i then (a, (a, b) :: r) :: passWord i r else [(i + 1, (a, b) :: r)]
/-- The places control may reach next. -/
def ctlNext (n : Nat) (w : Nat) (c : Ctl) : List Ctl :=
  let (i, st) := c
  let on := passWord i st
  if isCtrl 25 w ∨ wf 63 54 w = 32 * 8 then []
  else if isCtrl 18 w then leaveTo n (wordTarget i w) st ++ (if wf 38 36 w = 6 then [] else on)
  else if isCtrl 19 w then (i + 1, (i + 1, (wordTarget i w).toNat) :: st) :: leaveTo n (wordTarget i w + 1) st
  else if isCtrl 21 w ∨ isCtrl 24 w ∨ isPwait w then leaveTo n (wordTarget i w) st ++ on
  else on
/-- The word at which a path nests loops more than 4 deep, found by exploring every place control reaches, at most `k` of them. -/
def tooDeep (ws : List Nat) : Nat → List Ctl → List Ctl → Option Nat
  | 0, _, _ => none
  | _ + 1, _, [] => none
  | k + 1, seen, c :: r =>
    if c ∈ seen then tooDeep ws k seen r
    else match ws[c.1]? with
      | none => tooDeep ws k seen r
      | some w => if isCtrl 19 w ∧ 4 ≤ c.2.length then some c.1 else tooDeep ws k (c :: seen) (ctlNext ws.length w c ++ r)

/-- The words of a range of a package. -/
def progWords (bs : List Byte) (off len : Nat) : List Nat := (upTo (len / 8)).map fun i => leAt bs (off + 8 * i) 8
/-- The first word of a program that R240 refuses. -/
def badProgram (ws : List Nat) : Option Nat :=
  match ws.zipIdx.find? fun (x : Nat × Nat) => badWord ws.length x.2 x.1 with
  | some x => some x.2
  | none => tooDeep ws (2 ^ 64) [] [(0, [])]

/-! ### The header and tables (R288) -/

/-- Where a package's signature begins (R287). -/
abbrev pkEnd (b : List Byte) : Nat := b.length - 64
/-- A table of `n` entries of `sz` bytes lies between the header and the signature. -/
def tabOk (b : List Byte) (off n sz al : Nat) : Bool := decide (n = 0) || (decide (off % al = 0) && decide (128 ≤ off) && decide (off + n * sz ≤ pkEnd b))
/-- The program table: offset and length. -/
def pkProgs (b : List Byte) : List (Nat × Nat) := (upTo (leAt b 58 2)).map fun i => (leAt b (leAt b 60 4 + 8 * i) 4, leAt b (leAt b 60 4 + 8 * i + 4) 4)
/-- The marker table: marker and time. -/
def pkMarks (b : List Byte) : List (Nat × Nat) := (upTo (leAt b 30 2)).map fun i => (leAt b (leAt b 48 4 + 8 * i) 2, leAt b (leAt b 48 4 + 8 * i + 4) 4)
/-- The burst table. -/
def pkBursts (b : List Byte) : List BurstRow := (upTo (leAt b 56 2)).map fun i =>
  let o := leAt b 52 4 + 8 * i
  { path := leAt b o 1, deadline := decide (leAt b (o + 1) 1 = 1), lines := leAt b (o + 2) 2, count := leAt b (o + 4) 4 }
/-- The fixed placement table. -/
def pkGroup (b : List Byte) (g : Nat) : List Nat := (upTo 32).map fun i => leAt b (leAt b 64 4 + 32 * g + i) 1
/-- The progress groups of a package. -/
def pkGroups (b : List Byte) : List (List Nat) := (upTo (leAt b 68 2)).map fun g => (pkGroup b g).takeWhile (· ≠ 0xFF)
/-- The markers that MARK words of the programs name. -/
def usedMarks (b : List Byte) : List Nat :=
  (pkProgs b).flatMap fun p => ((progWords b p.1 p.2).filter (isCtrl 23)).map fun w => wf 11 0 w
/-- A list rises strictly. -/
def rising : List Nat → Bool
  | a :: b :: r => decide (a < b) && rising (b :: r)
  | _ => true
/-- Two ranges of `(offset, length)` overlap. -/
def meets (a b : Nat × Nat) : Bool := decide (a.1 < b.1 + b.2) && decide (b.1 < a.1 + a.2)
/-- Some two of a list satisfy a symmetric test. -/
def anyPair {α : Type} (f : α → α → Bool) : List α → Bool
  | [] => false
  | x :: r => r.any (f x) || anyPair f r

/-- The header offset of what is malformed (R288). -/
def badPackage (b : List Byte) : Option Nat :=
  let le := leAt b
  let c := le 17 1
  let tests : List (Nat × Bool) :=
    [(0, decide (le 0 4 = 0x4E52444D)), (4, decide (le 4 2 = 1)), (6, decide (le 6 2 = 128)), (8, decide (le 8 4 = 0x4B596416)),
     (12, decide (le 12 4 = b.length ∧ b.length % 64 = 0 ∧ 192 ≤ b.length ∧ b.length ≤ 67108864)), (16, decide (le 16 1 ≤ 1)),
     (17, decide (1 ≤ c ∧ c ≤ 32)), (28, decide (1 ≤ le 28 2 ∧ le 28 2 ≤ 1024)), (30, decide (le 30 2 ≤ 4096)), (32, decide (le 32 4 % 64 = 0)),
     (36, decide (le 36 4 % 64 = 0)), (44, tabOk b (le 44 4) (le 36 4) 1 64), (48, tabOk b (le 48 4) (le 30 2) 8 8),
     (56, decide (le 56 2 ≤ 4096)), (52, tabOk b (le 52 4) (le 56 2) 8 8), (58, decide (1 ≤ le 58 2 ∧ le 58 2 ≤ 32)), (60, tabOk b (le 60 4) (le 58 2) 8 8),
     (68, decide (le 68 2 ≤ 32)), (64, tabOk b (le 64 4) (le 68 2) 32 1 && (decide (le 68 2 = 0) || decide (le 64 4 ≠ 0))),
     (70, ((b.drop 70).take 58).all fun x => decide (x = 0)),
     (60, (pkProgs b).all fun p => decide (p.1 % 8 = 0 ∧ p.2 % 8 = 0 ∧ 0 < p.2 ∧ 128 ≤ p.1 ∧ p.1 + p.2 ≤ pkEnd b)),
     (60, !anyPair meets (pkProgs b)),
     (52, (pkBursts b).zipIdx.all fun (x : BurstRow × Nat) => decide (x.1.path ≤ 3 ∧ leAt b (le 52 4 + 8 * x.2 + 1) 1 ≤ 1 ∧ 1 ≤ x.1.lines ∧ x.1.lines ≤ 64)),
     (48, rising ((pkMarks b).map (·.1)) && (upTo (le 30 2)).all fun i => decide (leAt b (le 48 4 + 8 * i + 2) 2 = 0)),
     (48, ((pkMarks b).all fun m => (usedMarks b).contains m.1) && (usedMarks b).all fun m => (pkMarks b).any fun x => x.1 == m),
     (64, (upTo (le 68 2)).all fun g =>
       let l := (pkGroup b g).take c
       (l.all fun n => decide (n < 32)) && decide (l.eraseDups.length = c) && ((pkGroup b g).drop c).all fun n => decide (n = 0xFF))]
  (tests.find? fun (x : Nat × Bool) => !x.2).map (·.1)

/-- A program the verification refuses: its index and the word (R240). -/
def badPrograms (b : List Byte) : Option (Nat × Nat) :=
  (pkProgs b).zipIdx.findSome? fun (x : (Nat × Nat) × Nat) => (badProgram (progWords b x.1.1 x.1.2)).map fun i => (x.2, i)

/-- The row of the model table that a package gives (R287). -/
def pkModel (p addr : Nat) (key b : List Byte) : Model :=
  { part := p, addr := addr, len := b.length, bg := decide (leAt b 16 1 = 1), cores := leAt b 17 1, batch := leAt b 18 2, cNs := leAt b 20 4,
    yNs := leAt b 24 4, vMax := leAt b 28 2, markers := pkMarks b, fOff := leAt b 32 4, f := leAt b 36 4, act := leAt b 40 4,
    weightOff := leAt b 44 4, bursts := pkBursts b, progs := pkProgs b, groups := pkGroups b, key := key }

/-- A handle no resident model has (R289): the module's choice, or the lowest if that choice is none. -/
def freeHandle (s : State) : Nat :=
  let h := Config.handle (s.models.map (·.1))
  if h < 0xFFFF && (model h s).isNone then h else ((upTo 65).find? fun h => (model h s).isNone).getD 64
/-- PART_STATUS.MODELS. -/
def showModels (p : Nat) (s : State) : State := wrF (kPART_STATUS p) 15 12 (s.models.filter fun x => decide (x.2.part = p)).length s

/-- What refuses a load (R43, R240, R288, R298): its status and result. The signature comes first. -/
def loadBad (p addr : Nat) (b : List Byte) (s : State) : Option (Nat × List Byte) ⊕ List Byte :=
  let keys := [32, 64].map fun o => ((secOf s.img 0x10 p).getD []).drop o |>.take 32
  let ok := fun (k : List Byte) => k.any (· ≠ 0) && ed25519Verify k (b.take (pkEnd b)) (b.drop (pkEnd b))
  match keys.find? ok with
  | none => .inl (some (stREFUSED_KEY, []))
  | some key =>
    match badPackage b with
    | some o => .inl (some (stREFUSED_PROGRAM, natLE 2 0xFFFF ++ zeros 2 ++ natLE 4 o))
    | none =>
      match badPrograms b with
      | some (i, w) => .inl (some (stREFUSED_PROGRAM, natLE 2 i ++ zeros 2 ++ natLE 4 w))
      | none =>
        let h := freeHandle s
        let refuse := fun r => .inl (some (stREFUSED_FIT, refuseBytes { reason := r, model := h }))
        if slotsFull p 1 s then refuse 0x01
        else if !packagePlaced p addr b.length s then refuse 0x04
        else if leAt b 18 2 ≠ 1 then refuse 0x0A
        else .inr key

/-- The package is placed and its model resident: its handle (R289). -/
def loadModel (p addr : Nat) (key b : List Byte) (s : State) : Nat × State :=
  let h := freeHandle s
  let s := memStore [(addr, b)] (awaitRange addr b.length s)
  (h, showModels p { s with models := s.models.set h (pkModel p addr key b) })

/-- A model is bound to a stream of the partition's. -/
def modelBound (h : Nat) (s : State) : Bool := s.binds.any fun b => (bindModels b.2 ++ bindDusks b.2).contains h
/-- A model leaves its slot. -/
def unloadModel (h : Nat) (s : State) : State :=
  match model h s with
  | some m => showModels m.part { s with models := s.models.del h }
  | none => s

end Sys2Proof.Machine
end

