-- ==== Sys2Proof/Machine/RegTable.lean ====
section
/-! DEFINITION. The bits that a write changes in the registers of the stream settings (R7): slot-sets (R120), camera ports (R88, R89),
ledger settings (R348). -/

namespace Sys2Proof.Machine

open Sys2Proof

/-- A write of the bits of `m` alone. DESIGN CHOICE (notes/assumptions/12.md): of a write that sets reserved bits the model drops those bits
and applies the rest; R6 leaves the behaviour open. -/
def wrMask (k m : Nat) (v : Word) (s : State) : State := wr k ((rd k s &&& ~~~ wd m) ||| (v &&& wd m)) s
/-- Write-one-to-clear of the bits of `m`. -/
def wrClear (k m : Nat) (v : Word) (s : State) : State := wr k (rd k s &&& ~~~ (v &&& wd m)) s

/-- An RWS register of a slot-set, or FES_TBL_ADDR: its writable bits (R120); 0 for another offset. -/
def fesMask (o : Nat) : Nat :=
  if o < 0x100 then
    (if o = 0x000 then 0xFEE else if o = 0x010 then 0x7 else if o = 0x018 then 0xFFFFFF else if o = 0x01C then 0x1FF
     else if o = 0x020 then 0xFFF else if o = 0x034 ∨ o = 0x03C then 0xFFFF else if o = 0x050 then 0xFFFFFFFC else if o = 0x058 then 0xFFFFFF
     else if o = 0x060 ∨ o = 0x074 then 0xFFFFFFC0 else if o = 0x064 ∨ o = 0x078 then 0xFFFF else if o = 0x068 then 0x1FFFF
     else if [0x014, 0x024, 0x028, 0x02C, 0x030, 0x038, 0x040, 0x044, 0x048, 0x054, 0x05C].contains o then 0xFFFFFFFF else 0)
  else if o < 0x200 then
    (let i := o % 0x40
     if i = 0 then 0xF83C710F else if i = 4 then 0xFFFFFFFF else if i = 8 then 0xFFFFFFC0 else if i = 0xC then 0xFFFF
     else if i = 0x10 then 0x1FFFF else 0)
  else 0
/-- CHK_POLICE_RATE to CHK_RETRY: the writable bits (R88, R89). -/
def portMask (o : Nat) : Nat :=
  if o = 0x104 ∨ o = 0x10C then 0xFFFF else if o = 0x108 ∨ o = 0x114 then 0xFFFFFFFF else if o = 0x110 then 0xFF
  else if o = 0x118 then 0xFFFFFF else 0
/-- LDS_CTL to LDS_PULSE_MAX: the writable bits (R348). -/
def ldsMask (o : Nat) : Nat :=
  if o = 0 then 0xF37 else if o = 4 then 0xFFFFFFFF else if o = 8 ∨ o = 0xC ∨ o = 0x10 then 0xFFFF else if o = 0x14 then 0xFFFFF
  else if o = 0x18 then 0x3FFF else 0

/-- A value of a camera port's register lies within its range (R84 to R89). -/
def portRange (o : Nat) (v : Word) : Bool :=
  if o = 0x104 then decide (1 ≤ fld 15 0 v ∧ fld 15 0 v ≤ 25000)
  else if o = 0x108 then decide (16416 ≤ v.toNat ∧ v.toNat ≤ 1048576)
  else if o = 0x10C then decide (64 ≤ fld 15 0 v ∧ fld 15 0 v ≤ 16416)
  else if o = 0x110 then decide (1 ≤ fld 7 0 v)
  else if o = 0x114 then decide (1 ≤ fld 25 16 v ∧ fld 25 16 v ≤ 1000 ∧ 1 ≤ fld 15 0 v)
  else if o = 0x118 then decide (1 ≤ fld 23 16 v ∧ 10 ≤ fld 15 0 v ∧ fld 15 0 v ≤ 10000)
  else true
/-- A value of a ledger setting lies within its range (R332). -/
def ldsRange (o : Nat) (v : Word) : Bool :=
  if o = 0 then decide (fld 5 4 v ≠ 3)
  else if o = 0x10 then decide (1 ≤ fld 15 0 v)
  else if o = 0x14 then decide (10 ≤ fld 19 0 v ∧ fld 19 0 v ≤ 1000000)
  else if o = 0x18 then decide (1 ≤ fld 13 0 v ∧ fld 13 0 v ≤ 10000)
  else true

/-- A shadow of a ledger setting is written; LDS_STAT.PEND shows it (R348). -/
def wrLds (st o : Nat) (v : Word) (s : State) : State := wrB (ldsBase st + 0x20) 0 true (wrMask (ldsBase st + o) (ldsMask o) v s)

end Sys2Proof.Machine
end

