-- ==== Sys2Proof/Machine/Image.lean ====
section
/-! DEFINITION. The checks of a Tirlenath image (03_configuration_image.md, R48 to R61, R477): checks 1 to 9 of R60 on its bytes. -/

namespace Sys2Proof.Machine

open Sys2Proof

/-- A refusal of the loader (R60, R61). -/
structure ImgBad where
  check : Nat
  sec : Nat
  field : Nat
  whr : Nat
  status : Nat
deriving DecidableEq, Repr

/-- The status of a check (R60); of check 12 the stale one. -/
def imgStatus (check : Nat) : Nat :=
  [0, stIMG_FORMAT, stIMG_MODULE, stIMG_SIG, stIMG_CRC, stIMG_SECTION, stIMG_FIELD, stREFUSED_CONFLICT, stREFUSED_FIT, stREFUSED_RATE,
   stREFUSED_FIT, stREFUSED_KEYDEP, stIMG_STALE].getD check 0
/-- A refusal at a check. -/
def imgBad (check sec field whr : Nat) : ImgBad := { check := check, sec := sec, field := field, whr := whr, status := imgStatus check }
/-- A refusal that names no section. -/
def hdrBad (check field : Nat) : ImgBad := imgBad check 0xFFFF field 2
/-- The result field (R61). -/
def imgResult (r : ImgBad) : List Byte := natLE 2 r.sec ++ natLE 2 r.field ++ natLE 1 r.check ++ natLE 1 r.whr ++ zeros 2

/-- A section with its 16-byte header. -/
structure ISec where
  hdr : List Byte
  sec : Sec
deriving DecidableEq, Repr
def ISec.body (x : ISec) : List Byte := x.sec.body

/-! ### Checks 1 to 5 -/

/-- The sections that the bytes between the header and the signature hold (R61), `n` of them from section `k` on. -/
def walkSecs : Nat → Nat → List Byte → ImgBad ⊕ List ISec
  | 0, _, rest => if rest.isEmpty then .inr [] else .inl (hdrBad 1 12)
  | n + 1, k, rest =>
    if rest.length < 16 then .inl (hdrBad 1 24)
    else
      let len := leAt rest 4 4
      if rest.length < 16 + len then .inl (imgBad 1 k 4 1)
      else
        match walkSecs n (k + 1) (rest.drop (16 + len)) with
        | .inl e => .inl e
        | .inr l => .inr ({ hdr := rest.take 16, sec := { ty := leAt rest 0 2, inst := leAt rest 2 2, body := (rest.drop 16).take len } } :: l)
/-- The sections of an image. -/
def imgSecs (b : List Byte) : ImgBad ⊕ List ISec := walkSecs (leAt b 24 2) 0 ((b.take (b.length - 64)).drop 128)
/-- The first field of the header that fails check 1. -/
def check1 (b : List Byte) : Option ImgBad :=
  let total := leAt b 12 4
  (([(0, decide (leAt b 0 4 = 0x5449524C)), (4, decide (leAt b 4 2 = 1)), (6, decide (leAt b 6 2 = 128)),
     (12, decide (1168 ≤ total ∧ total ≤ 1048576 ∧ total % 8 = 0 ∧ total = b.length)), (24, decide (5 ≤ leAt b 24 2 ∧ leAt b 24 2 ≤ 512)),
     (32, decide (leAt b 32 4 = (crc32 (b.take 32 ++ (b.drop 36).take 92)).toNat))] : List (Nat × Bool)).find? fun x => !x.2).map fun x => hdrBad 1 x.1
/-- Check 2: the part and the module. -/
def check2 (b : List Byte) : Option ImgBad :=
  if leAt b 8 4 ≠ 0x4B596416 then some (hdrBad 2 8)
  else if leAt b 16 8 ≠ 0 ∧ leAt b 16 8 ≠ Config.serial.toNat then some (hdrBad 2 16) else none
/-- Check 3: the signature under an installer's key. -/
def check3 (b : List Byte) (s : State) : Option ImgBad :=
  let slot := leAt b 26 1
  match if slot = 2 ∨ slot = 3 then Fam.find slot s.flash.keys else none with
  | none => some (hdrBad 3 26)
  | some k => if ed25519Verify k (b.take (b.length - 64)) (b.drop (b.length - 64)) then none else some (imgBad 3 0xFFFF 0 3)
/-- Check 4: every section's CRC. -/
def check4 (l : List ISec) : Option ImgBad :=
  (l.zipIdx.find? fun (x : ISec × Nat) => decide (leAt x.1.hdr 8 4 ≠ (crc32 x.1.body).toNat)).map fun x => imgBad 4 x.2 8 1
/-- A section type's highest instance, shortest and longest body, step of its length (R50). -/
def secShape (ty : Nat) : Option (Nat × Nat × Nat × Nat) :=
  if ty = 0x01 ∨ ty = 0x02 ∨ ty = 0x60 then some (0, 64, 64, 8)
  else if ty = 0x10 then some (15, 128, 128, 8) else if ty = 0x11 then some (17, 32, 512, 32)
  else if ty = 0x20 then some (63, 64, 64, 8) else if ty = 0x21 then some (255, 16, 65536, 8)
  else if ty = 0x30 ∨ ty = 0x40 ∨ ty = 0x41 ∨ ty = 0x50 then some (0, 256, 256, 8)
  else if ty = 0x42 then some (0, 128, 128, 8) else none
/-- Check 5: order, types, instances, lengths, required sections (R49, R50). -/
def check5 (l : List ISec) : Option ImgBad :=
  let one := fun (x : ISec × Nat) =>
    let t := x.1.sec.ty
    let prev := if x.2 = 0 then none else (l[x.2 - 1]?).map (·.sec)
    match secShape t with
    | none => some (imgBad 5 x.2 0 1)
    | some (hi, a, b, st) =>
      let n := x.1.body.length
      if prev.any fun y => decide (t < y.ty) then some (imgBad 5 x.2 0 1)
      else if hi < x.1.sec.inst ∨ prev.any fun y => decide (y.ty = t) && decide (x.1.sec.inst ≤ y.inst) then some (imgBad 5 x.2 2 1)
      else if n < a ∨ b < n ∨ n % st ≠ 0 then some (imgBad 5 x.2 4 1) else none
  (l.zipIdx.findSome? one).orElse fun _ =>
    (([0x01, 0x02, 0x30, 0x40, 0x41] : List Nat).find? fun t => l.all fun x => decide (x.sec.ty ≠ t)).map fun t => imgBad 5 0xFFFF t 4

/-! ### Check 6: fields (R477) -/

/-- A field of a body: its offset, its length, whether it is in range. -/
abbrev FieldT := Nat × Nat × Bool
/-- A field from `lo` to `hi`, or 0 where it is not used. -/
def fRange (b : List Byte) (off : Bool) (o n lo hi : Nat) : FieldT :=
  let v := leAt b o n
  (o, n, (off && decide (v = 0)) || (decide (lo ≤ v) && decide (v ≤ hi)))
/-- A further relation of a field, tested at it. -/
def fAnd (f : FieldT) (c : Bool) : FieldT := (f.1, f.2.1, f.2.2 && c)
/-- Where memory lies that a region may name: HBM or a cluster's memory (R52). -/
def areaOf (a : Nat) : Option Nat := if inHbm a then some 0 else if inCluster a then some (1 + (a - 0x1000000000) / 0x2000000) else none
/-- The grain of regions in HBM and in cluster memory (R57). -/
def areaAlign (k : Nat) : Nat := if k = 0 then 4096 else 65536

/-- GLOBAL (R49). -/
def globalFields (b : List Byte) : List FieldT := [fRange b false 0 1 0 1, fRange b false 1 1 1 15, fRange b false 2 1 2 64, fRange b false 3 1 0 1]
/-- POWER (R419). -/
def powerFields (b : List Byte) : List FieldT :=
  [fRange b false 0 2 650 850, fAnd (fRange b false 2 2 700 850) (decide (leAt b 0 2 ≤ leAt b 2 2)),
   fAnd (fRange b false 4 2 600 850) (decide (leAt b 4 2 ≤ leAt b 0 2)), fRange b false 6 2 0x800 0x1000, fRange b false 8 1 0 1,
   fRange b false 9 1 70 105, fRange b false 10 2 240 320, fAnd (fRange b false 12 2 120 240) (decide (leAt b 12 2 ≤ leAt b 10 2)),
   (14, 1, decide (leAt b 14 1 ≤ 63) || decide (leAt b 14 1 = 0xFF)), fRange b false 16 2 10 1440]
/-- PARTITION (R51). -/
def partitionFields (b : List Byte) : List FieldT :=
  [(0, 4, decide (leAt b 0 4 ≠ 0)), (4, 2, true), (6, 1, true), fRange b false 7 1 0 15, (8, 2, true), fRange b false 10 1 0 63,
   fRange b false 11 1 0 8, fRange b false 12 2 0 4096, fRange b false 14 1 0 240, (16, 2, true), (32, 32, true), (64, 32, true)]
/-- The records of REGION (R52). -/
def regionFields (b : List Byte) : List FieldT := (upTo (b.length / 32)).flatMap fun k =>
  let o := 32 * k
  let base := leAt b o 8
  let last := leAt b (o + 8) 8
  let al := match areaOf base with | some a => areaAlign a | none => 4096
  [(o, 8, (areaOf base).isSome && decide (base % al = 0)),
   (o + 8, 8, decide (base ≤ last) && decide (areaOf last = areaOf base) && decide ((last + 1) % al = 0)),
   fRange b false (o + 16) 1 0 7, (o + 17, 1, decide (leAt b (o + 17) 1 = 0) || (decide (leAt b (o + 17) 1 ≤ 2) && inHbm base))]
/-- STREAM (R53). -/
def streamFields (st : Nat) (b : List Byte) : List FieldT :=
  [fRange b false 0 1 0 15, (1, 1, decide (leAt b 1 1 / 8 = st / 8)),
   (2, 1, decide (leAt b 2 1 ∈ [1, 2, 4, 8]) && decide (leAt b 1 1 % leAt b 2 1 = 0)), fRange b false 3 1 0 1,
   fAnd (fRange b false 4 2 64 32768) (decide (leAt b 4 2 % 64 = 0)), fAnd (fRange b false 6 1 0 1) (decide (leAt b 6 1 = 0 ∨ leAt b 4 2 ≤ 16384)),
   fRange b false 7 1 0 5, (8, 1, decide (leAt b 8 1 ≤ 3 ∨ leAt b 8 1 = 0xFF)), fRange b false 9 1 0 1, fRange b false 10 2 16 4096,
   fRange b false 12 4 1 50000, fRange b false 16 4 1 (2 ^ 30), (20, 4, true), (24, 1, decide (leAt b 24 1 ∈ [0x08, 0x0C, 0x10]))]

/-- The kind of register a recipe may name (R55): in the slot-set of a stream, in the primary lane block at a lane, in the LDS block of a
stream. -/
inductive RecReg where
  | fe (st : Nat)
  | lane (n : Nat)
  | lds (st : Nat)
deriving DecidableEq, Repr
/-- What a PF BAR0 offset names for a recipe. -/
def recReg (k : Nat) : Option RecReg :=
  if 0x080000 ≤ k ∧ k < 0x0A0000 ∧ 0x400 ≤ k % 0x2000 ∧ k % 0x2000 < 0x1400 then
    (let o := k % 0x400
     if o ∈ fesOffs ∨ o = 0x074 ∨ o = 0x078 then some (.fe (4 * ((k - 0x080000) / 0x2000) + (k % 0x2000 - 0x400) / 0x400)) else none)
  else if 0x0C0000 ≤ k ∧ k < 0x0D0000 then (if k % 0x400 ∈ portOffs then some (.lane ((k - 0x0C0000) / 0x400)) else none)
  else if ledBase + 0x800 ≤ k ∧ k < ledBase + 0x1800 then
    (if k % 0x40 ∈ [0, 4, 8, 0xC, 0x10, 0x14, 0x18] then some (.lds ((k - ledBase - 0x800) / 0x40)) else none)
  else none
/-- The pairs of a recipe: offset and value. -/
def recPairs (b : List Byte) : List (Nat × Nat) := (upTo (leAt b 2 2)).map fun k => (leAt b (8 + 8 * k) 4, leAt b (12 + 8 * k) 4)
/-- A recipe of PART `p` may list an offset (R55): port registers only in the primary lane of a bond of its own. A lane outside its own
bonds is a unit it does not own, which is check 7's. -/
def recLists (l : List Sec) (p k : Nat) : Bool :=
  match recReg k with
  | none => false
  | some (.lane n) => l.all fun x => !(decide (x.ty = 0x20) && decide (leAt x.body 0 1 = p) && decide (leAt x.body 1 1 < n) &&
      decide (n < leAt x.body 1 1 + leAt x.body 2 1))
  | some _ => true
/-- RECIPE (R55), in an image. -/
def recipeFields (l : List Sec) (b : List Byte) : List FieldT :=
  [fRange b false 0 1 0 15, fAnd (fRange b false 2 2 1 8191) (decide (b.length = 8 + 8 * leAt b 2 2))] ++
  (recPairs b).zipIdx.flatMap fun (x : (Nat × Nat) × Nat) => [(8 + 8 * x.2, 4, recLists l (leAt b 0 1) x.1.1), (12 + 8 * x.2, 4, true)]
/-- ARBITER (R283). -/
def arbiterFields (b : List Byte) : List FieldT := (upTo 16).flatMap fun n =>
  let o := 16 * n
  [fRange b false o 1 0 7, fRange b false (o + 1) 1 0 7, fRange b false (o + 2) 1 0 7, (o + 3, 1, decide (leAt b (o + 3) 1 / 2 % 8 = 0))]
/-- MOTION (R330); an empty field parts the last output's reserved bytes from those of the section. -/
def motionFields (b : List Byte) : List FieldT :=
  ((upTo 4).flatMap fun i =>
    let o := 16 * i
    let off := decide (leAt b o 1 = 0)
    [fRange b false o 1 0 1, fRange b off (o + 1) 1 0 15, fRange b off (o + 4) 4 10 100000]) ++
  ((upTo 2).flatMap fun j =>
    let o := 64 + 16 * j
    let off := decide (leAt b o 1 = 0)
    let clk := leAt b (o + 4) 2
    [fRange b false o 1 0 1, fRange b off (o + 1) 1 13 32, fRange b off (o + 2) 1 0 1, fRange b off (o + 3) 1 1 64, fRange b off (o + 4) 2 100 10000,
     fAnd (fRange b off (o + 6) 2 5 10000) (off || decide ((leAt b (o + 1) 1 + 1) * 1000 + leAt b (o + 3) 1 * clk ≤ leAt b (o + 6) 2 * clk)),
     fRange b off (o + 8) 4 10 100000]) ++
  ((upTo 4).flatMap fun m =>
    let o := 96 + 32 * m
    let mode := leAt b o 1
    [fRange b false o 1 0 2, fAnd (fRange b (decide (mode = 0)) (o + 1) 1 0 5) (decide (mode ≠ 2 ∨ leAt b (o + 1) 1 ≤ 3)), fRange b false (o + 2) 1 0 1,
     (o + 4, 4, if mode = 1 then decide (leAt b (o + 4) 4 ≠ 0) else decide (leAt b (o + 4) 4 = 0))]) ++ [(224, 0, true)]
/-- FIELDIO (R354): a fourth driven output of a group is refused. -/
def fieldioFields (b : List Byte) : List FieldT :=
  ((upTo 32).flatMap fun d =>
    let before := ((upTo (d % 4)).filter fun i => decide (leAt b (4 * (d - d % 4 + i) + 2) 1 ≠ 0)).length
    [fRange b false (4 * d) 2 100 2000, fAnd (fRange b false (4 * d + 2) 1 0 2) (decide (leAt b (4 * d + 2) 1 = 0 ∨ before < 3))]) ++
  [fRange b false 128 2 1 1000]
/-- A signed field from `lo` to `hi`, or 0 where it is not used. -/
def fSigned (b : List Byte) (off : Bool) (o n : Nat) (lo hi : Int) : FieldT :=
  let v := sx (8 * n) (leAt b o n)
  (o, n, (off && decide (v = 0)) || (decide (lo ≤ v) && decide (v ≤ hi)))
/-- ETHERNET (R376): a VID that is not used may be 0, and is otherwise in its range (R477). -/
def ethernetFields (b : List Byte) : List FieldT := (upTo 2).flatMap fun p =>
  let o := 64 * p
  let off := decide (leAt b o 1 = 0)
  let ptp := off || decide (leAt b (o + 1) 1 = 0)
  let tag := leAt b (o + 12) 2
  let both := p = 1 ∧ leAt b 0 1 ≠ 0 ∧ leAt b 1 1 ≠ 0 ∧ ¬ ptp
  [fRange b false o 1 0 1, fRange b off (o + 1) 1 0 3, fRange b ptp (o + 2) 1 0 1, fRange b ptp (o + 3) 1 0 1, fRange b off (o + 4) 1 0 1,
   fAnd (fRange b ptp (o + 5) 1 0 127) (decide (both → leAt b 69 1 = leAt b 5 1)), fSigned b ptp (o + 6) 1 (-7) 4, fSigned b ptp (o + 7) 1 (-3) 4,
   fSigned b ptp (o + 8) 1 (-7) 5, fRange b ptp (o + 9) 1 2 10, (o + 10, 1, true), (o + 11, 1, true),
   (o + 12, 2, decide (tag % 4096 ≤ 4094) && (ptp || decide (tag < 32768) || decide (1 ≤ tag % 4096))),
   (o + 16, 4, off || decide (leAt b (o + 4) 1 = 0) || decide (leAt b (o + 16) 4 ≠ 0)), (o + 20, 4, true),
   (o + 24, 4, decide (leAt b (o + 24) 4 = 0) || (decide (1000 ≤ leAt b (o + 24) 4) && decide (leAt b (o + 24) 4 ≤ 1000000000))),
   fRange b ptp (o + 28) 4 1 100000]
/-- CODEC (R122): every field of an unused slot beyond its OWNER is zero. -/
def codecFields (b : List Byte) : List FieldT := (upTo 16).flatMap fun n =>
  let o := 16 * n
  if leAt b o 1 = 0xFF then
    (o, 1, true) :: ([(o + 1, 1), (o + 4, 4), (o + 8, 4), (o + 12, 4)] : List (Nat × Nat)).map fun f => (f.1, f.2, decide (leAt b f.1 f.2 = 0))
  else
    [fRange b false o 1 0 15, (o + 1, 1, decide (leAt b (o + 1) 1 ≤ 63 ∨ leAt b (o + 1) 1 = 0xFF)), (o + 4, 4, true),
     fRange b false (o + 8) 4 1 0xFFFFFFFF, fRange b false (o + 12) 4 256 0xFFFFFFFF]
/-- SPAN (R440). -/
def spanFields (b : List Byte) : List FieldT :=
  let dx := leAt b 2 1
  let dy := leAt b 3 1
  [fRange b false 0 1 0 3, fRange b false 1 1 0 3, fAnd (fRange b false 2 1 1 4) (decide (leAt b 0 1 < dx)),
   fAnd (fRange b false 3 1 1 4) (decide (leAt b 1 1 < dy)),
   (4, 1, decide (leAt b 4 1 = (if 2 ≤ dx then 3 else 0) + (if 2 ≤ dy then 12 else 0))), fRange b false 5 1 1 255, (6, 2, true), (8, 8, true)]
/-- The fields of a section of an image. -/
def secFields (l : List Sec) (x : Sec) : List FieldT :=
  if x.ty = 0x01 then globalFields x.body else if x.ty = 0x02 then powerFields x.body else if x.ty = 0x10 then partitionFields x.body
  else if x.ty = 0x11 then regionFields x.body else if x.ty = 0x20 then streamFields x.inst x.body else if x.ty = 0x21 then recipeFields l x.body
  else if x.ty = 0x30 then arbiterFields x.body else if x.ty = 0x40 then motionFields x.body else if x.ty = 0x41 then fieldioFields x.body
  else if x.ty = 0x42 then ethernetFields x.body else if x.ty = 0x50 then codecFields x.body else spanFields x.body

/-- The offset of the first byte that is not zero; the bytes start at `pos`. -/
def notZero : Nat → List Byte → Option Nat
  | _, [] => none
  | pos, x :: r => if x = 0 then notZero (pos + 1) r else some pos
/-- A reserved range that begins at `pos` and is not zero, named by its own offset (R61). -/
def reservedBad (pos : Nat) (l : List Byte) : Option Nat := if l.all (· = 0) then none else some pos
/-- The first field out of range, or range of bytes that no field covers and is not zero, in byte order. -/
def badField (b : List Byte) : Nat → List FieldT → Option Nat
  | pos, [] => reservedBad pos (b.drop pos)
  | pos, f :: r =>
    match reservedBad pos ((b.drop pos).take (f.1 - pos)) with
    | some o => some o
    | none => if f.2.2 then badField b (f.1 + f.2.1) r else some f.1
/-- NAME is ASCII, padded with zeros (R48). -/
def nameOk (l : List Byte) : Bool := (l.all fun c => decide (c.toNat < 128)) && (l.dropWhile (· ≠ 0)).all (· = 0)
/-- Check 6. -/
def check6 (b : List Byte) (l : List ISec) : Option ImgBad :=
  if leAt b 27 1 ≠ 0 then some (hdrBad 6 27)
  else if !nameOk ((b.drop 36).take 32) then some (hdrBad 6 36)
  else match reservedBad 68 ((b.drop 68).take 60) with
    | some o => some (hdrBad 6 o)
    | none => l.zipIdx.findSome? fun (x : ISec × Nat) =>
        if leAt x.1.hdr 12 4 ≠ 0 then some (imgBad 6 x.2 12 1)
        else (badField x.1.body 0 (secFields (l.map ISec.sec) x.1.sec)).map fun o => imgBad 6 x.2 o 0

/-! ### Check 7: conflicts (R26, R28, R57) -/

/-- Regions of an image: tag, first and last address. -/
def imgRegions (l : List Sec) : List (Nat × Nat × Nat) := (l.filter fun x => decide (x.ty = 0x11)).flatMap fun x =>
  (upTo (x.body.length / 32)).map fun k => (x.inst, leAt x.body (32 * k) 8, leAt x.body (32 * k + 8) 8)
/-- A recipe's value for a register, or its reset value. -/
def recVal (b : List Byte) (k : Nat) : Word := match (recPairs b).reverse.find? fun x => decide (x.1 = k) with | some x => wd x.2 | none => resetVal k
/-- The rings a recipe places (R57, R118), each pair that names a ring's address or its length placing it: an identity, the offset of the
pair, its front end, its address and length. What the recipe leaves unnamed is taken at its reset value. -/
def recRings (b : List Byte) : List (Nat × Nat × Nat × Nat × Nat) :=
  (recPairs b).zipIdx.filterMap fun (x : (Nat × Nat) × Nat) =>
    match recReg x.1.1 with
    | some (.fe st) =>
      let o := x.1.1 - fes st
      let addr := fun k => (recVal b k).toNat / 64 * 64 + fld 15 0 (recVal b (k + 4)) * 2 ^ 32
      if 0x100 ≤ o ∧ o % 0x40 ∈ [0x08, 0x0C, 0x10] then
        let k := x.1.1 - o % 0x40
        let c := recVal b k
        let cols := fld 31 16 (recVal b (k + 4)) / 2 ^ fld 19 18 c
        let stride := outStride (fld 3 1 c) (bitOf 8 c) (bitsSet 3 (fld 14 12 c)).length cols
        some (8 * st + (o - 0x100) / 0x40, 8 + 8 * x.2, st / 4, addr (k + 8), fld 16 0 (recVal b (k + 0x10)) * stride)
      else if o ∈ [0x60, 0x64, 0x68] then
        let k := fes st + 0x60
        some (8 * st + 4, 8 + 8 * x.2, st / 4, addr k, fld 16 0 (recVal b (k + 8)) * 128)
      else none
    | _ => none
/-- The buffers a section claims: identity, field, owner, address and length (R57). -/
def secBuffers (x : Sec) : List (Nat × Nat × Nat × Nat × Nat) :=
  if x.ty = 0x21 then (recRings x.body).map fun r => (r.1, r.2.1, leAt x.body 0 1, r.2.2.2.1, r.2.2.2.2)
  else if x.ty = 0x50 then (upTo 16).filterMap fun n =>
    if leAt x.body (16 * n) 1 = 0xFF then none
    else some (1000 + n, 16 * n + 4, leAt x.body (16 * n) 1, leAt x.body (16 * n + 4) 4 * 4096,
      (leAt x.body (16 * n + 8) 4 + leAt x.body (16 * n + 12) 4) * 4096)
  else []
/-- A section's field that claims a buffer another record, or an earlier entry of its own, holds. DESIGN CHOICE (notes/assumptions/21.md):
two recipes that place one and the same ring do not conflict, since one of them is in force at a time. -/
def bufferClash (before : List Sec) (x : Sec) : Option Nat :=
  let clash := fun (a b : Nat × Nat × Nat × Nat × Nat) => decide (a.1 ≠ b.1) && decide (a.2.2.2.1 < b.2.2.2.1 + b.2.2.2.2) && decide (b.2.2.2.1 < a.2.2.2.1 + a.2.2.2.2)
  let mine := secBuffers x
  (mine.zipIdx.find? fun y => ((before.flatMap secBuffers) ++ mine.take y.2).any fun z => clash y.1 z).map fun y => y.1.2.1

/-- Whether the image has a PARTITION section of a number. -/
def hasPart (l : List Sec) (p : Nat) : Bool := (secOf l 0x10 p).isSome
/-- The first of some tests of fields that fails. -/
def firstBad (l : List (Nat × Bool)) : Option Nat := (l.find? fun x => !x.2).map (·.1)
/-- The field of a section that check 7 refuses, given the image and the sections before. DESIGN CHOICE (notes/assumptions/21.md): a REGION
without its PARTITION is named by its INSTANCE, a record that overlaps another or lies in a foreign cluster by its BASE. -/
def conflictOf (l before : List Sec) (x : Sec) : Option (Nat × Nat) :=
  let b := x.body
  let body := fun (o : Option Nat) => o.map fun o => (o, 0)
  if x.ty = 0x10 then
    body (([(0, 4), (4, 2), (6, 1), (7, 1), (16, 2)] : List (Nat × Nat)).find? (fun f =>
      before.any fun y => decide (y.ty = 0x10) && decide (leAt y.body f.1 f.2 &&& leAt b f.1 f.2 ≠ 0)) |>.map (·.1))
  else if x.ty = 0x11 then
    if x.inst < 16 ∧ ¬ hasPart l x.inst then some (2, 1) else
      body ((upTo (b.length / 32)).findSome? fun k =>
        let lo := leAt b (32 * k) 8
        let hi := leAt b (32 * k + 8) 8
        let meets := (imgRegions before).any fun r => decide (r.1 < 16 ∧ r.1 ≠ x.inst) && decide (r.2.1 ≤ hi) && decide (lo ≤ r.2.2)
        let far := decide (x.inst < 16) && inCluster lo && decide (imgLE l 0x10 x.inst ((lo - 0x1000000000) / 0x2000000) 1 = 0)
        if meets || far then some (32 * k) else none)
  else if x.ty = 0x20 then
    let p := leAt b 0 1
    let lanes := fun (y : List Byte) => (leAt y 1 1, leAt y 1 1 + leAt y 2 1)
    let shares := before.any fun y => decide (y.ty = 0x20) && decide ((lanes y.body).1 < (lanes b).2) && decide ((lanes b).1 < (lanes y.body).2)
    body (firstBad [(0, hasPart l p && (imgLE l 0x10 p 4 2).testBit (x.inst / 4)), (1, !shares), (7, (imgLE l 0x10 p 10 1).testBit (leAt b 7 1)),
      (8, decide (leAt b 8 1 = 0xFF) || (imgLE l 0x10 p 7 1).testBit (leAt b 8 1)),
      (20, (upTo 32).all fun d => !(leAt b 20 4).testBit d || (imgLE l 0x10 p 6 1).testBit (d / 4))])
  else if x.ty = 0x21 then
    let p := leAt b 0 1
    let mine := fun st => decide ((secOf l 0x20 st).isSome ∧ imgLE l 0x20 st 0 1 = p)
    let own := fun (k : Nat) => match recReg k with
      | some (.fe st) => (imgLE l 0x10 p 4 2).testBit (st / 4)
      | some (.lane n) => (upTo 64).any fun st => mine st && decide (imgLE l 0x20 st 1 1 = n)
      | some (.lds st) => mine st
      | none => true
    if !hasPart l p then some (0, 0) else
      let a := ((recPairs b).zipIdx.find? fun (y : (Nat × Nat) × Nat) => !own y.1.1).map fun y => 8 + 8 * y.2
      body (match a, bufferClash before x with
        | some a, some c => some (min a c)
        | a, c => a.orElse fun _ => c)
  else if x.ty = 0x30 then
    body ((upTo 16).findSome? fun n => if hasPart l n then none else notZero (16 * n) ((b.drop (16 * n)).take 16))
  else if x.ty = 0x50 then
    let one := (upTo 16).findSome? fun n =>
      let p := leAt b (16 * n) 1
      let t := leAt b (16 * n + 1) 1
      if p = 0xFF then none
      else if !hasPart l p then some (16 * n)
      else if t ≠ 0xFF ∧ ¬ ((secOf l 0x20 t).isSome ∧ imgLE l 0x20 t 0 1 = p) then some (16 * n + 1) else none
    body (match one, bufferClash before x with
      | some a, some c => some (min a c)
      | a, c => a.orElse fun _ => c)
  else if x.ty = 0x60 then body (if (upTo 16).all fun n => !(leAt b 6 2).testBit n || hasPart l n then none else some 6)
  else none
/-- Check 7. -/
def check7 (l : List Sec) : Option ImgBad :=
  l.zipIdx.findSome? fun (x : Sec × Nat) => (conflictOf l (l.take x.2) x.1).map fun o => imgBad 7 x.2 o.1 o.2

/-! ### Checks 8 and 9: sums and room -/

/-- The sum of a field over the sections of a type. -/
def sumOf (l : List Sec) (ty o n : Nat) : Nat := (l.map fun x => if x.ty = ty then leAt x.body o n else 0).foldl (· + ·) 0
/-- A range lies in one region of a partition of the image. -/
def inImgRegion (l : List Sec) (p a len : Nat) (hbm : Bool) : Bool :=
  (imgRegions l).any fun r => decide (r.1 = p) && decide (r.2.1 ≤ a) && decide (a + len ≤ r.2.2 + 1) && (!hbm || inHbm a)
/-- The STACK field of the first region of a fixed pair that R254 refuses; `o` is the offset of the record that the bytes begin with. -/
def stackBad : Nat → Nat → List Byte → Option Nat
  | 0, _, _ => none
  | k + 1, o, b =>
    if b.length < 32 then none
    else if leAt b 17 1 = 0 then stackBad k (o + 32) (b.drop 32)
    else
      let ok := decide (64 ≤ b.length) && decide (leAt b 17 1 + leAt b 49 1 = 3) && decide (leAt b 49 1 ≠ 0) &&
        decide (leAt b 8 8 + leAt b 32 8 = leAt b 0 8 + leAt b 40 8) && decide (leAt b 0 8 % 8192 = 0) && decide (leAt b 32 8 % 8192 = 0) &&
        decide ((leAt b 8 8 + 1) % 8192 = 0)
      if ok then stackBad k (o + 64) (b.drop 64) else some (o + 17)
/-- The field of a section that check 8 refuses. -/
def fitOf (l before : List Sec) (x : Sec) : Option Nat :=
  let upto := before ++ [x]
  if x.ty = 0x10 then firstBad [(11, decide (sumOf upto 0x10 11 1 ≤ 64)), (12, decide (sumOf upto 0x10 12 2 ≤ 4096)), (14, decide (sumOf upto 0x10 14 1 ≤ 240))]
  else if x.ty = 0x11 then stackBad 16 0 x.body
  else if x.ty = 0x60 then
    let ok := fun n => match (secOf l 0x11 n).bind fun b => (upTo (b.length / 32)).find? fun k => inHbm (leAt b (32 * k) 8) with
      | some k => decide (imgLE l 0x11 n (32 * k + 16) 1 % 4 = 3)
      | none => false
    if (upTo 16).all fun n => !(leAt x.body 6 2).testBit n || ok n then none else some 6
  else ((secBuffers x).find? fun y => !inImgRegion l y.2.2.1 y.2.2.2.1 (max 1 y.2.2.2.2) (decide (x.ty = 0x50))).map fun y => y.2.1
/-- Check 8. -/
def check8 (l : List Sec) : Option ImgBad :=
  l.zipIdx.findSome? fun (x : Sec × Nat) => (fitOf l (l.take x.2) x.1).map fun o => imgBad 8 x.2 o 0
/-- Check 9: the declared rates (R24). -/
def check9 (l : List Sec) : Option ImgBad :=
  l.zipIdx.findSome? fun (x : Sec × Nat) =>
    if x.1.ty = 0x20 ∧ 250000 < sumOf (l.take (x.2 + 1)) 0x20 12 4 then some (imgBad 9 x.2 12 0) else none

/-- Checks 1 to `last` of R60, at most 9: the first that fails, or the sections. -/
def imgCheck (last : Nat) (b : List Byte) (s : State) : ImgBad ⊕ List Sec :=
  match check1 b with
  | some e => .inl e
  | none =>
    match imgSecs b with
    | .inl e => .inl e
    | .inr l =>
      let x := l.map (·.sec)
      let found := firstOf [check2 b, check3 b s, check4 l, check5 l, check6 b l, check7 x, if 8 ≤ last then check8 x else none,
        if 9 ≤ last then check9 x else none]
      match found with
      | some e => .inl e
      | none => .inr x

end Sys2Proof.Machine
end

