-- ==== Sys2Proof/Machine/Replay.lean ====
section
/-! DEFINITION. Replay and calibration runs (06_strip_codec_and_replay.md, R129 to R138). -/

namespace Sys2Proof.Machine

open Sys2Proof

/-! ### Reading a recording back (R127, R128, R132, R133) -/

/-- A line as it is read back: slot, count, time, kind (0 good, 1 bad, 2 missing), TRIG_OVR, its planes. -/
structure BackLine where
  slot : Word
  count : Word
  time : BitVec 64
  kind : Nat
  ovr : Bool
  planes : List Row
deriving DecidableEq, Repr

/-- Bytes of a coded line's blocks. -/
def lineBlocks (n : Nat) (s : State) : Nat :=
  let c := cds n s
  c.planes * ((c.width + 95) / 96) * blockBytes c.bits (cdsRatio n s)
/-- The line that a header and its planes give; without samples no line is good. -/
def backOf (h : List Byte) (planes : List Row) : BackLine :=
  let fl := leAt h 20 2
  { slot := wd (leAt h 0 4), count := wd (leAt h 4 4), time := BitVec.ofNat 64 (leAt h 8 8),
    kind := if fl.testBit 1 then 2 else if fl.testBit 0 || fl.testBit 3 || planes.isEmpty then 1 else 0, ovr := fl.testBit 2, planes := planes }
/-- A coded line read from the record buffer: its header and planes, none where its CRC fails or a word of it is uncorrectable (R260). -/
def readCoded (n p : Nat) (x : RecLine) (s : State) : Option (List Byte × List Row) × List Byte × State :=
  let r := devRead mCodec n p (cdsAddr n x.no s) (32 + lineBlocks n s) s
  let h := r.1.take 32
  let c := cds n s
  let blocks := if x.has then r.1.drop 32 else []
  let planes := if x.has then decodeLine c.bits (cdsRatio n s) c.planes c.width blocks else []
  (if !r.2.2.1 && decide (wd (leAt h 24 4) = crc32 (h.take 24 ++ blocks)) then some (h, planes) else none, h, r.2.2.2)
/-- A coded line as it is delivered (R133): one that fails its CRC is bad and takes its place from its neighbours; its time is a free value,
the same in every epoch. -/
def codedLine (n p : Nat) (x : RecLine) (s : State) : BackLine × Option (List Byte) × State :=
  let r := readCoded n p x s
  match r.1 with
  | some (h, planes) => (backOf h planes, some h, r.2.2)
  | none =>
    let c := cds n s
    let s := inc (cdsBase n + 0x14) 1 r.2.2
    let h := r.2.1
    let b := backOf h []
    let own := decide (wd (leAt h 24 4) = crc32 (h.take 24))
    ({ b with
       slot := if own then b.slot else c.prevSlot + 1, count := if own then b.count else c.prevCount,
       time := if own then b.time else Config.lineTime h, kind := 1, ovr := own && b.ovr, planes := [] }, none, s)

/-- Bytes of a cache line, and how many the cache holds (R132). -/
def cacheLen (n : Nat) (s : State) : Nat := let c := cds n s; c.planes * c.width * 2 + 64
/-- The lines a cache holds (R132). -/
def cacheCap (n : Nat) (s : State) : Nat := (cdsCacheLen n s - 1048576) / cacheLen n s
/-- A cached line read: none where its CRC fails or a word of it is uncorrectable (R260). -/
def readCached (n p i : Nat) (s : State) : Option BackLine × State :=
  let c := cds n s
  let len := cacheLen n s
  let r := devRead mCodec n p (cdsCache n s + i * len) len s
  let px := r.1.take (len - 64)
  let h := (r.1.drop (len - 64)).take 32
  if !r.2.2.1 && decide (wd (leAt r.1 (len - 32) 4) = crc32 (px ++ h)) then
    (some (backOf h ((upTo c.planes).map fun q => (upTo c.width).map fun j => leAt px (2 * (q * c.width + j)) 2)), r.2.2.2)
  else (none, r.2.2.2)
/-- A decoded line of the first epoch is written into the cache while it has room. -/
def cacheLine (n p k : Nat) (h : List Byte) (planes : List Row) (s : State) : State :=
  let c := cds n s
  if decide (rd (cdsBase n + 0xC) s ≠ 0) || planes.isEmpty || decide (k ∈ c.cached) || decide (cacheCap n s ≤ c.cached.length) then s else
    let px := planes.flatMap fun (r : Row) => r.flatMap (natLE 2)
    let s := (devWrite mCodec n p (cdsCache n s + c.cached.length * cacheLen n s) (px ++ h ++ natLE 4 (crc32 (px ++ h)).toNat ++ zeros 28) s).2.2
    let s := updCds n (fun c => { c with cached := c.cached ++ [k] }) s
    wr (cdsBase n + 8) (wd (cds n s).cached.length) s

/-! ### Replay (R129 to R132) -/

/-- The replay of a slot's stream stands at the start of an epoch: a stream start whose windows carry the slot and the epoch (R131). The slot
and the count that stand before the first line are free values, the same in every epoch. -/
def epochStart (n st : Nat) (s : State) : State :=
  let s := updCds n (fun c => { c with pos := 0, prevSlot := c.slot0, prevCount := c.count0 }) s
  updFe st (fun f => { f with rep := some (n, (rd (cdsBase n + 0xC) s).toNat) }) (feStart st true s)
/-- A replay begins (R129, R130): PERIOD in 0.1 µs. -/
def replayStart (n st pace period epochs : Nat) (s : State) : State :=
  let s := draw 2 (updCds n (fun c => { c with
    period := period, epochs := epochs, lastTick := none, slot0 := Config.freeWord s.fresh, count0 := Config.freeWord (s.fresh + 1) }) s)
  let s := wr (cdsBase n + 0xC) 0 (wrB (cdsBase n) 7 (decide (pace = 1)) (setCdsState n 3 s))
  let s := epochStart n st (updStrm st (fun x => { x with replay := some n }) s)
  match streamPart st s with | some p => showRun p (showSs st s) | none => s
/-- A replay ends: open objects close with STOPPED and the slot holds its recording again (R139). -/
def replayEnd (n st : Nat) (s : State) : State :=
  let s := setCdsState n 2 (updStrm st (fun x => { x with replay := none }) (feStop st s))
  match streamPart st s with | some p => showRun p (showSs st s) | none => s

/-- The rings of a stream have room for every output line up to its next slot, written or not (R130). -/
def flowRoom (st : Nat) (s : State) : Bool :=
  (upTo 4).all fun n => match outOf st n s with
    | some o => decide (max o.wr (((fe st s).next + 1) / outY st n s) ≤ outRel st n s + outRingN st n s)
    | none => true
/-- The slot may feed a line now: ring room with FLOW, PERIOD past with PACED (R130). -/
def feedReady (n st : Nat) (s : State) : Bool :=
  if rdB (cdsBase n) 7 s then
    match (cds n s).lastTick with | some t => decide (nsTicksUp ((cds n s).period * 100) ≤ ticksSince t s) | none => true
  else flowRoom st s
/-- No port of the target's front end has a live line waiting (R130). -/
def feQuiet (st : Nat) (s : State) : Bool := (upTo 4).all fun i => (cport (st / 4 * 4 + i) s).segs.isEmpty
/-- The decoder serves the replaying slots that may feed a line in turn (R130): it is slot `n`'s. -/
def feedTurn (n : Nat) (s : State) : Bool :=
  let may := fun m => decide (cdsState m s = 3) && (match cdsTarget m s with | some st => feedReady m st s && feQuiet st s | none => false)
  ((upTo 16).map fun i => (s.decTurn + 1 + i) % 16).find? may == some n
/-- The line at position `k` of the recording: from the cache, or decoded within the decoder's rate (R121, R132, R133); none, and nothing
done, while it must wait. -/
def feedLine (n p k : Nat) (x : RecLine) (s : State) : Option BackLine × State :=
  let samples := if x.has then (cds n s).planes * (cds n s).width else 0
  let decode := fun (t : State) =>
    if codecMs < loadNow decUnit s + samples then (none, s) else
      let r := codedLine n p x (codecLoad n decUnit samples t)
      (some r.1, match r.2.1 with | some h => cacheLine n p k h r.1.planes r.2.2 | none => r.2.2)
  match (cds n s).cached.findIdx? (· = k) with
  | some i =>
    let r := readCached n p i s
    (match r.1 with
    | some b => (some b, r.2)
    | none => decode (inc (cdsBase n + 0x14) 1 r.2))
  | none => decode s

/-- The end of an epoch: a stream stop, and the next epoch or the end of the replay (R131). -/
def epochEnd (n st : Nat) (s : State) : State :=
  let s := inc (cdsBase n + 0xC) 1 s
  let e := (cds n s).epochs
  if e ≠ 0 ∧ e ≤ (rd (cdsBase n + 0xC) s).toNat then replayEnd n st s else epochStart n st (feStop st s)

/-- REPLAY_LINE_FEED: the next line of a replaying slot enters its target after the recording's tap (R129, R130). -/
def feedBody (n : Nat) (s : State) : State :=
  match cdsOwner n s, cdsTarget n s, (cds n s).held[(cds n s).pos]? with
  | some p, some st, some x =>
    if cdsState n s ≠ 3 then s else
    let s := if feQuiet st s then s else drainFe (st / 4) s
    if feedTurn n s = false then s else
      let r := feedLine n p (cds n s).pos x { s with decTurn := n }
      match r.1 with
      | none => r.2
      | some b =>
        let s := updCds n (fun c => { c with pos := c.pos + 1, lastTick := some (tick s), prevSlot := b.slot, prevCount := b.count }) r.2
        let tap := b2n (rdB (cdsBase n) 3 s)
        let s := pushSlot st b.slot b.count b.time b.kind b.planes b.ovr false (some tap) s
        if (cds n s).held.length ≤ (cds n s).pos then epochEnd n st s else s
  | _, _, _ => s
/-- REPLAY_LINE_FEED (R130). -/
def execReplayLineFeed (slot : Fin 16) (s : State) : Host.Outcome State Fault Refusal := .next (feedBody slot.val s)

/-! ### Calibration runs (R135 to R138) -/

/-- `n / d` rounded half-even. -/
def rheDiv (n d : Nat) : Nat :=
  let q := n / d
  let r := n % d
  if 2 * r < d then q else if d < 2 * r then q + 1 else q + q % 2
/-- A value put into a rising list. -/
def insRising (x : Nat) : List Nat → List Nat
  | [] => [x]
  | y :: r => if x ≤ y then x :: y :: r else y :: insRising x r
/-- The lower median of a list. -/
def lowMedian (l : List Nat) : Nat := (l.foldr insRising []).getD ((l.length + 1) / 2 - 1) 0
/-- The distance of two samples. -/
def absDiff (a b : Nat) : Nat := if a < b then b - a else a - b

/-- Statistics of a column of a plane (R136, R137): median, MAD, mean and standard deviation of the kept values, the number of values and
of excluded ones. -/
structure ColStat where
  med : Nat
  mad : Nat
  mean : Nat
  sd : Nat
  n : Nat
  excl : Nat
deriving DecidableEq, Repr
/-- The statistics of one column (R136). -/
def colStat (k madMin : Nat) (xs : List Nat) : ColStat :=
  let med := lowMedian xs
  let mad := lowMedian (xs.map fun x => absDiff x med)
  let kept := xs.filter fun x => decide (16 * absDiff x med ≤ k * max mad madMin)
  let m := max 1 kept.length
  let sum := kept.foldl (· + ·) 0
  let v := kept.length * (kept.map fun x => x * x).foldl (· + ·) 0 - sum * sum
  let q := rootSearch (fun q => decide (q * q * m * m ≤ v)) 17 0
  let sd := if (2 * q + 1) * (2 * q + 1) * m * m < 4 * v then q + 1 else if (2 * q + 1) * (2 * q + 1) * m * m = 4 * v then q + q % 2 else q
  { med := med, mad := mad, mean := rheDiv sum m, sd := sd, n := xs.length, excl := xs.length - kept.length }

/-- The good lines of a recording as the calibration unit reads them, the first 65,536 of them (R135). -/
def goodLines (n p : Nat) (xs : List RecLine) (s : State) : List (List Row) × State :=
  xs.foldl (fun (a : List (List Row) × State) x =>
    if x.flags % 4 ≠ 0 ∨ x.flags.testBit 3 ∨ 65536 ≤ a.1.length then a else
      let r := codedLine n p x a.2
      (if r.1.kind = 0 ∧ ¬ r.1.planes.isEmpty then a.1 ++ [r.1.planes] else a.1, r.2.2)) ([], s)
/-- The statistics of every column, plane by plane. -/
def calStats (k madMin planes w : Nat) (ls : List (List Row)) : List (List ColStat) :=
  (upTo planes).map fun p => (upTo w).map fun c => colStat k madMin (ls.map fun l => (l.getD p []).getD c 0)

/-- The bits of a bitmap packed into bytes. -/
def bitmapBytes (bs : List Bool) : List Byte :=
  (upTo ((bs.length + 7) / 8)).map fun i => BitVec.ofNat 8 ((upTo 8).foldl (fun a j => a + (if bs.getD (8 * i + j) false then 2 ^ j else 0)) 0)
/-- A plane of a table image from its columns: defect, DARK, GAIN (R119). -/
def tblPlaneBytes (cols : List (Bool × Nat × Nat)) : List Byte :=
  bitmapBytes (cols.map (·.1)) ++ (cols.flatMap fun (c : Bool × Nat × Nat) => natLE 2 c.2.1) ++ cols.flatMap fun (c : Bool × Nat × Nat) => natLE 2 c.2.2
/-- The active table's columns of a plane; an empty slot has no defect, DARK 0 and GAIN 16,384 (R119). -/
def tblCols (tbl : Option (List Byte)) (w p : Nat) : List (Bool × Nat × Nat) :=
  match tbl with
  | some t => let q := tblPlane t w p; (upTo w).map fun c => (tblDefect q c, tblDark q w c, tblGain q w c)
  | none => List.replicate w (false, 0, 16384)

/-- GAIN and whether the column becomes a defect (R137). -/
def flatGain (target dark : Nat) (x : ColStat) : Nat × Bool :=
  if x.mean ≤ dark ∨ 65535 * (x.mean - dark) < target * 16384 ∨ x.n < 2 * x.excl then (16384, true)
  else (rheDiv (target * 16384) (x.mean - dark), false)
/-- TARGET, or the mean of M − DARK over all columns. -/
def flatTarget (target : Nat) (tbl : Option (List Byte)) (w : Nat) (st : List (List ColStat)) : Nat :=
  if target ≠ 0 then target else
    let ds : List Int := st.zipIdx.flatMap fun (x : List ColStat × Nat) =>
      (x.1.zip (tblCols tbl w x.2)).map fun (y : ColStat × Bool × Nat × Nat) => (y.1.mean : Int) - y.2.2.1
    let sum := ds.foldl (· + ·) 0
    if sum ≤ 0 then 0 else rheDiv sum.toNat (max 1 ds.length)
/-- The output of a run (R135, R137): KIND 0 DARK, 1 FLAT, 2 REF. -/
def calOutput (kind target : Nat) (tbl : Option (List Byte)) (w : Nat) (st : List (List ColStat)) : List Byte :=
  if kind = 2 then st.flatMap fun (p : List ColStat) => p.flatMap fun x => natLE 2 x.med ++ natLE 2 x.mad ++ natLE 2 x.mean ++ natLE 2 x.sd
  else
    let t := flatTarget target tbl w st
    st.zipIdx.flatMap fun (x : List ColStat × Nat) =>
      tblPlaneBytes ((x.1.zip (tblCols tbl w x.2)).map fun (y : ColStat × Bool × Nat × Nat) =>
        if kind = 0 then (y.2.1, y.1.mean, y.2.2.2)
        else let g := flatGain t y.2.2.1 y.1; (y.2.1 || g.2, y.2.2.1, g.1))

/-- A calibration run begins (R135): its arguments are KIND, K, MAD_MIN, FRAC, TARGET and APPLY. -/
def calStart (n : Nat) (args : List Nat) (s : State) : State :=
  let c := cds n s
  let lines := min 65536 (c.held.filter fun x => decide (x.flags % 4 = 0) && !x.flags.testBit 3).length
  let s := setCdsState n 4 (updCds n (fun c => { c with calArgs := args, calSince := tick s, calNeed := lines * c.planes * c.width }) s)
  wr (kCAL + 8) 0 (wr (kCAL + 4) 0 (wr kCAL (wd (n + args.getD 0 0 * 16 + 256 + 1024)) s))

/-- CODEC_CAL.PASS of a run in progress (R137, R141). DESIGN CHOICE (notes/assumptions/31.md): its three passes read 2.0 Gsample/s, 16/5 samples a
tick, and the last one lasts until the run ends. -/
def showCal (s : State) : State :=
  if !rdB kCAL 8 s then s else
    let c := cds (rdF kCAL 3 0 s) s
    wrF kCAL 11 10 (min 3 (1 + ticksSince c.calSince s * 16 / (5 * max 1 c.calNeed))) s

/-- What a run finds (R136): its status, N, E, the statistics, the state after its reads. -/
structure CalVerdict where
  status : Nat
  n : Nat
  e : Nat
  stats : List (List ColStat)
  reads : State
/-- The run of a slot is judged (R135, R136). -/
def calJudge (n : Nat) (s : State) : CalVerdict :=
  let c := cds n s
  let a := fun i => c.calArgs.getD i 0
  let r := goodLines n ((cdsOwner n s).getD 0) c.held s
  let stats := calStats (a 1) (a 2) c.planes c.width r.1
  let tot := fun (f : ColStat → Nat) => (stats.flatMap fun l => l.map f).foldl (· + ·) 0
  let nn := tot (·.n)
  let e := tot (·.excl)
  { status := if r.1.length < 256 then stCAL_SHORT else if a 3 * nn < 1000 * e then stCAL_POLLUTED else stOK, n := nn, e := e, stats := stats, reads := r.2 }
/-- The output of a run that succeeds; with APPLY its table is loaded into the stream's pending slot (R137, R138). -/
def calWrite (n : Nat) (stats : List (List ColStat)) (s : State) : State :=
  let c := cds n s
  let a := fun i => c.calArgs.getD i 0
  let st := rdF (cdsBase n) 13 8 s
  let s := (devWrite mCodec n ((cdsOwner n s).getD 0) (cdsOut n s) (calOutput (a 0) (a 4) (fe st s).active c.width stats) s).2.2
  if a 5 = 1 ∧ a 0 < 2 then startLoad st (cdsOut n s) true s else s

end Sys2Proof.Machine
end

