-- ==== Sys2Proof/Machine/Stream.lean ====
section
/-! DEFINITION. Stream starts and stops (R35, R117, R289 to R291, R297, R306, R425) and the comparators of R326. -/

namespace Sys2Proof.Machine

open Sys2Proof

/-! ### Starts -/

/-- Live cores of a partition whose last Morning check lies more than MC_IDLE minutes back (R425). -/
def staleCores (p : Nat) (s : State) : List Nat :=
  (liveCores p s).filter fun n => decide (pwrCfg 16 2 s * 37500000000 < ticksSince (ageing n s).lastTick s)
/-- The partition's set with a stream started (R297). -/
def setWith (p st : Nat) (s : State) : AdmSet := setNow p (updStrm st (fun x => { x with started := true }) s)
/-- An unfit model of a set (R427): a refusal with the reason that marked it. -/
def unfitIn (hs : List Nat) (s : State) : Option Refuse :=
  hs.findSome? fun h => ((model h s).bind fun m => m.unfit).map fun r => { reason := r, model := h }
/-- Admission of a set, unfit models first (R297, R427); streams in held Dusk keep it (R308). -/
def admitSet (p : Nat) (a : AdmSet) (s : State) : Option Refuse := (unfitIn (setHandles a) s).orElse fun _ => admission p (fun st => decide (rdF (strBase st) 1 0 s = 2)) a s
/-- The scheduler area stands in one HBM region of the partition with read and write rights (R291). -/
def areaOk (p a : Nat) (s : State) : Bool := inHbm a && decide (a % 0x100000 = 0) && inOneRegion p a 0x100000 [rgtRead, rgtWrite] s

/-- What refuses a start before admission: its status and result. -/
def startBad (p st : Nat) (s : State) : Option (Nat × List Byte) :=
  if (strm st s).replay.isSome then some (stCODEC_BUSY, [])
  else if !(match (part p s).area with | some a => areaOk p a s | none => false) then some (stREFUSED_CFG, [])
  else (shadowsBad st s).map fun o => (stREFUSED_CFG, natLE 4 (fes st + o))

/-- A partition has a stream started or replaying. -/
def partActive (p : Nat) (s : State) : Bool := (partStreams p s).any fun st => (strm st s).started || (strm st s).replay.isSome

/-- The active set of a partition became another one while `fn` changed it by the command `d` (R306): a switch where the partition was
active, which completes the command; otherwise the entering weights are loaded and the command completes. -/
def changeSet (fn : Nat) (d : SvcDesc) (p : Nat) (was : Bool) (old : List Nat) (repl : List (Nat × Nat × Option Nat)) (s : State) : State :=
  let now := activeSet p s
  if was && (now.any (fun h => !old.contains h) || old.any fun h => !now.contains h) then
    let s := updRing fn (fun r => { r with busy := some (.bindSwitch d p) }) s
    switchBody p (switchStart p { fn := fn, old := old, repl := repl } s)
  else finish fn d stOK 0 [] (loadEntering p (now.filter fun h => !old.contains h) s)

/-- STR_STAT.MODE at a start: held Dusk stays (R308). -/
def showMode (st : Nat) (s : State) : State := if rdF (strBase st) 1 0 s = 2 then s else wrF (strBase st) 1 0 0 s
/-- A start whose checks have passed; the emulated output the stream names is resynchronised (R328). -/
def startGo (fn : Nat) (d : SvcDesc) (p st : Nat) (s : State) : State :=
  let was := partActive p s
  let old := activeSet p s
  let fresh := !(strm st s).started
  let s := updStrm st (fun x => { x with started := true, stopping := false }) s
  let m := cfg 0x20 st 8 1 s
  let s := if fresh && decide (m < 4) then emuResync m s else s
  let s := if fresh then
      fillWindows st (fillBucket st (showMode st (wr (strBase st + 8) 0x7FFFFFFF (feStart st false s))))
    else s
  let s := if partState p s = 4 then wrF (kPART_STATUS p) 2 0 1 s else s
  changeSet fn d p was old [] (showFixed p (showRun p (showSs st s)))

/-! ### Stops (R117, R305, R74) -/

/-- A stream stop; of a replaying stream only its BACKGROUND jobs are asked to yield (R305). -/
def stopStream (p st : Nat) (s : State) : State :=
  let s := if (strm st s).replay.isSome then askYield (fun j => decide (j.stream = st) && j.bg) p s else s
  if !(strm st s).started then s else
    let s := updStrm st (fun x => { x with started := false }) (feStop st s)
    showSched p (showRun p (showSs st (portDown st s)))

/-! ### Comparators (R326) -/

def cmpr (c : Nat) (s : State) : Cmpr := Fam.get {} c s.cmprs
/-- The functions of the partitions that read a source. -/
def readerFns (x y : Nat) (s : State) : List Nat :=
  0 :: ((upTo 16).filter fun p => partUsed p s && (encRead p x s || encRead p y s)).map (· + 1)
/-- e out of tolerance: the fault, its audit record (whose code is open), and with STOP the stop of every stream on X or Y. -/
def disagree (k : Nat) (c : Cmpr) (s : State) : State :=
  let s := auditEvent ((Config.freeWord s.fresh).toNat % 65536) 0 0xFF [] (draw 1 s)
  let s := raiseFault 0x4005 k 0xFF (wdi c.e) (readerFns c.x c.y s) s
  if !c.stop then s else
    let on := (upTo 64).filter fun st => (strm st s).started && (decide (cfg 0x20 st 7 1 s = c.x) || decide (cfg 0x20 st 7 1 s = c.y))
    eachDo (fun st s => match streamPart st s with | some p => stopStream p st s | none => s) on s
/-- The end of a comparator's window: e = ΔY − K × ΔX; its rounding to counts is open. -/
def compareBody (k : Nat) (s : State) : State :=
  let c := cmpr k s
  if !c.en then s else
    let x := encPos c.x s
    let y := encPos c.y s
    let e := (y - c.y0).toInt * 65536 - c.k * (x - c.x0).toInt
    let up := if e % 65536 = 0 then 0 else b2n (Config.freeBit s.fresh)
    let bad := decide (c.tol * 65536 < e.natAbs)
    let c := { c with x0 := x, y0 := y, e := e / 65536 + up, out := bad }
    let s := draw 1 { s with cmprs := s.cmprs.set k c }
    if bad then disagree k c s else s
/-- COMPARE_WINDOW_END (R326). -/
def execCompareWindowEnd (c : Fin 4) (s : State) : Host.Outcome State Fault Refusal := .next (compareBody c.val s)

end Sys2Proof.Machine
end

