-- ==== Sys2Proof/Machine/Commit.lean ====
section
/-! DEFINITION. The image in force (03_configuration_image.md, R58 to R63; 02_partitions_and_roles.md, R29, R35): what an image changes,
checks 10 to 12 of R60, the registers an image gives, and the steps of R62. -/

namespace Sys2Proof.Machine

open Sys2Proof

/-! ### What an image changes (R59) -/

/-- The body that stands for an absent section: nothing is claimed, no unit is on. -/
def absentBody (ty : Nat) : List Byte := if ty = 0x50 then (upTo 16).flatMap fun _ => 0xFF :: zeros 15 else []
/-- A section as a commit compares it. -/
def bodyOr (l : List Sec) (ty inst : Nat) : List Byte := (secOf l ty inst).getD (absentBody ty)
/-- Partitions whose PARTITION section satisfies a test in either image. -/
def eitherParts (old new : List Sec) (f : List Byte → Bool) : List Nat :=
  (upTo 16).filter fun p => f (bodyOr old 0x10 p) || f (bodyOr new 0x10 p)
/-- The partitions that a difference in a field of a section changes: of MOTION, the speed window of an ENC, the clock and the word format of
an SSI, mode and source of an EMU are the settings of R57. -/
def changedBy (old new : List Sec) (ty inst o : Nat) : List Nat :=
  let both := [bodyOr old ty inst, bodyOr new ty inst]
  let names := fun k => (both.filter fun b => !b.isEmpty).map fun b => leAt b k 1
  let reads := fun i => eitherParts old new fun b => (leAt b 10 1).testBit i
  let ps :=
    if ty = 0x10 ∨ ty = 0x11 then [inst]
    else if ty = 0x20 ∨ ty = 0x21 then names 0
    else if ty = 0x40 then
      if o < 64 then (if o % 16 = 4 then reads (o / 16) else [])
      else if o < 96 then (if o % 16 ∈ [1, 2, 4] then reads (4 + (o - 64) / 16) else [])
      else if o % 32 ≠ 0 ∧ o % 32 ≠ 1 then []
      else
        let m := (o - 96) / 32
        let srcs := (both.filter fun b => decide (leAt b (96 + 32 * m) 1 ≠ 0)).map fun b => leAt b (97 + 32 * m) 1
        eitherParts old new fun b => (leAt b 7 1).testBit m || srcs.any fun i => (leAt b 10 1).testBit i
    else if ty = 0x41 then
      (if o < 128 then eitherParts old new fun b => (leAt b 6 1).testBit (o / 16) else eitherParts old new fun b => decide (leAt b 6 1 ≠ 0))
    else if ty = 0x42 then
      (if o % 64 = 2 ∨ o % 64 = 3 then eitherParts old new fun b => decide (leAt b (16 + o / 64) 1 ≠ 0) else [])
    else if ty = 0x50 then names (16 * (o / 16))
    else []
  ps.filter (· < 16)
/-- A difference between two images: its section in the new one, the field and its place as R61 names them, the section's type, the
partitions changed by it. -/
structure ImgDiff where
  sec : Nat
  field : Nat
  whr : Nat
  ty : Nat
  parts : List Nat
deriving DecidableEq, Repr
/-- The fields of a section that differ between two bodies, in byte order. -/
def fieldDiffs (x : Sec) (a b : List Byte) : List Nat :=
  (secFields [] x).filterMap fun f => if leAt a f.1 f.2.1 = leAt b f.1 f.2.1 then none else some f.1
/-- The differences of an image from the one in force: the new image's sections in order, then those it lacks. DESIGN CHOICE
(notes/assumptions/21.md): a section that only the image in force has is named as a missing one, SECTION 0xFFFF, WHERE 4, FIELD its TYPE. -/
def imgDiffs (old new : List Sec) : List ImgDiff :=
  (new.zipIdx.flatMap fun (x : Sec × Nat) =>
    let was := bodyOr old x.1.ty x.1.inst
    let by' := changedBy old new x.1.ty x.1.inst
    let fs := (fieldDiffs x.1 was x.1.body).map fun o => ({ sec := x.2, field := o, whr := 0, ty := x.1.ty, parts := by' o } : ImgDiff)
    if fs.isEmpty ∧ was.length ≠ x.1.body.length then [{ sec := x.2, field := 4, whr := 1, ty := x.1.ty, parts := by' 0 }] else fs) ++
  ((old.filter fun x => (secOf new x.ty x.inst).isNone).map fun x =>
    { sec := 0xFFFF, field := x.ty, whr := 4, ty := x.ty,
      parts := ((fieldDiffs x x.body (absentBody x.ty)).flatMap fun o => changedBy old new x.ty x.inst o).eraseDups })
/-- The partitions an image changes. -/
def changedParts (old new : List Sec) : List Nat := (upTo 16).filter fun p => (imgDiffs old new).any fun d => d.parts.contains p
/-- GLOBAL, POWER or ARBITER changes: every partition is admitted again. -/
def admitAll (old new : List Sec) : Bool := (imgDiffs old new).any fun d => decide (d.ty = 0x01 ∨ d.ty = 0x02 ∨ d.ty = 0x30)

/-! ### The registers an image gives (R62, step 2) -/

/-- PART_STATUS beside STATE and VF_UP. -/
def showStatus (p : Nat) (s : State) : State :=
  let b := bodyOr s.img 0x10 p
  let k := kPART_STATUS p
  let key := fun o => ((b.drop o).take 32).any (· ≠ 0)
  showModels p (wrB k 8 (key 64) (wrB k 7 (key 32) (wrF k 21 16 (liveCores p s).length s)))
/-- The summary registers of a partition (R35); one that comes into use is stopped. -/
def showPart (p : Nat) (s : State) : State :=
  let s := showStatus p s
  let s := if !partUsed p s then wrF (kPART_STATUS p) 2 0 0 s else if partState p s = 4 then s else wrF (kPART_STATUS p) 2 0 (runState p s) s
  let s := wr (kPART_FE p) (wd (cfg 0x10 p 4 2 s)) (wr (kPART_CORES p) (wd (cfg 0x10 p 0 4 s)) s)
  let s := wr (kPART_IO p) (wd (cfg 0x10 p 6 1 s + cfg 0x10 p 7 1 s % 16 * 2 ^ 8 + cfg 0x10 p 8 2 s * 2 ^ 12)) s
  wrF (ldpBase p + 0x14) 28 16 (cfg 0x10 p 12 2 s) s
/-- Region `r` of tag `t` from its record (R246). -/
def showRegion (t r : Nat) (b : List Byte) (s : State) : State :=
  let base := leAt b (32 * r) 8
  let last := leAt b (32 * r + 8) 8
  let k := kRGN t r
  wr (k + 0xC) (wd (2 ^ 31 + leAt b (32 * r + 17) 1 % 4 * 2 ^ 20 + leAt b (32 * r + 16) 1 % 8 * 2 ^ 16 + last / 2 ^ 32 % 2 ^ 16))
    (wr (k + 8) (wd (last / 4096 * 4096)) (wr (k + 4) (wd (base / 2 ^ 32 % 2 ^ 16)) (wr k (wd base) s)))
/-- Every region register. -/
def showRegions (s : State) : State :=
  eachDo (fun t s => let b := bodyOr s.img 0x11 t; eachDo (fun r s => showRegion t r b s) (upTo (b.length / 32)) s) (upTo 18)
    (regsReset (kRGN 0 0) (kRGN 18 0) s)
/-- The ARB shadows with the values they take (R283, R286), and CLU_MIN_SHARE. -/
def showArbiter (s : State) : State :=
  let s := eachDo (fun t s =>
    let e := fun o => cfg 0x30 0 (16 * t + o) 1 s
    wr (kARB_TAG t) (wd (cfg 0x10 t 14 1 s * 2 ^ 24 + e 3 / 16 * 2 ^ 20 + e 3 % 2 * 2 ^ 16 + e 2 % 8 * 2 ^ 8 + e 1 % 8 * 2 ^ 4 + e 0 % 8)) s) (upTo 16) s
  let s := wr kARB_GLOBAL (wd (cfg 0x01 0 1 1 s % 16 + cfg 0x01 0 2 1 s % 128 * 2 ^ 8)) s
  eachDo (fun k s => wr (cluBase k + 0x1C) (wd (cfg 0x01 0 2 1 s % 128)) s) (upTo 4) s
/-- The MOTION registers (R330, R348). -/
def showMotion (s : State) : State :=
  let m := fun o k => cfg 0x40 0 o k s
  let s := eachDo (fun i s => wr (srcBase i + 4) (wd (m (16 * i + 4) 4 % 2 ^ 17)) (wr (srcBase i) (wd (m (16 * i) 1 % 2 + m (16 * i + 1) 1 % 16 * 2 ^ 8)) s))
    (upTo 4) s
  let s := eachDo (fun j s =>
    let o := 64 + 16 * j
    let b := srcBase (4 + j)
    let s := wr b (wd (m o 1 % 2 + m (o + 2) 1 % 2 * 2 + m (o + 1) 1 % 64 * 2 ^ 2 + m (o + 3) 1 % 128 * 2 ^ 8)) s
    wr (b + 8) (wd (m (o + 6) 2 % 2 ^ 14)) (wr (b + 4) (wd (m (o + 4) 2 % 2 ^ 14)) s)) (upTo 2) s
  eachDo (fun e s =>
    let o := 96 + 32 * e
    wr (emuBase e + 4) (wd (m (o + 4) 4)) (wr (emuBase e) (wd (m o 1 % 4 + m (o + 1) 1 % 8 * 2 ^ 2 + m (o + 2) 1 % 2 * 2 ^ 5)) s)) (upTo 4) s
/-- The FIELDIO registers (R354). -/
def showFieldio (s : State) : State :=
  let safe := fun h => (upTo 16).foldl (fun a i => a + safeOf (16 * h + i) s % 4 * 4 ^ i) 0
  let s' := eachDo (fun d s' => wr (fioBase + 0x80 + 4 * d) (wd (pullinUs d s)) s') (upTo 32) s
  wr (fioBase + 0x20) (wd (safe 1)) (wr (fioBase + 0x1C) (wd (safe 0)) (wr (fioBase + 0x10) (wd (cfg 0x41 0 128 2 s % 1024)) s'))
/-- CL_CFG of the camera lanes (R89). -/
def showLanes (s : State) : State := eachDo (fun n s =>
  wr (laneBase n) (match laneStream n s with
    | some st =>
      let i := n - laneFirst st s
      wd (st * 2 ^ 8 + b2n (decide (i = 0)) * 2 ^ 7 + i * 2 ^ 4 + Nat.log2 (bondWidth st s) * 2 + cfg 0x20 st 3 1 s % 2)
    | none => 0) s) (upTo 64) s
/-- SYS_SPAN (R445). -/
def showTorus (s : State) : State :=
  showSpan (wrF kSYS_STAT 11 0 (spCfg 4 1 s % 16 * 2 ^ 8 + (spDY s - 1) * 2 ^ 6 + (spDX s - 1) * 2 ^ 4 + spY s % 4 * 4 + spX s % 4) s)
/-- The registers that the image in force gives, DET first. -/
def showImage (s : State) : State :=
  let s := wrB kSYS_CTL 0 (decide (cfg 0x01 0 0 1 s = 1)) s
  let s := eachDo showPart (upTo 16) (showRegions s)
  showTorus (showLanes (showFieldio (showMotion (arbTake (showArbiter s)))))

/-! ### Checks 10 to 12 (R60) -/

/-- The bindings of a partition's streams as a set: every bound stream counts. -/
def boundSet (p : Nat) (s : State) : AdmSet :=
  let own := s.binds.filter fun b => decide (streamPart b.1 s = some p)
  { live := own.filter (fun b => !isTarget b.1 s), rep := own.filter fun b => isTarget b.1 s }
/-- Resident models of a partition. -/
def residents (p : Nat) (s : State) : List (Nat × Model) := s.models.filter fun x => decide (x.2.part = p)
/-- Every resident model of a partition passes admission, in its bindings and on its own. -/
def residentsPass (p : Nat) (s : State) : Bool :=
  let solo := fun (h : Nat) => ({ models := [some h], dusks := [], speedMax := 1, duskMarginUs := 0, duskHoldMs := 0, skipLate := false,
                                  onIncomplete := false, onDegraded := false } : Binding)
  (residents p s).isEmpty || (partUsed p s && (admission p (fun _ => false) (boundSet p s) s).isNone && (residents p s).all fun x =>
    match fitTest p (liveCores p s) { live := [], rep := [(64, solo x.1)] } s with
    | some r => decide (r.reason = 0x0B)
    | none => true)
/-- A partition's PARTITION section as a refusal names it. DESIGN CHOICE (notes/assumptions/21.md): R61 gives checks 10 and 11 no field; the
model names field 0 at check 10, KEY_CUR at check 11, and a PARTITION section that the image lacks as a missing one. -/
def partitionAt (check field : Nat) (new : List Sec) (p : Nat) : ImgBad :=
  match new.zipIdx.find? fun (x : Sec × Nat) => decide (x.1.ty = 0x10 ∧ x.1.inst = p) with
  | some x => imgBad check x.2 field 0
  | none => imgBad check 0xFFFF 0x10 4
/-- Check 10: admission under the new image, with the registers it gives. -/
def check10 (new : List Sec) (s : State) : Option ImgBad :=
  let t := showImage { s with img := new }
  let ps := if admitAll s.img new then upTo 16 else changedParts s.img new
  (ps.find? fun p => !residentsPass p t).map fun p => partitionAt 10 0 new p
/-- Check 11: a resident model's key goes (R43). -/
def check11 (new : List Sec) (s : State) : Option ImgBad :=
  (s.models.find? fun x =>
    let b := bodyOr new 0x10 x.2.part
    decide (x.2.key ≠ (b.drop 32).take 32) && decide (x.2.key ≠ (b.drop 64).take 32)).map fun x => partitionAt 11 32 new x.2.part
/-- A partition is not stopped, or holds a pending ledger entry (R60, R140, R347). -/
def partBusy (p : Nat) (s : State) : Bool :=
  partActive p s || (s.ents.any fun e => decide (e.2.part = p)) ||
  (upTo 16).any fun n => decide (cdsOwner n s = some p) && decide (cdsState n s = 1 ∨ cdsState n s = 3 ∨ cdsState n s = 4)
/-- Check 12: the first difference that changes a partition that is not at rest. -/
def check12 (new : List Sec) (s : State) : Option ImgBad :=
  ((imgDiffs s.img new).find? fun d => d.parts.any fun p => partBusy p s).map fun d =>
    { check := 12, sec := d.sec, field := d.field, whr := d.whr, status := stREFUSED_BUSY }
/-- Checks 1 to 12 of a commit that names a STAGE_NO. DESIGN CHOICE (notes/assumptions/21.md): a stale one is refused before its image is
looked for, and named as SECTION 0xFFFF, WHERE 2, FIELD 0. -/
def commitCheck (stageNo : Word) (s : State) : ImgBad ⊕ List Byte × List Sec :=
  match s.flash.imgStaged with
  | none => .inl (hdrBad 12 0)
  | some b =>
    if s.flash.stageNo ≠ stageNo then .inl (hdrBad 12 0)
    else match imgCheck 9 b s with
      | .inl e => .inl e
      | .inr new => match firstOf [check10 new s, check11 new s, check12 new s] with
        | some e => .inl e
        | none => .inr (b, new)

/-! ### Resources that change owner (R29) -/

/-- What is left of ranges `(first, last)` once a range is cut out. -/
def cutRange (rs : List (Nat × Nat)) (c : Nat × Nat) : List (Nat × Nat) :=
  rs.flatMap fun (r : Nat × Nat) =>
    if c.2 < r.1 ∨ r.2 < c.1 then [r]
    else (if r.1 < c.1 then [(r.1, c.1 - 1)] else []) ++ (if c.2 < r.2 then [(c.2 + 1, r.2)] else [])
/-- A partition's regions in an image. -/
def partRanges (l : List Sec) (p : Nat) : List (Nat × Nat) := ((imgRegions l).filter fun r => decide (r.1 = p)).map fun r => r.2
/-- Ranges that a partition holds in one image and not in the other. -/
def movedRanges (a b : List Sec) (p : Nat) : List (Nat × Nat) := (partRanges b p).foldl cutRange (partRanges a p)
/-- Memory that leaves a partition, or comes to one, is zero (R29, R256). -/
def clearMemory (old new : List Sec) (s : State) : State :=
  eachDo (fun (r : Nat × Nat) s => memClear r.1 (r.2 + 1 - r.1) s)
    ((upTo 16).flatMap fun p => movedRanges old new p ++ movedRanges new old p) s
/-- The owner of a core in an image. -/
def coreIn (l : List Sec) (n : Nat) : Option Nat := (upTo 16).find? fun p => (imgLE l 0x10 p 0 4).testBit n
/-- The owner of a valve group in an image. -/
def groupIn (l : List Sec) (g : Nat) : Option Nat := (upTo 16).find? fun p => (imgLE l 0x10 p 6 1).testBit g
/-- The owner of a launch queue in an image. -/
def queueIn (l : List Sec) (p q : Nat) : Option Nat := (upTo 16).find? fun n => (imgLE l 0x10 n (16 + p) 1).testBit q
/-- Ranges of registers back at reset. -/
def resetAll (rs : List (Nat × Nat)) (s : State) : State := eachDo (fun (r : Nat × Nat) s => regsReset r.1 r.2 s) rs s
/-- A core's scratchpad, accumulator bank and weight buffers, cleared (R29, R162). -/
def clearCore (n : Nat) (s : State) : State :=
  showUnits n (updCore n (fun c => { c with eng := {} }) (memClear (weightBank n) 0x400000 s))
/-- A core that changes owner: cleared, and nothing of its last owner in its units and registers (R29, R167). -/
def freshCore (n : Nat) (s : State) : State :=
  let b := coreBase n
  let s := memClear (weightBank n) 0x400000 { s with cores := s.cores.del n }
  let s := resetAll [(b, b + 0x200), (b + 0x208, b + 0x21C), (b + 0x800, b + 0x828), (b + 0x900, b + 0x960), (b + 0xA00, b + 0xA18)] s
  wrB (b + 0x804) 4 (quarantined n s) s
/-- Cores that change owner are cleared. -/
def clearCores (old new : List Sec) (s : State) : State :=
  eachDo freshCore ((upTo 32).filter fun n => decide (coreIn old n ≠ coreIn new n)) s
/-- Launch queues that change owner drop their entries (R384), under the old image. -/
def clearQueues (new : List Sec) (s : State) : State :=
  eachDo (fun i s => let p := i / 8; let q := i % 8
    if lqOwner p q s = queueIn new p q then s else
      let s := lqDiscard p q 64 s
      { s with lqs := s.lqs.del i }) (upTo 16) s
/-- Valve groups that change owner pass in their off state. -/
def clearGroups (old new : List Sec) (s : State) : State :=
  eachDo (fun g s => if groupIn old g = groupIn new g ∨ night s then s else
      let s := { s with reqs := s.reqs.filter fun r => decide (r.d / 4 ≠ g) }
      showGrp g (eachDo (fun i s => doOff (4 * g + i) s) (upTo 4) s)) (upTo 8) s
/-- Codec slots whose owner changes return to Idle and their areas are cleared (R140): the area of the old owner and that of the new one. -/
def clearSlots (old new : List Sec) (s : State) : State :=
  let e := fun l n => ((bodyOr l 0x50 0).drop (16 * n)).take 16
  let who := fun l n => if leAt (e l n) 0 1 < 16 ∧ (e l n).length = 16 then leAt (e l n) 0 1 else 0xFF
  let wipe := fun l n s => if who l n = 0xFF then s else memClear (leAt (e l n) 4 4 * 4096) ((leAt (e l n) 8 4 + leAt (e l n) 12 4) * 4096) s
  eachDo (fun n s => if who old n = who new n then s else
      let s := wipe old n (wipe new n s)
      { regsReset (cdsBase n) (cdsBase n + 0x40) s with cds := s.cds.del n }) (upTo 16) s

/-! ### Counters and streams of changed partitions (R89, R110, R314, R478) -/

/-- Streams of some partitions in an image. -/
def streamsIn (l : List Sec) (ps : List Nat) : List Nat :=
  (upTo 64).filter fun st => match secOf l 0x20 st with | some b => ps.contains (leAt b 0 1) | none => false
/-- Units of some partitions in an image: those whose bit a field of their PARTITION section has set. -/
def unitsIn (l : List Sec) (ps : List Nat) (count o k : Nat) : List Nat :=
  (upTo count).filter fun i => ps.any fun p => (imgLE l 0x10 p o k).testBit i
/-- The counters that follow R89, of some partitions under an image. -/
def counterRanges (l : List Sec) (ps : List Nat) : List (Nat × Nat) :=
  let at' := fun (b : Nat) (rs : List (Nat × Nat)) => rs.map fun r => (b + r.1, b + r.2)
  ((streamsIn l ps).flatMap fun st =>
    let b := bodyOr l 0x20 st
    at' (fes st) [(0x80, 0xBC), (0x120, 0x124), (0x160, 0x164), (0x1A0, 0x1A4), (0x1E0, 0x1E4)] ++ at' (strBase st) [(0xC, 0x20)] ++
    at' (ldsBase st) [(0x28, 0x40)] ++ at' (ssBase st) [(8, 0x10)] ++ at' (laneBase (leAt b 1 1)) [(0x120, 0x150)] ++
    (upTo (leAt b 2 1)).flatMap fun i => at' (laneBase (leAt b 1 1 + i)) [(0x10, 0x20)]) ++
  (ps.flatMap fun p => at' (ldpBase p) [(0x18, 0x20)] ++ at' (ringBase (p + 1)) [(0x60, 0x68)]) ++
  ((unitsIn l ps 8 6 1).flatMap fun g => at' (grpBase g) [(4, 0x10)]) ++
  ((unitsIn l ps 8 16 1).flatMap fun q => at' (ethqBase 0 q) [(0x2C, 0x40)]) ++
  ((unitsIn l ps 8 17 1).flatMap fun q => at' (ethqBase 1 q) [(0x2C, 0x40)]) ++
  ((unitsIn l ps 32 0 4).flatMap fun n => at' (coreBase n) [(0x38, 0x4C), (0x10C, 0x110), (0x208, 0x214), (0x218, 0x21C), (0x810, 0x818), (0x918, 0x924), (0xA08, 0xA10)]) ++
  ((upTo 16).filter fun n => ps.contains (leAt (bodyOr l 0x50 0) (16 * n) 1)).flatMap fun n => at' (cdsBase n) [(0x10, 0x18), (0x20, 0x24)]
/-- A stream of a changed partition at rest: frames and objects from 0, empty tables (R110, R119). -/
def stillStream (st : Nat) (s : State) : State :=
  let s := { s with strms := s.strms.del st, fes := s.fes.del st, cports := s.cports.del st }
  let s := feStat st fsPEND false (feStat st fsTBLPEND false (feStat st fsTBLRDY false (wr (fes st + 0x7C) 0 s)))
  wrF (strBase st) 3 0 (8 * b2n (s.binds.any fun b => decide (b.1 = st))) s
/-- CHK_POLICE_RATE's default (R80): the bond's rate in MB/s. -/
def policeRate (st : Nat) (s : State) : Nat := bondWidth st s * (if cfg 0x20 st 3 1 s = 1 then 3125 else 1250)
/-- Lanes that formed no bond, or another one, before: no alignment, no port, whose registers read 0 (R71, R88). -/
def looseLanes (ns : List Nat) (s : State) : State :=
  eachDo (fun n s =>
    let s := wrF (laneBase n + 4) 23 16 0 (wrF (laneBase n + 4) 6 3 0 s)
    eachDo (fun o s => takeShadow (laneBase n + o) (wr (laneBase n + o) 0 s)) (0x100 :: portOffs) s) ns s
/-- The port registers of a stream at their defaults, in force (R88, R89); a bond that moved has yet to align; one that stays keeps its
quarantine (R82). -/
def freshPort (moved : Bool) (st : Nat) (s : State) : State :=
  let b := primBase st s
  let s := if moved then looseLanes (bondLanes st s) s else s
  let vs : List (Nat × Nat) := [(0x104, policeRate st s), (0x108, 0x10000), (0x10C, 0x4020), (0x110, 0x10), (0x114, 0x000A0040), (0x118, 0x00080064)]
  let s := eachDo (fun (x : Nat × Nat) s => takeShadow (b + x.1) (wr (b + x.1) (wd x.2) s)) vs s
  setPortBit st clHELLOBAD false (setPortBit st clUP false (wr (b + 0x11C) 0 s))
/-- A stream's bond in an image. -/
def bondIn (l : List Sec) (st : Nat) : List Byte := ((bodyOr l 0x20 st).drop 1).take 3

/-- Bindings that still hold: the stream is the partition's, the models are resident. -/
def keepBinds (s : State) : State :=
  let ok := fun (b : Nat × Binding) => match streamPart b.1 s with
    | some p => (bindModels b.2 ++ bindDusks b.2).all fun h => match model h s with | some m => decide (m.part = p) | none => false
    | none => false
  { s with binds := s.binds.filter ok }

/-! ### Units whose settings change -/

/-- Position inputs that are switched on or off begin undecided, without a word (R319, R322). -/
def freshSources (old : List Sec) (s : State) : State :=
  let en := fun l i => leAt (bodyOr l 0x40 0) (if i < 4 then 16 * i else 64 + 16 * (i - 4)) 1
  eachDo (fun i s => if en old i = en s.img i then s else
      let s := updSrc i (fun x => { x with pend := none, moved := 0, last := none }) s
      wr (srcBase i + (if i < 4 then 8 else 0xC)) 0 s) (upTo 6) s
/-- Emulated outputs whose settings change are resynchronised (R328). -/
def freshEmus (old : List Sec) (s : State) : State :=
  let e := fun l m => ((bodyOr l 0x40 0).drop (96 + 32 * m)).take 32
  eachDo (fun m s => if e old m = e s.img m then s else emuResync m s) (upTo 4) s
/-- PTP port states follow the roles; a port that is off has no link (R376, R377). -/
def freshPorts (s : State) : State :=
  eachDo (fun p s =>
    let s := if ethOn p s then s else wrF (ethBase p) 1 0 0 s
    if ptpRole p s = 0 then setPtpState p 0 s else if rdF (ethBase p) 4 2 s = 0 then setPtpState p 1 s else s) (upTo 2) s
/-- Span links begin anew where the SPAN section changes (R440). -/
def freshLinks (old : List Sec) (s : State) : State :=
  if bodyOr old 0x60 0 = bodyOr s.img 0x60 0 then s else eachDo spanDown (upTo 4) s
/-- Rails, budget and DET_SLIP under the POWER and GLOBAL sections (R419 to R422). -/
def freshPower (old : List Sec) (s : State) : State :=
  let s := wrB kPWR_STAT 6 false s
  if (bodyOr old 0x01 0 = bodyOr s.img 0x01 0 ∧ bodyOr old 0x02 0 = bodyOr s.img 0x02 0) ∨ ¬ s.boot.dawnDone then s else
    showBudget { railsUp s with pwr := { s.pwr with budget := min s.pwr.budget (noonMax s) } }

/-! ### The commit (R62) -/

/-- A changed partition comes to rest: its jobs end, what is in force for it is forgotten, its generation advances where `gen` says so. -/
def restPart (gen : Bool) (p : Nat) (s : State) : State :=
  let s := updPart p (fun x => { jobNo := x.jobNo, area := x.area }) s
  let s := { s with gops := s.gops.del p, mirrors := s.mirrors.del p }
  let s := if gen then inc (kPART_GEN p) 1 s else s
  let s := wrF (acctBase p + 0x80) 3 1 0 (wrF (kPART_STATUS p) 2 0 (if partUsed p s then runState p s else 0) s)
  showSched p s
/-- The jobs of a partition end (R293). -/
def endJobs (p : Nat) (s : State) : State :=
  eachDo (fun (j : Job) s => jobEnd p j.num .skipped s) (s.jobs.filter fun j => decide (j.part = p)) s
/-- Accounting of partitions that come into or out of use starts at 0 (R314). -/
def freshAcct (old : List Sec) (s : State) : State :=
  eachDo (fun p s => if hasPart old p = hasPart s.img p then s else regsReset (acctBase p) (acctBase p + 0x80) s) (upTo 16) s

/-- Steps 2 to 4 of R62: the image comes into force. With `gen` clear it is the start of the module (R447), where nothing was in force. -/
def applyImage (gen : Bool) (new : List Sec) (s : State) : State :=
  let old := s.img
  let ps := changedParts old new
  let s := eachDo endJobs ps s
  let s := clearGroups old new (clearQueues new s)
  let s := eachDo (fun p s => if (s.ptp.slave = some p) ∧ (imgLE new 0x42 0 (64 * p) 1 = 0 ∨ imgLE new 0x42 0 (64 * p + 1) 1 = 0) then ptpLostBody p s else s)
    (upTo 2) s
  let sts := (streamsIn old ps ++ streamsIn new ps).eraseDups
  let s := resetAll (counterRanges old ps ++ counterRanges new ps) s
  let s := showImage { s with img := new }
  let s := keepBinds (clearSlots old new (clearCores old new (clearMemory old new s)))
  let s := eachDo stillStream sts s
  let s := looseLanes (((streamsIn old ps).filter fun st => decide (bondIn old st ≠ bondIn new st)).flatMap fun st =>
    let b := bondIn old st; (upTo (leAt b 1 1)).map fun i => leAt b 0 1 + i) s
  let s := eachDo (fun st s => freshPort (decide (bondIn old st ≠ bondIn new st)) st s) (streamsIn new ps) s
  let s := freshPower old (freshLinks old (freshPorts (freshEmus old (freshSources old (freshAcct old s)))))
  let s := if gen then setDomains s else s
  let s := eachDo (restPart gen) ps s
  let s := eachDo (fun p s => showFixed p (showPace p (if ps.contains p then s else if admitAll old new then unholdDusk p s else s)))
    ((upTo 16).filter fun p => partUsed p s) s
  showFio (eachDo showSs (upTo 64 |>.filter fun st => streamUsed st s || sts.contains st) s)

/-- Step 1 of R62: with the commit's record in flash the staged slot becomes active. -/
def commitRecord (b : List Byte) (s : State) : State :=
  { s with flash := { s.flash with imgActive := some b, imgStaged := none, committing := true } }
/-- Steps 2 to 4 of R62: the active slot's image comes into force. -/
def commitApply (s : State) : State :=
  let s := match s.flash.imgActive.map imgSecs with
    | some (.inr l) => applyImage true (l.map ISec.sec) s
    | _ => s
  { s with flash := { s.flash with committing := false } }

end Sys2Proof.Machine
end

