-- ==== Sys2Proof/Machine/Startup.lean ====
section
/-! DEFINITION. Resets, the boot order and the steward's restart (20_startup_and_faults.md, R446 to R453). -/

namespace Sys2Proof.Machine

open Sys2Proof

/-- SYS_BOOT.STAGE: the stage of the last event of R448. -/
def setStage (n : Nat) (s : State) : State := wrB kSYS_GSTAT 0 (decide (n = 4)) (wrF kSYS_BOOT 2 0 n s)
/-- The boot state changed. -/
def updBoot (f : Boot → Boot) (s : State) : State := { s with boot := f s.boot }

/-- An open expert unlock ends (R42): the end is recorded, with its STATUS, or counted (R47). -/
def endExpert (status : Nat) (s : State) : State :=
  if !expert s then s else
    auditEvent 0xE003 status 0xFF [] { s with svc := { s.svc with expertUntil := none }, flash := { s.flash with expertOpen := false } }

/-! ### Resets of the module (R446, R447, R453) -/

/-- The Nightfall state in which the module comes up (R358, R449): every output is off; its fault waits for READY. -/
def startNight (s : State) : State :=
  let s := wrF kFIO_CAUSE 11 8 3 (wrB kFIO_CAUSE 3 true s)
  let s := inc kFIO_CNT_NF 1 (wrB kFIO_EVT 1 true (wrB kFIO_STAT 1 true s))
  showFio { s with fio := { s.fio with startNight := true } }

/-- Registers a module reset keeps: the fault log (R460) and the oscillator's trim (R446). -/
def keptReg (k : Nat) : Bool :=
  decide (k = kFAULT_LOG_WR) || decide (k = kCLK_OSC_TRIM) || (decide (kFAULT_LOG 0 ≤ k) && decide (k < kFAULT_LOG 64))

/-- What a reset of the module leaves (R447): `power` for power-on and brown-out, LAST_RESET `cause`. Every output is off. The mailbox
survives a reset without a power loss (R263); device memory is otherwise wiped or cleared before use. -/
def resetState (power : Bool) (cause : Nat) (held : Bool) (s : State) : State :=
  let keep := fun a => !power && inMailbox a
  let z := State.reset
  let t : State :=
    { z with
      pending := s.pending, host := s.host, out := s.out, readData := s.readData, fresh := s.fresh, flash := s.flash, fuses := s.fuses,
      cages := s.cages, mem := s.mem.filter fun c => keep c.1, poison := s.poison.filter fun a => keep a,
      regs := if power then [] else s.regs.filter fun r => keptReg r.1,
      clk := if power then {} else { trimTj := s.clk.trimTj, trimTick := s.clk.trimTick - s.time.c },
      boot := { powered := true, held := held, osc := !power && s.boot.osc, refPresent := !power && s.boot.refPresent } }
  let t := if power then t else wrB kCLK_STAT csTRIMMED (rdB kCLK_STAT csTRIMMED s) t
  let t := eachDo (fun n t => if quarantined n t then wrB (coreBase n + 0x804) 4 true t else t) (upTo 32) t
  startNight (showAgeing (wrF kSYS_BOOT 19 16 cause t))

/-- The oscillator runs and the module is not held in reset: the boot ROM powers the flash and the host bridge (R417, R448). -/
def bootRom (refclk : Bool) (s : State) : State :=
  showEn (eachDo (switchDom true) [0, 1, 2, 14, 15] (oscStart refclk s))
/-- A module reset without a power loss: the oscillator still runs, so the boot ROM starts at once. -/
def moduleReset (cause : Nat) (s : State) : State :=
  let s := resetState false cause false s
  if s.boot.osc then bootRom s.boot.refPresent s else s

/-- The power fails without a brown-out while the steward has a command in hand: whether its record is left torn is open (R46); a brown-out
lets the write end (R453). -/
def auditTear (s : State) : State :=
  let inHand := (upTo 17).any fun fn => (ring fn s).busy.isSome || !(ring fn s).fetched.isEmpty
  if s.boot.powered && s.boot.fwRunning && inHand && auditRoom s then
    let s' := draw 97 s
    if Config.freeBit s.fresh then { s' with flash := { s'.flash with audit := s'.flash.audit ++ [freeBytes 96 (draw 1 s)], torn := true } } else s'
  else s
/-- POWER_ON (R446, R453): after a brown-out LAST_RESET says so. A MOD_RESET_N held low goes on holding the module. -/
def execPowerOn (s : State) : Host.Outcome State Fault Refusal :=
  .next (resetState true (if s.boot.powered then 0 else 3) s.boot.held (auditTear s))

/-- MOD_RESET_N low for a time (R446): below 1 µs ignored, from 10 µs a reset, between either. -/
def modResetBody (width : Nat) (s : State) : State :=
  let free := Config.freeBit s.fresh
  if width < 1000 then s
  else
    let s' := if width < 10000 then draw 1 s else s
    if decide (10000 ≤ width) || free then
      (if s.boot.powered then resetState false 1 true s' else updBoot (fun b => { b with held := true }) s')
    else s'
/-- MOD_RESET_N (R446). -/
def execModResetN (widthNs : Nat) (s : State) : Host.Outcome State Fault Refusal := .next (modResetBody widthNs s)

/-- MOD_RESET_N rises (R446): a module that it held leaves reset. -/
def releaseBody (s : State) : State :=
  if !s.boot.held then s
  else if !s.boot.powered then updBoot (fun b => { b with held := false }) s
  else if s.boot.osc then moduleReset (rdF kSYS_BOOT 19 16 s) s
  else updBoot (fun b => { b with held := false }) s
/-- MOD_RESET_N_RELEASE (R446). -/
def execModResetNRelease (s : State) : Host.Outcome State Fault Refusal := .next (releaseBody s)

/-- BROWNOUT (R453): outputs off, reset until the input returns. -/
def execBrownout (s : State) : Host.Outcome State Fault Refusal :=
  .next (updBoot (fun b => { b with powered := false }) (resetState true 3 s.boot.held s))

/-- SYS_RST written (R459): honoured during the expert unlock with its key. -/
def sysRst (fn : Nat) (v : Word) (s : State) : State :=
  if fn = 0 ∧ expert s ∧ bitOf 0 v ∧ fld 15 8 v = 0xA5 then moduleReset 2 s else s
/-- SYS_RST_MODULE (R459). -/
def execSysRstModule (fn : Fin 17) (v : Word) (s : State) : Host.Outcome State Fault Refusal := .next (viaHost fn.val (sysRst fn.val v) s)

/-- The oscillator is stable (R409): it runs on while the module is held in reset. -/
def oscBody (refclk : Bool) (s : State) : State :=
  if !s.boot.powered || s.boot.osc then s
  else if s.boot.held then updBoot (fun b => { b with osc := true, refPresent := refclk }) s
  else bootRom refclk s
/-- OSC_STABLE (R409, R411). -/
def execOscStable (refclk : Bool) (s : State) : Host.Outcome State Fault Refusal := .next (oscBody refclk s)

/-! ### Firmware (R450, R451) -/

/-- A firmware slot's contents: A, or B. -/
def fwSlot (b : Bool) (s : State) : Option (List Byte) := if b then s.flash.fwB else s.flash.fwA
/-- The key of a slot that is not empty (R37). -/
def keyOf (slot : Nat) (s : State) : Option (List Byte) :=
  if slot = 0 then some (natLE 32 Config.rootKey.toNat) else if slot < 8 then Fam.find slot s.flash.keys else none
/-- Firmware that the boot ROM accepts (R450). -/
def fwGood (bs : List Byte) (s : State) : Bool :=
  ([0, 1].any fun k => match keyOf k s with | some key => Config.fwSigOk key bs | none => false) &&
    Config.fwHashOk bs && decide (s.fuses.fwSvn ≤ (Config.fwSvn bs).toNat)
/-- A firmware slot that starts (R450). -/
def fwAccepted (b : Bool) (s : State) : Bool := match fwSlot b s with | some bs => fwGood bs s | none => false
/-- SYS_FW: the running version and the fuse count. -/
def showFw (s : State) : State :=
  let ver := match fwSlot s.boot.slotB s with | some bs => (Config.fwVersion bs).toNat | none => 0
  wr kSYS_FW (wd (ver * 2 ^ 8 + s.fuses.fwSvn % 64)) s

/-- Recovery (R451): no domain beyond 19 is powered, the PF ring takes three commands. -/
def enterRecovery (s : State) : State :=
  let s := updBoot (fun b => { b with recovery := true, restarting := false, fwRunning := false }) s
  let s := showEn (eachDo (switchDom true) (upTo 20) (eachDo (switchDom false) ((upTo 148).filter fun d => decide (20 ≤ d)) s))
  pumpRing 0 (setStage 5 (raiseFault 0x1002 0 0xFF 0 [0] s))

/-- Step 6 of R448: checks 1 to 8 on the active image; it comes into force, or IMAGE_BAD leaves every partition unused (R63). After a
restart the image is in force already (R452). DESIGN CHOICE (notes/assumptions/26.md): an empty active slot holds no image that passes, so it
raises IMAGE_BAD too. -/
def bootImage (s : State) : State :=
  let bad := fun s => applyImage false [] (raiseFault 0x3001 0 0xFF 0 [0] s)
  match s.flash.imgActive with
  | none => bad s
  | some b => match imgCheck 8 b s with
    | .inl _ => bad s
    | .inr new => if s.boot.restarting then s else applyImage false new s
/-- Steps 5 and 6 of R448: the audit log, an interrupted commit (R62; after a restart its command finishes it), the active image. An unlock that a restart leaves open goes on. -/
def bootChecks (s : State) : State :=
  let on := s.boot.restarting && expert s
  let s := auditCheck (if on then { s with flash := { s.flash with expertOpen := false } } else s)
  let s := if on then { s with flash := { s.flash with expertOpen := true } } else s
  let s := if s.flash.committing && !s.boot.restarting then raiseFault 0x3002 0 0xFF 0 [0] { s with flash := { s.flash with committing := false } } else s
  bootImage s

/-- A firmware slot boots. -/
def runFw (b : Bool) (s : State) : State :=
  let s := updBoot (fun x => { x with slotB := b, fwRunning := true, recovery := false, bootTick := tick s }) s
  bootChecks (setStage 1 (showFw (wrB kSYS_BOOT 8 b s)))
/-- The slot beside a failed pending one boots (R451), or recovery. -/
def fallBack (pend : Bool) (s : State) : State :=
  let s := wrB kSYS_BOOT 9 true { s with flash := { s.flash with fwPending := none } }
  let s := raiseFault 0x1001 0 0xFF 0 [0] s
  if fwAccepted (!pend) s then runFw (!pend) s else enterRecovery s
/-- The boot ROM's choice (R451): the pending slot, then the active one. -/
def bootFw (s : State) : State :=
  match s.flash.fwPending with
  | some b => if fwAccepted b s then runFw b s else fallBack b s
  | none => if fwAccepted s.flash.fwActiveB s then runFw s.flash.fwActiveB s else enterRecovery s

/-- The boot ROM runs (R448, step 3), at start-up or in a restart. -/
def bootFwBody (s : State) : State :=
  if s.boot.osc && !s.boot.held && !s.boot.fwRunning && (decide (stage s = 0) || s.boot.restarting) then bootFw s else s
/-- BOOT_FW_VERIFIED (R450, R451). -/
def execBootFwVerified (s : State) : Host.Outcome State Fault Refusal := .next (bootFwBody s)

/-- Firmware of a pending slot has not reached READY within 2 s (R451). -/
def pendingTimeout (s : State) : State :=
  match s.flash.fwPending with
  | some b =>
    if s.boot.fwRunning && s.boot.slotB == b && !isReady s && decide (1250000000 ≤ ticksSince s.boot.bootTick s) then fallBack b s else s
  | none => s
/-- FW_PENDING_TIMEOUT (R451). -/
def execFwPendingTimeout (s : State) : Host.Outcome State Fault Refusal := .next (pendingTimeout s)

/-! ### Dawn and READY (R417, R448, R449) -/

/-- Cores that are on and not quarantined. -/
def dawnCores (s : State) : List Nat := (upTo 32).filter fun n => domOn (50 + 2 * n) s && !quarantined n s

/-- The Dawn sequence (R417): domains 3 to 25 and those the image uses; the rails at their setpoint, the Noon budget full. The Morning
check begins (R425). -/
def dawnBody (s : State) : State :=
  if !s.boot.fwRunning || s.boot.restarting || decide (stage s ≠ 1) then s else
    let s := setDomains (updBoot (fun b => { b with dawnDone := true }) s)
    let s := fillNoon (railsUp s)
    setStage 2 (wrB kPWR_STAT 7 true (wrB kPWR_STAT 0 true (showAgeing s)))
/-- DAWN_SEQUENCE (R417). -/
def execDawnSequence (s : State) : Host.Outcome State Fault Refusal := .next (dawnBody s)

/-- HBM of every partition region is cleared (R256). -/
def clearRegions (s : State) : State :=
  eachDo (fun (r : Nat × Nat × Nat) s => memClear r.2.1 (r.2.2 + 1 - r.2.1) s) ((imgRegions s.img).filter fun r => decide (r.1 < 16) && inHbm r.2.1) s
/-- Pending firmware that reaches READY marks itself active (R451). -/
def fwReady (s : State) : State :=
  match s.flash.fwPending with
  | some b => if s.boot.slotB = b then { s with flash := { s.flash with fwActiveB := b, fwPending := none } } else s
  | none => s
/-- A loss of REFCLK that was raised while no partition was in force reaches the partitions' functions at READY, with its own time (R413). -/
def lateLoss (s : State) : State :=
  if s.faults.all fun f => decide (f.code ≠ 0xB001) || decide (f.fns ≠ [0]) then s else
    let t := match findLog 0xB00100FF s 64 (rd kFAULT_LOG_WR s).toNat with | some i => (rd (kFAULT_LOG i + 4) s).toNat | none => 0
    let s := { s with faults := s.faults.map fun f => if f.code = 0xB001 then { f with fns := allFns s } else f }
    eachDo (fun fn => raiseTo fn { code := 0xB001, unit := 0, part := 0xFF, time := t }) (usedVfs s) s
/-- The start's own faults (R453, R358): BROWNOUT, and NIGHTFALL of the state the module came up in, with SUP_STAT.INT. -/
def startFaults (s : State) : State :=
  let s := if rdF kSYS_BOOT 19 16 s = 3 then raiseFault 0x1007 0 0xFF 0 [0] s else s
  let s := lateLoss s
  if !night s then s else
    let v := setBit 5 true (rd kSUP_STAT s)
    raiseFault 0x9002 0 0xFF 0 (groupFns s) (wr supPfBase v (wr kSUP_STAT v s))

/-- READY (R448, step 10): after HBM is cleared, or at the end of a steward restart, where the re-plans that waited are made (R452). -/
def readyBody (s : State) : State :=
  if !s.boot.fwRunning then s
  else if s.boot.restarting then
    let s := showFio { s with fio := { s.fio with fwUpdate := false } }
    eachDo replanBody (upTo 16) (eachDo pumpRing (upTo 17) (fwReady (setStage 4 (updBoot (fun b => { b with restarting := false }) s))))
  else if stage s ≠ 3 then s
  else eachDo pumpRing (upTo 17) (startFaults (fwReady (setStage 4 (clearRegions (wipeAll s)))))
/-- READY (R448). -/
def execReady (s : State) : Host.Outcome State Fault Refusal := .next (readyBody s)

/-! ### The steward's restart (R452) -/

/-- A restart of the steward (R452): Nightfall with cause FIRMWARE, every ring flushed; the rest of the module runs on. A start-up that
has not reached READY begins again with the firmware. -/
def stewardRestart (s : State) : State :=
  let s := eachDo flushRing (upTo 17) (nightfall 3 false s)
  let was := isReady s || s.boot.restarting
  let s := updBoot (fun b => { b with fwRunning := false, restarting := was }) s
  raiseFault 0x1003 0 0xFF 0 [0] (setStage (if was then 1 else 0) s)
/-- STEWARD_WATCHDOG (R452). -/
def execStewardWatchdog (s : State) : Host.Outcome State Fault Refusal := .next (if s.boot.fwRunning then stewardRestart s else s)

/-- EXPERT_UNLOCK_TIMEOUT (R42). -/
def expertTimeout (s : State) : State :=
  match s.svc.expertUntil with
  | some t => if t.toNat ≤ (tick s).toNat then endExpert 1 s else s
  | none => s
/-- EXPERT_UNLOCK_TIMEOUT (R42). -/
def execExpertUnlockTimeout (s : State) : Host.Outcome State Fault Refusal := .next (expertTimeout s)

end Sys2Proof.Machine
end

