-- ==== Sys2Proof/Machine/Svc.lean ====
section
/-! DEFINITION. What every service command passes before it runs (17_host_interface.md, R400 to R405; 02_partitions_and_roles.md, R36 to R47):
availability, the descriptor's form, authorisation, the audit record. -/

namespace Sys2Proof.Machine

open Sys2Proof

/-! ### Rights and layouts (R404, R405) -/

/-- How a command uses DATA_PTR and DATA_LEN: not at all, to read, to write, or either (SVC_CAM_CTRL). -/
inductive DataUse where
  | none | read | write | either
deriving DecidableEq, Repr

/-- A row of R404 with its arguments of R405: on a VF, on the PF, the key slots whose role it needs there (none: no signature), the
descriptor bytes its arguments take, its data. -/
structure CmdRow where
  vf : Bool
  pf : Bool
  slots : List Nat
  args : List Nat
  data : DataUse
deriving DecidableEq, Repr

/-- Key slots by role (R37). -/
abbrev maker : List Nat := [0, 1]
abbrev installer : List Nat := [2, 3]
abbrev operator : List Nat := [4, 5, 6, 7]
/-- Descriptor bytes `a` to `b`. -/
def bytesFrom (a b : Nat) : List Nat := List.range' a (b + 1 - a)

/-- The commands 0x0001 to 0x02FF of R404. -/
def rowLow (code : Nat) : Option CmdRow :=
  if code = 0x0001 then some ⟨true, true, [], [], .none⟩
  else if code = 0x0002 then some ⟨false, true, [], [], .none⟩
  else if code = 0x0003 then some ⟨true, true, installer, bytesFrom 36 43, .read⟩
  else if code = 0x0004 then some ⟨true, true, installer, bytesFrom 36 43, .write⟩
  else if code = 0x0101 then some ⟨false, true, installer, bytesFrom 36 39, .none⟩
  else if code = 0x0102 then some ⟨false, true, [], [], .none⟩
  else if code = 0x0103 then some ⟨false, true, maker ++ installer, [36], .read⟩
  else if code = 0x0104 then some ⟨false, true, maker ++ installer, [36], .none⟩
  else if code = 0x0105 then some ⟨false, true, maker, [], .read⟩
  else if code = 0x0106 then some ⟨false, true, maker, [36, 37, 38], .read⟩
  else if code = 0x0110 then some ⟨true, true, maker ++ installer ++ operator, bytesFrom 36 43, .write⟩
  else if code = 0x0111 then some ⟨false, true, installer, [], .write⟩
  else if code = 0x0112 then some ⟨false, true, installer, [], .none⟩
  else if code = 0x0201 then some ⟨false, true, installer, [], .read⟩
  else if code = 0x0202 then some ⟨false, true, installer, bytesFrom 36 39, .none⟩
  else if code = 0x0203 then some ⟨false, true, installer, [], .none⟩
  else if code = 0x0204 then some ⟨false, true, installer, [36], .write⟩
  else none
/-- The commands 0x0300 to 0x04FF of R404. -/
def rowMid (code : Nat) : Option CmdRow :=
  if code = 0x0301 then some ⟨false, true, operator, [36], .none⟩
  else if code = 0x0302 then some ⟨false, true, operator, [36], .none⟩
  else if code = 0x0303 then some ⟨false, true, operator, [36, 37], .none⟩
  else if code = 0x0304 then some ⟨true, true, installer, 36 :: bytesFrom 38 47, .either⟩
  else if code = 0x0305 then some ⟨true, true, operator, [36], .none⟩
  else if code = 0x0306 then some ⟨true, true, operator, [36], .none⟩
  else if code = 0x0401 then some ⟨true, false, [], bytesFrom 36 43, .read⟩
  else if code = 0x0402 then some ⟨true, false, [], [36, 37], .none⟩
  else if code = 0x0403 then some ⟨true, false, [], 36 :: bytesFrom 38 62, .none⟩
  else if code = 0x0404 then some ⟨true, false, [], bytesFrom 36 43, .none⟩
  else if code = 0x0405 then some ⟨false, true, installer, [36], .none⟩
  else if code = 0x0406 then some ⟨false, true, operator, [], .none⟩
  else none
/-- The commands from 0x0500 on (R139, R349, R364, R404). -/
def rowHigh (code : Nat) : Option CmdRow :=
  if code = 0x0501 then some ⟨true, true, installer, bytesFrom 36 40, .none⟩
  else if code = 0x0502 then some ⟨true, true, installer, [36], .none⟩
  else if code = 0x0503 then some ⟨true, true, installer, bytesFrom 36 41, .none⟩
  else if code = 0x0504 then some ⟨true, true, installer, [36], .none⟩
  else if code = 0x0505 then some ⟨false, true, installer, bytesFrom 36 44, .none⟩
  else if code = 0x0601 then some ⟨true, true, installer, 36 :: bytesFrom 38 57, .none⟩
  else if code = 0x0602 then some ⟨true, true, installer, bytesFrom 36 47, .none⟩
  else if code = 0x0603 then some ⟨true, false, [], bytesFrom 36 47, .none⟩
  else if code = 0x0604 then some ⟨false, true, installer, 36 :: bytesFrom 40 43, .none⟩
  else if code = 0x0605 then some ⟨false, true, installer, bytesFrom 36 47, .none⟩
  else if code = 0x0606 then some ⟨false, true, operator, [36], .none⟩
  else if code = 0x0701 then some ⟨false, true, operator, [], .none⟩
  else if code = 0x0702 then some ⟨false, true, operator, [], .none⟩
  else if code = 0x0703 then some ⟨true, true, installer, [36, 38, 39], .none⟩
  else if code = 0x0704 then some ⟨false, true, operator, [36, 37], .write⟩
  else if code = 0x0705 then some ⟨false, true, operator, [36, 37], .read⟩
  else if code = 0x0801 then some ⟨true, true, operator, bytesFrom 36 39, .none⟩
  else none
/-- A command of R404. -/
def cmdRow (code : Nat) : Option CmdRow := if code < 0x0300 then rowLow code else if code < 0x0500 then rowMid code else rowHigh code

/-- A row available on a function; recovery leaves three commands (R451). -/
def onFn (fn : Nat) (code : Nat) (c : CmdRow) (s : State) : Bool :=
  (if fn = 0 then c.pf else c.vf) && (decide (stage s ≠ 5) || decide (code = 0x0001 ∨ code = 0x0002 ∨ code = 0x0105))

/-! ### The descriptor's form (R397, R400, R405) -/

/-- The OPCODE of SVC_CAM_CTRL (R78). -/
def camOp (d : SvcDesc) : Nat := dArg d 38 2
/-- SVC_CAM_CTRL carries a payload: WRITE32, WRITE_BLOCK and the vendor's. -/
def camWrites (d : SvcDesc) : Bool := decide (camOp d = 2 ∨ camOp d = 4 ∨ 0x8000 ≤ camOp d)

/-- The arguments beside a command's bytes: ranges and lengths that R405 or the command's chapter gives; true if one fails. DESIGN CHOICE
(notes/assumptions/24.md): SVC_IMAGE_READ of an empty slot, for which R58 gives no status, is such a failure (ST_BAD_DESC). -/
def argBadLow (code : Nat) (d : SvcDesc) (s : State) : Bool :=
  let b := dArg d 36 1
  let len := dLEN d
  if code = 0x0002 then decide (dRES d = 0)
  else if code = 0x0003 ∨ code = 0x0004 then decide (dArg d 36 8 % 64 ≠ 0) || decide (len % 64 ≠ 0)
  else if code = 0x0101 then (let t := dArg d 36 4; decide (t ≠ 0) && (decide (t < 60) || decide (86400 < t)))
  else if code = 0x0103 then decide (b = 0 ∨ 7 < b) || decide (len ≠ 32)
  else if code = 0x0104 then decide (b = 0 ∨ 7 < b)
  else if code = 0x0106 then
    (if b = 0 then decide (dArg d 38 1 ≠ 0 ∨ dDATA d ≠ 0 ∨ len ≠ 0 ∨ dArg d 37 1 ≤ s.fuses.fwSvn ∨ 63 < dArg d 37 1)
     else decide (b ≠ 1 ∨ dArg d 37 1 ≠ 0 ∨ 31 < dArg d 38 1 ∨ len ≠ 16))
  else if code = 0x0110 then (let n := dArg d 40 4; decide (n = 0 ∨ 682 < n ∨ len < 96 * n))
  else if code = 0x0111 then decide (len < 65536)
  else if code = 0x0204 then
    (match if b = 0 then s.flash.imgActive else if b = 1 then s.flash.imgStaged else none with
     | some i => decide (len < i.length)
     | none => true)
  else false
/-- The ranges of arguments of 0x0401 to 0x0801 (R405). -/
def argBadHigh (code : Nat) (d : SvcDesc) : Bool :=
  let b := dArg d 36 1
  let len := dLEN d
  if code = 0x0304 then
    decide (camOp d = 0 ∨ 4 < camOp d ∧ camOp d < 0x8000) || decide (256 < len ∨ len % 4 ≠ 0) || decide (camOp d = 1 ∧ (len ≠ 0 ∨ dDATA d ≠ 0)) ||
      decide (camOp d = 2 ∧ len ≠ 4)
  else if code = 0x0403 then
    decide (dArg d 38 2 = 0xFFFF) || decide (dArg d 54 4 = 0 ∨ 40000000 < dArg d 54 4) || decide (10000 < dArg d 58 2) ||
      decide (1000 < dArg d 60 2) || decide (7 < dArg d 62 1)
  else if code = 0x0404 then decide (dArg d 36 8 % 0x100000 ≠ 0)
  else if code = 0x0405 then decide (31 < b)
  else if code = 0x0501 then decide (1 < dArg d 38 1 ∨ dArg d 39 1 = 0 ∨ 3 < dArg d 39 1 ∨ 1 < dArg d 40 1)
  else if code = 0x0503 then decide (1 < dArg d 37 1 ∨ (dArg d 37 1 = 1 ∧ dArg d 38 2 = 0))
  else if code = 0x0505 then
    decide (2 < dArg d 37 1 ∨ dArg d 38 1 < 16 ∨ dArg d 39 1 = 0 ∨ dArg d 40 2 = 0 ∨ 500 < dArg d 40 2 ∨ 1 < dArg d 44 1)
  else if code = 0x0601 then
    decide (fld 5 4 (wd (dArg d 40 4)) = 3 ∨ dArg d 50 2 = 0 ∨ dArg d 52 4 < 10 ∨ 1000000 < dArg d 52 4 ∨ dArg d 56 2 = 0 ∨ 10000 < dArg d 56 2)
  else if code = 0x0602 then (let n := dArg d 44 4; decide (dArg d 36 8 % 64 ≠ 0) || (decide (n ≠ 0) && decide (n < 64 ∨ 65536 < n)))
  else if code = 0x0603 then (let t := dArg d 44 4; decide (dArg d 36 8 % 64 ≠ 0) || (decide (t ≠ 0) && decide (t < 10 ∨ 100000 < t)))
  else if code = 0x0604 then decide (5 < b)
  else if code = 0x0605 then
    decide (3 < b ∨ 5 < dArg d 37 1 ∨ 5 < dArg d 38 1 ∨ 3 < dArg d 39 1 ∨ dArg d 44 2 = 0 ∨ 1000 < dArg d 44 2 ∨ dArg d 46 2 = 0)
  else if code = 0x0606 then decide (3 < b)
  else if code = 0x0703 then decide (31 < b ∨ dArg d 38 2 = 0 ∨ 1000 < dArg d 38 2)
  else if code = 0x0704 then decide (dArg d 36 2 % 4 ≠ 0 ∨ len % 4 ≠ 0 ∨ 0x4000 < dArg d 36 2 + len)
  else if code = 0x0705 then decide (dArg d 36 2 % 4 ≠ 0 ∨ len % 4 ≠ 0 ∨ dArg d 36 2 < 0x2020 ∨ 0x4000 < dArg d 36 2 + len)
  else false

/-- A descriptor that step 2 of R400 refuses. -/
def descBad (fn code : Nat) (c : CmdRow) (d : SvcDesc) (s : State) : Bool :=
  decide (dArg d 4 4 ≠ 0) || ((bytesFrom 36 63).any fun i => !c.args.contains i && decide (dArg d i 1 ≠ 0)) ||
    (decide (fn ≠ 0) && decide (dAUTH d ≠ 0)) || decide (dRES d % 64 ≠ 0) || decide (67108864 < dLEN d) ||
    (decide (c.data = .none) && (decide (dDATA d ≠ 0) || decide (dLEN d ≠ 0))) || argBadLow code d s || argBadHigh code d

/-! ### The audit record of a command (R44, R45, R47) -/

/-- The data a command names: what it reads from the host. -/
def dataIn (d : SvcDesc) (c : CmdRow) : Bool := decide (dLEN d ≠ 0) && (decide (c.data = .read) || (decide (c.data = .either) && camWrites d))
/-- A command's data in host memory. -/
def dataBytes (d : SvcDesc) (c : CmdRow) (s : State) : List Byte := if dataIn d c then Memory.read s.host (dDATA d) (dLEN d) else []
/-- The owner of a command's stream, recipe, codec slot, core or group; the VF's partition; 0xFF for none (R45). -/
def partOfCmd (fn : Nat) (d : SvcDesc) (s : State) : Nat :=
  let code := dCMD d
  let b := dArg d 36 1
  let none' := fun (o : Option Nat) => o.getD 0xFF
  if fn ≠ 0 then fn - 1
  else if code = 0x0301 ∨ code = 0x0302 ∨ code = 0x0304 ∨ code = 0x0305 ∨ code = 0x0306 ∨ code = 0x0601 then none' (streamPart b s)
  else if code = 0x0303 then none' ((secOf s.img 0x21 (dArg d 36 2)).map fun r => leAt r 0 1)
  else if code = 0x0405 then none' (coreOwner b s)
  else if 0x0501 ≤ code ∧ code ≤ 0x0505 then none' (cdsOwner b s)
  else if code = 0x0602 then none' (regionOwner (dArg d 36 8) s)
  else if code = 0x0703 then none' (groupOwner (b / 4) s)
  else if code = 0x0801 then dArg d 39 1
  else 0xFF
/-- A command's record with a status, or what cannot be recorded counted. -/
def recordCmd (fn : Nat) (d : SvcDesc) (data : List Byte) (status : Nat) (s : State) : State :=
  let a := (ring fn s).auth
  if auditRoom s then auditPut (dCMD d) status a.1 fn (partOfCmd fn d s) a.2 (sha256 (d ++ data)) s else auditLose s

/-- What a command whose checks are made will do: its status, whether its record comes before its effect, and the effect, which ends the
command or leaves it in progress. -/
structure Plan where
  status : Nat
  logged : Bool
  run : State → State

/-- A refusal with a result. -/
def refuse (fn : Nat) (d : SvcDesc) (status : Nat) (res : List Byte) : Plan := { status := status, logged := true, run := finish fn d status 0 res }
/-- A command that completes with ST_OK, a result and an effect. -/
def completes (fn : Nat) (d : SvcDesc) (res : List Byte) (f : State → State) : Plan :=
  { status := stOK, logged := true, run := fun s => finish fn d stOK 0 res (f s) }
/-- An effect that ends its command itself, now or later. -/
def begins (f : State → State) : Plan := { status := stOK, logged := true, run := f }

/-- Commands that are recorded: signed ones but the reads SVC_AUDIT_READ, SVC_IMAGE_READ, SVC_ENC_COMPARE_READ and SVC_MBX_READ, a tenant's
loads, unloads and acknowledgements, SVC_EXPERT_LOCK (R44). -/
def recorded (slot code : Nat) : Bool :=
  (decide (slot ≠ 0xFF) && !([0x0110, 0x0204, 0x0606, 0x0704].contains code)) || [0x0102, 0x0401, 0x0402, 0x0801].contains code
/-- Commands that a full log does not stop (R47). -/
def unstopped (code : Nat) : Bool := [0x0102, 0x0111, 0x0112].contains code

/-- The record of a planned command; a full log takes none of SVC_AUDIT_EXPORT and SVC_AUDIT_SEAL, and counts SVC_EXPERT_LOCK (R47). -/
def recordPlan (fn : Nat) (d : SvcDesc) (data : List Byte) (pl : Plan) (s : State) : State :=
  let code := dCMD d
  if !pl.logged || !recorded (ring fn s).auth.1 code then s
  else if !auditRoom s && decide (code = 0x0111 ∨ code = 0x0112) then s
  else recordCmd fn d data pl.status s

/-- A plan carried out: its record, its effect; a command that needs a record and finds no room for it does nothing (R47). -/
def carryOut (fn : Nat) (d : SvcDesc) (data : List Byte) (pl : Plan) (s : State) : State :=
  if recorded (ring fn s).auth.1 (dCMD d) && !auditRoom s && !unstopped (dCMD d) then finish fn d stAUDIT_FULL 0 [] s
  else pl.run (recordPlan fn d data pl s)
/-- The effect of a command that changes nothing before its end, recorded with the status that its end gives (R44, R45, R47). -/
def recordLate (fn : Nat) (d : SvcDesc) (data : List Byte) (status : Nat) (eff : State → State) (s : State) : State :=
  carryOut fn d data { status := status, logged := true, run := eff } s

/-! ### Authorisation (R38 to R41) -/

/-- The message that is signed (R39). -/
def signedMsg (fn : Nat) (d : SvcDesc) (nonce : List Byte) : List Byte :=
  d.take 8 ++ zeros 8 ++ d.drop 16 ++ nonce ++ natLE 8 Config.serial.toNat ++ natLE 2 fn
/-- The slot's role has the right (R37, R404). -/
def roleOk (code : Nat) (c : CmdRow) (d : SvcDesc) (slot : Nat) : Bool :=
  if code = 0x0103 ∨ code = 0x0104 then
    (let k := dArg d 36 1; if k = 1 then decide (slot = 0) else if k < 4 then maker.contains slot else installer.contains slot)
  else c.slots.contains slot

/-- What the authorisation of a signed command gives: a status that ends it and whether that outcome is recorded, or the slot. -/
inductive Auth where
  | fail (status : Nat) (logged : Bool) (slot : Nat)
  | pass (slot : Nat)
deriving DecidableEq, Repr

/-- The checks of R41 on a block that was read, `live` if its nonce was outstanding and not too old. -/
def authCheck (fn code : Nat) (c : CmdRow) (d : SvcDesc) (b : List Byte) (live : Bool) (s : State) : Auth :=
  let slot := leAt b 0 2
  let nonce := (b.drop 8).take 16
  if leAt b 2 2 ≠ 0 ∨ leAt b 4 4 ≠ 0 ∨ leAt b 24 8 ≠ 0 then .fail stBAD_DESC false slot
  else match keyOf slot s with
    | none => .fail stAUTH_KEY false slot
    | some key =>
      if !live then .fail stAUTH_NONCE true slot
      else if !ed25519Verify key (signedMsg fn d nonce) ((b.drop 32).take 64) then .fail stAUTH_SIG true slot
      else if !roleOk code c d slot then .fail stAUTH_ROLE true slot
      else .pass slot

end Sys2Proof.Machine
end

