-- ==== Sys2Proof/Machine/SvcSys.lean ====
section
/-! DEFINITION. The service commands of the module: transfers, unlock, keys, firmware, fuses, audit log, images (R40 to R47, R58, R401, R405,
R450, R451). -/

namespace Sys2Proof.Machine

open Sys2Proof

/-- SVC_NOP (R404): module time. -/
def planNop (fn : Nat) (d : SvcDesc) (s : State) : Plan := completes fn d (natLE 8 (nowNs s).toNat) id
/-- SVC_GET_NONCE (R40): a fresh nonce, the only one outstanding. -/
def planNonce (fn : Nat) (d : SvcDesc) (s : State) : Plan :=
  let n := natLE 16 (Config.nonce s.fresh).toNat
  completes fn d n fun s => draw 1 { s with svc := { s.svc with nonce := some n, nonceTick := tick s } }

/-! ### Transfers (R401 to R404) -/

/-- A tag's regions permit a range with a right. -/
def tagHolds (t a len right : Nat) (s : State) : Bool :=
  (linesOf a len).all fun l => (inHbm l.1 || inCluster l.1) && permits t l.1 l.2 right s
/-- The transfer's data moves at its end (notes/assumptions/34.md), after its record: into the device, or to the host with uncorrectable words
marked. -/
def copyEnd (fn : Nat) (d : SvcDesc) (s : State) : State :=
  let a := dArg d 36 8
  if dCMD d = 0x0003 then
    let data := Memory.read s.host (dDATA d) (dLEN d)
    recordLate fn d data stOK (fun s => finish fn d stOK 0 [] (devWrite mHost fn (fnTag fn) a data s).2.2) s
  else
    let r := devRead mHost fn (fnTag fn) a (dLEN d) s
    let status := if r.2.2.1 then stMEM_ERR else stOK
    recordLate fn d [] status (fun s => finish fn d status (if r.2.2.1 then 4 else 0) [] { s with host := Memory.write s.host (dDATA d) r.1 }) r.2.2.2
/-- Bytes a transfer moves in one service step (R401). -/
abbrev copyUnit : Nat := 4096
/-- One service step of a transfer (R30). -/
def copyStep (fn : Nat) (d : SvcDesc) (done : Nat) (s : State) : State :=
  if dLEN d ≤ done + copyUnit then copyEnd fn d s
  else updRing fn (fun r => { r with busy := some (.copy d (done + copyUnit)) }) s
/-- SVC_COPY_IN, SVC_COPY_OUT (R401). -/
def planCopy (fn : Nat) (d : SvcDesc) (s : State) : Plan :=
  let right := if dCMD d = 0x0003 then rgtWrite else rgtRead
  if !tagHolds (fnTag fn) (dArg d 36 8) (dLEN d) right s then refuse fn d stREGION []
  else { status := stOK, logged := false, run := copyStep fn d 0 }
/-- A transfer that a flush makes void (R403): the bytes it names hold a mix of old and new. -/
def copyVoid (fn : Nat) (d : SvcDesc) (s : State) : State :=
  let a := dArg d 36 8
  let s := awaitRange a (dLEN d) s
  let mix := fun (old new : List Byte) => (old.zip new).zipIdx.map fun (x : (Byte × Byte) × Nat) => if Config.freeBit (s.fresh + x.2) then x.1.2 else x.1.1
  let host := Memory.read s.host (dDATA d) (dLEN d)
  let dev := memRead a (dLEN d) s
  let s := if dCMD d = 0x0003 then memStore [(a, mix dev host)] s else { s with host := Memory.write s.host (dDATA d) (mix host dev) }
  finish fn d stFLUSHED 0 [] (draw (dLEN d) s)

/-! ### Expert unlock, keys (R37, R42) -/

/-- SVC_EXPERT_UNLOCK (R42): 0 gives 3,600 s. -/
def planUnlock (fn : Nat) (d : SvcDesc) : Plan :=
  let t := if dArg d 36 4 = 0 then 3600 else dArg d 36 4
  completes fn d [] fun s =>
    { s with svc := { s.svc with expertUntil := some (tick s + BitVec.ofNat 64 (t * 625000000)) }, flash := { s.flash with expertOpen := true } }
/-- SVC_EXPERT_LOCK (R42). -/
def planLock (fn : Nat) (d : SvcDesc) : Plan :=
  completes fn d [] fun s => { s with svc := { s.svc with expertUntil := none }, flash := { s.flash with expertOpen := false } }
/-- SVC_KEY_INSTALL (R37). -/
def planKeyInstall (fn : Nat) (d : SvcDesc) (data : List Byte) : Plan :=
  completes fn d [] fun s => { s with flash := { s.flash with keys := s.flash.keys.set (dArg d 36 1) data } }
/-- SVC_KEY_REVOKE (R37). -/
def planKeyRevoke (fn : Nat) (d : SvcDesc) : Plan :=
  completes fn d [] fun s => { s with flash := { s.flash with keys := s.flash.keys.del (dArg d 36 1) } }

/-! ### Firmware and fuses (R450, R451) -/

/-- The inactive slot holds something else, marked pending or not (R451). -/
def putFw (bs : Option (List Byte)) (pend : Bool) (s : State) : State :=
  let b := !s.flash.fwActiveB
  { s with flash := { s.flash with
      fwA := if b then s.flash.fwA else bs, fwB := if b then bs else s.flash.fwB, fwPending := if pend then some b else none } }
/-- SVC_FW_UPDATE (R451): the inactive slot is written and verified, unmarked until the next service step; the status of a slot that fails is a
free value other than ST_OK. -/
def planFwUpdate (fn : Nat) (d : SvcDesc) (data : List Byte) (s : State) : Plan :=
  if fwGood data s then begins fun s => updRing fn (fun r => { r with busy := some (.fwWrite d data) }) (putFw none false s)
  else
    let st := 1 + (Config.freeWord s.fresh).toNat % 65535
    { status := st, logged := true, run := fun s => finish fn d st 0 [] (draw 1 (putFw (some data) false s)) }
/-- The slot is written and good (R451): it is pending, and the steward restarts; recovery lasts until a module reset. -/
def fwWritten (fn : Nat) (d : SvcDesc) (data : List Byte) (s : State) : State :=
  let s := finish fn d stOK 0 (natLE 4 (Config.fwVersion data).toNat) (putFw (some data) true s)
  if s.boot.recovery then s else stewardRestart (showFio { s with fio := { s.fio with fwUpdate := true } })
/-- SVC_FUSE_BURN (R405, R427): a new birth record lets ΔV fall, to a free value. -/
def planFuseBurn (fn : Nat) (d : SvcDesc) (data : List Byte) : Plan :=
  completes fn d [] fun s =>
    if dArg d 36 1 = 0 then showFw { s with fuses := { s.fuses with fwSvn := dArg d 37 1 } }
    else
      let dv := (Config.freeWord s.fresh).toNat % (s.flash.deltaV + 1)
      let s := draw 1 { s with fuses := { s.fuses with birth := s.fuses.birth.set (dArg d 38 1) (data.take 8) }, flash := { s.flash with deltaV := dv } }
      let s := eachDo (fun k s => setRail k (min (rail k s) (railSet s)) s) (upTo 4) s
      showAgeing s

/-! ### The audit log (R45 to R47) -/

/-- A record's fields. -/
def recSeq (r : List Byte) : Nat := leAt r 0 4
/-- Records that a reader may read (R47): a tenant those that name its partition, makers and installers all, an operator those of operator
keys and of faults. DESIGN CHOICE (notes/assumptions/25.md): the records of faults are those of acknowledgements (CMD 0x0801), the one fault
event the log records. -/
def mayRead (fn slot : Nat) (r : List Byte) : Bool :=
  if fn ≠ 0 then decide (leAt r 18 1 = fn - 1)
  else if operator.contains slot then operator.contains (leAt r 16 1) || decide (leAt r 12 2 = 0x0801)
  else true
/-- SVC_AUDIT_READ (R47). -/
def planAuditRead (fn : Nat) (d : SvcDesc) : Plan :=
  begins fun s =>
    let rs := ((s.flash.audit.filter fun r => decide (dArg d 36 4 ≤ recSeq r) && mayRead fn (ring fn s).auth.1 r)).take (dArg d 40 4)
    finish fn d stOK 0 (natLE 4 rs.length) { s with host := Memory.write s.host (dDATA d) rs.flatten }
/-- SVC_AUDIT_EXPORT (R47): the segment, with the record of this export. -/
def planAuditExport (fn : Nat) (d : SvcDesc) : Plan :=
  begins fun s =>
    let s := { s with host := Memory.write s.host (dDATA d) (auditSegment s.flash), flash := { s.flash with auditExported := true } }
    finish fn d stOK 0 (natLE 4 s.flash.segNo) s
/-- A new segment, chained to the last (R47); it opens with the seal's record, and with AUDIT_LOST where a count stands. -/
def sealLog (fn : Nat) (d : SvcDesc) (s : State) : State :=
  let f := s.flash
  let s := { s with flash := { f with segPrev := auditPrev f, segNo := f.segNo + 1, audit := [], auditRO := false, auditExported := false } }
  let s := recordCmd fn d [] stOK s
  if s.flash.auditLost = 0 then s else
    auditPut 0xE002 0 0xFF 0xFF 0xFF [] (natLE 8 s.flash.auditLost) { s with flash := { s.flash with auditLost := 0 } }
/-- SVC_AUDIT_SEAL (R47). -/
def planAuditSeal (fn : Nat) (d : SvcDesc) (s : State) : Plan :=
  if !s.flash.auditExported then refuse fn d stAUDIT_UNEXPORTED []
  else { status := stOK, logged := false, run := fun s => let s := sealLog fn d s; finish fn d stOK 0 (natLE 4 s.flash.segNo) s }

/-! ### Images (R58, R60 to R62) -/

/-- SVC_IMAGE_LOAD (R58): the new STAGE_NO is a free value other than the last. The staged slot is empty while it is written, up to the command's
next service step. -/
def planImageLoad (fn : Nat) (d : SvcDesc) (data : List Byte) (s : State) : Plan :=
  match imgCheck 9 data s with
  | .inl e => refuse fn d e.status (imgResult e)
  | .inr _ =>
    let no := s.flash.stageNo + 1 + wd ((Config.freeWord s.fresh).toNat % (2 ^ 32 - 1))
    begins fun s => draw 1 (updRing fn (fun r => { r with busy := some (.staging d data no) }) { s with flash := { s.flash with imgStaged := none } })
/-- The image is in the staged slot (R58). -/
def staged (fn : Nat) (d : SvcDesc) (data : List Byte) (no : Word) (s : State) : State :=
  finish fn d stOK 0 (natLE 4 no.toNat) { s with flash := { s.flash with imgStaged := some data, stageNo := no } }
/-- SVC_IMAGE_COMMIT (R60, R62): the record, and the staged slot becomes active; the steps that follow are the command's next service step. -/
def planImageCommit (fn : Nat) (d : SvcDesc) (s : State) : Plan :=
  match commitCheck (wd (dArg d 36 4)) s with
  | .inl e => refuse fn d e.status (imgResult e)
  | .inr (b, _) => begins fun s => updRing fn (fun r => { r with busy := some (.applying d) }) (commitRecord b s)
/-- The commit is applied and completes (R62). -/
def applied (fn : Nat) (d : SvcDesc) (s : State) : State := finish fn d stOK 0 [] (commitApply s)
/-- SVC_IMAGE_DISCARD (R58). -/
def planImageDiscard (fn : Nat) (d : SvcDesc) : Plan := completes fn d [] fun s => { s with flash := { s.flash with imgStaged := none } }
/-- SVC_IMAGE_READ (R58). -/
def planImageRead (fn : Nat) (d : SvcDesc) (s : State) : Plan :=
  let b := (if dArg d 36 1 = 0 then s.flash.imgActive else s.flash.imgStaged).getD []
  completes fn d (natLE 4 b.length) fun s => { s with host := Memory.write s.host (dDATA d) b }

end Sys2Proof.Machine
end

