-- ==== Sys2Proof/Machine/SvcRun.lean ====
section
/-! DEFINITION. The service commands of streams, models and cores: 0x0301 to 0x0406 (R56, R78, R82, R117, R162, R288 to R291, R297, R306, R404,
R405, R425). -/

namespace Sys2Proof.Machine

open Sys2Proof

/-- A stream that a caller may name: its partition; a VF's own only (R34, R404). -/
def ownStream (fn st : Nat) (s : State) : Option Nat :=
  match streamPart st s with
  | some p => if fn = 0 ∨ p + 1 = fn then some p else none
  | none => none

/-! ### Streams (R117, R297, R305, R425) -/

/-- SVC_START_STREAM; `checked` once the Morning check of the cores that were last checked too long ago is made. -/
def planStart (fn : Nat) (d : SvcDesc) (checked : Bool) (s : State) : Plan :=
  let st := dArg d 36 1
  match ownStream fn st s with
  | none => refuse fn d stNOT_OWNED []
  | some p =>
    if (strm st s).started && decide (partState p s ≠ 4) then completes fn d [] id
    else match startBad p st s with
      | some r => refuse fn d r.1 r.2
      | none =>
        let cores := staleCores p s
        if !checked && !cores.isEmpty then
          { status := stOK, logged := false, run := fun s => wrB kPWR_STAT 7 true (updRing fn (fun r => { r with busy := some (.startStream d cores) }) s) }
        else match admitSet p (setWith p st s) s with
          | some r => refuse fn d stREFUSED_FIT (refuseBytes r)
          | none => begins (startGo fn d p st)
/-- SVC_STOP_STREAM. -/
def planStop (fn : Nat) (d : SvcDesc) (s : State) : Plan :=
  let st := dArg d 36 1
  match ownStream fn st s with
  | none => refuse fn d stNOT_OWNED []
  | some p => completes fn d [] (stopStream p st)

/-! ### Recipes (R56) -/

/-- A recipe's values over the registers as they stand. -/
def recOver (ps : List (Nat × Nat)) (k : Nat) (s : State) : Word :=
  match ps.reverse.find? fun x => decide (x.1 = k) with
  | some x => wd x.2
  | none => rd k s
/-- A pair whose value is out of its register's range, the recipe's other values beside it. -/
def pairBad (ps : List (Nat × Nat)) (x : Nat × Nat) (s : State) : Bool :=
  let k := x.1
  match recReg k with
  | some (.fe st) =>
    let get := fun o => if fes st + o = k then wd x.2 else recOver ps (fes st + o) s
    (fesTests get st s).any fun (t : Nat × Bool) => decide (fes st + t.1 = k) && !t.2
  | some (.lane _) => !portRange (k % 0x400) (wd x.2)
  | some (.lds _) => !ldsRange (k % 0x40) (wd x.2)
  | none => true
/-- One pair is written. -/
def writePair (x : Nat × Nat) (s : State) : State :=
  let k := x.1
  match recReg k with
  | some (.fe st) => wrMask k (fesMask (k - fes st)) (wd x.2) s
  | some (.lane _) => wrMask k (portMask (k % 0x400)) (wd x.2) s
  | some (.lds st) => wrLds st (k % 0x40) (wd x.2) s
  | none => s
/-- The slot-sets, and the streams' ledger settings, that pairs touch. -/
def touchedFes (ps : List (Nat × Nat)) : List Nat :=
  (ps.filterMap fun x => match recReg x.1 with | some (.fe st) => some st | _ => none).eraseDups
/-- The ledger settings that a recipe names. -/
def touchedLds (ps : List (Nat × Nat)) : List Nat :=
  (ps.filterMap fun x => match recReg x.1 with | some (.lds st) => some st | _ => none).eraseDups
/-- SVC_RECIPE_SELECT (R56). -/
def planRecipe (fn : Nat) (d : SvcDesc) (s : State) : Plan :=
  match secOf s.img 0x21 (dArg d 36 2) with
  | none => refuse fn d stREFUSED_CFG (natLE 2 0xFFFF)
  | some b =>
    let ps := recPairs b
    match ps.findIdx? fun x => pairBad ps x s with
    | some i => refuse fn d stREFUSED_CFG (natLE 2 i)
    | none => completes fn d [] fun s =>
        let s := eachDo writePair ps s
        let s := eachDo (fun st s => feStat st fsPEND true s) (touchedFes ps) s
        eachDo ldsGo (touchedLds ps) s

/-! ### Camera ports (R74, R78, R82, R86) -/

/-- SVC_CAM_CTRL: the request waits for its CTRL_ACK; a port that is down completes it at once, unsent. -/
def planCamCtrl (fn : Nat) (d : SvcDesc) (data : List Byte) (s : State) : Plan :=
  let st := dArg d 36 1
  match ownStream fn st s with
  | none => refuse fn d stNOT_OWNED []
  | some _ =>
    if !camUp st s then refuse fn d stLINK_DOWN []
    else begins fun s =>
      let s := updRing fn (fun r => { r with busy := some (.camCtrl d st 0) }) s
      camSend st { fn := fn, op := camOp d, arg := natLE 8 (dArg d 40 8), data := data } s
/-- SVC_LANE_QUARANTINE, SVC_LANE_RELEASE (R81, R82). -/
def planLane (fn : Nat) (d : SvcDesc) (s : State) : Plan :=
  let st := dArg d 36 1
  match ownStream fn st s with
  | none => refuse fn d stNOT_OWNED []
  | some _ => completes fn d [] (if dCMD d = 0x0305 then quarPort st else fun s => if inQuar st s then releasePort st s else s)

/-! ### Models (R288 to R291) -/

/-- SVC_LOAD_MODEL (R288, R289, R298). -/
def planLoad (fn : Nat) (d : SvcDesc) (data : List Byte) (s : State) : Plan :=
  let p := fn - 1
  let a := dArg d 36 8
  match loadBad p a data s with
  | .inl (some r) => refuse fn d r.1 r.2
  | .inl none => refuse fn d stREFUSED_KEY []
  | .inr key =>
    if !tagHolds (fnTag fn) a data.length rgtWrite s then refuse fn d stREGION []
    else begins fun s =>
      let r := loadModel p a key data s
      finish fn d stOK 0 (natLE 2 r.1) r.2
/-- A partition's own resident model. -/
def ownModel (p h : Nat) (s : State) : Bool := match model h s with | some m => decide (m.part = p) | none => false
/-- SVC_UNLOAD_MODEL: a model that is bound, or that a job uses, is refused. -/
def planUnload (fn : Nat) (d : SvcDesc) (s : State) : Plan :=
  let h := dArg d 36 2
  if !ownModel (fn - 1) h s then refuse fn d stNOT_OWNED []
  else if modelBound h s || s.jobs.any fun j => decide (j.model = h) then refuse fn d stREFUSED_BUSY []
  else completes fn d [] (unloadModel h)
/-- The binding a descriptor names (R290): a Dusk model beside MODELn of none is none. -/
def bindArgs (d : SvcDesc) : Binding :=
  let h := fun o i => let x := dArg d (o + 2 * i) 2; if x = 0xFFFF then none else some x
  let ms := (upTo 4).map (h 38)
  let bit := fun i => (dArg d 62 1).testBit i
  { models := ms, dusks := (upTo 4).map fun i => if (h 38 i).isSome then h 46 i else none,
    speedMax := dArg d 54 4, duskMarginUs := dArg d 58 2, duskHoldMs := if dArg d 60 2 = 0 then 10 else dArg d 60 2,
    skipLate := bit 0, onIncomplete := bit 1, onDegraded := bit 2 }
/-- The model that replaces each old one in its place of the binding (R306). -/
def replacements (st : Nat) (old new : Option Binding) : List (Nat × Nat × Option Nat) :=
  let of := fun (f : Binding → List (Option Nat)) (b : Option Binding) (i : Nat) => (b.bind fun b => ((f b).getD i none))
  (upTo 4).flatMap fun i =>
    [fun (b : Binding) => b.models, fun (b : Binding) => b.dusks].filterMap fun f => (of f old i).map fun h => (st, h, of f new i)
/-- A stream's binding becomes another. -/
def setBind (st : Nat) (b : Binding) (s : State) : State := wrB (strBase st) 3 true { s with binds := s.binds.set st b }
/-- SVC_BIND_STREAM (R290, R297, R306). -/
def planBind (fn : Nat) (d : SvcDesc) (s : State) : Plan :=
  let st := dArg d 36 1
  let p := fn - 1
  let b := bindArgs d
  match ownStream fn st s with
  | none => refuse fn d stNOT_OWNED []
  | some _ =>
    if !((bindModels b ++ bindDusks b).all fun h => ownModel p h s) then refuse fn d stNOT_OWNED []
    else match if (strm st s).started then admitSet p (setNow p (setBind st b s)) s else none with
      | some r => refuse fn d stREFUSED_FIT (refuseBytes r)
      | none => begins fun s =>
          changeSet fn d p (partActive p s) (activeSet p s) (replacements st (bindingOf st s) (some b)) (setBind st b s)
/-- SVC_SCHED_AREA (R291): a start tests the area; a partition with a stream started keeps the one in use. -/
def planArea (fn : Nat) (d : SvcDesc) (s : State) : Plan :=
  let p := fn - 1
  if partActive p s then refuse fn d stREFUSED_BUSY []
  else completes fn d [] (updPart p (fun x => { x with area := some (dArg d 36 8) }))
/-- A command of a partition whose model set is switching waits for the switch (R306); while a commit is applied, loads, unloads, starts and
binds wait for it (R62). -/
def mustWait (fn : Nat) (d : SvcDesc) (s : State) : Bool :=
  let code := dCMD d
  if s.flash.committing && [0x0301, 0x0401, 0x0402, 0x0403].contains code then true
  else if code = 0x0301 ∨ code = 0x0403 then
    match ownStream fn (dArg d 36 1) s with
    | some p => (part p s).switching.isSome
    | none => false
  else false

/-! ### Cores (R162, R425) -/

/-- SVC_CORE_RELEASE: the self-test's outcome is a free value; a core that passes is checked, and live again at its partition's next
re-plan. -/
def planRelease (fn : Nat) (d : SvcDesc) (s : State) : Plan :=
  let n := dArg d 36 1
  if !quarantined n s then completes fn d [] id
  else if Config.freeBit s.fresh then
    { status := stSELFTEST_FAIL, logged := true, run := fun s => finish fn d stSELFTEST_FAIL 0 [] (draw 1 s) }
  else begins fun s =>
    let s := draw 1 { s with flash := { s.flash with quar := s.flash.quar &&& ~~~ BitVec.ofNat 32 (2 ^ n) } }
    let s := match coreOwner n s with
      | some p => updPart p (fun x => { x with freed := x.freed ++ [n] }) s
      | none => s
    wrB kPWR_STAT 7 true (updRing fn (fun r => { r with busy := some (.coreRelease d n) }) (clearCore n s))
/-- The cores that SVC_MORNING_CHECK checks: those of stopped and unused partitions that run. -/
def restCores (s : State) : List Nat :=
  (upTo 32).filter fun n => rdB kCLK_EN0 n s && !quarantined n s &&
    match coreOwner n s with | some p => decide (partState p s ≠ 4) && !partRuns p s | none => true
/-- SVC_MORNING_CHECK. -/
def planMorning (fn : Nat) (d : SvcDesc) (s : State) : Plan :=
  let ns := restCores s
  if ns.isEmpty then completes fn d (zeros 4) id
  else begins fun s => wrB kPWR_STAT 7 true (updRing fn (fun r => { r with busy := some (.morning d ns) }) s)

end Sys2Proof.Machine
end

