-- ==== Sys2Proof/Machine/SvcUnit.lean ====
section
/-! DEFINITION. The service commands of the units: 0x0501 to 0x0801 (R124, R129 to R139, R322 to R327, R346, R349, R358 to R364, R454 to
R456). -/

namespace Sys2Proof.Machine

open Sys2Proof

/-! ### The strip codec (R123, R124, R129, R130, R135, R139) -/

/-- A codec slot that a caller may name: its owner (R139). -/
def ownSlot (fn n : Nat) (s : State) : Option Nat :=
  if 16 ≤ n then none else
    match cdsOwner n s with
    | some p => if fn = 0 ∨ p + 1 = fn then some p else none
    | none => none
/-- The first slot of a stream's next frame; of the first one of the next start while it is stopped. -/
def nextFrameSlot (st : Nat) (s : State) : Nat := if feRuns st s then (fe st s).frames * frameLines st s else 0
/-- A recording starts: the slot's status and geometry (R124, R128). -/
def recStart (n st tap ratio loop : Nat) (s : State) : State :=
  let s := wr (cdsBase n + 8) 0 (wr (cdsBase n + 4) 0 (wr (cdsBase n) (wd (1 + tap * 8 + ratio * 16 + loop * 64 + st * 256)) s))
  updCds n (fun c => { c with
    bits := if tap = 0 then fmtOf st s else 16, planes := planesOf st s, width := lineWidth st s,
    held := [], total := 0, startK := nextFrameSlot st s, stopK := none, cached := [] }) s
/-- SVC_REC_START. -/
def planRecStart (fn : Nat) (d : SvcDesc) (s : State) : Plan :=
  let n := dArg d 36 1
  let st := dArg d 37 1
  match ownSlot fn n s with
  | none => refuse fn d stNOT_OWNED []
  | some p =>
    if streamPart st s ≠ some p then refuse fn d stNOT_OWNED []
    else if (strm st s).replay.isSome || !(decide (cdsState n s = 0) || decide (cdsState n s = 2)) then refuse fn d stCODEC_BUSY []
    else completes fn d [] (recStart n st (dArg d 38 1) (dArg d 39 1) (dArg d 40 1))
/-- SVC_REC_STOP: the recording ends with the current frame of its source. -/
def recStop (n : Nat) (s : State) : State :=
  let st := rdF (cdsBase n) 13 8 s
  let f := fe st s
  let e := nextFrameSlot st s
  let passed := if rdB (cdsBase n) 3 s then f.done4 else f.next
  if !feRuns st s || decide (e ≤ passed) || decide (e ≤ (cds n s).startK) then recEnd n s
  else updCds n (fun c => { c with stopK := some e }) s
/-- SVC_REC_STOP. -/
def planRecStop (fn : Nat) (d : SvcDesc) (s : State) : Plan :=
  let n := dArg d 36 1
  match ownSlot fn n s with
  | none => refuse fn d stNOT_OWNED []
  | some _ => if cdsState n s ≠ 1 then refuse fn d stCODEC_BUSY [] else completes fn d [] (recStop n)
/-- The target's STREAM record matches a recording (R129). -/
def replayFits (n st : Nat) (s : State) : Bool :=
  let c := cds n s
  decide (lineWidth st s = c.width) && decide (planesOf st s = c.planes) && (rdB (cdsBase n) 3 s || decide (fmtOf st s = c.bits))
/-- A replay starts: the partition's active set takes the target's models in (R289). -/
def replayGo (fn : Nat) (d : SvcDesc) (n p st : Nat) (s : State) : State :=
  let was := partActive p s
  let old := activeSet p s
  changeSet fn d p was old [] (replayStart n st (dArg d 37 1) (dArg d 38 2) (dArg d 40 2) s)
/-- SVC_REPLAY_START. -/
def planReplayStart (fn : Nat) (d : SvcDesc) (s : State) : Plan :=
  let n := dArg d 36 1
  match ownSlot fn n s with
  | none => refuse fn d stNOT_OWNED []
  | some p =>
    if cdsState n s ≠ 2 then refuse fn d stCODEC_BUSY []
    else match cdsTarget n s with
      | none => refuse fn d stREFUSED_CFG []
      | some st =>
        if (strm st s).started || (strm st s).replay.isSome then refuse fn d stCODEC_BUSY []
        else if !replayFits n st s then refuse fn d stREFUSED_CFG []
        else match startBad p st s with
          | some r => refuse fn d r.1 r.2
          | none => begins (replayGo fn d n p st)
/-- SVC_REPLAY_STOP. -/
def planReplayStop (fn : Nat) (d : SvcDesc) (s : State) : Plan :=
  let n := dArg d 36 1
  match ownSlot fn n s with
  | none => refuse fn d stNOT_OWNED []
  | some _ =>
    match (if cdsState n s = 3 then cdsTarget n s else none) with
    | none => refuse fn d stCODEC_BUSY []
    | some st => completes fn d [] (replayEnd n st)
/-- SVC_CAL_RUN (R135, R139). -/
def planCal (fn : Nat) (d : SvcDesc) (s : State) : Plan :=
  let n := dArg d 36 1
  match ownSlot fn n s with
  | none => refuse fn d stNOT_OWNED []
  | some _ =>
    if decide (cdsState n s ≠ 2) || rdB kCAL 8 s then refuse fn d stCODEC_BUSY []
    else if decide (dArg d 37 1 ≤ 1) && rdB (cdsBase n) 3 s then refuse fn d stBAD_DESC []
    else
      let args := [dArg d 37 1, dArg d 38 1, dArg d 39 1, dArg d 40 2, dArg d 42 2, dArg d 44 1]
      { status := stOK, logged := false, run := fun s => calStart n args (updRing fn (fun r => { r with busy := some (.cal d) }) s) }
/-- CAL_RUN_DONE: the calibration unit ends its run and completes its command, recorded with its status before the output is written (R44, R136
to R138). -/
def calDoneBody (s : State) : State :=
  let n := rdF kCAL 3 0 s
  if !rdB kCAL 8 s ∨ cdsState n s ≠ 4 then s else
    let r := calJudge n s
    let s := setCdsState n 2 r.reads
    let s := wr (kCAL + 8) (wd r.e) (wr (kCAL + 4) (wd r.n) (wrF kCAL 11 8 0 s))
    match (ring 0 s).busy with
    | some (.cal d) =>
      recordLate 0 d [] r.status (fun s => finish 0 d r.status 0 (natLE 4 r.n ++ natLE 4 r.e) (if r.status = stOK then calWrite n r.stats s else s)) s
    | _ => s
/-- CAL_RUN_DONE (R137). -/
def execCalRunDone (s : State) : Host.Outcome State Fault Refusal := .next (calDoneBody s)

/-! ### Ledger and position sources (R322 to R327, R332, R346, R349) -/

/-- SVC_LEDGER_CFG: the shadows of a stream and GO. -/
def planLedgerCfg (fn : Nat) (d : SvcDesc) (s : State) : Plan :=
  let st := dArg d 36 1
  match ownStream fn st s with
  | none => refuse fn d stNOT_OWNED []
  | some p =>
    let ctl := wd (dArg d 40 4)
    if bitOf 1 ctl && !(cfg 0x10 p (16 + fld 8 8 ctl) 1 s).testBit (fld 11 9 ctl) then refuse fn d stNOT_OWNED []
    else completes fn d [] fun s =>
      let vs := [(0, dArg d 40 4), (4, dArg d 44 4), (8, dArg d 38 2), (0xC, dArg d 48 2), (0x10, dArg d 50 2), (0x14, dArg d 52 4), (0x18, dArg d 56 2)]
      ldsGo st (eachDo (fun (x : Nat × Nat) s => wrLds st x.1 (wd x.2) s) vs s)
/-- SVC_LEDGER_LOG: a tenant's own log; on the PF the log of the partition whose memory holds the address. -/
def planLedgerLog (fn : Nat) (d : SvcDesc) (s : State) : Plan :=
  let a := dArg d 36 8
  match if fn = 0 then regionOwner a s else some (fn - 1) with
  | none => refuse fn d stREGION []
  | some p =>
    if 16 ≤ p then refuse fn d stREGION []
    else completes fn d [] fun s =>
      wr (ldpBase p + 8) (wd (dArg d 44 4)) (wr (ldpBase p + 4) (wd (a / 2 ^ 32 % 2 ^ 16)) (wr (ldpBase p) (wd a) s))
/-- SVC_ENC_MIRROR (R327). -/
def planMirror (fn : Nat) (d : SvcDesc) : Plan :=
  let t := dArg d 44 4
  completes fn d [] fun s =>
    { s with mirrors := if t = 0 then s.mirrors.del (fn - 1) else s.mirrors.set (fn - 1) { addr := dArg d 36 8, period := t } }
/-- SVC_ENC_PRESET (R325): refused while the source is in use. -/
def planPreset (fn : Nat) (d : SvcDesc) (s : State) : Plan :=
  let i := dArg d 36 1
  if (preset i (wd (dArg d 40 4)) s).1 then completes fn d [] fun s => (preset i (wd (dArg d 40 4)) s).2
  else { status := stREFUSED_BUSY, logged := true, run := fun s => finish fn d stREFUSED_BUSY 0 [] (preset i (wd (dArg d 40 4)) s).2 }
/-- SVC_ENC_COMPARE (R326). -/
def planCompare (fn : Nat) (d : SvcDesc) : Plan :=
  completes fn d [] fun s =>
    let f := dArg d 39 1
    let x := dArg d 37 1
    let y := dArg d 38 1
    let c : Cmpr := { en := f.testBit 0, stop := f.testBit 1, x := x, y := y, k := dArg d 40 4, win := dArg d 44 2, tol := dArg d 46 2,
                      x0 := encPos x s, y0 := encPos y s }
    { s with cmprs := s.cmprs.set (dArg d 36 1) c }
/-- SVC_ENC_COMPARE_READ. -/
def planCompareRead (fn : Nat) (d : SvcDesc) (s : State) : Plan :=
  let c := cmpr (dArg d 36 1) s
  completes fn d (natLE 4 (wdi c.e).toNat ++ natLE 1 (b2n c.en + 2 * b2n c.out)) id

/-! ### Field I/O (R357 to R364) -/

/-- SVC_NIGHTFALL_ENTER (R357). -/
def planNightIn (fn : Nat) (d : SvcDesc) : Plan := completes fn d [] (nightfall 2 false)
/-- SVC_NIGHTFALL_CLEAR (R359). -/
def planNightOut (fn : Nat) (d : SvcDesc) (s : State) : Plan :=
  if (nightClear s).1 then completes fn d [] fun s => (nightClear s).2 else refuse fn d stREFUSED_BUSY []
/-- SVC_DO_TEST (R364). -/
def planDoTest (fn : Nat) (d : SvcDesc) (s : State) : Plan :=
  let o := dArg d 36 1
  let who := groupOwner (o / 4) s
  if fn ≠ 0 ∧ who ≠ some (fn - 1) then refuse fn d stNOT_OWNED []
  else if night s then refuse fn d stNIGHTFALL []
  else if (match who with | some p => (partStreams p s).any fun st => (strm st s).started | none => false) then refuse fn d stREFUSED_BUSY []
  else completes fn d [] (request { d := o, who := [.test (dArg d 38 2)], src := 0, f := 0, grace := none })
/-- SVC_MBX_READ: words with an uncorrectable error read as zeros and are marked (R402). -/
def planMbxRead (fn : Nat) (d : SvcDesc) : Plan :=
  begins fun s =>
    let a := mailbox + dArg d 36 2
    let bs := memRead a (dLEN d) s
    let bad := poisonedWords a (dLEN d) s
    let s := stewardMet bad { s with host := Memory.write s.host (dDATA d) bs }
    if bad.isEmpty then finish fn d stOK 0 [] s else finish fn d stMEM_ERR 4 [] s
/-- SVC_MBX_WRITE (R363). -/
def planMbxWrite (fn : Nat) (d : SvcDesc) (data : List Byte) : Plan :=
  completes fn d [] (memStore [(mailbox + dArg d 36 2, data)])

/-! ### Faults (R454 to R456) -/

/-- An active fault that an acknowledgement names. -/
def ackedFault (d : SvcDesc) (f : FaultRec) : Bool :=
  decide (f.code = dArg d 36 2) && decide (f.unit = dArg d 38 1) && decide (f.part = dArg d 39 1)
/-- What an acknowledgement of a LATCH fault finds: whether the cause has cleared, and the unit at work again where it has. -/
def latchAck (code : Nat) (s : State) : Bool × State :=
  if code = 0x9001 then fioAck s
  else if code = 0xB007 then tripAck s
  else if code = 0x1002 then (decide (stage s ≠ 5), s)
  else if code = 0x1005 then (!s.flash.auditRO, s)
  else if code = 0x3001 then (!s.img.isEmpty, s)
  else (true, s)
/-- Acknowledging ACCESS_REFUSED re-arms its tag and empties the record that holds it (R456). -/
def rearm (t : Nat) (s : State) : State :=
  let s := { s with accRaised := s.accRaised.filter (· ≠ t) }
  if rdB kFAULT_ACC_SRC 31 s && decide (rdF kFAULT_ACC_SRC 7 0 s = t) then
    wr kFAULT_ACC_HI 0 (wr kFAULT_ACC_LO 0 (wr kFAULT_ACC_SRC 0 s)) else s
/-- A fault is no longer active. -/
def clearFault (d : SvcDesc) (s : State) : State :=
  let s := showFaults { s with faults := s.faults.filter fun f => !ackedFault d f }
  if dArg d 36 2 = 0x8010 then rearm (dArg d 38 1) s else s
/-- SVC_FAULT_ACK (R455): to a VF another partition's fault and one of no partition give the same status, active or not (R33). -/
def planAck (fn : Nat) (d : SvcDesc) (s : State) : Plan :=
  if fn ≠ 0 ∧ dArg d 39 1 ≠ fn - 1 then refuse fn d stNOT_OWNED []
  else match s.faults.find? (ackedFault d) with
  | none => completes fn d [] id
  | some f =>
    if fn ≠ 0 ∧ ¬ f.fns.all (fun g => decide (g = fn)) then refuse fn d stNOT_OWNED []
    else if (latchAck f.code s).1 then completes fn d [] fun s => clearFault d (latchAck f.code s).2
    else { status := stREFUSED_BUSY, logged := true, run := fun s => finish fn d stREFUSED_BUSY 0 [] (latchAck f.code s).2 }

end Sys2Proof.Machine
end

