-- ==== Sys2Proof/Machine/Serve.lean ====
section
/-! DEFINITION. The steward serves a ring (R30, R31, R400 to R402): the checks of a descriptor in their order, the command's plan, its record and
its effect; a row for each service command, and the Morning check. -/

namespace Sys2Proof.Machine

open Sys2Proof

/-! ### What a command will do -/

/-- The plans of 0x0001 to 0x02FF. -/
def planLow (fn : Nat) (d : SvcDesc) (data : List Byte) (s : State) : Plan :=
  let code := dCMD d
  if code = 0x0002 then planNonce fn d s
  else if code = 0x0003 ∨ code = 0x0004 then planCopy fn d s
  else if code = 0x0101 then planUnlock fn d
  else if code = 0x0102 then planLock fn d
  else if code = 0x0103 then planKeyInstall fn d data
  else if code = 0x0104 then planKeyRevoke fn d
  else if code = 0x0105 then planFwUpdate fn d data s
  else if code = 0x0106 then planFuseBurn fn d data
  else if code = 0x0110 then planAuditRead fn d
  else if code = 0x0111 then planAuditExport fn d
  else if code = 0x0112 then planAuditSeal fn d s
  else if code = 0x0201 then planImageLoad fn d data s
  else if code = 0x0202 then planImageCommit fn d s
  else if code = 0x0203 then planImageDiscard fn d
  else if code = 0x0204 then planImageRead fn d s
  else planNop fn d s
/-- The plans of 0x0300 to 0x04FF. -/
def planMid (fn : Nat) (d : SvcDesc) (data : List Byte) (s : State) : Plan :=
  let code := dCMD d
  if code = 0x0301 then planStart fn d false s
  else if code = 0x0302 then planStop fn d s
  else if code = 0x0303 then planRecipe fn d s
  else if code = 0x0304 then planCamCtrl fn d data s
  else if code = 0x0305 ∨ code = 0x0306 then planLane fn d s
  else if code = 0x0401 then planLoad fn d data s
  else if code = 0x0402 then planUnload fn d s
  else if code = 0x0403 then planBind fn d s
  else if code = 0x0404 then planArea fn d s
  else if code = 0x0405 then planRelease fn d s
  else planMorning fn d s
/-- The plans from 0x0500 on. -/
def planHigh (fn : Nat) (d : SvcDesc) (data : List Byte) (s : State) : Plan :=
  let code := dCMD d
  if code = 0x0501 then planRecStart fn d s
  else if code = 0x0502 then planRecStop fn d s
  else if code = 0x0503 then planReplayStart fn d s
  else if code = 0x0504 then planReplayStop fn d s
  else if code = 0x0505 then planCal fn d s
  else if code = 0x0601 then planLedgerCfg fn d s
  else if code = 0x0602 then planLedgerLog fn d s
  else if code = 0x0603 then planMirror fn d
  else if code = 0x0604 then planPreset fn d s
  else if code = 0x0605 then planCompare fn d
  else if code = 0x0606 then planCompareRead fn d s
  else if code = 0x0701 then planNightIn fn d
  else if code = 0x0702 then planNightOut fn d s
  else if code = 0x0703 then planDoTest fn d s
  else if code = 0x0704 then planMbxRead fn d
  else if code = 0x0705 then planMbxWrite fn d data
  else planAck fn d s
/-- A command's own checks and effect (step 4 of R400). -/
def planOf (fn : Nat) (d : SvcDesc) (data : List Byte) (s : State) : Plan :=
  if dCMD d < 0x0300 then planLow fn d data s else if dCMD d < 0x0500 then planMid fn d data s else planHigh fn d data s

/-! ### The checks of a descriptor (R31, R40, R41, R47, R400, R402) -/

/-- The authorisation block of a signed command has been read: the outstanding nonce, if the block holds it, is consumed; whether it was
issued under 60 s ago (R40, R41). -/
def presentNonce (b : List Byte) (s : State) : Bool × State :=
  if s.svc.nonce = some ((b.drop 8).take 16) then
    (decide (ticksSince s.svc.nonceTick s < 37500000000), { s with svc := { s.svc with nonce := none } })
  else (false, s)
/-- Step 4 and what R47 asks before it: the plan, its record, its effect. -/
def serveNow (fn : Nat) (d : SvcDesc) (c : CmdRow) (dataOk : Bool) (s : State) : State :=
  let bad := dataIn d c && !dataOk
  let data := if bad then [] else dataBytes d c s
  carryOut fn d data (if bad then refuse fn d stHOST_ERR [] else planOf fn d data s) s
/-- The service steps that a command's checks take (R30, R62): one for each 4 KiB of a package or an image that is checked; that figure is the
model's choice (notes/assumptions/34.md). -/
def checkSteps (d : SvcDesc) (s : State) : Nat :=
  let len := if dCMD d = 0x0401 ∨ dCMD d = 0x0201 then dLEN d
    else if dCMD d = 0x0202 then (match s.flash.imgStaged with | some b => b.length | none => 0) else 0
  (len + copyUnit - 1) / copyUnit
/-- A command whose checks take several service steps goes on at its ring's next turns. -/
def serveOwn (fn : Nat) (d : SvcDesc) (c : CmdRow) (dataOk : Bool) (s : State) : State :=
  if 1 < checkSteps d s then updRing fn (fun r => { r with busy := some (.work d dataOk (checkSteps d s - 1)) }) s
  else serveNow fn d c dataOk s
/-- A further service step of such a command. -/
def workStep (fn : Nat) (d : SvcDesc) (dataOk : Bool) (left : Nat) (s : State) : State :=
  if 1 < left then updRing fn (fun r => { r with busy := some (.work d dataOk (left - 1)) }) s
  else match cmdRow (dCMD d) with
    | some c => serveNow fn d c dataOk s
    | none => s
/-- Step 3: R41 on the PF. -/
def serveAuth (fn : Nat) (d : SvcDesc) (c : CmdRow) (authOk dataOk : Bool) (s : State) : State :=
  if fn ≠ 0 || c.slots.isEmpty then serveOwn fn d c dataOk s
  else if dAUTH d = 0 then finish fn d stAUTH_KEY 0 [] s
  else if !authOk then finish fn d stHOST_ERR 0 [] s
  else
    let b := Memory.read s.host (dAUTH d) 96
    let r := presentNonce b s
    let s := r.2
    let tag := fun slot s => updRing fn (fun r => { r with auth := (slot, (b.drop 8).take 8) }) s
    match authCheck fn (dCMD d) c d b r.1 s with
    | .fail status logged slot =>
      let s := if logged then recordCmd fn d (dataBytes d c s) status (tag slot s) else s
      finish fn d status 0 [] s
    | .pass slot => serveOwn fn d c dataOk (tag slot s)
/-- A command is executed (R400); `authOk` and `dataOk` say whether its reads of host memory succeed. -/
def serve (fn : Nat) (d : SvcDesc) (authOk dataOk : Bool) (s : State) : State :=
  let s := updRing fn (fun r => { r with auth := (0xFF, []), busy := some .now }) s
  if fn ≠ 0 && !partUsed (fn - 1) s then finish fn d stNO_PARTITION 0 [] s
  else match cmdRow (dCMD d) with
    | none => finish fn d stBAD_CMD 0 [] s
    | some c =>
      if !onFn fn (dCMD d) c s then finish fn d stBAD_CMD 0 [] s
      else if descBad fn (dCMD d) c d s then finish fn d stBAD_DESC 0 [] s
      else serveAuth fn d c authOk dataOk s

/-! ### The rings in turn (R30) -/

/-- A ring has a step to do: a transfer in progress, or a command that may start. -/
def ringWork (fn : Nat) (s : State) : Bool :=
  let r := ring fn s
  ringServed fn s &&
    match r.busy with
    | some (.copy _ _) | some (.work _ _ _) | some (.staging _ _ _) | some (.fwWrite _ _) | some (.applying _) => true
    | some _ => false
    | none => match r.fetched with
      | d :: _ => !r.flushing && !mustWait fn d s
      | [] => false
/-- One step of a ring. -/
def ringStep (fn : Nat) (s : State) : State :=
  match (ring fn s).busy with
  | some (.copy d done) => copyStep fn d done s
  | some (.work d ok left) => workStep fn d ok left s
  | some (.staging d data no) => staged fn d data no s
  | some (.fwWrite d data) => fwWritten fn d data s
  | some (.applying d) => applied fn d s
  | some _ => s
  | none => match (ring fn s).fetched with
    | d :: rest => serve fn d true true (updRing fn (fun r => { r with fetched := rest }) s)
    | [] => s
/-- The round stands at the ring after `fn`. -/
def turnPast (fn : Nat) (s : State) : State := { s with svc := { s.svc with turn := (fn + 1) % 17 } }
/-- The steward serves the next ring of its round that has work (R30). -/
def serviceBody (s : State) : State :=
  let s := eachDo pumpRing (upTo 17) s
  match (upTo 17).find? fun i => ringWork ((s.svc.turn + i) % 17) s with
  | none => s
  | some i =>
    let fn := (s.svc.turn + i) % 17
    ringStep fn (turnPast fn s)
/-- The rings that stand before `fn` in the round have their steps. -/
def ringsBefore (fn : Nat) (s : State) : State :=
  eachDo (fun i s => let g := (s.svc.turn + i) % 17; if ringWork g s then ringStep g s else s) (upTo ((fn + 17 - s.svc.turn) % 17)) s
/-- STEWARD_SERVICE_STEP (R30). -/
def execStewardServiceStep (s : State) : Host.Outcome State Fault Refusal := .next (if s.boot.fwRunning then serviceBody s else s)

/-! ### A command as a row of the table -/

/-- Bytes that host memory holds where a command points. -/
def hostPut (a : Nat) (bs : Option (List Byte)) (s : State) : State :=
  match bs with
  | some bs => { s with host := Memory.write s.host a bs }
  | none => s
/-- A descriptor of the code `code` is fetched from a function's ring, with what its host memory holds, and the round goes on to that ring (R30): it
serves the descriptor, or the earlier command that the ring still has. A ring that fetches nothing takes nothing. -/
def svcRow (code fn : Nat) (d : SvcDesc) (h : HostIn) (s : State) : State :=
  let d := padTo 64 (natLE 2 code ++ d.drop 2)
  if !(ringEn fn s && ringServed fn s && (ring fn s).busMaster && !(ring fn s).flushing && fetchRoom fn s) then s else
    let s := hostPut (dAUTH d) (if dAUTH d = 0 then none else h.auth.map (padTo 96)) s
    let s := hostPut (dDATA d) (h.data.map fun bs => bs.take (dLEN d)) s
    let s := inc (ringBase fn + oCMD_HEAD) 1 (updRing fn (fun r => { r with cmdTail := r.cmdTail + 1, fetched := r.fetched ++ [d] }) s)
    let s := turnPast fn (ringsBefore fn s)
    if !ringWork fn s then s
    else if (ring fn s).busy.isNone && decide ((ring fn s).fetched = [d]) then
      serve fn d h.auth.isSome h.data.isSome (updRing fn (fun r => { r with fetched := [] }) s)
    else ringStep fn s
/-- SVC_NOP (R404, R405). -/
def execSvcNop (fn : Fin 17) (d : SvcDesc) (h : HostIn) (s : State) : Host.Outcome State Fault Refusal := .next (svcRow 0x0001 fn.val d h s)
/-- SVC_GET_NONCE (R404, R405). -/
def execSvcGetNonce (fn : Fin 17) (d : SvcDesc) (h : HostIn) (s : State) : Host.Outcome State Fault Refusal := .next (svcRow 0x0002 fn.val d h s)
/-- SVC_COPY_IN (R404, R405). -/
def execSvcCopyIn (fn : Fin 17) (d : SvcDesc) (h : HostIn) (s : State) : Host.Outcome State Fault Refusal := .next (svcRow 0x0003 fn.val d h s)
/-- SVC_COPY_OUT (R404, R405). -/
def execSvcCopyOut (fn : Fin 17) (d : SvcDesc) (h : HostIn) (s : State) : Host.Outcome State Fault Refusal := .next (svcRow 0x0004 fn.val d h s)
/-- SVC_EXPERT_UNLOCK (R404, R405). -/
def execSvcExpertUnlock (fn : Fin 17) (d : SvcDesc) (h : HostIn) (s : State) : Host.Outcome State Fault Refusal := .next (svcRow 0x0101 fn.val d h s)
/-- SVC_EXPERT_LOCK (R404, R405). -/
def execSvcExpertLock (fn : Fin 17) (d : SvcDesc) (h : HostIn) (s : State) : Host.Outcome State Fault Refusal := .next (svcRow 0x0102 fn.val d h s)
/-- SVC_KEY_INSTALL (R404, R405). -/
def execSvcKeyInstall (fn : Fin 17) (d : SvcDesc) (h : HostIn) (s : State) : Host.Outcome State Fault Refusal := .next (svcRow 0x0103 fn.val d h s)
/-- SVC_KEY_REVOKE (R404, R405). -/
def execSvcKeyRevoke (fn : Fin 17) (d : SvcDesc) (h : HostIn) (s : State) : Host.Outcome State Fault Refusal := .next (svcRow 0x0104 fn.val d h s)
/-- SVC_FW_UPDATE (R404, R405). -/
def execSvcFwUpdate (fn : Fin 17) (d : SvcDesc) (h : HostIn) (s : State) : Host.Outcome State Fault Refusal := .next (svcRow 0x0105 fn.val d h s)
/-- SVC_FUSE_BURN (R404, R405). -/
def execSvcFuseBurn (fn : Fin 17) (d : SvcDesc) (h : HostIn) (s : State) : Host.Outcome State Fault Refusal := .next (svcRow 0x0106 fn.val d h s)
/-- SVC_AUDIT_READ (R404, R405). -/
def execSvcAuditRead (fn : Fin 17) (d : SvcDesc) (h : HostIn) (s : State) : Host.Outcome State Fault Refusal := .next (svcRow 0x0110 fn.val d h s)
/-- SVC_AUDIT_EXPORT (R404, R405). -/
def execSvcAuditExport (fn : Fin 17) (d : SvcDesc) (h : HostIn) (s : State) : Host.Outcome State Fault Refusal := .next (svcRow 0x0111 fn.val d h s)
/-- SVC_AUDIT_SEAL (R404, R405). -/
def execSvcAuditSeal (fn : Fin 17) (d : SvcDesc) (h : HostIn) (s : State) : Host.Outcome State Fault Refusal := .next (svcRow 0x0112 fn.val d h s)
/-- SVC_IMAGE_LOAD (R404, R405). -/
def execSvcImageLoad (fn : Fin 17) (d : SvcDesc) (h : HostIn) (s : State) : Host.Outcome State Fault Refusal := .next (svcRow 0x0201 fn.val d h s)
/-- SVC_IMAGE_COMMIT (R404, R405). -/
def execSvcImageCommit (fn : Fin 17) (d : SvcDesc) (h : HostIn) (s : State) : Host.Outcome State Fault Refusal := .next (svcRow 0x0202 fn.val d h s)
/-- SVC_IMAGE_DISCARD (R404, R405). -/
def execSvcImageDiscard (fn : Fin 17) (d : SvcDesc) (h : HostIn) (s : State) : Host.Outcome State Fault Refusal := .next (svcRow 0x0203 fn.val d h s)
/-- SVC_IMAGE_READ (R404, R405). -/
def execSvcImageRead (fn : Fin 17) (d : SvcDesc) (h : HostIn) (s : State) : Host.Outcome State Fault Refusal := .next (svcRow 0x0204 fn.val d h s)
/-- SVC_START_STREAM (R404, R405). -/
def execSvcStartStream (fn : Fin 17) (d : SvcDesc) (h : HostIn) (s : State) : Host.Outcome State Fault Refusal := .next (svcRow 0x0301 fn.val d h s)
/-- SVC_STOP_STREAM (R404, R405). -/
def execSvcStopStream (fn : Fin 17) (d : SvcDesc) (h : HostIn) (s : State) : Host.Outcome State Fault Refusal := .next (svcRow 0x0302 fn.val d h s)
/-- SVC_RECIPE_SELECT (R404, R405). -/
def execSvcRecipeSelect (fn : Fin 17) (d : SvcDesc) (h : HostIn) (s : State) : Host.Outcome State Fault Refusal := .next (svcRow 0x0303 fn.val d h s)
/-- SVC_CAM_CTRL (R404, R405). -/
def execSvcCamCtrl (fn : Fin 17) (d : SvcDesc) (h : HostIn) (s : State) : Host.Outcome State Fault Refusal := .next (svcRow 0x0304 fn.val d h s)
/-- SVC_LANE_QUARANTINE (R404, R405). -/
def execSvcLaneQuarantine (fn : Fin 17) (d : SvcDesc) (h : HostIn) (s : State) : Host.Outcome State Fault Refusal := .next (svcRow 0x0305 fn.val d h s)
/-- SVC_LANE_RELEASE (R404, R405). -/
def execSvcLaneRelease (fn : Fin 17) (d : SvcDesc) (h : HostIn) (s : State) : Host.Outcome State Fault Refusal := .next (svcRow 0x0306 fn.val d h s)
/-- SVC_LOAD_MODEL (R404, R405). -/
def execSvcLoadModel (fn : Fin 17) (d : SvcDesc) (h : HostIn) (s : State) : Host.Outcome State Fault Refusal := .next (svcRow 0x0401 fn.val d h s)
/-- SVC_UNLOAD_MODEL (R404, R405). -/
def execSvcUnloadModel (fn : Fin 17) (d : SvcDesc) (h : HostIn) (s : State) : Host.Outcome State Fault Refusal := .next (svcRow 0x0402 fn.val d h s)
/-- SVC_BIND_STREAM (R404, R405). -/
def execSvcBindStream (fn : Fin 17) (d : SvcDesc) (h : HostIn) (s : State) : Host.Outcome State Fault Refusal := .next (svcRow 0x0403 fn.val d h s)
/-- SVC_SCHED_AREA (R404, R405). -/
def execSvcSchedArea (fn : Fin 17) (d : SvcDesc) (h : HostIn) (s : State) : Host.Outcome State Fault Refusal := .next (svcRow 0x0404 fn.val d h s)
/-- SVC_CORE_RELEASE (R404, R405). -/
def execSvcCoreRelease (fn : Fin 17) (d : SvcDesc) (h : HostIn) (s : State) : Host.Outcome State Fault Refusal := .next (svcRow 0x0405 fn.val d h s)
/-- SVC_MORNING_CHECK (R404, R405). -/
def execSvcMorningCheck (fn : Fin 17) (d : SvcDesc) (h : HostIn) (s : State) : Host.Outcome State Fault Refusal := .next (svcRow 0x0406 fn.val d h s)
/-- SVC_REC_START (R404, R405). -/
def execSvcRecStart (fn : Fin 17) (d : SvcDesc) (h : HostIn) (s : State) : Host.Outcome State Fault Refusal := .next (svcRow 0x0501 fn.val d h s)
/-- SVC_REC_STOP (R404, R405). -/
def execSvcRecStop (fn : Fin 17) (d : SvcDesc) (h : HostIn) (s : State) : Host.Outcome State Fault Refusal := .next (svcRow 0x0502 fn.val d h s)
/-- SVC_REPLAY_START (R404, R405). -/
def execSvcReplayStart (fn : Fin 17) (d : SvcDesc) (h : HostIn) (s : State) : Host.Outcome State Fault Refusal := .next (svcRow 0x0503 fn.val d h s)
/-- SVC_REPLAY_STOP (R404, R405). -/
def execSvcReplayStop (fn : Fin 17) (d : SvcDesc) (h : HostIn) (s : State) : Host.Outcome State Fault Refusal := .next (svcRow 0x0504 fn.val d h s)
/-- SVC_CAL_RUN (R404, R405). -/
def execSvcCalRun (fn : Fin 17) (d : SvcDesc) (h : HostIn) (s : State) : Host.Outcome State Fault Refusal := .next (svcRow 0x0505 fn.val d h s)
/-- SVC_LEDGER_CFG (R404, R405). -/
def execSvcLedgerCfg (fn : Fin 17) (d : SvcDesc) (h : HostIn) (s : State) : Host.Outcome State Fault Refusal := .next (svcRow 0x0601 fn.val d h s)
/-- SVC_LEDGER_LOG (R404, R405). -/
def execSvcLedgerLog (fn : Fin 17) (d : SvcDesc) (h : HostIn) (s : State) : Host.Outcome State Fault Refusal := .next (svcRow 0x0602 fn.val d h s)
/-- SVC_ENC_MIRROR (R404, R405). -/
def execSvcEncMirror (fn : Fin 17) (d : SvcDesc) (h : HostIn) (s : State) : Host.Outcome State Fault Refusal := .next (svcRow 0x0603 fn.val d h s)
/-- SVC_ENC_PRESET (R404, R405). -/
def execSvcEncPreset (fn : Fin 17) (d : SvcDesc) (h : HostIn) (s : State) : Host.Outcome State Fault Refusal := .next (svcRow 0x0604 fn.val d h s)
/-- SVC_ENC_COMPARE (R404, R405). -/
def execSvcEncCompare (fn : Fin 17) (d : SvcDesc) (h : HostIn) (s : State) : Host.Outcome State Fault Refusal := .next (svcRow 0x0605 fn.val d h s)
/-- SVC_ENC_COMPARE_READ (R404, R405). -/
def execSvcEncCompareRead (fn : Fin 17) (d : SvcDesc) (h : HostIn) (s : State) : Host.Outcome State Fault Refusal := .next (svcRow 0x0606 fn.val d h s)
/-- SVC_NIGHTFALL_ENTER (R404, R405). -/
def execSvcNightfallEnter (fn : Fin 17) (d : SvcDesc) (h : HostIn) (s : State) : Host.Outcome State Fault Refusal := .next (svcRow 0x0701 fn.val d h s)
/-- SVC_NIGHTFALL_CLEAR (R404, R405). -/
def execSvcNightfallClear (fn : Fin 17) (d : SvcDesc) (h : HostIn) (s : State) : Host.Outcome State Fault Refusal := .next (svcRow 0x0702 fn.val d h s)
/-- SVC_DO_TEST (R404, R405). -/
def execSvcDoTest (fn : Fin 17) (d : SvcDesc) (h : HostIn) (s : State) : Host.Outcome State Fault Refusal := .next (svcRow 0x0703 fn.val d h s)
/-- SVC_MBX_READ (R404, R405). -/
def execSvcMbxRead (fn : Fin 17) (d : SvcDesc) (h : HostIn) (s : State) : Host.Outcome State Fault Refusal := .next (svcRow 0x0704 fn.val d h s)
/-- SVC_MBX_WRITE (R404, R405). -/
def execSvcMbxWrite (fn : Fin 17) (d : SvcDesc) (h : HostIn) (s : State) : Host.Outcome State Fault Refusal := .next (svcRow 0x0705 fn.val d h s)
/-- SVC_FAULT_ACK (R404, R405). -/
def execSvcFaultAck (fn : Fin 17) (d : SvcDesc) (h : HostIn) (s : State) : Host.Outcome State Fault Refusal := .next (svcRow 0x0801 fn.val d h s)

/-! ### The Morning check (R425 to R427, R448) -/

/-- The check of a command is made: the command completes, or the stream start goes on. -/
def checkDone (rs : List CheckReading) (s : State) : State :=
  let ns := underCheck s
  let idle := ns.all fun n => (coreOf n s).job.isNone
  if !idle then s else
    match (ring 0 s).busy with
    | some (.morning d ns) =>
      let mask := (ns.filter fun n => rs.any fun r => decide (r.core.val = n)).foldl (fun a n => a ||| 2 ^ n) 0
      finish 0 d stOK 0 (natLE 4 mask) (morningCheckOf ns rs s)
    | some (.coreRelease d n) => finish 0 d stOK 0 [] (morningCheckOf [n] rs s)
    | some (.startStream d ns) =>
      let s := updRing 0 (fun r => { r with busy := some .now }) (morningCheckOf ns rs s)
      carryOut 0 d [] (planStart 0 d true s) s
    | _ => s
/-- MORNING_CHECK (R425): the one of the start-up, or the one that a command asked for. -/
def morningBody (rs : List CheckReading) (s : State) : State :=
  if !s.boot.fwRunning || s.boot.restarting then s
  else if stage s = 2 then setStage 3 (morningCheckOf (dawnCores s) rs s)
  else checkDone rs s
/-- MORNING_CHECK (R425). -/
def execMorningCheck (rs : List CheckReading) (s : State) : Host.Outcome State Fault Refusal := .next (morningBody rs s)

end Sys2Proof.Machine
end

