-- ==== Sys2Proof/Machine/HostBus.lean ====
section
/-! DEFINITION. The host bridge (17_host_interface.md): resets of the bus (R390), doorbells and ring control (R395, R403, R407), flushes, the
coalescing timer (R396), the completion timeout (R389, R402). -/

namespace Sys2Proof.Machine

open Sys2Proof

/-! ### Functions on the bus (R35, R390) -/

/-- PART_STATUS.VF_UP follows a VF's Bus Master Enable (R35). -/
def setMaster (fn : Nat) (on : Bool) (s : State) : State :=
  let s := updRing fn (fun r => { r with busMaster := on }) s
  if fn = 0 then s else wrB (kPART_STATUS (fn - 1)) 6 on s
/-- A function-level reset (R390): the ring is flushed, its registers return to reset; the PF's ends the expert unlock. -/
def fnReset (fn : Nat) (s : State) : State :=
  let s := ringReset fn (setMaster fn false (flushRing fn s))
  if fn = 0 then endExpert 2 s else s
/-- FUNCTION_LEVEL_RESET (R390). -/
def execFunctionLevelReset (fn : Fin 17) (s : State) : Host.Outcome State Fault Refusal := .next (viaHost fn.val (fnReset fn.val) s)
/-- PERST# or a link that goes down (R390): every function is reset, the VFs disappear, no request reaches the module. -/
def perstBody (s : State) : State :=
  let s := eachDo fnReset (upTo 17) s
  { s with boot := { s.boot with vfOn := false, linkUp := false } }
/-- PERST (R390). -/
def execPerst (s : State) : Host.Outcome State Fault Refusal := .next (perstBody s)
/-- PCIE_LINK_UP (R390, R448): once the bridge's domains are on and the firmware has been verified. -/
def execPcieLinkUp (s : State) : Host.Outcome State Fault Refusal :=
  .next (if domOn 14 s && domOn 15 s && decide (stage s ≠ 0) then { s with boot := { s.boot with linkUp := true } } else s)
/-- The VFs appear on the bus or vanish from it, reset (R390). -/
def vfBody (on : Bool) (s : State) : State :=
  if !s.boot.linkUp then s
  else
    let s := if on then s else eachDo fnReset ((upTo 16).map (· + 1)) s
    { s with boot := { s.boot with vfOn := on } }
/-- VF_ENABLE (R390). -/
def execVfEnable (on : Bool) (s : State) : Host.Outcome State Fault Refusal := .next (vfBody on s)
/-- BUS_MASTER_DISABLE, which D3hot is as well (R390): the ring is flushed. -/
def execBusMasterDisable (fn : Fin 17) (s : State) : Host.Outcome State Fault Refusal :=
  .next (viaHost fn.val (fun s => setMaster fn.val false (flushRing fn.val s)) s)
/-- BUS_MASTER_ENABLE (R390). -/
def execBusMasterEnable (fn : Fin 17) (s : State) : Host.Outcome State Fault Refusal :=
  .next (viaHost fn.val (fun s => pumpRing fn.val (setMaster fn.val true s)) s)

/-! ### Doorbells and ring control (R395, R403, R407) -/

/-- A doorbell value that is ignored sets DB_BAD (R395). -/
def dbBad (fn : Nat) (s : State) : State := wrB (ringBase fn + oRING_EVT) 0 true s
/-- The command doorbell. -/
def dbCmd (fn : Nat) (v : Word) (s : State) : State :=
  if ringSize fn oCMD_SIZE s < (v - rd (ringBase fn + oCMD_HEAD) s).toNat then dbBad fn s
  else pumpRing fn (updRing fn (fun r => { r with cmdTail := v }) s)
/-- The completion doorbell. -/
def dbCpl (fn : Nat) (v : Word) (s : State) : State :=
  if 0 < (v - rd (ringBase fn + oCPL_TAIL) s).toInt then dbBad fn s
  else
    let s := updRing fn (fun r => { r with cplHead := v }) s
    pumpRing fn (wrB (ringBase fn + oRING_STAT) 2 (!cplRoom fn s) s)
/-- A ring is enabled: every count returns to 0, fetching starts, held events go out (R395, R399). -/
def ringEnable (fn : Nat) (s : State) : State :=
  let b := ringBase fn
  let s := updRing fn (fun r => { r with cmdTail := 0, cplHead := 0, fetched := [], unsig := 0 }) s
  let s := wr (b + oCPL_TAIL) 0 (wr (b + oCMD_HEAD) 0 (wrB (b + oRING_CTL) 0 true s))
  pumpRing fn (wrB (b + oRING_STAT) 0 true (wrB (b + oRING_STAT) 2 false s))
/-- A write to SVC_RING_CTL: the coalescing fields, FLUSH, EN. -/
def ringCtl (fn : Nat) (v : Word) (s : State) : State :=
  let b := ringBase fn
  let s := wrF (b + oRING_CTL) 25 8 (fld 25 8 v) s
  if ringEn fn s then (if bitOf 1 v || !bitOf 0 v then flushRing fn s else s)
  else if bitOf 0 v && !(ring fn s).flushing then ringEnable fn s else s
/-- SVC_DB_CMD. -/
def execSvcDbCmd (fn : Fin 17) (v : Word) (s : State) : Host.Outcome State Fault Refusal := .next (viaHost fn.val (dbCmd fn.val v) s)
/-- SVC_DB_CPL. -/
def execSvcDbCpl (fn : Fin 17) (v : Word) (s : State) : Host.Outcome State Fault Refusal := .next (viaHost fn.val (dbCpl fn.val v) s)
/-- SVC_RING_CTL_EN. -/
def execSvcRingCtlEn (fn : Fin 17) (v : Word) (s : State) : Host.Outcome State Fault Refusal := .next (viaHost fn.val (ringCtl fn.val v) s)
/-- SVC_RING_CTL_FLUSH: a write with FLUSH set. -/
def execSvcRingCtlFlush (fn : Fin 17) (v : Word) (s : State) : Host.Outcome State Fault Refusal :=
  .next (viaHost fn.val (ringCtl fn.val (v ||| 2)) s)

/-! ### Timers of a ring (R389, R396, R402, R403) -/

/-- A transfer that a flush found in progress is still running after 2 µs (R403). -/
def flushGrace (fn : Nat) (s : State) : State :=
  match (ring fn s).busy with
  | some (.copy d _) => if (ring fn s).flushing then copyVoid fn d s else s
  | _ => s
/-- RING_FLUSH_GRACE_EXPIRY (R403). -/
def execRingFlushGraceExpiry (fn : Fin 17) (s : State) : Host.Outcome State Fault Refusal := .next (flushGrace fn.val s)
/-- COAL_TIME has passed since the first unsignalled completion (R396). -/
def coalBody (fn : Nat) (s : State) : State :=
  if (ring fn s).unsig = 0 ∨ rdF (ringBase fn + oRING_CTL) 25 16 s = 0 then s
  else fireInt fn 0 (updRing fn (fun r => { r with unsig := 0 }) s)
/-- CPL_COALESCE_TIMEOUT (R396). -/
def execCplCoalesceTimeout (fn : Fin 17) (s : State) : Host.Outcome State Fault Refusal := .next (coalBody fn.val s)
/-- A command reads host memory: its authorisation block or its data. -/
def readsHost (fn : Nat) (d : SvcDesc) : Bool :=
  match cmdRow (dCMD d) with
  | some c => (decide (fn = 0) && !c.slots.isEmpty && decide (dAUTH d ≠ 0)) || dataIn d c
  | none => false
/-- A read of host memory is not answered (R389, R402, R407): the transfer in progress or the command at the head ends with ST_HOST_ERR;
otherwise it was the fetch of a descriptor, and the ring stops as if flushed. -/
def timeoutBody (fn : Nat) (s : State) : State :=
  if !ringServed fn s || !(ring fn s).busMaster then s else
    match (ring fn s).busy, (ring fn s).fetched with
    | some (.copy d _), _ => if dCMD d = 0x0003 then recordLate fn d [] stHOST_ERR (finish fn d stHOST_ERR 0 []) s else s
    | some (.work d _ _), _ => if readsHost fn d then recordLate fn d [] stHOST_ERR (finish fn d stHOST_ERR 0 []) s else s
    | some _, _ => s
    | none, d :: rest =>
      if readsHost fn d && !mustWait fn d s then serve fn d false false (updRing fn (fun r => { r with fetched := rest }) s) else s
    | none, [] => if ringEn fn s && fetchRoom fn s then flushRing fn (wrB (ringBase fn + oRING_EVT) 1 true s) else s
/-- COMPLETION_TIMEOUT (R389, R402). -/
def execCompletionTimeout (fn : Fin 17) (s : State) : Host.Outcome State Fault Refusal := .next (timeoutBody fn.val s)

end Sys2Proof.Machine
end

