-- ==== Sys2Proof/Machine/Net.lean ====
section
/-! DEFINITION. The commands of the time unit and of the Ethernet ports (16_time_and_network.md). -/

namespace Sys2Proof.Machine

open Sys2Proof

/-- TIME_NOW_LO_READ (R371). -/
def execTimeNowLoRead (fn : Fin 17) (s : State) : Host.Outcome State Fault Refusal := .next (viaHostRead fn.val (nowLoRead fn.val) s)
/-- TIME_TICK_LO_READ (R371). -/
def execTimeTickLoRead (fn : Fin 17) (s : State) : Host.Outcome State Fault Refusal := .next (viaHostRead fn.val (tickLoRead fn.val) s)
/-- TIME_COMMIT_GO (R369). -/
def execTimeCommitGo (fn : Fin 17) (v : Word) (s : State) : Host.Outcome State Fault Refusal := 
  .next (viaHost fn.val (timeCommitBody fn.val v) s)
/-- ETHQ_TAIL (R381). -/
def execEthqTail (fn : Fin 17) (port : Fin 2) (q : Fin 8) (v : Word) (s : State) : Host.Outcome State Fault Refusal :=
  .next (viaHost fn.val (tailBody fn.val port.val q.val v) s)
/-- ETHQ_CTL_WRITE (R384, R386). -/
def execEthqCtlWrite (fn : Fin 17) (port : Fin 2) (q : Fin 8) (v : Word) (s : State) : Host.Outcome State Fault Refusal :=
  .next (viaHost fn.val (ctlBody fn.val port.val q.val v) s)
/-- PTP_MESSAGE (R378). -/
def execPtpMessage (port : Fin 2) (m : PtpMsg) (s : State) : Host.Outcome State Fault Refusal := .next (ptpMsgBody port.val m s)
/-- PTP_TX_TIMER (R377). -/
def execPtpTxTimer (port : Fin 2) (k : PtpKind) (s : State) : Host.Outcome State Fault Refusal := .next (ptpTxBody port.val k s)
/-- PTP_LOST (R377). -/
def execPtpLost (port : Fin 2) (s : State) : Host.Outcome State Fault Refusal := .next (ptpLostBody port.val s)
/-- ARP_REQUEST (R375). -/
def execArpRequest (port : Fin 2) (senderMac : BitVec 48) (senderIp targetIp : Word) (s : State) : Host.Outcome State Fault Refusal :=
  .next (arpBody port.val senderMac senderIp targetIp s)
/-- ETH_FRAME_DROP (R375). -/
def execEthFrameDrop (port : Fin 2) (badFcs : Bool) (s : State) : Host.Outcome State Fault Refusal := .next (frameDropBody port.val badFcs s)
/-- ETH_LINK_DOWN (R386). -/
def execEthLinkDown (port : Fin 2) (s : State) : Host.Outcome State Fault Refusal := .next (linkDownBody port.val s)
/-- ETH_LINK_UP (R386). A pluggable in low-power mode gives its port no signal (R464). -/
def execEthLinkUp (port : Fin 2) (s : State) : Host.Outcome State Fault Refusal :=
  .next (if cageDark (12 + port.val) s then s else linkUpBody port.val s)
/-- FRAME_LAUNCH (R382). -/
def execFrameLaunch (port : Fin 2) (q : Fin 8) (s : State) : Host.Outcome State Fault Refusal := .next (launchBody port.val q.val s)
/-- LAUNCH_LATE_DROP (R383). -/
def execLaunchLateDrop (port : Fin 2) (q : Fin 8) (s : State) : Host.Outcome State Fault Refusal := .next (lateDropBody port.val q.val s)

end Sys2Proof.Machine
end

