-- ==== Sys2Proof/Machine/Regs.lean ====
section
/-! DEFINITION. Register accesses of the host (R6 to R9, R17 to R20, R34, R389, R392, R393, R407, R415): where an offset lies, who reaches it, what a
write does by the register's type, and the reads that latch (R167). -/

namespace Sys2Proof.Machine

open Sys2Proof

/-! ### Where an offset lies -/

/-- The registers of a VF's status span (R393) below the stream views: the partition's own summary, the time copy, the inputs and their counters. -/
def viewKey (p o : Nat) : Option Nat :=
  if o < 0x14 then
    some (if o < 4 then kPART_STATUS p else if o < 8 then kPART_GEN p else if o < 0xC then kPART_CORES p else if o < 0x10 then kPART_FE p else kPART_IO p)
  else if o = 0x20 then some kTIME_STAT
  else if o = 0x24 then some kTIME_NOW_FRAC
  else if o = 0x28 then some kTIME_NOW_LO
  else if o = 0x2C then some kTIME_NOW_HI
  else if o = 0x30 then some kTIME_ERR
  else if o = 0x40 then some kFIO_DI
  else if 0x80 ≤ o ∧ o < 0xC0 then some (kDI_CNT ((o - 0x80) / 4))
  else none
/-- The key of a register of a function's BAR0: PF offsets as they are; a VF's rings, accounting, status span and expert window (R20, R392, R393,
R407, R315, R478) onto their blocks. -/
def regKey (fn off : Nat) : Option Nat :=
  if fn = 0 then (if off < 0x1000000 then some off else none)
  else if off < 0x1000 then some (ringBase fn + off)
  else if off = 0x8000 ∨ off = 0x8004 then some (ringBase fn + 0x1000 + off % 8)
  else if 0x10000 ≤ off ∧ off < 0x10200 then some (acctBase (fn - 1) + (off - 0x10000))
  else if 0x11000 ≤ off ∧ off < 0x12000 then some (strBase 0 + (off - 0x11000))
  else if 0x20000 ≤ off ∧ off < 0x21000 then viewKey (fn - 1) (off - 0x20000)
  else if 0x21000 ≤ off ∧ off < 0x25000 then some (ssBase 0 + (off - 0x21000))
  else if 0x28000 ≤ off ∧ off < 0x40000 then some (kEVT 0 0 0 + (off - 0x28000))
  else if 0x40000 ≤ off ∧ off < 0x80000 then some (coreBase 0 + (off - 0x40000))
  else if 0x80000 ≤ off ∧ off < 0xA0000 then some (feBase 0 + (off - 0x80000))
  else if 0xA0000 ≤ off ∧ off < 0xB0000 then some (laneBase 0 + (off - 0xA0000))
  else if 0xB0100 ≤ off ∧ off < 0xB0500 then some (codecBase + (off - 0xB0000))
  else if 0xC0000 ≤ off ∧ off < 0xD0000 then some (ledBase + (off - 0xC0000))
  else if 0xD0000 ≤ off ∧ off < 0xD8000 then some (ethBase 0 + (off - 0xD0000))
  else none

/-- The block of R17 that a key lies in, with the number of the unit in it. -/
inductive Blk where
  | sys | clk | time | motion | fio | arb | part | codec | sup | fault | acctMod | none
  | ring (fn : Nat)
  | acct (p : Nat)
  | str (st : Nat)
  | view (st : Nat)
  | evt (st : Nat)
  | fe (f : Nat)
  | lane (n : Nat)
  | span (n : Nat)
  | eth (p : Nat)
  | core (n : Nat)
  | clu (k : Nat)
  | hbm (h : Nat)
deriving DecidableEq, Repr
/-- Its block. -/
def blkOf (k : Nat) : Blk :=
  if 0x2800000 ≤ k then (if k < 0x2818000 then .evt ((k - 0x2800000) / 0x600) else .none)
  else if 0x2000000 ≤ k then (if k < 0x2004000 then .view ((k - 0x2000000) / 0x100) else .none)
  else if 0x1000000 ≤ k then .ring ((k - 0x1000000) / 0x10000)
  else if k < 0x010000 then .sys
  else if k < 0x020000 then .ring 0
  else if k < 0x030000 then .clk
  else if k < 0x040000 then .time
  else if k < 0x050000 then .motion
  else if k < 0x060000 then .fio
  else if k < 0x070000 then .arb
  else if k < 0x080000 then .part
  else if k < 0x0A0000 then .fe ((k - 0x080000) / 0x2000)
  else if k < 0x0C0000 then .none
  else if k < 0x0D0000 then .lane ((k - 0x0C0000) / 0x400)
  else if k < 0x0E0000 then .none
  else if k < 0x0E4000 then .span ((k - 0x0E0000) / 0x400)
  else if k < 0x0F0000 then .none
  else if k < 0x0F8000 then .eth ((k - 0x0F0000) / 0x4000)
  else if k < 0x100000 then .none
  else if k < 0x140000 then .core ((k - 0x100000) / 0x2000)
  else if k < 0x150000 then .clu ((k - 0x140000) / 0x4000)
  else if k < 0x160000 then .codec
  else if k < 0x170000 then .hbm ((k - 0x160000) / 0x1000)
  else if k < 0x180000 then .sup
  else if k < 0x182000 then .acct ((k - 0x180000) / 0x200)
  else if k < 0x184000 then .none
  else if k < 0x185000 then .str ((k - 0x184000) / 0x40)
  else if 0x186000 ≤ k ∧ k < 0x186020 then .acctMod
  else if 0x190000 ≤ k ∧ k < 0x1A0000 then .fault
  else .none

/-! ### Who reaches it -/

/-- The block's enable bit, where it has one (R415). -/
def blkOn (b : Blk) (s : State) : Bool :=
  match b with
  | .core n => rdB kCLK_EN0 n s
  | .fe f => rdB kCLK_EN1 f s
  | .clu k => rdB kCLK_EN1 (16 + k) s
  | .lane n => rdB kCLK_EN1 (20 + n / 8) s
  | .span n => rdB kCLK_EN1 (28 + n / 4) s
  | .codec => rdB kCLK_EN2 0 s
  | .eth p => rdB kCLK_EN2 (1 + p) s
  | .hbm h => decide (h < 2) && rdB kCLK_EN2 (3 + h) s
  | .time => gateEn 5 s
  | .motion => gateEn 6 s
  | .fio => gateEn 7 s
  | .sup => gateEn 8 s
  | .none => false
  | _ => true
/-- A VF's partition owns the unit at a key (R20, R34, R348, R386, R392). -/
def vfOwns (p : Nat) (b : Blk) (k : Nat) (s : State) : Bool :=
  match b with
  | .ring fn => decide (fn = p + 1)
  | .acct q => decide (q = p) && partUsed p s
  | .str st => decide (streamPart st s = some p)
  | .view st => decide (streamPart st s = some p)
  | .core n => decide (coreOwner n s = some p)
  | .fe f => decide (feOwner f s = some p)
  | .lane n => decide ((laneStream n s).bind (fun st => streamPart st s) = some p)
  | .codec => decide (codecBase + 0x100 ≤ k) && decide (cdsOwner ((k - codecBase - 0x100) / 0x40) s = some p)
  | .eth e => decide (0x1000 ≤ (k - ethBase e)) && decide ((k - ethBase e) < 0x1800) && decide (lqOwner e ((k - ethBase e - 0x1000) / 0x100) s = some p)
  | .evt st => decide (streamPart st s = some p)
  | .motion =>
    let o := k - ledBase
    if 0x600 ≤ o ∧ o < 0x680 then decide (groupOwner ((o - 0x600) / 0x10) s = some p)
    else if 0x800 ≤ o ∧ o < 0x1800 then decide (streamPart ((o - 0x800) / 0x40) s = some p)
    else if 0x2000 ≤ o ∧ o < 0x3000 then decide (streamPart ((o - 0x2000) / 0x40) s = some p)
    else decide (0x3000 + 0x40 * p ≤ o) && decide (o < 0x3000 + 0x40 * (p + 1)) && partUsed p s
  | _ => false
/-- A VF reads a register its partition does not own: its summary, the time copy and the named inputs (R393), the sources, outputs and logs that its
ENC_READ names (R348), the ETH_STAT of a port with a queue of its own (R386). -/
def vfMayRead (p : Nat) (b : Blk) (k : Nat) (s : State) : Bool :=
  match b with
  | .part => partUsed p s && [kPART_STATUS p, kPART_GEN p, kPART_CORES p, kPART_FE p, kPART_IO p].contains k
  | .time => partUsed p s && [kTIME_STAT, kTIME_NOW_FRAC, kTIME_NOW_LO, kTIME_NOW_HI, kTIME_ERR].contains k
  | .fio => decide (k = kFIO_DI) || (upTo 16).any fun i => decide (k = kDI_CNT i) && (cfg 0x10 p 8 2 s).testBit i
  | .motion =>
    let o := k - ledBase
    let emu := fun m => decide (emuMode m s ≠ 0) && encRead p (emuSrc m s) s
    if 0x100 ≤ o ∧ o < 0x200 then encRead p ((o - 0x100) / 0x40) s
    else if 0x200 ≤ o ∧ o < 0x280 then encRead p (4 + (o - 0x200) / 0x40) s
    else if 0x300 ≤ o ∧ o < 0x400 then emu ((o - 0x300) / 0x40)
    else if 0x4000 ≤ o ∧ o < 0x8000 then emu ((o - 0x4000) / 0x1000)
    else false
  | .eth e => decide (k = ethBase e) && (upTo 8).any fun q => decide (lqOwner e q s = some p)
  | _ => false
/-- A read of a function reaches the register (R9, R17, R18, R20, R34): the PF reads SYS, its rings, CLK, PWR and FAULT at any time, the rest after
the expert unlock. -/
def readReach (fn k : Nat) (s : State) : Bool :=
  let b := blkOf k
  blkOn b s && (if fn ≠ 0 then vfOwns (fn - 1) b k s || vfMayRead (fn - 1) b k s
    else expert s || decide (b = .sys) || decide (b = .ring 0) || decide (b = .clk) || decide (b = .fault))
/-- A write of a function reaches the register: the unit's clock runs; a VF owns the unit; the PF, but for SYS and its rings, holds the
expert unlock (R9, R17, R20). -/
def writeReach (fn k : Nat) (s : State) : Bool :=
  let b := blkOf k
  blkOn b s && (if fn ≠ 0 then vfOwns (fn - 1) b k s else expert s || decide (b = .sys) || decide (b = .ring 0))

/-! ### What a write does, block by block -/

/-- A ring's size: a power of two from 16 to 4,096 (R395). -/
def ringSizeOk (v : Word) : Bool := (upTo 9).any fun i => decide (fld 12 0 v = 16 * 2 ^ i)
/-- The ring registers and the doorbells (R395, R407). -/
def wrRing (fn k : Nat) (v : Word) (s : State) : State :=
  let o := k - ringBase fn
  let off := !ringEn fn s
  if o = 0x1000 then dbCmd fn v s
  else if o = 0x1004 then dbCpl fn v s
  else if o = oCMD_BASE ∨ o = oCPL_BASE then (if off then wrMask k 0xFFFFFFC0 v s else s)
  else if o = 0x004 ∨ o = 0x014 then (if off then wr k v s else s)
  else if o = oCMD_SIZE ∨ o = oCPL_SIZE then (if off && ringSizeOk v then wrMask k 0x1FFF v s else s)
  else if o = oRING_CTL then ringCtl fn v s
  else if o = oRING_EVT then wrClear k 0x7 v s
  else if o = oINT_LDP then wrMask k 0xFFFF v s
  else if oINT_SRC ≤ o ∧ o < oINT_SRC + 28 then wrMask k 0x8000003F v s
  else s
/-- TIME (R378, R385). -/
def wrTime (fn k : Nat) (v : Word) (s : State) : State :=
  if k = kTIME_CTL then wrMask k 1 v s
  else if k = kTIME_EVT then wrClear k 0x7 v s
  else if k = 0x03000C then timeCommitBody fn v s
  else if k = kTIME_RATE_ADJ ∨ k = kTIME_STEP_LO ∨ k = kTIME_STEP_HI then (if rdB kTIME_CTL 0 s && !ptpUsed s then wr k v s else s)
  else s
/-- MOTION (R332, R346, R348). -/
def wrMotion (fn k : Nat) (v : Word) (s : State) : State :=
  let o := k - ledBase
  if o = 0 then snapBody fn v s
  else if k = kLDG_EVT then wrClear k 0x3F v s
  else if 0x100 ≤ o ∧ o < 0x200 then
    (if o % 0x40 = 0xC then wrClear k 0x7 v s else if o % 0x40 = 0x24 then (preset ((o - 0x100) / 0x40) v s).2 else s)
  else if 0x200 ≤ o ∧ o < 0x280 then (if o % 0x40 = 0x20 then (preset (4 + (o - 0x200) / 0x40) v s).2 else s)
  else if 0x300 ≤ o ∧ o < 0x400 then (if o % 0x40 = 0xC then wrClear k 0x1 v s else s)
  else if 0x800 ≤ o ∧ o < 0x1800 then
    (let st := (o - 0x800) / 0x40
     let i := o % 0x40
     if i = 0x1C then (if bitOf 0 v then ldsGo st s else s)
     else if i = 0x24 then showView st (wr k v s)
     else if ldsMask i ≠ 0 then wrLds st i v s else s)
  else if 0x3000 ≤ o ∧ o < 0x3400 then
    (let i := o % 0x40
     if i = 0 then wrMask k 0xFFFFFFC0 v s else if i = 4 then wrMask k 0xFFFF v s
     else if i = 8 then (let n := fld 16 0 v; if n = 0 ∨ (64 ≤ n ∧ n ≤ 65536) then wrMask k 0x1FFFF v s else s)
     else if i = 0x10 then wr k v s else s)
  else s
/-- ARB: shadows and GO (R284 to R286). -/
def wrArb (fn k : Nat) (v : Word) (s : State) : State :=
  if k = arbBase then arbGo fn v s
  else if k = kARB_GLOBAL then wrB kARB_STAT 0 true (wrMask k 0x7F0F v s)
  else if kARB_TAG 0 ≤ k ∧ k < kARB_TAG 16 then wrB kARB_STAT 0 true (wrMask k 0xFFF10777 v s)
  else s
/-- A slot-set of a front end (R120). -/
def wrFe (fn f k : Nat) (v : Word) (s : State) : State :=
  let x := k - feBase f
  if x < 0x400 ∨ 0x1400 ≤ x then s else
    let st := 4 * f + (x - 0x400) / 0x400
    let o := k - fes st
    if o = 0x008 then wrClear k 0xFF v s
    else if o = 0x00C then fesCommit fn st v s
    else if o = 0x070 then wr k v s
    else if o = 0x07C then tblStart fn st v s
    else if fesMask o ≠ 0 then wrMask k (fesMask o) v s else s
/-- A camera lane; its port registers in the primary lane alone (R88, R89). -/
def wrLane (fn n k : Nat) (v : Word) (s : State) : State :=
  let o := k - laneBase n
  if o = 0x008 then wrClear k 0x3F v s
  else if o = 0x100 then portCtl fn n v s
  else if decide (portMask o ≠ 0) && (match laneStream n s with | some st => decide (laneFirst st s = n) | none => false) then wrMask k (portMask o) v s else s
/-- A span lane; the link registers in the link's first lane (R93). -/
def wrSpan (n k : Nat) (v : Word) (s : State) : State :=
  let o := k - spanLaneBase n
  if o = 0x008 then wrClear k 0x3F v s
  else if o = 0x104 ∧ n % 4 = 0 then wrMask k 0x3FF v s
  else if o = 0x108 ∧ n % 4 = 0 then wrMask k 0xFF v s
  else s
/-- A launch queue's registers (R386). -/
def wrLq (fn p q k : Nat) (v : Word) (s : State) : State :=
  let o := k - ethqBase p q
  let off := !lqEn p q s
  if o = 0 then ctlBody fn p q v s
  else if o = 0x24 then tailBody fn p q v s
  else if o = 8 then wr k v s
  else if o = 0xC then wrMask k 0xFFFF v s
  else if o = 0x10 then wrMask k 0x1EFFF v s
  else if o = 0x14 then (if fld 15 0 v = 0x88F7 ∨ fld 15 0 v < 0x0600 then s else wrMask k 0xFFFF v s)
  else if o = 0x18 then (if off then wrMask k 0xFFFFFFC0 v s else s)
  else if o = 0x1C then (if off then wrMask k 0xFFFF v s else s)
  else if o = 0x20 then (if off && decide (16 ≤ fld 12 0 v) && decide (fld 12 0 v ≤ 4096) then wrMask k 0x1FFF v s else s)
  else s
/-- A port of the network (R386). -/
def wrEth (fn p k : Nat) (v : Word) (s : State) : State :=
  let o := k - ethBase p
  if o = 4 then wrClear k 0x7 v s
  else if 0x1000 ≤ o ∧ o < 0x1800 then wrLq fn p ((o - 0x1000) / 0x100) k v s
  else s
/-- A core: event registers and ENG_CTL, of which a VF writes ZG_EN alone (R167, R205, R242, R266). -/
def wrCore (fn n k : Nat) (v : Word) (s : State) : State :=
  let o := k - coreBase n
  if o = 0x004 then wrClear k 0x3F v s
  else if o = 0x204 then wrClear k 0xF v s
  else if o = 0x800 then wrMask k (if fn = 0 then 0xFFFFF801 else 1) v s
  else if o = 0x808 then wrClear k 0xFF v s
  else if o = 0x904 then wrClear k 0xB v s
  else if o = 0xA04 then wrClear k 0x7 v s
  else s
/-- A write that reaches its register. -/
def wrBlk (fn k : Nat) (v : Word) (s : State) : State :=
  match blkOf k with
  | .sys => if k = kSYS_RST then sysRst fn v s else s
  | .clk => if k = kCLK_EVT then wrClear k 0xF v s else if k = kPWR_EVT then wrClear k 0x3F v s else s
  | .time => wrTime fn k v s
  | .motion => wrMotion fn k v s
  | .fio => if k = kFIO_EVT then wrClear k 0x7 v s else s
  | .arb => wrArb fn k v s
  | .codec => if codecBase + 0x100 ≤ k ∧ k < codecBase + 0x500 ∧ k % 0x40 = 0x1C then wr k v s else s
  | .sup => s
  | .part => s
  | .evt _ => s
  | .fault => if k = kFAULT_EVT then wrClear k 0x3 v s else s
  | .none => s
  | .acctMod => if k = kACCT_MOD + 0x10 then modLatch fn v s else s
  | .ring g => if g = fn then wrRing fn k v s else s
  | .acct p => if k = acctBase p then latchBody fn p v s else if k = acctBase p + 0x84 then wrClear k 0x3F v s else s
  | .str _ => s
  | .view st => if k = ssBase st + 0xC then wr k v s else s
  | .fe f => wrFe fn f k v s
  | .lane n => wrLane fn n k v s
  | .span n => wrSpan n k v s
  | .eth p => wrEth fn p k v s
  | .core n => wrCore fn n k v s
  | .clu c => if k = cluBase c + 4 then wrClear k 0x3 v s else s
  | .hbm h => if k = hbmBase h + 4 then wrClear k 0x7 v s else s
/-- A host's write: aligned words with all four byte enables alone (R389). -/
def hostWrite (fn off : Nat) (v : Word) (be : BitVec 4) (s : State) : State :=
  if be ≠ 15 ∨ off % 4 ≠ 0 then s else
    match regKey fn off with
    | some k => if writeReach fn k s then wrBlk fn k v s else s
    | none => s
/-- REGISTER_WRITE (R7). -/
def execRegisterWrite (fn : Fin 17) (off : Nat) (v : Word) (be : BitVec 4) (s : State) : Host.Outcome State Fault Refusal :=
  .next (viaHost fn.val (hostWrite fn.val off v be) s)

/-! ### Reads (R6, R7, R17, R20) -/

/-- The _LO halves of the 64-bit counters that latch their _HI half at a read (R167, R242, R268, R286). -/
def isLoCounter (k : Nat) : Bool :=
  match blkOf k with
  | .core n => [0x030, 0x104, 0x818, 0x820, 0x910, 0xA10].contains (k - coreBase n)
  | .hbm h => decide (k = hbmBase h + 0x20)
  | .arb => decide (k = arbBase + 0x108 ∨ k = arbBase + 0x128)
  | _ => false
/-- A read that returns a word and does nothing else. -/
def answer (v : Word) (s : State) : State := { s with readData := [v] }
/-- A read of such a counter: the low half, its high half latched. -/
def readCounter (k : Nat) (s : State) : State := answer ((cntGet k s).setWidth 32) (wr (k + 4) ((cntGet k s >>> 32).setWidth 32) s)
/-- A read that reaches its register: the counters, the time of day and the tick latch (R371); a VF sees the inputs of its DI_READ alone (R393). -/
def readReg (fn k : Nat) (s : State) : State :=
  if isLoCounter k then readCounter k s
  else if k = kTIME_NOW_LO then nowLoRead fn s
  else if k = kTIME_NOW_HI then answer ((Fam.get 0 fn s.time.nowLatch >>> 48).setWidth 32) s
  else if k = kTIME_NOW_FRAC then answer (((Fam.get 0 fn s.time.nowLatch).setWidth 16).setWidth 32) s
  else if k = kTIME_TICK_LO then tickLoRead fn s
  else if k = kTIME_TICK_HI then answer ((Fam.get 0 fn s.time.tickLatch >>> 32).setWidth 32) s
  else if k = kFIO_DI ∧ fn ≠ 0 then answer (rd k s &&& wd (cfg 0x10 (fn - 1) 8 2 s)) s
  else answer (rd k s) s
/-- A host's read of an offset of a function's BAR0; what it does not reach, and what is not a register, reads 0 (R6, R9, R17, R20, R34). -/
def hostRead (fn off : Nat) (s : State) : State :=
  match regKey fn off with
  | some k => if off % 4 = 0 ∧ readReach fn k s then readReg fn k s else answer 0 s
  | none => answer 0 s
/-- COUNTER_LO_READ (R167), and the read of any other register (R7), which the table has no row of its own for (notes/assumptions/1.md). -/
def execCounterLoRead (fn : Fin 17) (off : Nat) (s : State) : Host.Outcome State Fault Refusal :=
  .next (viaHostRead fn.val (hostRead fn.val off) s)

end Sys2Proof.Machine
end

