-- ==== Sys2Proof/Machine/Words.lean ====
section
/-! DEFINITION. The meanings of the dispatch words and of a core's events (10_dispatch_programs.md): each word is issued on core `n`
under the checks of R206, with its encoding of R210 for the trap record; each event ends an item or a wait of that core. -/

namespace Sys2Proof.Machine

open Sys2Proof

/-- NOP (R211): none but the next word. -/
def execNop (n : Fin 32) (s : State) : Host.Outcome State Fault Refusal :=
  .next (issue n.val (advance n.val) s)

/-- LI (R211). -/
def execLi (n : Fin 32) (rd : SReg) (imm : Word) (s : State) : Host.Outcome State Fault Refusal :=
  .next (issue n.val (fun s => advance n.val (setS n.val rd imm s)) s)

/-- ADD (R211). -/
def execAdd (n : Fin 32) (rd rs rt : SReg) (useImm : Bool) (imm : Word) (s : State) : Host.Outcome State Fault Refusal :=
  .next (issue n.val (aluBody (fun a b => a + b) n.val rd rs rt useImm imm) s)

/-- SUB (R211). -/
def execSub (n : Fin 32) (rd rs rt : SReg) (useImm : Bool) (imm : Word) (s : State) : Host.Outcome State Fault Refusal :=
  .next (issue n.val (aluBody (fun a b => a - b) n.val rd rs rt useImm imm) s)

/-- MUL keeps bits 31:0 of the product (R211). -/
def execMul (n : Fin 32) (rd rs rt : SReg) (useImm : Bool) (imm : Word) (s : State) : Host.Outcome State Fault Refusal :=
  .next (issue n.val (aluBody (fun a b => a * b) n.val rd rs rt useImm imm) s)

/-- AND (R211). -/
def execAnd (n : Fin 32) (rd rs rt : SReg) (useImm : Bool) (imm : Word) (s : State) : Host.Outcome State Fault Refusal :=
  .next (issue n.val (aluBody (fun a b => a &&& b) n.val rd rs rt useImm imm) s)

/-- OR (R211). -/
def execOr (n : Fin 32) (rd rs rt : SReg) (useImm : Bool) (imm : Word) (s : State) : Host.Outcome State Fault Refusal :=
  .next (issue n.val (aluBody (fun a b => a ||| b) n.val rd rs rt useImm imm) s)

/-- XOR (R211). -/
def execXor (n : Fin 32) (rd rs rt : SReg) (useImm : Bool) (imm : Word) (s : State) : Host.Outcome State Fault Refusal :=
  .next (issue n.val (aluBody (fun a b => a ^^^ b) n.val rd rs rt useImm imm) s)

/-- SHL by b mod 32 (R211). -/
def execShl (n : Fin 32) (rd rs rt : SReg) (useImm : Bool) (imm : Word) (s : State) : Host.Outcome State Fault Refusal :=
  .next (issue n.val (aluBody (opShl) n.val rd rs rt useImm imm) s)

/-- SHR by b mod 32, logical (R211). -/
def execShr (n : Fin 32) (rd rs rt : SReg) (useImm : Bool) (imm : Word) (s : State) : Host.Outcome State Fault Refusal :=
  .next (issue n.val (aluBody (opShr) n.val rd rs rt useImm imm) s)

/-- SRA by b mod 32, arithmetic (R211). -/
def execSra (n : Fin 32) (rd rs rt : SReg) (useImm : Bool) (imm : Word) (s : State) : Host.Outcome State Fault Refusal :=
  .next (issue n.val (aluBody (opSra) n.val rd rs rt useImm imm) s)

/-- SLT: 1 if rs < b, signed (R211). -/
def execSlt (n : Fin 32) (rd rs rt : SReg) (useImm : Bool) (imm : Word) (s : State) : Host.Outcome State Fault Refusal :=
  .next (issue n.val (aluBody (opSlt) n.val rd rs rt useImm imm) s)

/-- LD (R209, R211). -/
def execLd (n : Fin 32) (rd : SReg) (ab : AReg) (imm : BitVec 16) (s : State) : Host.Outcome State Fault Refusal :=
  .next (issue n.val (ldBody n.val rd ab imm (dword 1 12 [(49, rd.val), (35, ab.val), (0, imm.toNat)])) s)

/-- ST (R209, R211). -/
def execSt (n : Fin 32) (rs : SReg) (ab : AReg) (imm : BitVec 16) (s : State) : Host.Outcome State Fault Refusal :=
  .next (issue n.val (stBody n.val rs ab imm (dword 1 13 [(44, rs.val), (35, ab.val), (0, imm.toNat)])) s)

/-- LIA: ad = imm, zero-extended (R211). -/
def execLia (n : Fin 32) (ad : AReg) (imm : Word) (s : State) : Host.Outcome State Fault Refusal :=
  .next (issue n.val (fun s => advance n.val (setA n.val ad (imm.setWidth 48) s)) s)

/-- LIAH: bits 47:32 of ad = imm (R211). -/
def execLiah (n : Fin 32) (ad : AReg) (imm : BitVec 16) (s : State) : Host.Outcome State Fault Refusal :=
  .next (issue n.val (fun s => advance n.val (setA n.val ad (imm ++ (areg n.val ad s).extractLsb' 0 32) s)) s)

/-- ADDA: ad = as + b modulo 2^48 (R211). -/
def execAdda (n : Fin 32) (ad as_ : AReg) (rt : SReg) (useImm : Bool) (imm : BitVec 30) (s : State) : Host.Outcome State Fault Refusal :=
  .next (issue n.val (fun s => advance n.val (setA n.val ad (areg n.val as_ s + (if useImm then imm.signExtend 48 else (sreg n.val rt s).signExtend 48)) s)) s)

/-- MOVAS: rd = bits 31:0 of as (R211). -/
def execMovas (n : Fin 32) (rd : SReg) (as_ : AReg) (s : State) : Host.Outcome State Fault Refusal :=
  .next (issue n.val (fun s => advance n.val (setS n.val rd ((areg n.val as_ s).setWidth 32) s)) s)

/-- BR (R211, R212). -/
def execBr (n : Fin 32) (rs rt : SReg) (cond : Cond) (useImm : Bool) (imm off : BitVec 16) (s : State) : Host.Outcome State Fault Refusal :=
  .next (issue n.val (brBody n.val rs rt cond useImm imm off) s)

/-- LOOP (R213). -/
def execLoop (n : Fin 32) (rs : SReg) (off : BitVec 16) (s : State) : Host.Outcome State Fault Refusal :=
  .next (issue n.val (loopBody n.val rs off (dword 1 19 [(44, rs.val), (0, off.toNat)])) s)

/-- WAIT (R215). -/
def execWait (n : Fin 32) (k : Fin 16) (rs : SReg) (tmo off : BitVec 16) (s : State) : Host.Outcome State Fault Refusal :=
  .next (issue n.val (waitBody n.val k rs tmo off) s)

/-- WAIT completes (R215). -/
def execWaitComplete (n : Fin 32) (s : State) : Host.Outcome State Fault Refusal :=
  .next (waitCompleteBody n.val s)

/-- A WAIT times out (R215). -/
def execTokenWaitTimeout (n : Fin 32) (s : State) : Host.Outcome State Fault Refusal :=
  .next (tokTimeoutBody n.val s)

/-- SIGNAL (R216). -/
def execSignal (n : Fin 32) (k : Fin 16) (units : BitVec 8) (s : State) : Host.Outcome State Fault Refusal :=
  .next (issue n.val (signalBody n.val k units) s)

/-- A fence completes (R216). -/
def execSignalFire (n : Fin 32) (s : State) : Host.Outcome State Fault Refusal :=
  .next (signalFireBody n.val s)

/-- MARK (R233): the job reports its marker to the deadline monitor, which evaluates it (R300). -/
def execMark (n : Fin 32) (m : BitVec 12) (s : State) : Host.Outcome State Fault Refusal :=
  .next (issue n.val (markBody arbNs n.val m) s)

/-- YIELD (R234). -/
def execYield (n : Fin 32) (off : BitVec 16) (s : State) : Host.Outcome State Fault Refusal :=
  .next (issue n.val (yieldBody n.val off) s)

/-- A yielding core saves its state (R234); freed cores take the next jobs (R295). -/
def execYieldSave (n : Fin 32) (s : State) : Host.Outcome State Fault Refusal :=
  .next (yieldSaveBody n.val s)

/-- END (R236). -/
def execEnd (n : Fin 32) (s : State) : Host.Outcome State Fault Refusal :=
  .next (issue n.val (fun s => endBody n.val s) s)

/-- TESTF (R231). -/
def execTestf (n : Fin 32) (rd : SReg) (s : State) : Host.Outcome State Fault Refusal :=
  .next (issue n.val (testfBody n.val rd) s)

/-- COPY (R218, R222). -/
def execCopy (n : Fin 32) (queue : Fin 4) (ad : AReg) (tok : Tok) (s : State) : Host.Outcome State Fault Refusal :=
  .next (issue n.val (copyBody n.val queue ad tok (dword 2 0 [(52, queue.val), (35, ad.val), (0, tokBits tok)])) s)

/-- The transfer at the head of a DMA queue completes (R214, R220, R221). -/
def execDmaTransferComplete (n : Fin 32) (queue : Fin 4) (ecc : List EccHit) (s : State) : Host.Outcome State Fault Refusal :=
  .next (dmaCompleteBody eccCorrected n.val queue ecc s)

/-- TLOAD (R145, R223). -/
def execTload (n : Fin 32) (mode : TileMode) (wbuf : Fin 2) (ad : AReg) (off : BitVec 15) (tok : Tok) (s : State) :
    Host.Outcome State Fault Refusal :=
  .next (issue n.val (tloadBody n.val mode wbuf ad off tok
    (dword 3 0 [(52, mode.code), (51, wbuf.val), (35, ad.val), (16, off.toNat), (0, tokBits tok)])) s)

/-- A weight load completes (R145, R146). -/
def execTloadComplete (n : Fin 32) (s : State) : Host.Outcome State Fault Refusal :=
  .next (loadCompleteBody n.val s)

/-- TSTREAM (R147, R223). -/
def execTstream (n : Fin 32) (w : TStreamWord) (s : State) : Host.Outcome State Fault Refusal :=
  .next (issue n.val (tstreamBody n.val w
    (dword 3 1 [(52, w.mode.code), (51, w.wbuf.val), (50, b2n w.conv), (49, b2n w.accOp), (39, w.vLess1.toNat), (28, w.accBase.toNat),
      (24, w.ad.val), (19, w.rs.val), (15, w.ae.val), (0, tokBits w.tok)])) s)

/-- The verdict of the oldest tile operation (R158 to R162). -/
def execTileVerdict (n : Fin 32) (e : TileErr) (s : State) : Host.Outcome State Fault Refusal :=
  .next (verdictBody n.val e s)

/-- CCFG (R186, R224). -/
def execCcfg (n : Fin 32) (ad : AReg) (tok : Tok) (s : State) : Host.Outcome State Fault Refusal :=
  .next (issue n.val (ccfgBody n.val ad tok (dword 4 0 [(35, ad.val), (0, tokBits tok)])) s)

/-- A configuration comes into force (R186). -/
def execCcfgComplete (n : Fin 32) (s : State) : Host.Outcome State Fault Refusal :=
  .next (ccfgCompleteBody n.val s)

/-- CSTART (R193, R224). -/
def execCstart (n : Fin 32) (rs rt : SReg) (s : State) : Host.Outcome State Fault Refusal :=
  .next (issue n.val (cstartBody n.val rs rt) s)

/-- VPARAM (R225). -/
def execVparam (n : Fin 32) (ps : Fin 4) (ad : AReg) (tok : Tok) (s : State) : Host.Outcome State Fault Refusal :=
  .next (issue n.val (vparamBody n.val ps ad tok (dword 5 0 [(52, ps.val), (35, ad.val), (0, tokBits tok)])) s)

/-- VQ (R226). -/
def execVq (n : Fin 32) (w : VqWord) (s : State) : Host.Outcome State Fault Refusal :=
  .next (issue n.val (vqBody n.val w
    (dword 5 1 [(51, w.tgt.code), (49, w.act.val), (47, w.ps.val), (45, w.mode.code), (40, w.rs.val), (35, w.rt.val), (31, w.ad.val),
      (27, w.al.val), (0, tokBits w.tok)])) s)

/-- VRAWST (R227). -/
def execVrawst (n : Fin 32) (mode : TileMode) (rs rt : SReg) (ad : AReg) (tok : Tok) (s : State) : Host.Outcome State Fault Refusal :=
  .next (issue n.val (vrawstBody n.val mode rs rt ad tok
    (dword 5 2 [(52, mode.code), (44, rs.val), (39, rt.val), (35, ad.val), (0, tokBits tok)])) s)

/-- VRAWADD (R227). -/
def execVrawadd (n : Fin 32) (mode : TileMode) (rs rt : SReg) (as_ : AReg) (tok : Tok) (s : State) : Host.Outcome State Fault Refusal :=
  .next (issue n.val (vrawaddBody n.val mode rs rt as_ tok
    (dword 5 3 [(52, mode.code), (44, rs.val), (39, rt.val), (35, as_.val), (0, tokBits tok)])) s)

/-- VPOOL (R228). -/
def execVpool (n : Fin 32) (sum init : Bool) (rs rt : SReg) (tok : Tok) (s : State) : Host.Outcome State Fault Refusal :=
  .next (issue n.val (vpoolBody n.val sum init rs rt tok
    (dword 5 4 [(53, b2n sum), (52, b2n init), (44, rs.val), (39, rt.val), (0, tokBits tok)])) s)

/-- VCVT (R229). -/
def execVcvt (n : Fin 32) (w : VcvtWord) (s : State) : Host.Outcome State Fault Refusal :=
  .next (issue n.val (vcvtBody n.val w
    (dword 5 5 [(51, w.inF.code), (48, w.outF.code), (43, w.rs.val), (39, w.ad.val), (35, w.as_.val), (29, w.sc.toNat), (13, w.off.toNat),
      (0, tokBits w.tok)])) s)

/-- VEW (R229). -/
def execVew (n : Fin 32) (w : VewWord) (s : State) : Host.Outcome State Fault Refusal :=
  .next (issue n.val (vewBody n.val w
    (dword 5 6 [(52, w.fn.code), (51, b2n w.wide), (44, w.rs.val), (35, w.ad.val), (31, w.as_.val), (27, w.ab.val), (0, tokBits w.tok)])) s)

/-- The vector operation at the head of the queue completes (R214, R230). -/
def execVectorOpComplete (n : Fin 32) (s : State) : Host.Outcome State Fault Refusal :=
  .next (vecCompleteBody n.val s)

/-- PADV (R197, R232). -/
def execPadv (n : Fin 32) (k : Fin 8) (tag : Byte) (rs : SReg) (s : State) : Host.Outcome State Fault Refusal :=
  .next (issue n.val (padvBody n.val k tag rs) s)

/-- A progress advance is published (R197). -/
def execProgressPublish (n : Fin 32) (s : State) : Host.Outcome State Fault Refusal :=
  .next (publishBody n.val s)

/-- PWAIT (R198, R232). -/
def execPwait (n : Fin 32) (peer : BitVec 6) (k : Fin 8) (tag : Byte) (rs : SReg) (tmo off : BitVec 16) (s : State) :
    Host.Outcome State Fault Refusal :=
  .next (issue n.val (pwaitBody n.val peer k tag rs tmo off) s)

/-- A PWAIT completes (R198). -/
def execProgressWaitComplete (n : Fin 32) (s : State) : Host.Outcome State Fault Refusal :=
  .next (progCompleteBody n.val s)

/-- A PWAIT times out (R198). -/
def execProgressWaitTimeout (n : Fin 32) (s : State) : Host.Outcome State Fault Refusal :=
  .next (progTimeoutBody n.val s)

/-- POST (R235). -/
def execPost (n : Fin 32) (rs rt : SReg) (s : State) : Host.Outcome State Fault Refusal :=
  .next (issue n.val (postBody n.val rs rt (dword 7 0 [(44, rs.val), (39, rt.val)])) s)

/-- TRAP of the SYS class (R239). -/
def execSysTrap (n : Fin 32) (imm : BitVec 16) (s : State) : Host.Outcome State Fault Refusal :=
  .next (issue n.val (sysTrapBody n.val imm (dword 8 0 [(0, imm.toNat)])) s)

/-- A vector word whose codes name no combination (R226, R227) traps with VEC_FIELD. -/
def execVecField (n : Fin 32) (w : Nat) (s : State) : Host.Outcome State Fault Refusal :=
  .next (issue n.val (fun s => if 8 ≤ (coreOf n.val s).vecs.length then stall n.val s else trapCore n.val 0x0A 0 w s) s)

/-- The word that CLASS and OP of a legal word pick, with its fields (R210). DESIGN CHOICE (notes/assumptions/33.md): MODE 3 of VRAWST and
VRAWADD, to which the tables give no meaning, is treated as R226 treats it in VQ. -/
def execWord (n : Fin 32) (w : BitVec 64) (s : State) : Host.Outcome State Fault Refusal :=
  let x := w.toNat
  let r := fun lo => Fin.ofNat 32 (x >>> lo)
  let a := fun lo => Fin.ofNat 16 (x >>> lo)
  let i16 := fun lo => w.extractLsb' lo 16
  let imm := w.extractLsb' 0 32
  let tok : Tok := if w.getLsbD 4 then some (a 0) else none
  let alu := fun (f : Fin 32 → SReg → SReg → SReg → Bool → Word → State → Host.Outcome State Fault Refusal) =>
    f n (r 49) (r 44) (r 39) (w.getLsbD 38) imm s
  match wf 63 59 x, wf 58 54 x with
  | 1, 0 => execNop n s
  | 1, 1 => execLi n (r 49) imm s
  | 1, 2 => alu execAdd
  | 1, 3 => alu execSub
  | 1, 4 => alu execMul
  | 1, 5 => alu execAnd
  | 1, 6 => alu execOr
  | 1, 7 => alu execXor
  | 1, 8 => alu execShl
  | 1, 9 => alu execShr
  | 1, 10 => alu execSra
  | 1, 11 => alu execSlt
  | 1, 12 => execLd n (r 49) (a 35) (i16 0) s
  | 1, 13 => execSt n (r 44) (a 35) (i16 0) s
  | 1, 14 => execLia n (a 35) imm s
  | 1, 15 => execLiah n (a 35) (i16 0) s
  | 1, 16 => execAdda n (a 35) (a 31) (r 39) (w.getLsbD 30) (w.extractLsb' 0 30) s
  | 1, 17 => execMovas n (r 49) (a 31) s
  | 1, 18 => execBr n (r 44) (r 39) (condOf (wf 38 36 x)) (w.getLsbD 35) (i16 16) (i16 0) s
  | 1, 19 => execLoop n (r 44) (i16 0) s
  | 1, 21 => execWait n (a 50) (r 44) (i16 16) (i16 0) s
  | 1, 22 => execSignal n (a 50) (w.extractLsb' 39 8) s
  | 1, 23 => execMark n (w.extractLsb' 0 12) s
  | 1, 24 => execYield n (i16 0) s
  | 1, 25 => execEnd n s
  | 1, 26 => execTestf n (r 49) s
  | 2, 0 => execCopy n (Fin.ofNat 4 (x >>> 52)) (a 35) tok s
  | 3, 0 => execTload n (modeOf (wf 53 52 x)) (Fin.ofNat 2 (x >>> 51)) (a 35) (w.extractLsb' 16 15) tok s
  | 3, 1 => execTstream n {
      mode := modeOf (wf 53 52 x), wbuf := Fin.ofNat 2 (x >>> 51), conv := w.getLsbD 50, accOp := w.getLsbD 49, vLess1 := w.extractLsb' 39 10,
      accBase := w.extractLsb' 28 10, ad := a 24, rs := r 19, ae := a 15, tok := tok } s
  | 4, 0 => execCcfg n (a 35) tok s
  | 4, 1 => execCstart n (r 44) (r 39) s
  | 5, 0 => execVparam n (Fin.ofNat 4 (x >>> 52)) (a 35) tok s
  | 5, 1 =>
    if 3 < wf 53 51 x ∨ wf 46 45 x = 3 then execVecField n x s else execVq n {
      tgt := tgtOf (wf 53 51 x), act := Fin.ofNat 4 (x >>> 49), ps := Fin.ofNat 4 (x >>> 47), mode := modeOf (wf 46 45 x), rs := r 40, rt := r 35,
      ad := a 31, al := a 27, tok := tok } s
  | 5, 2 => if wf 53 52 x = 3 then execVecField n x s else execVrawst n (modeOf (wf 53 52 x)) (r 44) (r 39) (a 35) tok s
  | 5, 3 => if wf 53 52 x = 3 then execVecField n x s else execVrawadd n (modeOf (wf 53 52 x)) (r 44) (r 39) (a 35) tok s
  | 5, 4 => execVpool n (w.getLsbD 53) (w.getLsbD 52) (r 44) (r 39) tok s
  | 5, 5 => execVcvt n {
      inF := fmtOfCode (wf 53 51 x), outF := fmtOfCode (wf 50 48 x), rs := r 43, ad := a 39, as_ := a 35, sc := w.extractLsb' 29 6,
      off := w.extractLsb' 13 16, tok := tok } s
  | 5, 6 => execVew n { fn := vewFnOf (wf 53 52 x), wide := w.getLsbD 51, rs := r 44, ad := a 35, as_ := a 31, ab := a 27, tok := tok } s
  | 6, 0 => execPadv n (Fin.ofNat 8 (x >>> 51)) (w.extractLsb' 43 8) (r 38) s
  | 6, 1 => execPwait n (w.extractLsb' 48 6) (Fin.ofNat 8 (x >>> 45)) (w.extractLsb' 37 8) (r 32) (i16 16) (i16 0) s
  | 7, 0 => execPost n (r 44) (r 39) s
  | 8, 0 => execSysTrap n (i16 0) s
  | _, _ => .next s

/-- A 64-bit word that the sequencer issues: one that is illegal under R210 traps with ILLEGAL (R239, R240), a legal one is the word that its
CLASS and OP pick. -/
def execIllegalWord (n : Fin 32) (w : BitVec 64) (s : State) : Host.Outcome State Fault Refusal :=
  if wordLegal w.toNat then execWord n w s else .next (issue n.val (trapCore n.val 0x01 0 w.toNat) s)

/-- The grace of a flush ends (R237). -/
def execFlushGraceExpiry (n : Fin 32) (s : State) : Host.Outcome State Fault Refusal :=
  .next (graceBody n.val s)

end Sys2Proof.Machine
end

