-- ==== Sys2Proof/Machine/Dispatch.lean ====
section
/-! DEFINITION. One arm for each command: its meaning. -/

namespace Sys2Proof.Machine

open Sys2Proof

/-- The effect of a command on everything but the queue. -/
def exec (i : Instr) (s : State) : Host.Outcome State Fault Refusal :=
  match i with
  | .powerOn => Sys2Proof.Machine.execPowerOn s
  | .modResetN widthNs => Sys2Proof.Machine.execModResetN widthNs s
  | .brownout => Sys2Proof.Machine.execBrownout s
  | .oscStable refclk => Sys2Proof.Machine.execOscStable refclk s
  | .bootFwVerified => Sys2Proof.Machine.execBootFwVerified s
  | .fwPendingTimeout => Sys2Proof.Machine.execFwPendingTimeout s
  | .dawnSequence => Sys2Proof.Machine.execDawnSequence s
  | .midnightWipe domain => Sys2Proof.Machine.execMidnightWipe domain s
  | .ready => Sys2Proof.Machine.execReady s
  | .stewardWatchdog => Sys2Proof.Machine.execStewardWatchdog s
  | .stewardServiceStep => Sys2Proof.Machine.execStewardServiceStep s
  | .expertUnlockTimeout => Sys2Proof.Machine.execExpertUnlockTimeout s
  | .perst => Sys2Proof.Machine.execPerst s
  | .functionLevelReset fn => Sys2Proof.Machine.execFunctionLevelReset fn s
  | .busMasterDisable fn => Sys2Proof.Machine.execBusMasterDisable fn s
  | .svcDbCmd fn v => Sys2Proof.Machine.execSvcDbCmd fn v s
  | .svcDbCpl fn v => Sys2Proof.Machine.execSvcDbCpl fn v s
  | .svcRingCtlEn fn v => Sys2Proof.Machine.execSvcRingCtlEn fn v s
  | .svcRingCtlFlush fn v => Sys2Proof.Machine.execSvcRingCtlFlush fn v s
  | .ringFlushGraceExpiry fn => Sys2Proof.Machine.execRingFlushGraceExpiry fn s
  | .cplCoalesceTimeout fn => Sys2Proof.Machine.execCplCoalesceTimeout fn s
  | .svcNop fn d h => Sys2Proof.Machine.execSvcNop fn d h s
  | .svcGetNonce fn d h => Sys2Proof.Machine.execSvcGetNonce fn d h s
  | .svcCopyIn fn d h => Sys2Proof.Machine.execSvcCopyIn fn d h s
  | .svcCopyOut fn d h => Sys2Proof.Machine.execSvcCopyOut fn d h s
  | .svcExpertUnlock fn d h => Sys2Proof.Machine.execSvcExpertUnlock fn d h s
  | .svcExpertLock fn d h => Sys2Proof.Machine.execSvcExpertLock fn d h s
  | .svcKeyInstall fn d h => Sys2Proof.Machine.execSvcKeyInstall fn d h s
  | .svcKeyRevoke fn d h => Sys2Proof.Machine.execSvcKeyRevoke fn d h s
  | .svcFwUpdate fn d h => Sys2Proof.Machine.execSvcFwUpdate fn d h s
  | .svcFuseBurn fn d h => Sys2Proof.Machine.execSvcFuseBurn fn d h s
  | .svcAuditRead fn d h => Sys2Proof.Machine.execSvcAuditRead fn d h s
  | .svcAuditExport fn d h => Sys2Proof.Machine.execSvcAuditExport fn d h s
  | .svcAuditSeal fn d h => Sys2Proof.Machine.execSvcAuditSeal fn d h s
  | .svcImageLoad fn d h => Sys2Proof.Machine.execSvcImageLoad fn d h s
  | .svcImageCommit fn d h => Sys2Proof.Machine.execSvcImageCommit fn d h s
  | .svcImageDiscard fn d h => Sys2Proof.Machine.execSvcImageDiscard fn d h s
  | .svcImageRead fn d h => Sys2Proof.Machine.execSvcImageRead fn d h s
  | .svcStartStream fn d h => Sys2Proof.Machine.execSvcStartStream fn d h s
  | .svcStopStream fn d h => Sys2Proof.Machine.execSvcStopStream fn d h s
  | .svcRecipeSelect fn d h => Sys2Proof.Machine.execSvcRecipeSelect fn d h s
  | .svcCamCtrl fn d h => Sys2Proof.Machine.execSvcCamCtrl fn d h s
  | .svcLaneQuarantine fn d h => Sys2Proof.Machine.execSvcLaneQuarantine fn d h s
  | .svcLaneRelease fn d h => Sys2Proof.Machine.execSvcLaneRelease fn d h s
  | .svcLoadModel fn d h => Sys2Proof.Machine.execSvcLoadModel fn d h s
  | .svcUnloadModel fn d h => Sys2Proof.Machine.execSvcUnloadModel fn d h s
  | .svcBindStream fn d h => Sys2Proof.Machine.execSvcBindStream fn d h s
  | .svcSchedArea fn d h => Sys2Proof.Machine.execSvcSchedArea fn d h s
  | .svcCoreRelease fn d h => Sys2Proof.Machine.execSvcCoreRelease fn d h s
  | .svcMorningCheck fn d h => Sys2Proof.Machine.execSvcMorningCheck fn d h s
  | .morningCheck rs => Sys2Proof.Machine.execMorningCheck rs s
  | .svcRecStart fn d h => Sys2Proof.Machine.execSvcRecStart fn d h s
  | .svcRecStop fn d h => Sys2Proof.Machine.execSvcRecStop fn d h s
  | .svcReplayStart fn d h => Sys2Proof.Machine.execSvcReplayStart fn d h s
  | .svcReplayStop fn d h => Sys2Proof.Machine.execSvcReplayStop fn d h s
  | .svcCalRun fn d h => Sys2Proof.Machine.execSvcCalRun fn d h s
  | .calRunDone => Sys2Proof.Machine.execCalRunDone s
  | .svcLedgerCfg fn d h => Sys2Proof.Machine.execSvcLedgerCfg fn d h s
  | .svcLedgerLog fn d h => Sys2Proof.Machine.execSvcLedgerLog fn d h s
  | .svcEncMirror fn d h => Sys2Proof.Machine.execSvcEncMirror fn d h s
  | .svcEncPreset fn d h => Sys2Proof.Machine.execSvcEncPreset fn d h s
  | .svcEncCompare fn d h => Sys2Proof.Machine.execSvcEncCompare fn d h s
  | .svcEncCompareRead fn d h => Sys2Proof.Machine.execSvcEncCompareRead fn d h s
  | .svcNightfallEnter fn d h => Sys2Proof.Machine.execSvcNightfallEnter fn d h s
  | .svcNightfallClear fn d h => Sys2Proof.Machine.execSvcNightfallClear fn d h s
  | .svcDoTest fn d h => Sys2Proof.Machine.execSvcDoTest fn d h s
  | .svcMbxRead fn d h => Sys2Proof.Machine.execSvcMbxRead fn d h s
  | .svcMbxWrite fn d h => Sys2Proof.Machine.execSvcMbxWrite fn d h s
  | .svcFaultAck fn d h => Sys2Proof.Machine.execSvcFaultAck fn d h s
  | .registerWrite fn off v be => Sys2Proof.Machine.execRegisterWrite fn off v be s
  | .counterLoRead fn off => Sys2Proof.Machine.execCounterLoRead fn off s
  | .timeNowLoRead fn => Sys2Proof.Machine.execTimeNowLoRead fn s
  | .timeTickLoRead fn => Sys2Proof.Machine.execTimeTickLoRead fn s
  | .timeCommitGo fn v => Sys2Proof.Machine.execTimeCommitGo fn v s
  | .arbCommitGo fn v => Sys2Proof.Machine.execArbCommitGo fn v s
  | .fesCommitGo fn st v => Sys2Proof.Machine.execFesCommitGo fn st v s
  | .fesCommitTbl fn st v => Sys2Proof.Machine.execFesCommitTbl fn st v s
  | .fesTblCtlStart fn st v => Sys2Proof.Machine.execFesTblCtlStart fn st v s
  | .tableLoadDone st => Sys2Proof.Machine.execTableLoadDone st s
  | .ldsCommitGo fn st v => Sys2Proof.Machine.execLdsCommitGo fn st v s
  | .acctLatchGo fn p v => Sys2Proof.Machine.execAcctLatchGo fn p v s
  | .acctModLatch fn v => Sys2Proof.Machine.execAcctModLatch fn v s
  | .motSnapGo fn v => Sys2Proof.Machine.execMotSnapGo fn v s
  | .encPreset fn src v => Sys2Proof.Machine.execEncPreset fn src v s
  | .ssiPreset fn j v => Sys2Proof.Machine.execSsiPreset fn j v s
  | .chkPortCtlQuar fn lane v => Sys2Proof.Machine.execChkPortCtlQuar fn lane v s
  | .chkPortCtlRelease fn lane v => Sys2Proof.Machine.execChkPortCtlRelease fn lane v s
  | .fioHb bySteward => Sys2Proof.Machine.execFioHb bySteward s
  | .sysRstModule fn v => Sys2Proof.Machine.execSysRstModule fn v s
  | .ethqTail fn port q v => Sys2Proof.Machine.execEthqTail fn port q v s
  | .ethqCtlWrite fn port q v => Sys2Proof.Machine.execEthqCtlWrite fn port q v s
  | .qspiRead addr words coll => Sys2Proof.Machine.execQspiRead addr words coll s
  | .qspiQuadRead addr words coll => Sys2Proof.Machine.execQspiQuadRead addr words coll s
  | .qspiWrite addr data coll => Sys2Proof.Machine.execQspiWrite addr data coll s
  | .qspiQuadWrite addr data coll => Sys2Proof.Machine.execQspiQuadWrite addr data coll s
  | .qspiReadStatus => Sys2Proof.Machine.execQspiReadStatus s
  | .supCtlNightReq v => Sys2Proof.Machine.execSupCtlNightReq v s
  | .supCtlClear v => Sys2Proof.Machine.execSupCtlClear v s
  | .mbxStatusUpdate => Sys2Proof.Machine.execMbxStatusUpdate s
  | .nop n => Sys2Proof.Machine.execNop n s
  | .li n rd imm => Sys2Proof.Machine.execLi n rd imm s
  | .add n rd rs rt useImm imm => Sys2Proof.Machine.execAdd n rd rs rt useImm imm s
  | .sub n rd rs rt useImm imm => Sys2Proof.Machine.execSub n rd rs rt useImm imm s
  | .mul n rd rs rt useImm imm => Sys2Proof.Machine.execMul n rd rs rt useImm imm s
  | .and n rd rs rt useImm imm => Sys2Proof.Machine.execAnd n rd rs rt useImm imm s
  | .or n rd rs rt useImm imm => Sys2Proof.Machine.execOr n rd rs rt useImm imm s
  | .xor n rd rs rt useImm imm => Sys2Proof.Machine.execXor n rd rs rt useImm imm s
  | .shl n rd rs rt useImm imm => Sys2Proof.Machine.execShl n rd rs rt useImm imm s
  | .shr n rd rs rt useImm imm => Sys2Proof.Machine.execShr n rd rs rt useImm imm s
  | .sra n rd rs rt useImm imm => Sys2Proof.Machine.execSra n rd rs rt useImm imm s
  | .slt n rd rs rt useImm imm => Sys2Proof.Machine.execSlt n rd rs rt useImm imm s
  | .ld n rd ab imm => Sys2Proof.Machine.execLd n rd ab imm s
  | .st n rs ab imm => Sys2Proof.Machine.execSt n rs ab imm s
  | .lia n ad imm => Sys2Proof.Machine.execLia n ad imm s
  | .liah n ad imm => Sys2Proof.Machine.execLiah n ad imm s
  | .adda n ad as_ rt useImm imm => Sys2Proof.Machine.execAdda n ad as_ rt useImm imm s
  | .movas n rd as_ => Sys2Proof.Machine.execMovas n rd as_ s
  | .br n rs rt cond useImm imm off => Sys2Proof.Machine.execBr n rs rt cond useImm imm off s
  | .loop n rs off => Sys2Proof.Machine.execLoop n rs off s
  | .wait n k rs tmo off => Sys2Proof.Machine.execWait n k rs tmo off s
  | .waitComplete n => Sys2Proof.Machine.execWaitComplete n s
  | .tokenWaitTimeout n => Sys2Proof.Machine.execTokenWaitTimeout n s
  | .signal n k units => Sys2Proof.Machine.execSignal n k units s
  | .signalFire n => Sys2Proof.Machine.execSignalFire n s
  | .mark n m => Sys2Proof.Machine.execMark n m s
  | .yield_ n off => Sys2Proof.Machine.execYield n off s
  | .yieldSave n => Sys2Proof.Machine.execYieldSave n s
  | .end_ n => Sys2Proof.Machine.execEnd n s
  | .testf n rd => Sys2Proof.Machine.execTestf n rd s
  | .copy n queue ad tok => Sys2Proof.Machine.execCopy n queue ad tok s
  | .dmaTransferComplete n queue ecc => Sys2Proof.Machine.execDmaTransferComplete n queue ecc s
  | .tload n mode wbuf ad off tok => Sys2Proof.Machine.execTload n mode wbuf ad off tok s
  | .tloadComplete n => Sys2Proof.Machine.execTloadComplete n s
  | .tstream n w => Sys2Proof.Machine.execTstream n w s
  | .tileVerdict n e => Sys2Proof.Machine.execTileVerdict n e s
  | .replan p => Sys2Proof.Machine.execReplan p s
  | .ccfg n ad tok => Sys2Proof.Machine.execCcfg n ad tok s
  | .ccfgComplete n => Sys2Proof.Machine.execCcfgComplete n s
  | .cstart n rs rt => Sys2Proof.Machine.execCstart n rs rt s
  | .vparam n ps ad tok => Sys2Proof.Machine.execVparam n ps ad tok s
  | .vq n w => Sys2Proof.Machine.execVq n w s
  | .vrawst n mode rs rt ad tok => Sys2Proof.Machine.execVrawst n mode rs rt ad tok s
  | .vrawadd n mode rs rt as_ tok => Sys2Proof.Machine.execVrawadd n mode rs rt as_ tok s
  | .vpool n sum init rs rt tok => Sys2Proof.Machine.execVpool n sum init rs rt tok s
  | .vcvt n w => Sys2Proof.Machine.execVcvt n w s
  | .vew n w => Sys2Proof.Machine.execVew n w s
  | .vectorOpComplete n => Sys2Proof.Machine.execVectorOpComplete n s
  | .padv n k tag rs => Sys2Proof.Machine.execPadv n k tag rs s
  | .progressPublish n => Sys2Proof.Machine.execProgressPublish n s
  | .pwait n peer k tag rs tmo off => Sys2Proof.Machine.execPwait n peer k tag rs tmo off s
  | .progressWaitComplete n => Sys2Proof.Machine.execProgressWaitComplete n s
  | .progressWaitTimeout n => Sys2Proof.Machine.execProgressWaitTimeout n s
  | .post n rs rt => Sys2Proof.Machine.execPost n rs rt s
  | .postHandover n => Sys2Proof.Machine.execPostHandover n s
  | .sysTrap n imm => Sys2Proof.Machine.execSysTrap n imm s
  | .flushGraceExpiry n => Sys2Proof.Machine.execFlushGraceExpiry n s
  | .scrubPass w e => Sys2Proof.Machine.execScrubPass w e s
  | .burstRequest pt b => Sys2Proof.Machine.execBurstRequest pt b s
  | .burstGrant pt => Sys2Proof.Machine.execBurstGrant pt s
  | .fixedSlotStart pt => Sys2Proof.Machine.execFixedSlotStart pt s
  | .bankSlot cl bank coreReq dmaReq => Sys2Proof.Machine.execBankSlot cl bank coreReq dmaReq s
  | .losEnter lane => Sys2Proof.Machine.execLosEnter lane s
  | .losExit lane => Sys2Proof.Machine.execLosExit lane s
  | .blockLock lane => Sys2Proof.Machine.execBlockLock lane s
  | .lockLost lane badHdr => Sys2Proof.Machine.execLockLost lane badHdr s
  | .hiBerEnter lane badHdr => Sys2Proof.Machine.execHiBerEnter lane badHdr s
  | .hiBerWindowEnd lane badHdr => Sys2Proof.Machine.execHiBerWindowEnd lane badHdr s
  | .alignmentMarker bond ms => Sys2Proof.Machine.execAlignmentMarker bond ms s
  | .lineSeg st x => Sys2Proof.Machine.execLineSeg st x s
  | .ctrlAck st x => Sys2Proof.Machine.execCtrlAck st x s
  | .event st x => Sys2Proof.Machine.execEvent st x s
  | .hello st x => Sys2Proof.Machine.execHello st x s
  | .helloTimer bond => Sys2Proof.Machine.execHelloTimer bond s
  | .ctrlRetryTimeout st => Sys2Proof.Machine.execCtrlRetryTimeout st s
  | .quarWindowEnd st => Sys2Proof.Machine.execQuarWindowEnd st s
  | .eventRateWindowEnd st => Sys2Proof.Machine.execEventRateWindowEnd st s
  | .quarHoldExpiry st => Sys2Proof.Machine.execQuarHoldExpiry st s
  | .sofMark st count => Sys2Proof.Machine.execSofMark st count s
  | .spanData link x => Sys2Proof.Machine.execSpanData link x s
  | .spanAck link x => Sys2Proof.Machine.execSpanAck link x s
  | .spanHello link x => Sys2Proof.Machine.execSpanHello link x s
  | .spanAckTimer link => Sys2Proof.Machine.execSpanAckTimer link s
  | .spanRto link => Sys2Proof.Machine.execSpanRto link s
  | .spanRequestLine p => Sys2Proof.Machine.execSpanRequestLine p s
  | .barrier p => Sys2Proof.Machine.execBarrier p s
  | .broadcast p => Sys2Proof.Machine.execBroadcast p s
  | .snapshot p => Sys2Proof.Machine.execSnapshot p s
  | .reset p => Sys2Proof.Machine.execReset p s
  | .gopFrame link x => Sys2Proof.Machine.execGopFrame link x s
  | .snapshotCapture p => Sys2Proof.Machine.execSnapshotCapture p s
  | .spanGopTimeout p => Sys2Proof.Machine.execSpanGopTimeout p s
  | .spanTransferDoorbell p => Sys2Proof.Machine.execSpanTransferDoorbell p s
  | .spanTransferComplete p refused => Sys2Proof.Machine.execSpanTransferComplete p refused s
  | .encCount src fwd => Sys2Proof.Machine.execEncCount src fwd s
  | .encZEdge src => Sys2Proof.Machine.execEncZEdge src s
  | .passthroughEdge m pins => Sys2Proof.Machine.execPassthroughEdge m pins s
  | .emuEdge m => Sys2Proof.Machine.execEmuEdge m s
  | .speedWindowEnd src => Sys2Proof.Machine.execSpeedWindowEnd src s
  | .ssiFrame j => Sys2Proof.Machine.execSsiFrame j s
  | .ssiFrameEnd j raw => Sys2Proof.Machine.execSsiFrameEnd j raw s
  | .compareWindowEnd c => Sys2Proof.Machine.execCompareWindowEnd c s
  | .mirrorRecord p => Sys2Proof.Machine.execMirrorRecord p s
  | .pullinEnd d => Sys2Proof.Machine.execPullinEnd d s
  | .pulseEnd d => Sys2Proof.Machine.execPulseEnd d s
  | .triggerSlotMissing st => Sys2Proof.Machine.execTriggerSlotMissing st s
  | .frameStart st => Sys2Proof.Machine.execFrameStart st s
  | .outputLineWrite st n => Sys2Proof.Machine.execOutputLineWrite st n s
  | .objectWindowIssue st => Sys2Proof.Machine.execObjectWindowIssue st s
  | .statRecordWrite st => Sys2Proof.Machine.execStatRecordWrite st s
  | .replayLineFeed slot => Sys2Proof.Machine.execReplayLineFeed slot s
  | .jobStart p => Sys2Proof.Machine.execJobStart p s
  | .monitorEval p job => Sys2Proof.Machine.execMonitorEval p job s
  | .duskExit st => Sys2Proof.Machine.execDuskExit st s
  | .modelSetSwitch p => Sys2Proof.Machine.execModelSetSwitch p s
  | .diSense smp => Sys2Proof.Machine.execDiSense smp s
  | .fioShort g => Sys2Proof.Machine.execFioShort g s
  | .fioOvertemp g => Sys2Proof.Machine.execFioOvertemp g s
  | .fioUndervoltage => Sys2Proof.Machine.execFioUndervoltage s
  | .nfHeartbeatTimeout => Sys2Proof.Machine.execNfHeartbeatTimeout s
  | .ptpMessage port m => Sys2Proof.Machine.execPtpMessage port m s
  | .ptpTxTimer port k => Sys2Proof.Machine.execPtpTxTimer port k s
  | .ptpLost port => Sys2Proof.Machine.execPtpLost port s
  | .arpRequest port senderMac senderIp targetIp => Sys2Proof.Machine.execArpRequest port senderMac senderIp targetIp s
  | .ethFrameDrop port badFcs => Sys2Proof.Machine.execEthFrameDrop port badFcs s
  | .ethLinkDown port => Sys2Proof.Machine.execEthLinkDown port s
  | .frameLaunch port q => Sys2Proof.Machine.execFrameLaunch port q s
  | .launchLateDrop port q => Sys2Proof.Machine.execLaunchLateDrop port q s
  | .refclkGlitch => Sys2Proof.Machine.execRefclkGlitch s
  | .refclkWindow ppm10 => Sys2Proof.Machine.execRefclkWindow ppm10 s
  | .refclkLoss => Sys2Proof.Machine.execRefclkLoss s
  | .governorSample g => Sys2Proof.Machine.execGovernorSample g s
  | .paceSample live clu => Sys2Proof.Machine.execPaceSample live clu s
  | .thermTrip => Sys2Proof.Machine.execThermTrip s
  | .unknownFrame st x => Sys2Proof.Machine.execUnknownFrame st x s
  | .illegalWord n w => Sys2Proof.Machine.execIllegalWord n w s
  | .fieldSupplyReturn => Sys2Proof.Machine.execFieldSupplyReturn s
  | .modResetNRelease => Sys2Proof.Machine.execModResetNRelease s
  | .pcieLinkUp => Sys2Proof.Machine.execPcieLinkUp s
  | .vfEnable on => Sys2Proof.Machine.execVfEnable on s
  | .busMasterEnable fn => Sys2Proof.Machine.execBusMasterEnable fn s
  | .ethLinkUp port => Sys2Proof.Machine.execEthLinkUp port s
  | .completionTimeout fn => Sys2Proof.Machine.execCompletionTimeout fn s
  | .pluggableInsertion cage classDw => Sys2Proof.Machine.execPluggableInsertion cage classDw s
  | .energyInterval uj => Sys2Proof.Machine.execEnergyInterval uj s

end Sys2Proof.Machine
end

