-- ==== Sys2Proof/Machine/Tick.lean ====
section
/-! DEFINITION. What one tick of the time base does when no command waits (R367, R370, R373, R385): the alignment
markers that fall due on the lanes (R70), the loads over the last 1 ms (R95, R141), the clear path's turn (R439), frames that waited at an
Ethernet port (R382), the trim source in holdover (R410). -/

namespace Sys2Proof.Machine

open Sys2Proof

/-- The alignment markers that fall due at tick `c` leave on every lane of a stream's bond and of a used span link, where the lanes are
clocked (R70, R72, R90). -/
def sendMarkers (c : Nat) (s : State) : State :=
  if (markerAt 0 c).isNone && (markerAt 1 c).isNone then s else
    let set := fun (w n : Nat) => (upTo w).map fun i => [markerBlock i w n]
    let cam := fun (st : Nat) (s : State) => match markerAt (cfg 0x20 st 3 1 s) c with
      | some n => if streamUsed st s && rdB kCLK_EN1 (20 + laneFirst st s / 8) s then emit (.cam st (set (bondWidth st s) n)) s else s
      | none => s
    let link := fun (m : Nat) (s : State) => match markerAt 1 c with
      | some n => if linkUsed m s && rdB kCLK_EN1 (28 + m) s then emit (.span m (set 4 n)) s else s
      | none => s
    eachDo link (upTo 4) (eachDo cam (upTo 64) s)

/-- Sub-bank grants are timing and left out (notes/assumptions/39.md); the beats that requests of a core waited for them in one tick (R249) are
a free number. A tick has at most 3 beats, in each of which at most 3 classes wait at each of 8 weight sub-banks and 4 at each of 8
activation sub-banks. -/
def conflictTick (n : Nat) (s : State) : State :=
  if (itemsOf 0x7F (coreOf n s)).isEmpty then s
  else inc (coreBase n + 0x218) ((Config.freeWord s.fresh).toNat % 169) (draw 1 s)

/-- What a tick changes at the Ethernet ports: a frame that waited for the wire leaves (R382), a queue's head waits no longer (R386). -/
def netTick (s : State) : State :=
  let show1 := fun (i : Nat) (s : State) => if (lq (i / 8) (i % 8) s).ents.isEmpty then s else showLq (i / 8) (i % 8) s
  eachDo show1 (upTo 16) (eachDo netFlush (upTo 2) s)

/-- The tick counter advances by one while the time base runs (R367); in HOLDOVER and TWILIGHT the estimated error grows with it (R373). -/
def tickOnce (s : State) : State :=
  if s.time.running then
    let s := { s with time := { s.time with c := s.time.c + 1 } }
    let s := eachDo (fun n s => conflictTick n (stallTick n s)) (upTo 32) (showTrim (showCal (netTick (ageLoads (clearTick (sendMarkers (tick s).toNat s))))))
    if qual s = 3 ∨ qual s = 4 then showErr s else s
  else s

end Sys2Proof.Machine
end

