-- ==== Sys2Proof/Safety.lean ====
section
/-! DEFINITION. The terms the statements use: when a command has its own effect, what it leaves unchanged, and what every step keeps. -/

namespace Sys2Proof.Machine

open Sys2Proof

/-! ### What every step keeps -/

/-- A byte of device memory. -/
def devByte (a : Nat) (s : State) : Byte := Memory.get a s.mem
/-- A byte of host memory. -/
def hostByte (a : Nat) (s : State) : Byte := Memory.get a s.host
/-- Both memories are in their canonical form. -/
def memoriesCanonical (s : State) : Prop := Memory.wf s.mem = true ∧ Memory.wf s.host = true

/-! ### Dispatch words -/

/-- The word at the head of issue of core `n` runs (R206): a job issues, the PC lies in a region with the fetch right, the word is not
poisoned. -/
structure WordRuns (n : Nat) (s : State) : Prop where
  issues : issuing n s = true
  fetched : fetchOk n s = true
  sound : poisonedIn (coreOf n s).pc.toNat 8 s = false

/-- A word of core `n` leaves everything as it was but the core's sequencer registers, its PC, its event counts and the registers `ks`:
the other cores, device memory, the other registers. -/
structure WordFrame (n : Nat) (ks : List Nat) (s t : State) : Prop where
  rest : t = { s with regs := t.regs, cnt := t.cnt, cores := t.cores, mem := t.mem, poison := t.poison }
  registers : ∀ k, k ∉ [coreBase n, coreBase n + 8, coreBase n + 0xC] ++ ks → rd k t = rd k s
  status : ∀ i, i < 32 → i ≠ 2 → ¬ (16 ≤ i ∧ i ≤ 18) → coreBase n ∉ ks → rdB (coreBase n) i t = rdB (coreBase n) i s
  counters : ∀ k, k ≠ coreBase n + 0x30 → cntGet k t = cntGet k s
  otherCores : ∀ m, m ≠ n → coreOf m t = coreOf m s
  job : (coreOf n t).job = (coreOf n s).job ∧ (coreOf n t).part = (coreOf n s).part

/-- Sequencing goes on at the next word (R206, R213), and the word is counted (R242). -/
structure WordGoesOn (n : Nat) (s t : State) : Prop where
  pc : ((coreOf n t).pc, (coreOf n t).loops) = nextPc (coreOf n s).pc (coreOf n s).loops
  shown : rd (coreBase n + 8) t = wd (coreOf n t).pc.toNat ∧ rd (coreBase n + 0xC) t = wd ((coreOf n t).pc.toNat / 2 ^ 32)
  counted : cntGet (coreBase n + 0x30) t = cntGet (coreBase n + 0x30) s + 1

/-- Device memory keeps every byte. -/
def MemorySame (s t : State) : Prop := (∀ a, devByte a t = devByte a s) ∧ t.poison = s.poison
/-- Device memory keeps every byte outside `len` bytes from `a`. -/
def MemorySameBut (a len : Nat) (s t : State) : Prop := ∀ b, (b < a ∨ a + len ≤ b) → devByte b t = devByte b s
/-- The sequencer's scalar registers of core `n` keep their values but for `r`, which holds `v` unless it is s0. -/
def ScalarGets (n : Nat) (r : SReg) (v : Word) (s t : State) : Prop :=
  ∀ q, sreg n q t = if q = r ∧ q.val ≠ 0 then v else sreg n q s
/-- The address registers of core `n` keep their values but for `r`, which holds `v`. -/
def AddressGets (n : Nat) (r : AReg) (v : BitVec 48) (s t : State) : Prop := ∀ q, areg n q t = if q = r then v else areg n q s
/-- The scalar registers of core `n` keep their values; its address registers do. -/
def ScalarsSame (n : Nat) (s t : State) : Prop := ∀ q, sreg n q t = sreg n q s
def AddressesSame (n : Nat) (s t : State) : Prop := ∀ q, areg n q t = areg n q s
/-- The units' queues of core `n`, its fences, progress advances, posts and waits are as they were. -/
def UnitsSame (n : Nat) (s t : State) : Prop :=
  (coreOf n t).dma = (coreOf n s).dma ∧ (coreOf n t).eng = (coreOf n s).eng ∧ (coreOf n t).conv = (coreOf n s).conv ∧ (coreOf n t).vecs = (coreOf n s).vecs ∧
    (coreOf n t).posts = (coreOf n s).posts ∧ (coreOf n t).fences = (coreOf n s).fences ∧ (coreOf n t).padvs = (coreOf n s).padvs ∧
    (coreOf n t).wait = (coreOf n s).wait ∧ (coreOf n t).params = (coreOf n s).params

/-- Core `n`'s record becomes `f` of itself, but for the PC and the loop stack. -/
def CoreBecomes (n : Nat) (f : Core → Core) (s t : State) : Prop :=
  coreOf n t = { f (coreOf n s) with pc := (coreOf n t).pc, loops := (coreOf n t).loops }
/-- The PC and the loop stack of core `n` stay. -/
def PcStays (n : Nat) (s t : State) : Prop := (coreOf n t).pc = (coreOf n s).pc ∧ (coreOf n t).loops = (coreOf n s).loops
/-- Token counter k of core `n` as a number modulo 2^16 (R214). -/
def token (n k : Nat) (s : State) : BitVec 16 := (rd (coreBase n + 0x80 + 4 * k) s).setWidth 16
/-- The keys of the unit status registers that the queues show: DMA_STAT, the engine's, the convolution path's and the vector unit's. -/
def unitKeys (n : Nat) : List Nat := [0x100, 0x800, 0x804, 0x808, 0x900, 0x90C, 0xA00].map (coreBase n + ·)
/-- A unit word enters its unit: the core's record becomes `f` of itself, the next word follows, memory stays. -/
def WordQueues (n : Nat) (f : Core → Core) (s : State) (o : Host.Outcome State Fault Refusal) : Prop :=
  ∃ t, o = .next t ∧ WordGoesOn n s t ∧ CoreBecomes n f s t ∧ MemorySame s t ∧ WordFrame n (unitKeys n) s t
/-- The token a TOK field names, if SIG is set, is one higher; every other token is as it was (R214). -/
def TokenCounts (n code : Nat) (s t : State) : Prop :=
  ∀ k, k < 16 → token n k t = token n k s + (if code = k + 1 then 1 else 0)

/-- A scalar word ends with `v` in rd and nothing else changed. -/
def WordSetsScalar (n : Nat) (r : SReg) (v : Word) (s : State) (o : Host.Outcome State Fault Refusal) : Prop :=
  ∃ t, o = .next t ∧ WordGoesOn n s t ∧ ScalarGets n r v s t ∧ AddressesSame n s t ∧ UnitsSame n s t ∧ MemorySame s t ∧ WordFrame n [] s t
/-- An address word ends with `v` in ad and nothing else changed. -/
def WordSetsAddress (n : Nat) (r : AReg) (v : BitVec 48) (s : State) (o : Host.Outcome State Fault Refusal) : Prop :=
  ∃ t, o = .next t ∧ WordGoesOn n s t ∧ AddressGets n r v s t ∧ ScalarsSame n s t ∧ UnitsSame n s t ∧ MemorySame s t ∧ WordFrame n [] s t

/-! ### Service commands (R395 to R405) -/

/-- The descriptor of a row as the ring holds it. -/
def rowDesc (code : Nat) (d : SvcDesc) : SvcDesc := padTo 64 (natLE 2 code ++ d.drop 2)
/-- A ring takes a command at once (R30, R395, R400): it runs, has room, holds nothing back, no earlier command stands before this one, and no
ring before it in the round has a step to do. -/
structure RingTakes (fn : Nat) (d : SvcDesc) (s : State) : Prop where
  runs : ringEn fn s = true ∧ ringServed fn s = true ∧ (ring fn s).busMaster = true ∧ (ring fn s).flushing = false
  room : fetchRoom fn s = true
  sizes : ∃ n, 4 ≤ n ∧ n ≤ 12 ∧ ringSize fn oCPL_SIZE s = 2 ^ n
  idle : (ring fn s).busy = none ∧ (ring fn s).fetched = [] ∧ (ring fn s).held = [] ∧ (ring fn s).cmdTail = rd (ringBase fn + oCMD_HEAD) s
  turn : mustWait fn d s = false ∧ ∀ i, i < (fn + 17 - s.svc.turn) % 17 → ringWork ((s.svc.turn + i) % 17) s = false
/-- The state in which a command's checks begin: the host has placed what the command points to, and the descriptor is taken in its turn. -/
def arrived (fn : Nat) (d : SvcDesc) (h : HostIn) (s : State) : State :=
  let s := hostPut (dAUTH d) (if dAUTH d = 0 then none else h.auth.map (padTo 96)) s
  let s := hostPut (dDATA d) (h.data.map fun bs => bs.take (dLEN d)) s
  let s := inc (ringBase fn + oCMD_HEAD) 1 (updRing fn (fun r => { r with cmdTail := r.cmdTail + 1 }) s)
  updRing fn (fun r => { r with auth := (0xFF, []), busy := some .now }) (turnPast fn s)
/-- The authorisation block as the host placed it. -/
def authBytes (fn : Nat) (d : SvcDesc) (h : HostIn) (s : State) : List Byte := Memory.read (arrived fn d h s).host (dAUTH d) 96
/-- The authorisation of R41: none is asked of a VF and of commands without a role; on the PF the block's nonce is the outstanding one, and its
key, signature and role pass. -/
def Authorised (fn : Nat) (d : SvcDesc) (h : HostIn) (c : CmdRow) (s : State) : Prop :=
  fn ≠ 0 ∨ c.slots = [] ∨
    (let b := authBytes fn d h s
     let r := presentNonce b (arrived fn d h s)
     dAUTH d ≠ 0 ∧ h.auth.isSome = true ∧ r.1 = true ∧ ∃ slot, authCheck fn (dCMD d) c d b true r.2 = .pass slot)
/-- The state in which a command's own checks run: its descriptor is taken and, where it is signed, its nonce is consumed. -/
def svcState (code fn : Nat) (d : SvcDesc) (h : HostIn) (s : State) : State :=
  let d := rowDesc code d
  match cmdRow code with
  | some c =>
    if fn ≠ 0 ∨ c.slots = [] then arrived fn d h s
    else
      let b := authBytes fn d h s
      updRing fn (fun r => { r with auth := (leAt b 0 2, (b.drop 8).take 8) }) (presentNonce b (arrived fn d h s)).2
  | none => s
/-- A command passes every check that precedes its own (R400), its checks fit one service step (R30), and the audit log is far from full (R47):
its own checks run in `svcState`. -/
structure SvcStarts (code fn : Nat) (d : SvcDesc) (h : HostIn) (s : State) : Prop where
  takes : RingTakes fn (rowDesc code d) s
  tenant : fn ≠ 0 → partUsed (fn - 1) s = true
  passes : ∃ c, cmdRow code = some c ∧ onFn fn code c s = true ∧ descBad fn code c (rowDesc code d) s = false ∧
    (dataIn (rowDesc code d) c = true → h.data.isSome = true) ∧ Authorised fn (rowDesc code d) h c s
  oneStep : checkSteps (rowDesc code d) s ≤ 1
  audit : s.flash.audit.length < 649 ∧ s.flash.auditRO = false
/-- The place of completion m of a function (R395). -/
def cplSlot (fn m : Nat) (s : State) : Nat := rdAddr (ringBase fn + oCPL_BASE) s / 64 * 64 + m % ringSize fn oCPL_SIZE s * 16
/-- A command is answered (R398): its ring is free again, the command is counted, and one of the completions written since `s` carries its
TAG, STATUS, CMD and the first 8 bytes of its result. -/
structure Answered (fn : Nat) (d : SvcDesc) (status : Nat) (res : List Byte) (s t : State) : Prop where
  free : (ring fn t).busy = none
  counted : rd (ringBase fn + oCNT_CMDS) t = rd (ringBase fn + oCNT_CMDS) s + 1
  written : ∃ (k : Nat) (flags : Byte), k < (rd (ringBase fn + oCPL_TAIL) t - rd (ringBase fn + oCPL_TAIL) s).toNat ∧
    Memory.read t.host (cplSlot fn ((rd (ringBase fn + oCPL_TAIL) s).toNat + k) s) 16 =
      natLE 2 (dTAG d) ++ natLE 2 status ++ natLE 2 (dCMD d) ++ [flags, 0] ++ padTo 8 res
/-- The bytes a command writes to host memory lie apart from its result block and its completion. -/
def Apart (fn a len : Nat) (d : SvcDesc) (s : State) : Prop :=
  let b := cplSlot fn (rd (ringBase fn + oCPL_TAIL) s).toNat s
  (a + len ≤ b ∨ b + 16 ≤ a) ∧ (dRES d = 0 ∨ a + len ≤ dRES d ∨ dRES d + 64 ≤ a)
/-- The data of a command, as the host placed it. -/
def dataOf (d : SvcDesc) (s : State) : List Byte := if dLEN d = 0 then [] else Memory.read s.host (dDATA d) (dLEN d)
/-- What answering a command and recording it leave: every state but registers, rings, host memory, interrupts, active faults, the audit
log, the nonce and the count of free values. -/
def SvcFrame (s t : State) : Prop :=
  t = { s with regs := t.regs, rings := t.rings, host := t.host, out := t.out, faults := t.faults, flash := t.flash, svc := t.svc, fresh := t.fresh }
/-- The flash keeps everything but the audit log. -/
def FlashSame (s t : State) : Prop :=
  t.flash = { s.flash with audit := t.flash.audit, auditSeq := t.flash.auditSeq, auditExported := t.flash.auditExported }

/-! ### Frames at the lanes -/

/-- The stretch of blocks of one frame of at least seven bytes, as a sender stripes it over a bond (R66, R70). -/
def oneFrame (w : Nat) (f : List Byte) : Stretch := stripe w (frameBlocks f)
/-- The frame as a camera port receives it from that stretch: its first word came as many rounds ago as the stretch has after the first. -/
def frameNow (st : Nat) (f : List Byte) (s : State) : RxFrame :=
  let w := bondWidth st s
  let t := blockTime (cfg 0x20 st 3 1 s) * (((frameBlocks f).length + w - 1) / w - 1)
  { bytes := f, since := tick s - BitVec.ofNat 64 (t / 160), t0 := nowNs s - BitVec.ofNat 64 (t / 100), pos := encPos (cfg 0x20 st 7 1 s) s }
/-- Camera ports but one are as they were, but for what the front end of that one has taken from its four receive buffers. -/
def OtherPorts (st : Nat) (s t : State) : Prop :=
  ∀ y, y ≠ st → cport y t = { cport y s with segs := (cport y t).segs } ∧ (y / 4 ≠ st / 4 → cport y t = cport y s)

/-! ### Frames of the commands that are no dispatch word -/

/-- Nothing changes but registers. -/
def OnlyRegs (s t : State) : Prop := t = { s with regs := t.regs }
/-- Nothing changes but what raising faults may write: registers, the rings, completions in host memory, interrupts, active faults. -/
def OnlyReports (s t : State) : Prop := t = { s with regs := t.regs, rings := t.rings, host := t.host, out := t.out, faults := t.faults }
/-- Registers that reporting a fault may write: SYS_GSTAT, the FAULT block and the functions' ring registers. -/
def reportKey (k : Nat) : Bool :=
  decide (k = kSYS_GSTAT) || (decide (kFAULT_STAT ≤ k) && decide (k < kFAULT_LOG 64)) ||
    (decide (k % 0x10000 < 0x68) && (decide (k / 0x10000 = 1) || decide (0x1000000 ≤ k)))
/-- Registers that a tick without a command may show anew: TIME_ERR, TRIM_SRC, the clear path and the largest gaps, the loads, CODEC_CAL.PASS,
a core's waiting beats, what an Ethernet port has sent and whether a launch waits. -/
def tickShows : List Nat :=
  [kTIME_ERR, kCLK_STAT, kARB_STAT, arbBase + 0x110, arbBase + 0x130, codecBase, kCAL] ++ (upTo 16).map (fun f => feBase f + 4) ++
    (upTo 32).flatMap (fun n => [coreBase n + 0x218, coreBase n + 0x918]) ++
    (upTo 2).flatMap (fun p => [ethBase p + 0x10, ethBase p + 0x24]) ++ (upTo 16).map (fun i => ethqBase (i / 8) (i % 8) + 4)
/-- Every register keeps its value but those `p` names. -/
def RegsSameBut (p : Nat → Bool) (s t : State) : Prop := ∀ k, p k = false → rd k t = rd k s
/-- Every register keeps its value but those of a list and those that reporting writes. -/
def RegsReported (ks : List Nat) (s t : State) : Prop := RegsSameBut (fun k => ks.contains k || reportKey k) s t
/-- A fault is active (R454). -/
def FaultActive (code unit part : Nat) (s : State) : Prop := ∃ f ∈ s.faults, f.code = code ∧ f.unit = unit ∧ f.part = part

/-- What a reset of the whole module leaves (R446, R447): flash but for a torn record, fuses and what lies outside the module stay; the mailbox survives a reset
without a power loss; every other state is that of reset; the field I/O is in the Nightfall state; SYS_BOOT names the reset. -/
structure AfterReset (power : Bool) (cause : Nat) (s t : State) : Prop where
  rest : t = { State.reset with
    pending := s.pending, host := s.host, out := s.out, readData := s.readData, fresh := t.fresh, flash := t.flash, fuses := s.fuses,
    cages := s.cages, mem := t.mem, poison := t.poison, regs := t.regs, clk := t.clk, boot := t.boot, fio := t.fio, time := t.time,
    pwr := t.pwr }
  /-- A power loss without a brown-out may leave a torn record at the end of the audit log (R46). -/
  flash : t.flash = s.flash ∨ (power = true ∧ cause = 0 ∧ ∃ r, t.flash = { s.flash with audit := s.flash.audit ++ [r], torn := true })
  memory : ∀ a, devByte a t = if !power && inMailbox a then devByte a s else 0
  lastReset : rdF kSYS_BOOT 19 16 t = cause
  stage0 : stage t = 0
  outputsOff : night t = true

end Sys2Proof.Machine
end

