-- ==== Sys2Proof/Certificates/Slice0/Obligations.lean ====
section
/-! DEFINITION. What the provers are asked to settle. -/

open Sys2Proof Sys2Proof.Machine

/-- R207, R208, R211: the words that write a scalar register. b is imm when I = 1 and rt otherwise; arithmetic is modulo 2^32, shifts use b mod 32. -/
def Obligations.ScalarWordsGiveTheirResults : Prop :=
  ∀ (n : Fin 32) (rd rs rt : SReg) (as_ : AReg) (useImm : Bool) (imm : Word) (s : State), WordRuns n.val s →
    let a := sreg n.val rs s
    let b := if useImm then imm else sreg n.val rt s
    let gives := fun (i : Instr) (v : Word) => WordSetsScalar n.val rd v s (exec i s)
    gives (.li n rd imm) imm ∧
    gives (.movas n rd as_) ((areg n.val as_ s).setWidth 32) ∧
    gives (.add n rd rs rt useImm imm) (BitVec.ofNat 32 (a.toNat + b.toNat)) ∧
    gives (.sub n rd rs rt useImm imm) (BitVec.ofInt 32 (a.toInt - b.toInt)) ∧
    gives (.mul n rd rs rt useImm imm) (BitVec.ofNat 32 (a.toNat * b.toNat)) ∧
    gives (.and n rd rs rt useImm imm) (BitVec.ofNat 32 (a.toNat &&& b.toNat)) ∧
    gives (.or n rd rs rt useImm imm) (BitVec.ofNat 32 (a.toNat ||| b.toNat)) ∧
    gives (.xor n rd rs rt useImm imm) (BitVec.ofNat 32 (a.toNat ^^^ b.toNat)) ∧
    gives (.shl n rd rs rt useImm imm) (BitVec.ofNat 32 (a.toNat * 2 ^ (b.toNat % 32))) ∧
    gives (.shr n rd rs rt useImm imm) (BitVec.ofNat 32 (a.toNat / 2 ^ (b.toNat % 32))) ∧
    gives (.sra n rd rs rt useImm imm) (BitVec.ofInt 32 (a.toInt / 2 ^ (b.toNat % 32))) ∧
    gives (.slt n rd rs rt useImm imm) (if a.toInt < b.toInt then 1 else 0)

/-- R211: the words that write an address register, and NOP. -/
def Obligations.AddressWordsGiveTheirResults : Prop :=
  ∀ (n : Fin 32) (ad as_ : AReg) (rt : SReg) (useImm : Bool) (imm : Word) (hi : BitVec 16) (add30 : BitVec 30) (s : State),
    WordRuns n.val s →
    WordSetsAddress n.val ad (BitVec.ofNat 48 imm.toNat) s (exec (.lia n ad imm) s) ∧
    WordSetsAddress n.val ad (BitVec.ofNat 48 (hi.toNat * 2 ^ 32 + (areg n.val ad s).toNat % 2 ^ 32)) s (exec (.liah n ad hi) s) ∧
    WordSetsAddress n.val ad
      (BitVec.ofInt 48 ((areg n.val as_ s).toNat + (if useImm then add30.toInt else (sreg n.val rt s).toInt))) s
      (exec (.adda n ad as_ rt useImm add30) s) ∧
    ∃ t, exec (.nop n) s = .next t ∧ WordGoesOn n.val s t ∧ ScalarsSame n.val s t ∧ AddressesSame n.val s t ∧ UnitsSame n.val s t ∧
      MemorySame s t ∧ WordFrame n.val [] s t

/-- R208, R209, R211: LD and ST through the narrow view. The address stored to is the weight bank of the core plus the narrow offset. -/
def Obligations.NarrowLoadAndStoreMoveOneWord : Prop :=
  ∀ (n : Fin 32) (r : SReg) (ab : AReg) (imm : BitVec 16) (s : State), WordRuns n.val s →
    let off := ((areg n.val ab s).toNat + (imm.signExtend 48).toNat) % 2 ^ 48
    let a := weightBank n.val + off
    off < 0x400000 → off % 4 = 0 → poisonedIn a 4 s = false →
    WordSetsScalar n.val r (BitVec.ofNat 32
      ((devByte a s).toNat + 256 * (devByte (a + 1) s).toNat + 65536 * (devByte (a + 2) s).toNat + 16777216 * (devByte (a + 3) s).toNat)) s
      (exec (.ld n r ab imm) s) ∧
    (writeHeld n.val a 4 s = false →
      ∃ t, exec (.st n r ab imm) s = .next t ∧ WordGoesOn n.val s t ∧ WordFrame n.val [] s t ∧ ScalarsSame n.val s t ∧
        AddressesSame n.val s t ∧ UnitsSame n.val s t ∧ MemorySameBut a 4 s t ∧
        (∀ i, i < 4 → devByte (a + i) t = BitVec.ofNat 8 ((sreg n.val r s).toNat / 256 ^ i)))

/-- R206, R211 to R213: BR and LOOP. The conditions are those of R212; a taken branch keeps the outer loops that hold its target. -/
def Obligations.BranchesAndLoopsSteerThePc : Prop :=
  ∀ (n : Fin 32) (rs rt : SReg) (cond : Cond) (useImm : Bool) (imm off : BitVec 16) (s : State), WordRuns n.val s →
    let a := sreg n.val rs s
    let b := if useImm then imm.signExtend 32 else sreg n.val rt s
    let holds := match cond with
      | .eq => a = b
      | .ne => a ≠ b
      | .lt => a.toInt < b.toInt
      | .ge => b.toInt ≤ a.toInt
      | .ltu => a.toNat < b.toNat
      | .geu => b.toNat ≤ a.toNat
      | .always => True
    let c := coreOf n.val s
    let target := c.pc + BitVec.ofInt 48 (8 * off.toInt)
    let inBody := fun (l : LoopSt) => l.first.toNat ≤ target.toNat ∧ target.toNat ≤ l.last.toNat
    let same := fun t => ScalarsSame n.val s t ∧ AddressesSame n.val s t ∧ UnitsSame n.val s t ∧ MemorySame s t ∧ WordFrame n.val [] s t
    (∃ t, exec (.br n rs rt cond useImm imm off) s = .next t ∧ same t ∧ (¬ holds → WordGoesOn n.val s t) ∧
      (holds → (coreOf n.val t).pc = target ∧ (coreOf n.val t).loops <:+ c.loops ∧ (∀ l ∈ (coreOf n.val t).loops, inBody l) ∧
        ∀ ls, ls <:+ c.loops → (∀ l ∈ ls, inBody l) → ls <:+ (coreOf n.val t).loops)) ∧
    (1 ≤ off.toInt → a = 0 ∨ c.loops.length < 4 → ∃ t, exec (.loop n rs off) s = .next t ∧ same t ∧
      let last := c.pc + BitVec.ofNat 48 (8 * off.toNat)
      ((coreOf n.val t).pc, (coreOf n.val t).loops) =
        if a = 0 then nextPc last c.loops else (c.pc + 8, { first := c.pc + 8, last := last, left := a.toNat } :: c.loops)) ∧
    (∀ (l : LoopSt) r, nextPc l.last (l :: r) = if 1 < l.left then (l.first, { l with left := l.left - 1 } :: r) else nextPc l.last r) ∧
    (∀ (p : BitVec 48) (l : LoopSt) r, l.last ≠ p → nextPc p (l :: r) = (p + 8, l :: r)) ∧ (∀ p, nextPc p [] = (p + 8, []))

/-- R215: WAIT, its completion and its timeout. -/
def Obligations.TokenWaitsEndOnCountOrTime : Prop :=
  (∀ (n : Fin 32) (k : Fin 16) (rs : SReg) (tmo off : BitVec 16) (s : State), WordRuns n.val s →
    let target := (sreg n.val rs s).setWidth 16
    ∃ t, exec (.wait n k rs tmo off) s = .next t ∧ ScalarsSame n.val s t ∧ MemorySame s t ∧
      (0 ≤ (token n.val k.val s - target).toInt → WordGoesOn n.val s t ∧ UnitsSame n.val s t ∧ WordFrame n.val [] s t) ∧
      ((token n.val k.val s - target).toInt < 0 → PcStays n.val s t ∧ rdB (coreBase n.val) 3 t = true ∧
        rdF (coreBase n.val) 15 12 t = k.val ∧ issuing n.val t = false ∧
        (coreOf n.val t).wait = some (.tok k.val target tmo.toNat off (tick s)))) ∧
  (∀ (n : Fin 32) (k tmo : Nat) (target off : BitVec 16) (since : BitVec 64) (s : State),
    (coreOf n.val s).wait = some (.tok k target tmo off since) →
    (0 ≤ (token n.val k s - target).toInt →
      ∃ t, exec (.waitComplete n) s = .next t ∧ WordGoesOn n.val s t ∧ (coreOf n.val t).wait = none ∧ ScalarsSame n.val s t ∧ MemorySame s t ∧
        rdB (coreBase n.val) 3 t = false) ∧
    ((token n.val k s - target).toInt < 0 → tmo * 100 * 5 ≤ 8 * (s.time.c - since).toNat →
      ∃ t, exec (.tokenWaitTimeout n) s = .next t ∧ (coreOf n.val t).wait = none ∧
        (coreOf n.val t).pc = (coreOf n.val s).pc + BitVec.ofInt 48 (8 * off.toInt) ∧
        rdB (coreBase n.val + 4) 1 t = true ∧ rd (coreBase n.val + 0x38) t = rd (coreBase n.val + 0x38) s + 1 ∧
        (coreOf n.val t).dma = (coreOf n.val s).dma ∧ (coreOf n.val t).eng = (coreOf n.val s).eng ∧ (coreOf n.val t).vecs = (coreOf n.val s).vecs ∧
        ScalarsSame n.val s t ∧ MemorySame s t))

/-- R198, R232: PWAIT, its completion and its timeout. -/
def Obligations.ProgressWaitsSeeOwnLiveCores : Prop :=
  let sees := fun (n m k : Nat) (s : State) =>
    if coreOwner m s = coreOwner n s ∧ quarantined m s = false then rd (coreBase m + 0x940 + 4 * k) s else (0 : Word)
  let reached := fun (n m k : Nat) (tag : Byte) (rows : Word) (s : State) =>
    (sees n m k s).toNat / 2 ^ 24 = tag.toNat ∧ rows.toNat ≤ (sees n m k s).toNat % 2 ^ 24
  (∀ (n : Fin 32) (peer : BitVec 6) (k : Fin 8) (tag : Byte) (rs : SReg) (tmo off : BitVec 16) (s : State), WordRuns n.val s →
    let c := coreOf n.val s
    let i : Int := if peer.getLsbD 5 then (sreg n.val 3 s).toInt + (peer.extractLsb' 0 5).toInt else ((peer.extractLsb' 0 5).toNat : Int)
    ∃ t, exec (.pwait n peer k tag rs tmo off) s = .next t ∧ ScalarsSame n.val s t ∧ MemorySame s t ∧
      (i < 0 ∨ (sreg n.val 4 s).toNat ≤ i ∨ c.list.length ≤ i → WordGoesOn n.val s t ∧ WordFrame n.val [] s t) ∧
      (∀ m, 0 ≤ i → i < (sreg n.val 4 s).toNat → c.list[i.toNat]? = some m →
        (reached n.val m k.val tag (sreg n.val rs s) s → WordGoesOn n.val s t ∧ WordFrame n.val [] s t) ∧
        (¬ reached n.val m k.val tag (sreg n.val rs s) s → PcStays n.val s t ∧ rdB (coreBase n.val) 4 t = true ∧
          rd (coreBase n.val + 0x91C) t = rd (coreBase n.val + 0x91C) s + 1 ∧
          (coreOf n.val t).wait = some (.prog m k.val tag (sreg n.val rs s) tmo.toNat off (tick s))))) ∧
  (∀ (n : Fin 32) (m k tmo : Nat) (tag : Byte) (rows : Word) (off : BitVec 16) (since : BitVec 64) (s : State),
    (coreOf n.val s).wait = some (.prog m k tag rows tmo off since) →
    (reached n.val m k tag rows s →
      ∃ t, exec (.progressWaitComplete n) s = .next t ∧ WordGoesOn n.val s t ∧ (coreOf n.val t).wait = none ∧ ScalarsSame n.val s t ∧ MemorySame s t) ∧
    (¬ reached n.val m k tag rows s → tmo * 100 * 5 ≤ 8 * (s.time.c - since).toNat →
      ∃ t, exec (.progressWaitTimeout n) s = .next t ∧ (coreOf n.val t).wait = none ∧
        (coreOf n.val t).pc = (coreOf n.val s).pc + BitVec.ofInt 48 (8 * off.toInt) ∧
        rdB (coreBase n.val + 0x904) 3 t = true ∧ rd (coreBase n.val + 0x920) t = rd (coreBase n.val + 0x920) s + 1 ∧
        ScalarsSame n.val s t ∧ MemorySame s t))

/-- R197, R214, R216, R231 to R233: SIGNAL, PADV, TESTF, MARK, and the events that fences and advances wait for. -/
def Obligations.SignalsFencesAndProgressAdvances : Prop :=
  (∀ (n : Fin 32) (k : Fin 16) (units : BitVec 8) (s : State), WordRuns n.val s →
    ∃ t, exec (.signal n k units) s = .next t ∧ WordGoesOn n.val s t ∧ ScalarsSame n.val s t ∧ AddressesSame n.val s t ∧ MemorySame s t ∧
      (units = 0 → TokenCounts n.val (k.val + 1) s t ∧ UnitsSame n.val s t ∧ WordFrame n.val [coreBase n.val + 0x80 + 4 * k.val] s t) ∧
      (units ≠ 0 → TokenCounts n.val 0 s t ∧ WordFrame n.val [] s t ∧
        CoreBecomes n.val (fun c => { c with fences := c.fences ++ [{ k := k.val, items := itemsOf units.toNat c }] }) s t)) ∧
  (∀ (n : Fin 32) (f : Fence) (r : List Fence) (s : State), (coreOf n.val s).fences = f :: r → f.items = [] →
    (coreOf n.val s).ending = false → (coreOf n.val s).flushing = false →
    ∃ t, exec (.signalFire n) s = .next t ∧ TokenCounts n.val (f.k + 1) s t ∧ MemorySame s t ∧
      coreOf n.val t = { coreOf n.val s with fences := r }) ∧
  (∀ (n : Fin 32) (k : Fin 8) (tag : Byte) (rs : SReg) (s : State), WordRuns n.val s →
    ∃ t, exec (.padv n k tag rs) s = .next t ∧ WordGoesOn n.val s t ∧ MemorySame s t ∧ WordFrame n.val [] s t ∧
      CoreBecomes n.val (fun c => { c with padvs := c.padvs ++
        [{ k := k.val, tag := tag, rows := BitVec.ofNat 32 ((sreg n.val rs s).toNat % 2 ^ 24), items := itemsOf 0xF c }] }) s t) ∧
  (∀ (n : Fin 32) (p : PadvSt) (r : List PadvSt) (s : State), (coreOf n.val s).padvs = p :: r → p.items = [] →
    (coreOf n.val s).ending = false → (coreOf n.val s).flushing = false →
    ∃ t, exec (.progressPublish n) s = .next t ∧ MemorySame s t ∧ coreOf n.val t = { coreOf n.val s with padvs := r } ∧
      rd (coreBase n.val + 0x940 + 4 * p.k) t = BitVec.ofNat 32 (p.tag.toNat * 2 ^ 24 + p.rows.toNat) ∧
      ∀ k, k ≠ coreBase n.val + 0x940 + 4 * p.k → rd k t = rd k s) ∧
  (∀ (n : Fin 32) (r : SReg) (s : State), WordRuns n.val s →
    let c := coreOf n.val s
    let bit := fun (b : Bool) (v : Nat) => if b then v else 0
    ∃ t, exec (.testf n r) s = .next t ∧ WordGoesOn n.val s t ∧ MemorySame s t ∧ WordFrame n.val [] s t ∧ AddressesSame n.val s t ∧
      ScalarGets n.val r (BitVec.ofNat 32 (bit c.fAccess 1 + bit c.fSat 2 + bit c.fSpecial 4)) s t ∧
      (coreOf n.val t).fAccess = false ∧ (coreOf n.val t).fSat = false ∧ (coreOf n.val t).fSpecial = false) ∧
  (∀ (n : Fin 32) (m : BitVec 12) (num : Nat) (j : Job) (s : State), WordRuns n.val s →
    (coreOf n.val s).job = some num → findJob (coreOf n.val s).part num s = some j →
    ∃ t, exec (.mark n m) s = .next t ∧ WordGoesOn n.val s t ∧ ScalarsSame n.val s t ∧ MemorySame s t ∧
      ∃ j', findJob (coreOf n.val s).part num t = some j' ∧ j'.marker = some m.toNat ∧ j'.tMark = nowNs s)

/-- R145, R147, R186, R193, R218 to R224: the DMA, tile and convolution words. The checks are those of their rules. -/
def Obligations.UnitWordsEnterTheirQueues : Prop :=
  ∀ (n : Fin 32) (s : State), WordRuns n.val s → s.poison = [] →
    let c := coreOf n.val s
    let desc := fun (ad : AReg) => memRead (actBank n.val + (areg n.val ad s).toNat) 64 s
    let inBank := fun (ad : AReg) => (areg n.val ad s).toNat % 64 = 0 ∧ (areg n.val ad s).toNat + 64 ≤ 0x200000
    (∀ (q : Fin 4) (ad : AReg) (tok : Tok), inBank ad → (Fam.get [] q.val c.dma).length < 16 → dmOk (desc ad) (c.conv.cfg.map cvROWBYTES) = true →
      ∃ (item : DmaItem), item.item = c.nextItem ∧ item.desc = desc ad ∧ item.tok = tokCode tok ∧
        WordQueues n.val (fun c => { c with
          nextItem := c.nextItem + 1,
          dma := c.dma.set q.val (Fam.get [] q.val c.dma ++ [item]),
          conv := if dmLB (desc ad) && dmROWEND (desc ad) then { c.conv with r0 := c.conv.r0 + dmZ (desc ad) } else c.conv }) s
          (exec (.copy n q ad tok) s)) ∧
    (∀ (mode : TileMode) (b : Fin 2) (ad : AReg) (off : BitVec 15) (tok : Tok),
      let a := (areg n.val ad s).toNat + 64 * off.toNat
      (areg n.val ad s).toNat < 0x200000 → a % 64 = 0 → a + (if mode = .kb8 then 4224 else 4096) ≤ 0x200000 →
      ∃ t, exec (.tload n mode b ad off tok) s = .next t ∧ WordGoesOn n.val s t ∧ MemorySame s t ∧ WordFrame n.val (unitKeys n.val) s t ∧
        (coreOf n.val t).eng.loads = c.eng.loads ++ [{ item := c.nextItem, mode := mode.code, wbuf := b.val, addr := a, tok := tokCode tok }] ∧
        (coreOf n.val t).eng.ops = c.eng.ops ∧ (coreOf n.val t).eng.acc = c.eng.acc ∧
        (c.eng.loads = [] → (∀ o ∈ c.eng.ops, o.wbuf ≠ b.val) → (wbuf n.val b.val t).valid = false)) ∧
    (∀ (w : TStreamWord),
      let a := (areg n.val w.ad s).toNat
      let stride := (sreg n.val w.rs s).toNat
      let e := (areg n.val w.ae s).toNat
      let v := w.vLess1.toNat + 1
      let start := c.conv.starts.headD (0, 0)
      (w.conv = true → w.ad = 0 ∧ w.rs = 0 ∧ w.ae = 0) → c.eng.ops.length < 3 → tstreamOk n.val w a stride e s = true →
      (w.accOp = true → tagsMatch w.mode.code w.accBase.toNat v (tagsAhead c) = true) →
      (w.conv = true → ∃ d, cvAhead c = some d ∧ c.conv.starts ≠ [] ∧ cvSpanOk d start.1 start.2 v = true ∧ cvPool d = false) →
      ∃ inj, WordQueues n.val (fun c => { c with
        nextItem := c.nextItem + 1,
        eng := { c.eng with ops := c.eng.ops ++ [{
          item := c.nextItem, mode := w.mode.code, wbuf := w.wbuf.val, conv := w.conv, accOp := w.accOp, v := v, accBase := w.accBase.toNat,
          aAddr := a, aStride := stride, eAddr := e, pix0 := start.1, r := start.2, desc := if w.conv then (cvAhead c).getD [] else [],
          ep := epAhead c, inj := inj, retried := false, retryTick := 0,
          tok := tokCode w.tok }] },
        conv := if w.conv then { c.conv with starts := c.conv.starts.drop 1 } else c.conv }) s (exec (.tstream n w) s)) ∧
    (∀ (ad : AReg) (tok : Tok), inBank ad → cvOk (desc ad) = true →
      WordQueues n.val (fun c => { c with
        nextItem := c.nextItem + 1,
        conv := { c.conv with pend := c.conv.pend ++ [{ item := c.nextItem, desc := desc ad, tok := tokCode tok }] } }) s (exec (.ccfg n ad tok) s)) ∧
    (∀ (rs rt : SReg), c.conv.starts.length < 2 →
      WordQueues n.val (fun c => { c with
        conv := { c.conv with starts := c.conv.starts ++ [((sreg n.val rs s).toNat, (sreg n.val rt s).toNat)] } }) s (exec (.cstart n rs rt) s))

/-- R225 to R230: the vector words. `inBank` is the test that every address lies in the activation bank. -/
def Obligations.VectorWordsEnterTheirQueue : Prop :=
  ∀ (n : Fin 32) (s : State), WordRuns n.val s → (coreOf n.val s).vecs.length < 8 →
    let c := coreOf n.val s
    let reg := fun (r : SReg) => (sreg n.val r s).toNat
    let adr := fun (r : AReg) => (areg n.val r s).toNat
    let rowsFit := fun (m row k : Nat) => row + k ≤ accRows m ∧ tagsMatch m row k (tagsAhead c) = true
    let joins := fun (i : Instr) (op : VecOp) (tok : Tok) => vecInBank op = true →
      WordQueues n.val (fun c => { c with nextItem := c.nextItem + 1, vecs := c.vecs ++ [{ item := c.nextItem, op := op, tok := tokCode tok }] }) s
        (exec i s)
    (∀ (ps : Fin 4) (ad : AReg) (tok : Tok), adr ad % 64 = 0 → joins (.vparam n ps ad tok) (.param ps.val (adr ad)) tok) ∧
    (∀ (w : VqWord),
      let d := memRead (actBank n.val + adr w.ad) 32 s
      rowsFit w.mode.code (reg w.rs) (reg w.rt) → adr w.ad + 32 ≤ 0x200000 → (w.act.val = 3 → w.tgt = .int8) →
      (w.mode = .w4a8 → w.ps.val ≤ 2) → odG d ∈ [1, 4, 16, 32, 64] → poisonedWords (actBank n.val + adr w.ad) 32 s = [] →
      joins (.vq n w) (.quant w.tgt.code w.act.val w.ps.val w.mode.code (reg w.rs) (reg w.rt) d (adr w.al)) w.tok) ∧
    (∀ (mode : TileMode) (rs rt : SReg) (ad : AReg) (tok : Tok), rowsFit mode.code (reg rs) (reg rt) →
      joins (.vrawst n mode rs rt ad tok) (.rawst mode.code (reg rs) (reg rt) (adr ad)) tok ∧
      joins (.vrawadd n mode rs rt ad tok) (.rawadd mode.code (reg rs) (reg rt) (adr ad)) tok) ∧
    (∀ (sum init : Bool) (rs rt : SReg) (tok : Tok) (d : List Byte) (x : Nat × Nat) (r : List (Nat × Nat)),
      cvAhead c = some d → c.conv.starts = x :: r → cvPool d = true → cvSpanOk d x.1 x.2 (reg rt) = true → 0 < reg rt →
      reg rs + reg rt ≤ accRows 0 → (init = false → tagsMatch 0 (reg rs) (reg rt) (tagsAhead c) = true) →
      WordQueues n.val (fun c => { c with
        nextItem := c.nextItem + 1, conv := { c.conv with starts := r },
        vecs := c.vecs ++ [{ item := c.nextItem, op := .pool sum init (reg rs) (reg rt) x.1 x.2 d (epAhead c), tok := tokCode tok }] }) s
        (exec (.vpool n sum init rs rt tok) s)) ∧
    (∀ (w : VcvtWord), reg w.rs % 32 = 0 → 32 ≤ reg w.rs → reg w.rs ≤ 2097152 →
      joins (.vcvt n w) (.cvt w.inF.code w.outF.code (reg w.rs) (adr w.ad) (adr w.as_) w.sc.toInt w.off.toInt) w.tok) ∧
    (∀ (w : VewWord), reg w.rs % 32 = 0 → 32 ≤ reg w.rs → reg w.rs ≤ 2097152 →
      joins (.vew n w) (.ew w.fn.code w.wide (reg w.rs) (adr w.ad) (adr w.as_) (adr w.ab)) w.tok)

/-- R214: an item completes. The tile operation passes when its checksums and the world raise nothing (R159). -/
def Obligations.ItemsCompleteAndCountTheirToken : Prop :=
  ∀ (n : Fin 32) (s : State), (coreOf n.val s).ending = false → (coreOf n.val s).flushing = false → s.poison = [] →
    let c := coreOf n.val s
    let settled := fun (item : Nat) (t : State) =>
      (coreOf n.val t).fences = c.fences.map (fun f => { f with items := f.items.filter (· != item) }) ∧
      (coreOf n.val t).padvs = c.padvs.map (fun p => { p with items := p.items.filter (· != item) })
    (∀ (q : Fin 4) (x : DmaItem) (r : List DmaItem), Fam.get [] q.val c.dma = x :: r → c.eng.ops = [] → c.vecs = [] →
      ∃ t, exec (.dmaTransferComplete n q []) s = .next t ∧ Fam.get [] q.val (coreOf n.val t).dma = r ∧
        TokenCounts n.val x.tok s t ∧ settled x.item t) ∧
    (∀ (x : LoadItem) (r : List LoadItem), c.eng.loads = x :: r → loadWaits n.val x s = false → (∀ y ∈ r.head?, y.wbuf ≠ x.wbuf) →
      let bytes := memRead (weightBank n.val + x.addr) (if x.mode = 2 then 4224 else 4096) s
      ∃ t, exec (.tloadComplete n) s = .next t ∧ (coreOf n.val t).eng.loads = r ∧ TokenCounts n.val x.tok s t ∧ settled x.item t ∧
        MemorySame s t ∧ wbuf n.val x.wbuf t = { valid := true, mode := x.mode, bytes := bytes, loaded := bytes }) ∧
    (∀ (x : CfgItem) (r : List CfgItem), c.conv.pend = x :: r → cfgWaits n.val x s = false →
      ∃ t, exec (.ccfgComplete n) s = .next t ∧ (coreOf n.val t).conv.pend = r ∧ (coreOf n.val t).conv.cfg = some x.desc ∧
        rd (coreBase n.val + 0x908) t = 0 ∧ TokenCounts n.val x.tok s t ∧ settled x.item t ∧ MemorySame s t) ∧
    (∀ (o : TileOp) (r : List TileOp), c.eng.ops = o :: r → opWaits n.val o s = false → o.inj = none →
      accBad c.eng (opRows o) = none → colCheck o.mode (wbuf n.val o.wbuf s) none (opVectors n.val o s).1 = none →
      rowCheck o.mode (wbuf n.val o.wbuf s) none (opVectors n.val o s).1 = none →
      ∃ t, exec (.tileVerdict n .none) s = .next t ∧ (coreOf n.val t).eng.ops = r ∧ TokenCounts n.val o.tok s t ∧ settled o.item t ∧
        MemorySame s t ∧ rd (coreBase n.val + 0x810) t = rd (coreBase n.val + 0x810) s + 1) ∧
    (∀ (x : VecItem) (r : List VecItem), c.vecs = x :: r → vecWaits n.val x s = false → accBad c.eng (vecAccRows x.op) = none →
      ∃ t, exec (.vectorOpComplete n) s = .next t ∧ (coreOf n.val t).vecs = r ∧ TokenCounts n.val x.tok s t ∧ settled x.item t)

/-- R234 to R236: POST and its hand-over, YIELD and its save, END. -/
def Obligations.PostsYieldsAndEndsOfPrograms : Prop :=
  (∀ (n : Fin 32) (rs rt : SReg) (num : Nat) (s : State), WordRuns n.val s → (coreOf n.val s).job = some num →
    let c := coreOf n.val s
    let posted := (findJob c.part num s).any (·.posted)
    let mask := sreg n.val rs s
    let hi := sreg n.val rt s
    (posted = false → hi.toNat / 2 ^ 24 = 0 → maskOwned c.part mask s = true → c.posts.length < 4 →
      ∃ q : PostSt, q.item = c.nextItem ∧ q.mask = mask ∧ q.hi = hi ∧ q.part = c.part ∧ q.job = num ∧ q.gen = rd (coreBase n.val + 0x14) s ∧
        ∃ t, exec (.post n rs rt) s = .next t ∧ WordGoesOn n.val s t ∧ MemorySame s t ∧ WordFrame n.val [] { s with jobs := t.jobs } t ∧
          CoreBecomes n.val (fun c => { c with nextItem := c.nextItem + 1, posts := c.posts ++ [q] }) s t ∧
          t.jobs = s.jobs.map fun j => if j.part = c.part ∧ j.num = num then { j with posted := true } else j) ∧
    (posted = true → ∃ t, exec (.post n rs rt) s = .next t ∧ WordGoesOn n.val s t ∧ MemorySame s t ∧ CoreBecomes n.val id s t ∧
      rd (coreBase n.val + 0x40) t = rd (coreBase n.val + 0x40) s + 1 ∧ rdB (coreBase n.val + 4) 2 t = true)) ∧
  (∀ (n : Fin 32) (q : PostSt) (r : List PostSt) (j : Job) (s : State), (coreOf n.val s).posts = q :: r → (coreOf n.val s).ending = false →
    (coreOf n.val s).flushing = false → findJob q.part q.job s = some j → j.gen = q.gen →
    ∃ t, exec (.postHandover n) s = .next t ∧ (coreOf n.val t).posts = r.filter (fun x => x.item ≠ q.item) ∧
      ∃ j', findJob q.part q.job t = some j' ∧ j'.handed = true) ∧
  (∀ (n : Fin 32) (off : BitVec 16) (s : State), WordRuns n.val s →
    ∃ t, exec (.yield_ n off) s = .next t ∧ ScalarsSame n.val s t ∧ MemorySame s t ∧
      ((coreOf n.val s).yieldReq = false → WordGoesOn n.val s t ∧ WordFrame n.val [] s t) ∧
      ((coreOf n.val s).yieldReq = true → issuing n.val t = false ∧
        (coreOf n.val t).yielding = some ((coreOf n.val s).pc + BitVec.ofInt 48 (8 * off.toInt)))) ∧
  (∀ (n : Fin 32) (resume : BitVec 48) (num : Nat) (s : State), (coreOf n.val s).yielding = some resume → (coreOf n.val s).job = some num →
    allItems (coreOf n.val s) = [] → s.pwr.wiping = [] →
    ∃ t, exec (.yieldSave n) s = .next t ∧ (coreOf n.val t).job = none ∧ MemorySameBut ((coreOf n.val s).slotAddr + 128) 320 s t) ∧
  (∀ (n : Fin 32) (num : Nat) (s : State), WordRuns n.val s → (coreOf n.val s).job = some num →
    ∃ t, exec (.end_ n) s = .next t ∧ issuing n.val t = false ∧
      (allItems (coreOf n.val s) ≠ [] → (coreOf n.val t).job = some num ∧ (coreOf n.val t).ending = true ∧ MemorySame s t) ∧
      (allItems (coreOf n.val s) = [] → (coreOf n.val t).job = none))

/-- R239: a trap ends the job; R237: a flush ends after its 2 µs. TRAPPED is bit 5 of SEQ_STAT. -/
def Obligations.TrapsEndTheJobAndRaiseSeqTrap : Prop :=
  (∀ (n : Fin 32) (num : Nat) (s : State), WordRuns n.val s → (coreOf n.val s).job = some num →
    let c := coreOf n.val s
    let traps := fun (i : Instr) => ∃ t, exec i s = .next t ∧ (coreOf n.val t).job = none ∧ issuing n.val t = false ∧
      rdB (coreBase n.val) 5 t = true ∧ ∃ f ∈ t.faults, f.code = 0x7010 ∧ f.unit = n.val ∧ f.part = c.part
    (∀ imm, traps (.sysTrap n imm)) ∧
    (∀ w : BitVec 64, wordLegal w.toNat = false → traps (.illegalWord n w)) ∧
    (∀ (r : SReg) (ab : AReg) (imm : BitVec 16), narrowOk (narrowAddr n.val ab imm s) = false → traps (.ld n r ab imm) ∧ traps (.st n r ab imm)) ∧
    (∀ (rs : SReg) (off : BitVec 16), 1 ≤ off.toInt → sreg n.val rs s ≠ 0 → c.loops.length = 4 → traps (.loop n rs off)) ∧
    (∀ rs rt : SReg, (findJob c.part num s).any (·.posted) = false → (sreg n.val rt s).toNat / 2 ^ 24 ≠ 0 ∨ maskOwned c.part (sreg n.val rs s) s = false → traps (.post n rs rt)) ∧
    (∀ (q : Fin 4) (ad : AReg) (tok : Tok), descOk (areg n.val ad s).toNat 64 = false → traps (.copy n q ad tok))) ∧
  (∀ (n : Fin 32) (s : State), (coreOf n.val s).flushing = true →
    ∃ t, exec (.flushGraceExpiry n) s = .next t ∧ (coreOf n.val t).flushing = false ∧ itemsOf 0x7F (coreOf n.val t) = [] ∧
      rdB (coreBase n.val) 7 t = false)

/-- R239, steps 2 and 4: SEQ_TRAP, SEQ_TRAP_PC, SEQ_TRAP_WORD and SEQ_CNT_TRAP after SYS TRAP, whose cause is SOFTWARE (0x0C). -/
def Obligations.TrapRegistersNameCauseAndWord : Prop :=
  ∀ (n : Fin 32) (imm : BitVec 16) (num : Nat) (j : Job) (s : State), WordRuns n.val s → (coreOf n.val s).job = some num →
    findJob (coreOf n.val s).part num s = some j → j.stream < 64 → j.live = [n.val] → s.ents = [] → (coreOf n.val s).part < 16 →
    let b := coreBase n.val
    let pc := (coreOf n.val s).pc.toNat
    ∃ t, exec (.sysTrap n imm) s = .next t ∧ rd (b + 0x18) t = BitVec.ofNat 32 (0x0C * 65536 + imm.toNat) ∧
      rd (b + 0x1C) t = BitVec.ofNat 32 pc ∧ rd (b + 0x20) t = BitVec.ofNat 32 (pc / 2 ^ 32) ∧
      rd (b + 0x24) t = BitVec.ofNat 32 imm.toNat ∧ rd (b + 0x28) t = BitVec.ofNat 32 (8 * 2 ^ 27) ∧
      rd (b + 0x3C) t = rd (b + 0x3C) s + 1

/-- R210: CLASS 63:59, OP 58:54 and the fields of each word. That ILLEGAL_WORD may carry a legal word is the model's choice (notes/assumptions/1.md). -/
def Obligations.LegalWordsRunAsTheirClassAndOpSay : Prop :=
  ∀ (n : Fin 32) (s : State),
    let runs := fun (w : Nat) (i : Instr) => exec (.illegalWord n (BitVec.ofNat 64 w)) s = exec i s
    let word := fun (cls op : Nat) (fields : Nat) => cls * 2 ^ 59 + op * 2 ^ 54 + fields
    let tokOf := fun (tok : Tok) => match tok with | some k => 16 + k.val | none => 0
    (∀ (rd : SReg) (imm : Word), runs (word 1 1 (rd.val * 2 ^ 49 + imm.toNat)) (.li n rd imm)) ∧
    (∀ (rd rs rt : SReg) (useImm : Bool) (imm : Word),
      let fields := rd.val * 2 ^ 49 + rs.val * 2 ^ 44 + rt.val * 2 ^ 39 + (if useImm then 2 ^ 38 else 0) + imm.toNat
      runs (word 1 2 fields) (.add n rd rs rt useImm imm) ∧ runs (word 1 3 fields) (.sub n rd rs rt useImm imm) ∧
      runs (word 1 4 fields) (.mul n rd rs rt useImm imm) ∧ runs (word 1 5 fields) (.and n rd rs rt useImm imm) ∧
      runs (word 1 6 fields) (.or n rd rs rt useImm imm) ∧ runs (word 1 7 fields) (.xor n rd rs rt useImm imm) ∧
      runs (word 1 8 fields) (.shl n rd rs rt useImm imm) ∧ runs (word 1 9 fields) (.shr n rd rs rt useImm imm) ∧
      runs (word 1 10 fields) (.sra n rd rs rt useImm imm) ∧ runs (word 1 11 fields) (.slt n rd rs rt useImm imm)) ∧
    (∀ (rd : SReg) (ab : AReg) (imm : BitVec 16), runs (word 1 12 (rd.val * 2 ^ 49 + ab.val * 2 ^ 35 + imm.toNat)) (.ld n rd ab imm)) ∧
    (∀ (rs rt : SReg) (cond : Cond) (useImm : Bool) (imm off : BitVec 16),
      let code := match cond with | .eq => 0 | .ne => 1 | .lt => 2 | .ge => 3 | .ltu => 4 | .geu => 5 | .always => 6
      runs (word 1 18 (rs.val * 2 ^ 44 + rt.val * 2 ^ 39 + code * 2 ^ 36 + (if useImm then 2 ^ 35 else 0) + imm.toNat * 2 ^ 16 + off.toNat))
        (.br n rs rt cond useImm imm off)) ∧
    (∀ (k : Fin 16) (rs : SReg) (tmo off : BitVec 16),
      runs (word 1 21 (k.val * 2 ^ 50 + rs.val * 2 ^ 44 + tmo.toNat * 2 ^ 16 + off.toNat)) (.wait n k rs tmo off)) ∧
    (∀ (q : Fin 4) (ad : AReg) (tok : Tok), runs (word 2 0 (q.val * 2 ^ 52 + ad.val * 2 ^ 35 + tokOf tok)) (.copy n q ad tok)) ∧
    (∀ (mode : TileMode) (b : Fin 2) (ad : AReg) (off : BitVec 15) (tok : Tok),
      runs (word 3 0 (mode.code * 2 ^ 52 + b.val * 2 ^ 51 + ad.val * 2 ^ 35 + off.toNat * 2 ^ 16 + tokOf tok)) (.tload n mode b ad off tok)) ∧
    (∀ (mode : TileMode) (rs rt : SReg) (ad : AReg) (tok : Tok),
      runs (word 5 2 (mode.code * 2 ^ 52 + rs.val * 2 ^ 44 + rt.val * 2 ^ 39 + ad.val * 2 ^ 35 + tokOf tok)) (.vrawst n mode rs rt ad tok)) ∧
    (∀ (k : Fin 8) (tag : Byte) (rs : SReg), runs (word 6 0 (k.val * 2 ^ 51 + tag.toNat * 2 ^ 43 + rs.val * 2 ^ 38)) (.padv n k tag rs)) ∧
    (∀ (peer : BitVec 6) (k : Fin 8) (tag : Byte) (rs : SReg) (tmo off : BitVec 16),
      runs (word 6 1 (peer.toNat * 2 ^ 48 + k.val * 2 ^ 45 + tag.toNat * 2 ^ 37 + rs.val * 2 ^ 32 + tmo.toNat * 2 ^ 16 + off.toNat))
        (.pwait n peer k tag rs tmo off)) ∧
    (∀ imm : BitVec 16, runs (word 8 0 imm.toNat) (.sysTrap n imm)) ∧
    (∀ (tgt rest : Nat), 4 ≤ tgt → tgt < 8 → rest < 2 ^ 51 → rest % 2 ^ 27 = 0 → WordRuns n.val s → (coreOf n.val s).vecs.length < 8 →
      ∃ t, exec (.illegalWord n (BitVec.ofNat 64 (word 5 1 (tgt * 2 ^ 51 + rest)))) s = .next t ∧
        t = trapCore n.val 0x0A 0 (word 5 1 (tgt * 2 ^ 51 + rest)) s)

/-- R207, R294, R295, R300, R301, R306, R308: the scheduler's commands. -/
def Obligations.SchedulerPlacesMonitorsAndSwitches : Prop :=
  (∀ (p : Fin 16) (j : Job) (m : Model) (area slot : Nat) (s : State),
    placeHeld p.val s = false → headJob p.val s = some j → findJob p.val j.num s = some j → j.st = .queued →
    (j.bg = true ∨ ∀ b, bindingOf j.stream s = some b → b.skipLate = false) → model j.model s = some m → (part p.val s).area = some area →
    (match j.slot with | some i => some i | none => freeSlot p.val s) = some slot → (∀ n ∈ j.place, (coreOf n s).flushing = false) → det s = false →
    m.cores ≤ (idleCores p.val s).length →
    let place := (idleCores p.val s).take m.cores
    ∃ t, exec (.jobStart p) s = .next t ∧
      (∃ j', findJob p.val j.num t = some j' ∧ j'.st = .running ∧ j'.place = place ∧ j'.live = place) ∧
      (∀ n ∈ place, (coreOf n t).job = some j.num ∧ (coreOf n t).part = p.val ∧ (coreOf n t).list = place ∧ (coreOf n t).loops = [] ∧
        Fam.get 0 1 (coreOf n t).s = BitVec.ofNat 32 j.num ∧ Fam.get 0 1 (coreOf n t).a = BitVec.ofNat 48 (area + slot * 512))) ∧
  (∀ (p : Fin 16) (num : Word) (j : Job) (s : State), findJob p.val num.toNat s = some j → j.bg = false → streamPart j.stream s = some p.val →
    ∃ t, exec (.monitorEval p num) s = .next t ∧ MemorySame s t ∧
      (overrun j (arbNs j s) s = false → rdF (strBase j.stream) 1 0 t = rdF (strBase j.stream) 1 0 s) ∧
      (overrun j (arbNs j s) s = true → hasDusk j.stream s = true → det s = false → rdF (strBase j.stream) 1 0 s = 0 →
        rdF (strBase j.stream) 1 0 t = 1 ∧ rdB (acctBase p.val + 0x84) 0 t = true)) ∧
  (∀ (st : Fin 64) (b : Binding) (s : State), bindingOf st.val s = some b → rdF (strBase st.val) 1 0 s = 1 →
    (∀ j ∈ s.jobs, j.stream = st.val → j.preDusk = false) → b.duskHoldMs * 625000 ≤ (s.time.c - (strm st.val s).overrunTick).toNat →
    ∃ t, exec (.duskExit st) s = .next t ∧ rdF (strBase st.val) 1 0 t = 0 ∧ (∀ k, k ≠ strBase st.val → rd k t = rd k s) ∧
      t = { s with regs := t.regs }) ∧
  (∀ (p : Fin 16) (w : Switch) (s : State), (part p.val s).switching = some w → (∀ j ∈ s.jobs, j.part = p.val → j.st ≠ .running) →
    ∃ t, exec (.modelSetSwitch p) s = .next t ∧ (part p.val t).switching = none ∧ (part p.val t).hold = false) ∧
  (∀ (p : Fin 16) (s : State), s.boot.restarting = false → (part p.val s).replan ≠ [] →
    ∃ t, exec (.replan p) s = .next t ∧ (part p.val t).replan = [] ∧ (part p.val t).freed = [] ∧
      (auditRoom s = true → t.flash.audit.length = s.flash.audit.length + 1))

/-- R446, R447, R453, R459: the resets of the module as a whole and what they keep. That a pulse between 1 µs and 10 µs may do either is a free choice (notes/assumptions/5.md). -/
def Obligations.ResetsOfTheModuleKeepFlashAndFuses : Prop :=
  (∀ s : State, ∃ t, exec .powerOn s = .next t ∧ (AfterReset true (if s.boot.powered then 0 else 3) s t ∧ t.boot.powered = true ∧ t.boot.held = s.boot.held)) ∧
  (∀ s : State, ∃ t, exec .brownout s = .next t ∧ (AfterReset true 3 s t ∧ t.boot.powered = false)) ∧
  (∀ (w : Nat) (s : State), s.boot.powered = true →
    (10000 ≤ w → ∃ t, exec (.modResetN w) s = .next t ∧ (AfterReset false 1 s t ∧ t.boot.held = true)) ∧
    (w < 1000 → exec (.modResetN w) s = .next s) ∧
    (1000 ≤ w → w < 10000 → ∃ t, exec (.modResetN w) s = .next t ∧ ((AfterReset false 1 (draw 1 s) t ∧ t.boot.held = true) ∨ t = draw 1 s))) ∧
  (∀ s : State, s.boot.held = true → s.boot.powered = true →
    (s.boot.osc = true → s.boot.refPresent = true → ∃ t, exec .modResetNRelease s = .next t ∧ (AfterReset false (rdF kSYS_BOOT 19 16 s) s t ∧ t.boot.held = false ∧ t.time.c = 0 ∧ t.time.running = true ∧
        ∀ d ∈ [0, 1, 2, 14, 15], domOn d t = true)) ∧
    (s.boot.osc = false → ∃ t, exec .modResetNRelease s = .next t ∧ (t = { s with boot := { s.boot with held := false } }))) ∧
  (∀ (fn : Fin 17) (v : Word) (s : State), hostReach fn.val s = true →
    (fn.val = 0 → expert s = true → bitOf 0 v = true → fld 15 8 v = 0xA5 → s.boot.osc = true → s.boot.refPresent = true →
      ∃ t, exec (.sysRstModule fn v) s = .next t ∧ (AfterReset false 2 s t ∧ t.time.c = 0 ∧ t.boot.held = false ∧
        ∀ d ∈ [0, 1, 2, 14, 15], domOn d t = true)) ∧
    (fn.val ≠ 0 ∨ expert s = false ∨ bitOf 0 v = false ∨ fld 15 8 v ≠ 0xA5 → exec (.sysRstModule fn v) s = .next s))

/-- R448: the boot order, step by step. PWR_STAT bits 0 and 7 are DAWN and MORNING. -/
def Obligations.StartUpFollowsTheStages : Prop :=
  (∀ s : State, s.boot.powered = true → s.boot.osc = false → s.boot.held = false →
    (∃ t, exec (.oscStable true) s = .next t ∧ (t.boot.osc = true ∧ t.time.running = true ∧ t.time.c = 0 ∧ rdB kCLK_STAT 3 t = true ∧
      (∀ d ∈ [0, 1, 2, 14, 15], domOn d t = true) ∧
      t = { s with boot := { s.boot with osc := true, refPresent := true }, time := t.time, regs := t.regs, pwr := t.pwr })) ∧
    (∃ t, exec (.oscStable false) s = .next t ∧ (t.boot.osc = true ∧ t.time.c = 0 ∧ rdB kCLK_STAT 2 t = true ∧ qual t = 4 ∧
      rdF kCLK_STAT 15 8 t = 3 ∧ FaultActive 0xB001 0 0xFF t))) ∧
  (∀ s : State, s.boot.osc = true → s.boot.held = false → s.boot.fwRunning = false → stage s = 0 ∨ s.boot.restarting = true → s.flash.fwPending = none →
    (fwAccepted s.flash.fwActiveB s = true → ∃ t, exec .bootFwVerified s = .next t ∧ (t.boot.fwRunning = true ∧ t.boot.slotB = s.flash.fwActiveB ∧ stage t = 1)) ∧
    (fwAccepted s.flash.fwActiveB s = false → ∃ t, exec .bootFwVerified s = .next t ∧ (t.boot.recovery = true ∧ t.boot.fwRunning = false ∧ stage t = 5 ∧ FaultActive 0x1002 0 0xFF t))) ∧
  (∀ s : State, s.boot.fwRunning = true → s.boot.restarting = false → stage s = 1 →
    ∃ t, exec .dawnSequence s = .next t ∧ (stage t = 2 ∧ t.boot.dawnDone = true ∧ rdB kPWR_STAT 0 t = true ∧ rdB kPWR_STAT 7 t = true ∧
      t.pwr.budget = noonMax s ∧ MemorySame s t ∧ t.flash = s.flash ∧ t.img = s.img)) ∧
  (∀ s : State, s.boot.fwRunning = true →
    (s.boot.restarting = false → stage s = 3 → ∃ t, exec .ready s = .next t ∧ (stage t = 4 ∧ t.pwr.wiping = [] ∧
      ∀ r ∈ imgRegions s.img, r.1 < 16 → inHbm r.2.1 = true → ∀ a, r.2.1 ≤ a → a ≤ r.2.2 → devByte a t = 0)) ∧
    (s.boot.restarting = true → (∀ p < 16, (part p s).replan = []) → ∃ t, exec .ready s = .next t ∧ (stage t = 4 ∧ t.boot.restarting = false ∧ MemorySame s t ∧ t.cores = s.cores)))

/-- R264: the Midnight wipe; R451, R452, R42: the steward's timers. SYS_BOOT bit 9 is FALLBACK, FIO_CAUSE bit 3 is FIRMWARE. -/
def Obligations.WipesRestartsAndUnlocksEnd : Prop :=
  (∀ (d : Fin 148) (s : State),
    (d.val ∉ s.pwr.wiping → ∃ t, exec (.midnightWipe d) s = .next t ∧ (MemorySame s t ∧ t.pwr = s.pwr)) ∧
    (d.val ∈ s.pwr.wiping → ∃ t, exec (.midnightWipe d) s = .next t ∧ (t.pwr.wiping = s.pwr.wiping.filter (· != d.val) ∧
      (50 ≤ d.val → d.val < 114 → d.val % 2 = 1 → ∀ a, devByte a t =
        if weightBank ((d.val - 50) / 2) ≤ a ∧ a < weightBank ((d.val - 50) / 2) + 0x400000 then 0 else devByte a s) ∧
      (34 ≤ d.val → d.val < 50 → ∀ a, devByte a t =
        if 0x1000000000 + (d.val - 34) / 4 * 0x2000000 ≤ a ∧ a < 0x1000000000 + (d.val - 34) / 4 * 0x2000000 + 0x1800000 ∧
          a / 64 % 32 / 8 = (d.val - 34) % 4 then 0 else devByte a s)))) ∧
  (∀ (b : Bool) (s : State), s.flash.fwPending = some b → s.boot.fwRunning = true → s.boot.slotB = b → isReady s = false →
    (1250000000 ≤ ticksSince s.boot.bootTick s → ∃ t, exec .fwPendingTimeout s = .next t ∧ (t.flash.fwPending = none ∧ rdB kSYS_BOOT 9 t = true ∧ FaultActive 0x1001 0 0xFF t ∧
      (fwAccepted (!b) s = true → t.boot.slotB = !b ∧ t.boot.fwRunning = true ∧ stage t = 1))) ∧
    (ticksSince s.boot.bootTick s < 1250000000 → exec .fwPendingTimeout s = .next s)) ∧
  (∀ s : State, s.boot.fwRunning = true → ∃ t, exec .stewardWatchdog s = .next t ∧ (t.boot.fwRunning = false ∧
    t.boot.restarting = (isReady s || s.boot.restarting) ∧ FaultActive 0x1003 0 0xFF t ∧ t.time = s.time ∧
    (s.ents = [] → s.reqs = [] → rdB kFIO_CAUSE 3 t = true ∧ night t = true ∧ MemorySame s t ∧ t.jobs = s.jobs))) ∧
  (∀ (u : BitVec 64) (s : State), s.svc.expertUntil = some u →
    (u.toNat ≤ (tick s).toNat → ∃ t, exec .expertUnlockTimeout s = .next t ∧ (expert t = false ∧ t.flash.expertOpen = false ∧ MemorySame s t)) ∧
    ((tick s).toNat < u.toNat → exec .expertUnlockTimeout s = .next s))

/-- R390: the resets of the bus. That VF Enable cleared resets the VFs is PRESUMED from SR-IOV, that FLR clears Bus Master Enable a DESIGN CHOICE (notes/assumptions/49.md). -/
def Obligations.BusEventsResetTheirFunctions : Prop :=
  let stopped := fun (fn : Nat) (t : State) => (ring fn t).busMaster = false ∧ (ring fn t).cmdTail = 0 ∧ (ring fn t).cplHead = 0 ∧ (ring fn t).fetched = [] ∧
    ringEn fn t = false ∧ rd (ringBase fn + oCPL_TAIL) t = 0 ∧ ∀ k, k < 7 → rd (ringBase fn + oINT_SRC + 4 * k) t = resetVal (ringBase fn + oINT_SRC + 4 * k)
  (∀ (fn : Fin 17) (s : State),
    (hostReach fn.val s = true → ∃ t, exec (.functionLevelReset fn) s = .next t ∧ (stopped fn.val t ∧ MemorySame s t ∧
      (fn.val = 0 → expert t = false) ∧
      (fn.val ≠ 0 → (ring fn.val t).held = (ring fn.val s).held ∧ ∀ g, g ≠ fn.val → ring g t = ring g s))) ∧
    (hostReach fn.val s = false → exec (.functionLevelReset fn) s = .next s)) ∧
  (∀ s : State, ∃ t, exec .perst s = .next t ∧ ((∀ fn, fn < 17 → stopped fn t) ∧ t.boot.linkUp = false ∧ t.boot.vfOn = false ∧
    expert t = false ∧ MemorySame s t ∧ t.cores = s.cores ∧ t.jobs = s.jobs)) ∧
  (∀ (fn : Fin 17) (s : State), hostReach fn.val s = true →
    (∃ t, exec (.busMasterDisable fn) s = .next t ∧ ((ring fn.val t).busMaster = false ∧ (∀ g, g ≠ fn.val → ring g t = ring g s) ∧ MemorySame s t ∧
      ((ring fn.val s).flushing = false → (ring fn.val s).busy = none → ringEn fn.val t = false) ∧
      (fn.val ≠ 0 → rdB (kPART_STATUS (fn.val - 1)) 6 t = false))) ∧
    (∃ t, exec (.busMasterEnable fn) s = .next t ∧ ((ring fn.val t).busMaster = true ∧ (∀ g, g ≠ fn.val → ring g t = ring g s) ∧ MemorySame s t ∧
      (fn.val ≠ 0 → rdB (kPART_STATUS (fn.val - 1)) 6 t = true)))) ∧
  (∀ s : State, s.boot.linkUp = true →
    (∃ t, exec (.vfEnable true) s = .next t ∧ (t = { s with boot := { s.boot with vfOn := true } })) ∧
    (∃ t, exec (.vfEnable false) s = .next t ∧ (t.boot.vfOn = false ∧ (∀ fn, 1 ≤ fn → fn < 17 → stopped fn t) ∧ ring 0 t = ring 0 s ∧ MemorySame s t))) ∧
  (∀ s : State,
    (domOn 14 s = true → domOn 15 s = true → stage s ≠ 0 → ∃ t, exec .pcieLinkUp s = .next t ∧ (t = { s with boot := { s.boot with linkUp := true } })) ∧
    (domOn 14 s = false ∨ domOn 15 s = false ∨ stage s = 0 → exec .pcieLinkUp s = .next s))

/-- R395, R396, R403: doorbells, EN, FLUSH and the timers of a ring. -/
def Obligations.DoorbellsAndRingControlActOnOneRing : Prop :=
  let others := fun (fn : Nat) (s t : State) => (∀ g, g ≠ fn → ring g t = ring g s) ∧ MemorySame s t ∧ t.cores = s.cores ∧ t.jobs = s.jobs
  (∀ (fn : Fin 17) (v : Word) (s : State), hostReach fn.val s = true →
    let b := ringBase fn.val
    ((v - rd (b + oCMD_HEAD) s).toNat ≤ ringSize fn.val oCMD_SIZE s →
      (∃ t, exec (.svcDbCmd fn v) s = .next t ∧ ((ring fn.val t).cmdTail = v ∧ others fn.val s t)) ∧
      (ringEn fn.val s = true → ringServed fn.val s = true → (ring fn.val s).busMaster = true → (ring fn.val s).flushing = false →
        fetchRoom fn.val s = true → (ring fn.val s).held = [] → v = rd (b + oCMD_HEAD) s + 1 →
        ∃ t, exec (.svcDbCmd fn v) s = .next t ∧ (rd (b + oCMD_HEAD) t = v ∧
          (ring fn.val t).fetched = (ring fn.val s).fetched ++ [Memory.read s.host (cmdAddr fn.val (rd (b + oCMD_HEAD) s).toNat s) 64]))) ∧
    (ringSize fn.val oCMD_SIZE s < (v - rd (b + oCMD_HEAD) s).toNat → ∃ t, exec (.svcDbCmd fn v) s = .next t ∧ (t = wrB (b + oRING_EVT) 0 true s)) ∧
    ((v - rd (b + oCPL_TAIL) s).toInt ≤ 0 → ∃ t, exec (.svcDbCpl fn v) s = .next t ∧ ((ring fn.val t).cplHead = v ∧ others fn.val s t)) ∧
    (0 < (v - rd (b + oCPL_TAIL) s).toInt → ∃ t, exec (.svcDbCpl fn v) s = .next t ∧ (t = wrB (b + oRING_EVT) 0 true s))) ∧
  (∀ (fn : Fin 17) (v : Word) (s : State), hostReach fn.val s = true → (ring fn.val s).flushing = false →
    (ringEn fn.val s = false → bitOf 0 v = true → (ring fn.val s).held = [] → ∃ t, exec (.svcRingCtlEn fn v) s = .next t ∧ (ringEn fn.val t = true ∧ (ring fn.val t).cmdTail = 0 ∧ (ring fn.val t).cplHead = 0 ∧ (ring fn.val t).fetched = [] ∧
        rd (ringBase fn.val + oCMD_HEAD) t = 0 ∧ rd (ringBase fn.val + oCPL_TAIL) t = 0 ∧ rdF (ringBase fn.val + oRING_CTL) 25 8 t = fld 25 8 v ∧
        others fn.val s t)) ∧
    (ringEn fn.val s = true → (ring fn.val s).busy = none → ∃ t, exec (.svcRingCtlFlush fn v) s = .next t ∧ (ringEn fn.val t = false ∧ (ring fn.val t).flushing = false ∧ (ring fn.val t).fetched = [] ∧ (ring fn.val t).held = (ring fn.val s).held ∧
        rdB (ringBase fn.val + oRING_STAT) 1 t = false ∧ others fn.val s t))) ∧
  (∀ (fn : Fin 17) (s : State),
    (∀ (d : SvcDesc) (k : Nat), (ring fn.val s).busy = some (.copy d k) → (ring fn.val s).flushing = true → s.pwr.wiping = [] → ∃ t, exec (.ringFlushGraceExpiry fn) s = .next t ∧ ((ring fn.val t).busy = none ∧ (ring fn.val t).flushing = false ∧ rd (ringBase fn.val + oFLUSH_LAST) t = wd (dTAG d * 65536 + stFLUSHED) ∧
        ∀ a, (a < dArg d 36 8 ∨ dArg d 36 8 + dLEN d ≤ a) → devByte a t = devByte a s)) ∧
    ((ring fn.val s).flushing = false → exec (.ringFlushGraceExpiry fn) s = .next s) ∧
    ((ring fn.val s).unsig ≠ 0 → rdF (ringBase fn.val + oRING_CTL) 25 16 s ≠ 0 → ∃ t, exec (.cplCoalesceTimeout fn) s = .next t ∧ ((ring fn.val t).unsig = 0 ∧ (ring fn.val t).held = (ring fn.val s).held ∧ others fn.val s t ∧ t.out = if bitOf 31 (rd (ringBase fn.val + oINT_SRC) s) ∧ (ring fn.val s).busMaster then
        .msix fn.val (fld 5 0 (rd (ringBase fn.val + oINT_SRC) s)) :: s.out else s.out)) ∧
    ((ring fn.val s).unsig = 0 → exec (.cplCoalesceTimeout fn) s = .next s) ∧
    (∀ (d : SvcDesc) (k : Nat), ringServed fn.val s = true → (ring fn.val s).busMaster = true → (ring fn.val s).busy = some (.copy d k) → dCMD d = 0x0003 →
      (ring fn.val s).fetched = [] → (ring fn.val s).held = [] → (ring fn.val s).cmdTail = rd (ringBase fn.val + oCMD_HEAD) s → ringEn fn.val s = true →
      (ring fn.val s).flushing = false → cplRoom fn.val s = true →
      ∃ t, exec (.completionTimeout fn) s = .next t ∧ (Answered fn.val d stHOST_ERR [] s t ∧ others fn.val s t)))

/-- R400: the checks of a descriptor in their order; R404: SVC_NOP. `SvcStarts` gathers the checks, `RingTakes` the state of the ring. -/
def Obligations.RingsCheckCommandsInTheirOrder : Prop :=
  let quiet := fun (s t : State) => t = { s with regs := t.regs, rings := t.rings, host := t.host, out := t.out, svc := { s.svc with turn := t.svc.turn } } ∧ RegsReported [] s t
  (∀ (fn : Fin 17) (d : SvcDesc) (h : HostIn) (s : State),
    (RingTakes fn.val (rowDesc 0x0001 d) s → fn.val ≠ 0 → partUsed (fn.val - 1) s = false → ∃ t, exec (.svcNop fn d h) s = .next t ∧ (Answered fn.val (rowDesc 0x0001 d) stNO_PARTITION [] s t ∧ quiet s t)) ∧
    (RingTakes fn.val (rowDesc 0x0002 d) s → fn.val ≠ 0 → partUsed (fn.val - 1) s = true → ∃ t, exec (.svcGetNonce fn d h) s = .next t ∧ (Answered fn.val (rowDesc 0x0002 d) stBAD_CMD [] s t ∧ quiet s t)) ∧
    (RingTakes 0 (rowDesc 0x0401 d) s → ∃ t, exec (.svcLoadModel 0 d h) s = .next t ∧ (Answered 0 (rowDesc 0x0401 d) stBAD_CMD [] s t ∧ quiet s t)) ∧
    (RingTakes 0 (rowDesc 0x0001 d) s → (∃ c, cmdRow 0x0001 = some c ∧ descBad 0 0x0001 c (rowDesc 0x0001 d) s = true) →
      ∃ t, exec (.svcNop 0 d h) s = .next t ∧ (Answered 0 (rowDesc 0x0001 d) stBAD_DESC [] s t ∧ quiet s t)) ∧
    (RingTakes 0 (rowDesc 0x0203 d) s → stage s ≠ 5 → dAUTH (rowDesc 0x0203 d) = 0 →
      (∃ c, cmdRow 0x0203 = some c ∧ descBad 0 0x0203 c (rowDesc 0x0203 d) s = false) →
      ∃ t, exec (.svcImageDiscard 0 d h) s = .next t ∧ (Answered 0 (rowDesc 0x0203 d) stAUTH_KEY [] s t ∧ quiet s t))) ∧
  (∀ (fn : Fin 17) (d : SvcDesc) (h : HostIn) (s : State), SvcStarts 0x0001 fn.val d h s →
    let s1 := svcState 0x0001 fn.val d h s; ∃ t, exec (.svcNop fn d h) s = .next t ∧ (Answered fn.val (rowDesc 0x0001 d) stOK (natLE 8 (nowNs s).toNat) s1 t ∧ quiet s t))

/-- R37, R40, R42, R405: the commands of roles, keys and fuses. ΔV after a new birth record is a free value not above the old (notes/assumptions/5.md). -/
def Obligations.AuthorisationAndKeysFollowTheirCommands : Prop :=
  let arg := fun (code : Nat) (d : SvcDesc) (o k : Nat) => dArg (rowDesc code d) o k
  (∀ (fn : Fin 17) (d : SvcDesc) (h : HostIn) (s : State),
    (SvcStarts 0x0002 fn.val d h s →
    let s1 := svcState 0x0002 fn.val d h s; ∃ t, exec (.svcGetNonce fn d h) s = .next t ∧ (∃ n, n.length = 16 ∧
      Answered fn.val (rowDesc 0x0002 d) stOK n s1 t ∧ SvcFrame s t ∧ t.flash = s.flash ∧
        t.svc = { s.svc with nonce := some n, nonceTick := tick s, turn := (fn.val + 1) % 17 })) ∧
    (SvcStarts 0x0101 fn.val d h s →
    let s1 := svcState 0x0101 fn.val d h s; ∃ t, exec (.svcExpertUnlock fn d h) s = .next t ∧ (Answered fn.val (rowDesc 0x0101 d) stOK [] s1 t ∧ SvcFrame s t ∧ t.flash.expertOpen = true ∧ t.svc.expertUntil =
        some (tick s + BitVec.ofNat 64 ((if arg 0x0101 d 36 4 = 0 then 3600 else arg 0x0101 d 36 4) * 625000000)))) ∧
    (SvcStarts 0x0102 fn.val d h s →
    let s1 := svcState 0x0102 fn.val d h s; ∃ t, exec (.svcExpertLock fn d h) s = .next t ∧ (Answered fn.val (rowDesc 0x0102 d) stOK [] s1 t ∧ SvcFrame s t ∧ t.flash.expertOpen = false ∧ expert t = false)) ∧
    (SvcStarts 0x0103 fn.val d h s →
    let s1 := svcState 0x0103 fn.val d h s; ∃ t, exec (.svcKeyInstall fn d h) s = .next t ∧ (Answered fn.val (rowDesc 0x0103 d) stOK [] s1 t ∧ SvcFrame s t ∧
        ∀ k, Fam.find k t.flash.keys = if k = arg 0x0103 d 36 1 then some (Memory.read s1.host (dDATA (rowDesc 0x0103 d)) 32) else Fam.find k s.flash.keys)) ∧
    (SvcStarts 0x0104 fn.val d h s →
    let s1 := svcState 0x0104 fn.val d h s; ∃ t, exec (.svcKeyRevoke fn d h) s = .next t ∧ (Answered fn.val (rowDesc 0x0104 d) stOK [] s1 t ∧ SvcFrame s t ∧
        ∀ k, Fam.find k t.flash.keys = if k = arg 0x0104 d 36 1 then none else Fam.find k s.flash.keys)) ∧
    (SvcStarts 0x0106 fn.val d h s →
    let s1 := svcState 0x0106 fn.val d h s; ∃ t, exec (.svcFuseBurn fn d h) s = .next t ∧ (Answered fn.val (rowDesc 0x0106 d) stOK [] s1 t ∧
      t = { s with regs := t.regs, rings := t.rings, host := t.host, out := t.out, flash := t.flash, svc := t.svc, fresh := t.fresh, fuses := t.fuses } ∧
      (arg 0x0106 d 36 1 = 0 → t.fuses = { s.fuses with fwSvn := arg 0x0106 d 37 1 } ∧ s.fuses.fwSvn < t.fuses.fwSvn ∧ t.flash.deltaV = s.flash.deltaV) ∧
      (arg 0x0106 d 36 1 = 1 → t.fuses.fwSvn = s.fuses.fwSvn ∧ t.flash.deltaV ≤ s.flash.deltaV ∧
        Fam.find (arg 0x0106 d 38 1) t.fuses.birth = some ((Memory.read s1.host (dDATA (rowDesc 0x0106 d)) 16).take 8)))))

/-- R401, R30: transfers and the round of the rings. 4 KiB a step is the model's choice (notes/assumptions/34.md). -/
def Obligations.TransfersMoveTheirBytes : Prop :=
  let tag := fun (fn : Nat) => if fn = 0 then 17 else fn - 1
  (∀ (fn : Fin 17) (d : SvcDesc) (h : HostIn) (s : State), SvcStarts 0x0003 fn.val d h s →
    let s1 := svcState 0x0003 fn.val d h s;
    let d' := rowDesc 0x0003 d
    let a := dArg d' 36 8
    (tagHolds (tag fn.val) a (dLEN d') rgtWrite s1 = false → ∃ t, exec (.svcCopyIn fn d h) s = .next t ∧ (Answered fn.val d' stREGION [] s1 t ∧ MemorySame s t ∧ SvcFrame s t)) ∧
    (tagHolds (tag fn.val) a (dLEN d') rgtWrite s1 = true → dLEN d' ≤ 4096 → s.pwr.wiping = [] → ∃ t, exec (.svcCopyIn fn d h) s = .next t ∧ (Answered fn.val d' stOK [] s1 t ∧ ∀ x, devByte x t = if a ≤ x ∧ x < a + dLEN d' then hostByte (dDATA d' + (x - a)) s1 else devByte x s)) ∧
    (tagHolds (tag fn.val) a (dLEN d') rgtWrite s1 = true → 4096 < dLEN d' → ∃ t, exec (.svcCopyIn fn d h) s = .next t ∧ ((ring fn.val t).busy = some (.copy d' 4096) ∧ MemorySame s t))) ∧
  (∀ (fn : Fin 17) (d : SvcDesc) (h : HostIn) (s : State), SvcStarts 0x0004 fn.val d h s →
    let s1 := svcState 0x0004 fn.val d h s;
    let d' := rowDesc 0x0004 d
    let a := dArg d' 36 8
    (tagHolds (tag fn.val) a (dLEN d') rgtRead s1 = false → ∃ t, exec (.svcCopyOut fn d h) s = .next t ∧ (Answered fn.val d' stREGION [] s1 t ∧ MemorySame s t ∧ SvcFrame s t)) ∧
    (tagHolds (tag fn.val) a (dLEN d') rgtRead s1 = true → dLEN d' ≤ 4096 → s.poison = [] → s.pwr.wiping = [] → Apart fn.val (dDATA d') (dLEN d') d' s1 →
      ∃ t, exec (.svcCopyOut fn d h) s = .next t ∧ (Answered fn.val d' stOK [] s1 t ∧ MemorySame s t ∧
        ∀ i, i < dLEN d' → hostByte (dDATA d' + i) t = devByte (a + i) s))) ∧
  (∀ (fn : Fin 17) (s : State), s.boot.fwRunning = true →
    (∀ g, g < 17 → (ring g s).held = [] ∧ (ring g s).cmdTail = rd (ringBase g + oCMD_HEAD) s) →
    ((∀ g, g < 17 → ringWork g s = false) → exec .stewardServiceStep s = .next s) ∧
    (∀ (d : SvcDesc) (k : Nat), s.svc.turn = fn.val → ringServed fn.val s = true → (ring fn.val s).busy = some (.copy d k) → k + 4096 < dLEN d →
      ∃ t, exec .stewardServiceStep s = .next t ∧ ((ring fn.val t).busy = some (.copy d (k + 4096)) ∧ t.svc.turn = (fn.val + 1) % 17 ∧ MemorySame s t)) ∧
    (∀ (d : SvcDesc) (r : List SvcDesc), s.svc.turn = fn.val → ringServed fn.val s = true → (ring fn.val s).busy = none → (ring fn.val s).fetched = d :: r →
      (ring fn.val s).flushing = false → mustWait fn.val d s = false → fn.val ≠ 0 → partUsed (fn.val - 1) s = false → ringEn fn.val s = true →
      (ring fn.val s).busMaster = true → cplRoom fn.val s = true → r = [] →
      ∃ t, exec .stewardServiceStep s = .next t ∧ (Answered fn.val d stNO_PARTITION [] s t ∧ (ring fn.val t).fetched = [] ∧ MemorySame s t)))

/-- R47, R58, R60, R62, R451: audit log, firmware slots and images. The status of firmware that fails verification is free (notes/assumptions/35.md). -/
def Obligations.AuditLogFirmwareAndImagesFollowTheirCommands : Prop :=
  (∀ (fn : Fin 17) (d : SvcDesc) (h : HostIn) (s : State), SvcStarts 0x0110 fn.val d h s →
    let s1 := svcState 0x0110 fn.val d h s;
    let d' := rowDesc 0x0110 d
    let rs := (s.flash.audit.filter fun r => decide (dArg d' 36 4 ≤ recSeq r) && mayRead fn.val (ring fn.val s1).auth.1 r).take (dArg d' 40 4)
    Apart fn.val (dDATA d') rs.flatten.length d' s1 → ∃ t, exec (.svcAuditRead fn d h) s = .next t ∧ (Answered fn.val d' stOK (natLE 4 rs.length) s1 t ∧ SvcFrame s t ∧ t.flash = s.flash ∧ Memory.read t.host (dDATA d') rs.flatten.length = rs.flatten)) ∧
  (∀ (d : SvcDesc) (h : HostIn) (s : State),
    (SvcStarts 0x0111 0 d h s →
    let s1 := svcState 0x0111 0 d h s; Apart 0 (dDATA (rowDesc 0x0111 d)) 65536 (rowDesc 0x0111 d) s1 → ∃ t, exec (.svcAuditExport 0 d h) s = .next t ∧ (Answered 0 (rowDesc 0x0111 d) stOK (natLE 4 s.flash.segNo) s1 t ∧ SvcFrame s t ∧ FlashSame s t ∧ t.flash.auditExported = true ∧
        Memory.read t.host (dDATA (rowDesc 0x0111 d)) 65536 = auditSegment t.flash)) ∧
    (SvcStarts 0x0112 0 d h s →
    let s1 := svcState 0x0112 0 d h s;
      (s.flash.auditExported = true → ∃ t, exec (.svcAuditSeal 0 d h) s = .next t ∧ (Answered 0 (rowDesc 0x0112 d) stOK (natLE 4 (s.flash.segNo + 1)) s1 t ∧
        SvcFrame s t ∧ t.flash.segNo = s.flash.segNo + 1 ∧ t.flash.segPrev = auditPrev s.flash ∧ t.flash.auditLost = 0 ∧ t.flash.audit.length ≤ 2)) ∧
      (s.flash.auditExported = false → ∃ t, exec (.svcAuditSeal 0 d h) s = .next t ∧ (Answered 0 (rowDesc 0x0112 d) stAUDIT_UNEXPORTED [] s1 t ∧ SvcFrame s t ∧ FlashSame s t))) ∧
    (SvcStarts 0x0105 0 d h s →
    let s1 := svcState 0x0105 0 d h s;
      let data := dataOf (rowDesc 0x0105 d) s1
      (fwGood data s = true → ∃ t, exec (.svcFwUpdate 0 d h) s = .next t ∧ (t.flash.fwPending = none ∧ SvcFrame s t ∧
        fwSlot (!s.flash.fwActiveB) t = none ∧ fwSlot s.flash.fwActiveB t = fwSlot s.flash.fwActiveB s ∧
        (ring 0 t).busy = some (.fwWrite (rowDesc 0x0105 d) data))) ∧
      (fwGood data s = false → ∃ t, exec (.svcFwUpdate 0 d h) s = .next t ∧ ((∃ st, 0 < st ∧ st < 65536 ∧ Answered 0 (rowDesc 0x0105 d) st [] s1 t) ∧
        SvcFrame s t ∧ t.flash.fwPending = none ∧ fwSlot s.flash.fwActiveB t = fwSlot s.flash.fwActiveB s))) ∧
    (SvcStarts 0x0201 0 d h s →
    let s1 := svcState 0x0201 0 d h s;
      let data := dataOf (rowDesc 0x0201 d) s1
      (∀ new, imgCheck 9 data s1 = .inr new → ∃ t, exec (.svcImageLoad 0 d h) s = .next t ∧ (t.flash.imgStaged = none ∧
        t.flash.stageNo = s.flash.stageNo ∧ t.flash.imgActive = s.flash.imgActive ∧ SvcFrame s t ∧
        ∃ no, no ≠ s.flash.stageNo ∧ (ring 0 t).busy = some (.staging (rowDesc 0x0201 d) data no))) ∧
      (∀ e, imgCheck 9 data s1 = .inl e → ∃ t, exec (.svcImageLoad 0 d h) s = .next t ∧ (SvcFrame s t ∧ FlashSame s t ∧
        Answered 0 (rowDesc 0x0201 d) e.status (imgResult e) s1 t))) ∧
    (SvcStarts 0x0203 0 d h s →
    let s1 := svcState 0x0203 0 d h s; ∃ t, exec (.svcImageDiscard 0 d h) s = .next t ∧ (t.flash.imgStaged = none ∧ t.flash.imgActive = s.flash.imgActive ∧
      SvcFrame s t ∧ Answered 0 (rowDesc 0x0203 d) stOK [] s1 t)) ∧
    (SvcStarts 0x0204 0 d h s →
    let s1 := svcState 0x0204 0 d h s;
      let b := (if dArg (rowDesc 0x0204 d) 36 1 = 0 then s.flash.imgActive else s.flash.imgStaged).getD []
      Apart 0 (dDATA (rowDesc 0x0204 d)) b.length (rowDesc 0x0204 d) s1 → ∃ t, exec (.svcImageRead 0 d h) s = .next t ∧ (SvcFrame s t ∧ t.flash = s.flash ∧ Answered 0 (rowDesc 0x0204 d) stOK (natLE 4 b.length) s1 t ∧
          Memory.read t.host (dDATA (rowDesc 0x0204 d)) b.length = b)) ∧
    (SvcStarts 0x0202 0 d h s →
    let s1 := svcState 0x0202 0 d h s;
      let no := wd (dArg (rowDesc 0x0202 d) 36 4)
      (∀ b new, commitCheck no s1 = .inr (b, new) → ∃ t, exec (.svcImageCommit 0 d h) s = .next t ∧ (t.flash.imgActive = some b ∧ t.flash.imgStaged = none ∧ t.flash.committing = true ∧ SvcFrame s t ∧
          (ring 0 t).busy = some (.applying (rowDesc 0x0202 d)))) ∧
      (∀ e, commitCheck no s1 = .inl e → ∃ t, exec (.svcImageCommit 0 d h) s = .next t ∧ (SvcFrame s t ∧ FlashSame s t ∧
        Answered 0 (rowDesc 0x0202 d) e.status (imgResult e) s1 t)))) ∧
  (∀ (d : SvcDesc) (s : State), s.boot.fwRunning = true → (∀ g, g < 17 → (ring g s).held = [] ∧ (ring g s).cmdTail = rd (ringBase g + oCMD_HEAD) s) →
    s.svc.turn = 0 → ringServed 0 s = true →
    (∀ data no, (ring 0 s).busy = some (.staging d data no) → ∃ t, exec .stewardServiceStep s = .next t ∧ (t.flash.imgStaged = some data ∧
      t.flash.stageNo = no ∧ t.flash.imgActive = s.flash.imgActive ∧ (ring 0 t).busy = none ∧ SvcFrame s t)) ∧
    (∀ data, (ring 0 s).busy = some (.fwWrite d data) → ∃ t, exec .stewardServiceStep s = .next t ∧ (t.flash.fwPending = some (!s.flash.fwActiveB) ∧
      fwSlot (!s.flash.fwActiveB) t = some data ∧ fwSlot s.flash.fwActiveB t = fwSlot s.flash.fwActiveB s ∧ (ring 0 t).busy = none ∧
      (s.boot.recovery = false → t.boot.fwRunning = false ∧ FaultActive 0x1003 0 0xFF t))) ∧
    (∀ b l, (ring 0 s).busy = some (.applying d) → s.flash.imgActive = some b → imgSecs b = .inr l → ∃ t, exec .stewardServiceStep s = .next t ∧ (t.img = l.map ISec.sec ∧ t.flash.committing = false ∧ t.flash.imgActive = some b ∧ (ring 0 t).busy = none)))

/-- R56, R82, R86, R117, R297, R425: the service commands of streams. PWR_STAT bit 7 is MORNING; FES_STAT.PEND shows a pending commit. -/
def Obligations.StreamCommandsActOnTheirStream : Prop :=
  (∀ (fn : Fin 17) (d : SvcDesc) (h : HostIn) (p : Nat) (s : State), SvcStarts 0x0301 fn.val d h s →
    let s1 := svcState 0x0301 fn.val d h s;
    let st := dArg (rowDesc 0x0301 d) 36 1
    ownStream fn.val st s1 = some p → (strm st s1).started = false → startBad p st s1 = none →
    (∀ ns, staleCores p s1 = ns → ns ≠ [] → ∃ t, exec (.svcStartStream fn d h) s = .next t ∧ ((ring fn.val t).busy = some (.startStream (rowDesc 0x0301 d) ns) ∧ rdB kPWR_STAT 7 t = true ∧ t.strms = s.strms)) ∧
    (staleCores p s1 = [] → admitSet p (setWith p st s1) s1 = none → ∃ t, exec (.svcStartStream fn d h) s = .next t ∧ ((strm st t).started = true)) ∧
    (∀ r, staleCores p s1 = [] → admitSet p (setWith p st s1) s1 = some r → ∃ t, exec (.svcStartStream fn d h) s = .next t ∧ (Answered fn.val (rowDesc 0x0301 d) stREFUSED_FIT (refuseBytes r) s1 t ∧ SvcFrame s t ∧ FlashSame s t))) ∧
  (∀ (fn : Fin 17) (d : SvcDesc) (h : HostIn) (p : Nat) (s : State), SvcStarts 0x0302 fn.val d h s →
    let s1 := svcState 0x0302 fn.val d h s;
    let st := dArg (rowDesc 0x0302 d) 36 1
    ownStream fn.val st s1 = some p → ∃ t, exec (.svcStopStream fn d h) s = .next t ∧ ((strm st t).started = false ∧ (ring fn.val t).busy = none)) ∧
  (∀ (fn : Fin 17) (d : SvcDesc) (h : HostIn) (s : State), SvcStarts 0x0303 fn.val d h s →
    let s1 := svcState 0x0303 fn.val d h s;
    let sec := secOf s1.img 0x21 (dArg (rowDesc 0x0303 d) 36 2)
    (sec = none → ∃ t, exec (.svcRecipeSelect fn d h) s = .next t ∧ (Answered fn.val (rowDesc 0x0303 d) stREFUSED_CFG (natLE 2 0xFFFF) s1 t ∧ SvcFrame s t)) ∧
    (∀ b i, sec = some b → ((recPairs b).findIdx? fun x => pairBad (recPairs b) x s1) = some i → ∃ t, exec (.svcRecipeSelect fn d h) s = .next t ∧ (Answered fn.val (rowDesc 0x0303 d) stREFUSED_CFG (natLE 2 i) s1 t ∧ SvcFrame s t)) ∧
    (∀ b x st, sec = some b → recPairs b = [x] → pairBad [x] x s1 = false → recReg x.1 = some (.fe st) → ∃ t, exec (.svcRecipeSelect fn d h) s = .next t ∧ (Answered fn.val (rowDesc 0x0303 d) stOK [] s1 t ∧
        rd x.1 t = (rd x.1 s &&& ~~~ wd (fesMask (x.1 - fes st))) ||| (wd x.2 &&& wd (fesMask (x.1 - fes st))) ∧ rdB (fes st + 4) fsPEND t = true))) ∧
  (∀ (fn : Fin 17) (d : SvcDesc) (h : HostIn) (p : Nat) (s : State), SvcStarts 0x0304 fn.val d h s →
    let s1 := svcState 0x0304 fn.val d h s;
    let st := dArg (rowDesc 0x0304 d) 36 1
    ownStream fn.val st s1 = some p →
    (camUp st s1 = false → ∃ t, exec (.svcCamCtrl fn d h) s = .next t ∧ (Answered fn.val (rowDesc 0x0304 d) stLINK_DOWN [] s1 t ∧ SvcFrame s t)) ∧
    (camUp st s1 = true → (cport st s1).outst = [] → (cport st s1).waiting = [] → ∃ t, exec (.svcCamCtrl fn d h) s = .next t ∧ ((∃ seq, (ring fn.val t).busy = some (.camCtrl (rowDesc 0x0304 d) st seq)) ∧ ∃ r, (cport st t).outst = [r] ∧ r.fn = fn.val ∧ r.op = camOp (rowDesc 0x0304 d)))) ∧
  (∀ (fn : Fin 17) (d : SvcDesc) (h : HostIn) (p : Nat) (s : State), SvcStarts 0x0305 fn.val d h s →
    let s1 := svcState 0x0305 fn.val d h s;
    let st := dArg (rowDesc 0x0305 d) 36 1
    ownStream fn.val st s1 = some p → st < 64 → laneFirst st s1 < 64 →
    (inQuar st s1 = false → ∃ t, exec (.svcLaneQuarantine fn d h) s = .next t ∧ (inQuar st t = true ∧ camUp st t = false ∧ FaultActive 0x5003 st p t)) ∧
    (inQuar st s1 = true → ∃ t, exec (.svcLaneQuarantine fn d h) s = .next t ∧ (Answered fn.val (rowDesc 0x0305 d) stOK [] s1 t ∧ SvcFrame s t))) ∧
  (∀ (fn : Fin 17) (d : SvcDesc) (h : HostIn) (p : Nat) (s : State), SvcStarts 0x0306 fn.val d h s →
    let s1 := svcState 0x0306 fn.val d h s;
    let st := dArg (rowDesc 0x0306 d) 36 1
    ownStream fn.val st s1 = some p → st < 64 → laneFirst st s1 < 64 → ∃ t, exec (.svcLaneRelease fn d h) s = .next t ∧ (inQuar st t = false ∧ Answered fn.val (rowDesc 0x0306 d) stOK [] s1 t))

/-- R289 to R291, R162, R425: the service commands of models and cores, and the Morning check. The self-test's outcome is a free bit (notes/assumptions/5.md). -/
def Obligations.ModelAndCoreCommandsActOnTheirPartition : Prop :=
  (∀ (fn : Fin 17) (d : SvcDesc) (h : HostIn) (key : List Byte) (s : State), SvcStarts 0x0401 fn.val d h s →
    let s1 := svcState 0x0401 fn.val d h s;
    let d' := rowDesc 0x0401 d
    let a := dArg d' 36 8
    let data := dataOf d' s1
    loadBad (fn.val - 1) a data s1 = .inr key → tagHolds (fn.val - 1) a data.length rgtWrite s1 = true → s.pwr.wiping = [] → ∃ t, exec (.svcLoadModel fn d h) s = .next t ∧ (∃ g, model g t = some (pkModel (fn.val - 1) a key data) ∧ (∀ g', g' ≠ g → model g' t = model g' s) ∧ Answered fn.val d' stOK (natLE 2 g) s1 t ∧
        ∀ x, devByte x t = if a ≤ x ∧ x < a + data.length then data.getD (x - a) 0 else devByte x s)) ∧
  (∀ (fn : Fin 17) (d : SvcDesc) (h : HostIn) (s : State), SvcStarts 0x0402 fn.val d h s →
    let s1 := svcState 0x0402 fn.val d h s;
    let g := dArg (rowDesc 0x0402 d) 36 2
    ownModel (fn.val - 1) g s1 = true → modelBound g s1 = false → (∀ j ∈ s1.jobs, j.model ≠ g) → ∃ t, exec (.svcUnloadModel fn d h) s = .next t ∧ (model g t = none ∧ (∀ g', g' ≠ g → model g' t = model g' s) ∧ MemorySame s t ∧ Answered fn.val (rowDesc 0x0402 d) stOK [] s1 t)) ∧
  (∀ (fn : Fin 17) (d : SvcDesc) (h : HostIn) (p : Nat) (s : State), SvcStarts 0x0403 fn.val d h s →
    let s1 := svcState 0x0403 fn.val d h s;
    let st := dArg (rowDesc 0x0403 d) 36 1
    let b := bindArgs (rowDesc 0x0403 d)
    ownStream fn.val st s1 = some p → (∀ g ∈ bindModels b ++ bindDusks b, ownModel (fn.val - 1) g s1 = true) → (strm st s1).started = false →
      ∃ t, exec (.svcBindStream fn d h) s = .next t ∧ (Fam.find st t.binds = some b ∧ ∀ st', st' ≠ st → Fam.find st' t.binds = Fam.find st' s.binds)) ∧
  (∀ (fn : Fin 17) (d : SvcDesc) (h : HostIn) (s : State), SvcStarts 0x0404 fn.val d h s →
    let s1 := svcState 0x0404 fn.val d h s;
    (partActive (fn.val - 1) s1 = false → ∃ t, exec (.svcSchedArea fn d h) s = .next t ∧ ((part (fn.val - 1) t).area = some (dArg (rowDesc 0x0404 d) 36 8) ∧ Answered fn.val (rowDesc 0x0404 d) stOK [] s1 t ∧
        (∀ p, p ≠ fn.val - 1 → part p t = part p s) ∧ MemorySame s t)) ∧
    (partActive (fn.val - 1) s1 = true → ∃ t, exec (.svcSchedArea fn d h) s = .next t ∧ (Answered fn.val (rowDesc 0x0404 d) stREFUSED_BUSY [] s1 t ∧ SvcFrame s t))) ∧
  (∀ (fn : Fin 17) (d : SvcDesc) (h : HostIn) (s : State), SvcStarts 0x0405 fn.val d h s →
    let s1 := svcState 0x0405 fn.val d h s;
    let n := dArg (rowDesc 0x0405 d) 36 1
    (quarantined n s1 = false → ∃ t, exec (.svcCoreRelease fn d h) s = .next t ∧ (Answered fn.val (rowDesc 0x0405 d) stOK [] s1 t ∧ SvcFrame s t ∧ FlashSame s t)) ∧
    (quarantined n s1 = true → ∃ t, exec (.svcCoreRelease fn d h) s = .next t ∧ ((Answered fn.val (rowDesc 0x0405 d) stSELFTEST_FAIL [] s1 t ∧ SvcFrame s t ∧ t.flash.quar = s.flash.quar) ∨
      ((ring fn.val t).busy = some (.coreRelease (rowDesc 0x0405 d) n) ∧ rdB kPWR_STAT 7 t = true ∧ quarantined n t = false ∧
        ∀ m, m < 32 → m ≠ n → quarantined m t = quarantined m s)))) ∧
  (∀ (fn : Fin 17) (d : SvcDesc) (h : HostIn) (s : State), SvcStarts 0x0406 fn.val d h s →
    let s1 := svcState 0x0406 fn.val d h s;
    (restCores s1 = [] → ∃ t, exec (.svcMorningCheck fn d h) s = .next t ∧ (Answered fn.val (rowDesc 0x0406 d) stOK (zeros 4) s1 t ∧ SvcFrame s t)) ∧
    (restCores s1 ≠ [] → ∃ t, exec (.svcMorningCheck fn d h) s = .next t ∧ ((ring fn.val t).busy = some (.morning (rowDesc 0x0406 d) (restCores s1)) ∧ rdB kPWR_STAT 7 t = true ∧ SvcFrame s t))) ∧
  (∀ (rs : List CheckReading) (s : State), s.boot.fwRunning = true → s.boot.restarting = false →
    (stage s = 2 → ∃ t, exec (.morningCheck rs) s = .next t ∧ (stage t = 3 ∧ rdB kPWR_STAT 7 t = false ∧ t.flash.mcCount = s.flash.mcCount + 1 ∧
      s.flash.deltaV ≤ t.flash.deltaV)) ∧
    (∀ (d : SvcDesc) (ns : List Nat), stage s ≠ 2 → (ring 0 s).busy = some (.morning d ns) → (∀ n ∈ ns, (coreOf n s).job = none) →
      ∃ t, exec (.morningCheck rs) s = .next t ∧ ((ring 0 t).busy = none ∧ rdB kPWR_STAT 7 t = false ∧ t.flash.mcCount = s.flash.mcCount + 1)) ∧
    (stage s ≠ 2 → (ring 0 s).busy = none → exec (.morningCheck rs) s = .next s))

/-- R123, R124, R129, R135, R139: the commands of the strip codec. CDS_STAT.STATE: 0 Idle, 1 Recording, 2 Held, 3 Replaying, 4 Calibrating. -/
def Obligations.CodecCommandsMoveTheirSlot : Prop :=
  (∀ (fn : Fin 17) (d : SvcDesc) (h : HostIn) (p : Nat) (s : State), SvcStarts 0x0501 fn.val d h s →
    let s1 := svcState 0x0501 fn.val d h s;
    let n := dArg (rowDesc 0x0501 d) 36 1
    let st := dArg (rowDesc 0x0501 d) 37 1
    ownSlot fn.val n s1 = some p → streamPart st s1 = some p → st < 64 →
    ((strm st s1).replay = none → cdsState n s1 = 0 ∨ cdsState n s1 = 2 → ∃ t, exec (.svcRecStart fn d h) s = .next t ∧ (cdsState n t = 1 ∧ (cds n t).held = [] ∧ rdF (cdsBase n) 13 8 t = st ∧ MemorySame s t ∧ Answered fn.val (rowDesc 0x0501 d) stOK [] s1 t)) ∧
    (cdsState n s1 = 1 ∨ cdsState n s1 = 3 ∨ cdsState n s1 = 4 → ∃ t, exec (.svcRecStart fn d h) s = .next t ∧ (SvcFrame s t ∧ Answered fn.val (rowDesc 0x0501 d) stCODEC_BUSY [] s1 t))) ∧
  (∀ (fn : Fin 17) (d : SvcDesc) (h : HostIn) (p : Nat) (s : State), SvcStarts 0x0502 fn.val d h s →
    let s1 := svcState 0x0502 fn.val d h s;
    let n := dArg (rowDesc 0x0502 d) 36 1
    ownSlot fn.val n s1 = some p →
    (cdsState n s1 = 1 → feRuns (rdF (cdsBase n) 13 8 s1) s1 = false → ∃ t, exec (.svcRecStop fn d h) s = .next t ∧ (cdsState n t = (if (cds n s).held.isEmpty then 0 else 2) ∧ (cds n t).held = (cds n s).held ∧ Answered fn.val (rowDesc 0x0502 d) stOK [] s1 t)) ∧
    (cdsState n s1 ≠ 1 → ∃ t, exec (.svcRecStop fn d h) s = .next t ∧ (SvcFrame s t ∧ Answered fn.val (rowDesc 0x0502 d) stCODEC_BUSY [] s1 t))) ∧
  (∀ (fn : Fin 17) (d : SvcDesc) (h : HostIn) (p st : Nat) (s : State), SvcStarts 0x0503 fn.val d h s →
    let s1 := svcState 0x0503 fn.val d h s;
    let n := dArg (rowDesc 0x0503 d) 36 1
    ownSlot fn.val n s1 = some p →
    (cdsState n s1 = 2 → cdsTarget n s1 = some st → (strm st s1).started = false → (strm st s1).replay = none → replayFits n st s1 = true →
      startBad p st s1 = none → ∃ t, exec (.svcReplayStart fn d h) s = .next t ∧ (cdsState n t = 3 ∧ (strm st t).replay = some n)) ∧
    (cdsState n s1 ≠ 2 → ∃ t, exec (.svcReplayStart fn d h) s = .next t ∧ (SvcFrame s t ∧ Answered fn.val (rowDesc 0x0503 d) stCODEC_BUSY [] s1 t))) ∧
  (∀ (fn : Fin 17) (d : SvcDesc) (h : HostIn) (p st : Nat) (s : State), SvcStarts 0x0504 fn.val d h s →
    let s1 := svcState 0x0504 fn.val d h s;
    let n := dArg (rowDesc 0x0504 d) 36 1
    ownSlot fn.val n s1 = some p →
    (cdsState n s1 = 3 → cdsTarget n s1 = some st → ∃ t, exec (.svcReplayStop fn d h) s = .next t ∧ (cdsState n t = 2 ∧ (strm st t).replay = none ∧ (ring fn.val t).busy = none)) ∧
    (cdsState n s1 ≠ 3 → ∃ t, exec (.svcReplayStop fn d h) s = .next t ∧ (SvcFrame s t ∧ Answered fn.val (rowDesc 0x0504 d) stCODEC_BUSY [] s1 t))) ∧
  (∀ (d : SvcDesc) (h : HostIn) (p : Nat) (s : State), SvcStarts 0x0505 0 d h s →
    let s1 := svcState 0x0505 0 d h s;
    let n := dArg (rowDesc 0x0505 d) 36 1
    ownSlot 0 n s1 = some p → cdsState n s1 = 2 → rdB kCAL 8 s1 = false → 1 < dArg (rowDesc 0x0505 d) 37 1 ∨ rdB (cdsBase n) 3 s1 = false →
    ∃ t, exec (.svcCalRun 0 d h) s = .next t ∧ (cdsState n t = 4 ∧ rdB kCAL 8 t = true ∧ rdF kCAL 3 0 t = n ∧
      (ring 0 t).busy = some (.cal (rowDesc 0x0505 d)) ∧ MemorySame s t)) ∧
  (∀ (d : SvcDesc) (s : State), rdB kCAL 8 s = true → cdsState (rdF kCAL 3 0 s) s = 4 → (ring 0 s).busy = some (.cal d) →
    ∃ t, exec .calRunDone s = .next t ∧ (cdsState (rdF kCAL 3 0 s) t = 2 ∧ rdB kCAL 8 t = false ∧ (ring 0 t).busy = none ∧
      ((cds (rdF kCAL 3 0 s) s).held = [] → ringEn 0 s = true → (ring 0 s).busMaster = true → (ring 0 s).flushing = false → (ring 0 s).held = [] →
        cplRoom 0 s = true → s.flash.audit.length < 649 → s.flash.auditRO = false → Answered 0 d stCAL_SHORT (zeros 8) s t)))

/-- R325 to R327, R332, R346, R349: the commands of the ledger and the position sources. -/
def Obligations.LedgerAndSourceCommandsSetTheirRegisters : Prop :=
  (∀ (fn : Fin 17) (d : SvcDesc) (h : HostIn) (p : Nat) (s : State), SvcStarts 0x0601 fn.val d h s →
    let s1 := svcState 0x0601 fn.val d h s;
    let d' := rowDesc 0x0601 d
    let st := dArg d' 36 1
    ownStream fn.val st s1 = some p → st < 64 → bitOf 1 (wd (dArg d' 40 4)) = false → ∃ t, exec (.svcLedgerCfg fn d h) s = .next t ∧ (Answered fn.val d' stOK [] s1 t ∧ SvcFrame { s with force := t.force } t ∧ rdForce (ldsBase st + 4) t = wd (dArg d' 44 4) ∧
        rdForce (ldsBase st + 8) t = wd (dArg d' 38 2) ∧ rdForce (ldsBase st + 0xC) t = wd (dArg d' 48 2) ∧ rdForce (ldsBase st + 0x10) t = wd (dArg d' 50 2) ∧
        rdForce (ldsBase st + 0x14) t = wd (dArg d' 52 4) ∧ rdForce (ldsBase st + 0x18) t = wd (dArg d' 56 2))) ∧
  (∀ (fn : Fin 17) (d : SvcDesc) (h : HostIn) (s : State), SvcStarts 0x0602 fn.val d h s →
    let s1 := svcState 0x0602 fn.val d h s; fn.val ≠ 0 →
    let d' := rowDesc 0x0602 d
    ∃ t, exec (.svcLedgerLog fn d h) s = .next t ∧ (Answered fn.val d' stOK [] s1 t ∧ SvcFrame s t ∧
      rd (ldpBase (fn.val - 1)) t = wd (dArg d' 36 8) ∧ rd (ldpBase (fn.val - 1) + 8) t = wd (dArg d' 44 4) ∧
      RegsReported [ldpBase (fn.val - 1), ldpBase (fn.val - 1) + 4, ldpBase (fn.val - 1) + 8] s t)) ∧
  (∀ (fn : Fin 17) (d : SvcDesc) (h : HostIn) (s : State), SvcStarts 0x0603 fn.val d h s →
    let s1 := svcState 0x0603 fn.val d h s;
    let d' := rowDesc 0x0603 d
    ∃ t, exec (.svcEncMirror fn d h) s = .next t ∧ (Answered fn.val d' stOK [] s1 t ∧ SvcFrame { s with mirrors := t.mirrors } t ∧ RegsReported [] s t ∧
      ∀ p, Fam.find p t.mirrors = if p = fn.val - 1 then
        (if dArg d' 44 4 = 0 then none else some { addr := dArg d' 36 8, period := dArg d' 44 4 }) else Fam.find p s.mirrors)) ∧
  (∀ (d : SvcDesc) (h : HostIn) (s : State), SvcStarts 0x0604 0 d h s →
    let s1 := svcState 0x0604 0 d h s;
    let i := dArg (rowDesc 0x0604 d) 36 1
    (srcUsed i s1 = false → ∃ t, exec (.svcEncPreset 0 d h) s = .next t ∧ (Answered 0 (rowDesc 0x0604 d) stOK [] s1 t ∧
      encPos i t = wd (dArg (rowDesc 0x0604 d) 40 4) ∧ SvcFrame { s with srcs := t.srcs, cmprs := t.cmprs } t ∧ ∀ j, j < 6 → j ≠ i → encPos j t = encPos j s)) ∧
    (srcUsed i s1 = true → ∃ t, exec (.svcEncPreset 0 d h) s = .next t ∧ (Answered 0 (rowDesc 0x0604 d) stREFUSED_BUSY [] s1 t ∧
      SvcFrame s t ∧ ∀ j, j < 6 → encPos j t = encPos j s))) ∧
  (∀ (d : SvcDesc) (h : HostIn) (s : State), SvcStarts 0x0605 0 d h s →
    let s1 := svcState 0x0605 0 d h s;
    let d' := rowDesc 0x0605 d
    ∃ t, exec (.svcEncCompare 0 d h) s = .next t ∧ (Answered 0 d' stOK [] s1 t ∧ SvcFrame { s with cmprs := t.cmprs } t ∧ RegsReported [] s t ∧
      cmpr (dArg d' 36 1) t = Cmpr.mk ((dArg d' 39 1).testBit 0) ((dArg d' 39 1).testBit 1) (dArg d' 37 1) (dArg d' 38 1) (dArg d' 40 4)
        (dArg d' 44 2) (dArg d' 46 2) (encPos (dArg d' 37 1) s) (encPos (dArg d' 38 1) s) 0 false ∧
      ∀ c, c ≠ dArg d' 36 1 → cmpr c t = cmpr c s)) ∧
  (∀ (d : SvcDesc) (h : HostIn) (s : State), SvcStarts 0x0606 0 d h s →
    let s1 := svcState 0x0606 0 d h s;
    let c := cmpr (dArg (rowDesc 0x0606 d) 36 1) s
    ∃ t, exec (.svcEncCompareRead 0 d h) s = .next t ∧ (SvcFrame s t ∧ RegsReported [] s t ∧
      Answered 0 (rowDesc 0x0606 d) stOK (natLE 4 (wdi c.e).toNat ++ natLE 1 (b2n c.en + 2 * b2n c.out)) s1 t))

/-- R357 to R364, R455: the commands of the field island, the mailbox and the faults. -/
def Obligations.FieldMailboxAndFaultCommands : Prop :=
  (∀ (d : SvcDesc) (h : HostIn) (s : State), SvcStarts 0x0701 0 d h s →
    s.ents = [] → s.reqs = [] →
    ∃ t, exec (.svcNightfallEnter 0 d h) s = .next t ∧ (night t = true ∧ rdB kFIO_CAUSE 2 t = true ∧ MemorySame s t ∧
      (night s = false → FaultActive 0x9002 0 0xFF t ∧ rdF kFIO_CAUSE 11 8 t = if rdF kFIO_CAUSE 3 0 s = 0 then 2 else rdF kFIO_CAUSE 11 8 s))) ∧
  (∀ (d : SvcDesc) (h : HostIn) (s : State), SvcStarts 0x0702 0 d h s →
    let s1 := svcState 0x0702 0 d h s; night s = true →
    (rdB kFIO_STAT 3 s = true → ∃ t, exec (.svcNightfallClear 0 d h) s = .next t ∧ (night t = false ∧ t.dos = [] ∧ t.reqs = [] ∧
      rd kFIO_CAUSE t = 0 ∧ Answered 0 (rowDesc 0x0702 d) stOK [] s1 t)) ∧
    (rdB kFIO_STAT 3 s = false → ∃ t, exec (.svcNightfallClear 0 d h) s = .next t ∧ (night t = true ∧ SvcFrame s t ∧
      Answered 0 (rowDesc 0x0702 d) stREFUSED_BUSY [] s1 t))) ∧
  (∀ (d : SvcDesc) (h : HostIn) (s : State), SvcStarts 0x0703 0 d h s →
    let s1 := svcState 0x0703 0 d h s;
    let o := dArg (rowDesc 0x0703 d) 36 1
    (night s = true → ∃ t, exec (.svcDoTest 0 d h) s = .next t ∧ (Answered 0 (rowDesc 0x0703 d) stNIGHTFALL [] s1 t ∧ SvcFrame s t)) ∧
    (night s = false → groupOwner (o / 4) s = none → ∃ t, exec (.svcDoTest 0 d h) s = .next t ∧ (Answered 0 (rowDesc 0x0703 d) stOK [] s1 t ∧
      ((doSt o t).isSome = true ∨ ∃ r ∈ t.reqs, r.d = o) ∧ t.ents = s.ents))) ∧
  (∀ (d : SvcDesc) (h : HostIn) (s : State),
    (SvcStarts 0x0705 0 d h s →
    let s1 := svcState 0x0705 0 d h s; let d' := rowDesc 0x0705 d
      ∃ t, exec (.svcMbxWrite 0 d h) s = .next t ∧ (Answered 0 d' stOK [] s1 t ∧ RegsReported [] s t ∧
        ∀ x, devByte x t = if mailbox + dArg d' 36 2 ≤ x ∧ x < mailbox + dArg d' 36 2 + dLEN d' then (dataOf d' s1).getD (x - (mailbox + dArg d' 36 2)) 0
          else devByte x s)) ∧
    (SvcStarts 0x0704 0 d h s →
    let s1 := svcState 0x0704 0 d h s; let d' := rowDesc 0x0704 d
      s.poison = [] → Apart 0 (dDATA d') (dLEN d') d' s1 → ∃ t, exec (.svcMbxRead 0 d h) s = .next t ∧ (Answered 0 d' stOK [] s1 t ∧ MemorySame s t ∧
        SvcFrame s t ∧ ∀ i, i < dLEN d' → hostByte (dDATA d' + i) t = devByte (mailbox + dArg d' 36 2 + i) s))) ∧
  (∀ (d : SvcDesc) (h : HostIn) (s : State), SvcStarts 0x0801 0 d h s →
    let s1 := svcState 0x0801 0 d h s;
    let d' := rowDesc 0x0801 d
    ((∀ f ∈ s.faults, ackedFault d' f = false) → ∃ t, exec (.svcFaultAck 0 d h) s = .next t ∧ (Answered 0 d' stOK [] s1 t ∧ t.faults = s.faults ∧ SvcFrame s t)) ∧
    (∀ f, s.faults.find? (ackedFault d') = some f → f.code ∉ [0x9001, 0xB007, 0x1002, 0x1005, 0x3001] →
      ∃ t, exec (.svcFaultAck 0 d h) s = .next t ∧ (Answered 0 d' stOK [] s1 t ∧ t.faults = s.faults.filter fun g => !ackedFault d' g)))

/-- R6 to R9, R17, R20, R34, R167, R371, R389: register accesses of the host. -/
def Obligations.RegisterAccessesFollowTheRegister : Prop :=
  let writes := fun (fn : Fin 17) (off : Nat) (k : Nat) (s : State) =>
    hostReach fn.val s = true ∧ off % 4 = 0 ∧ regKey fn.val off = some k ∧ writeReach fn.val k s = true
  (∀ (fn : Fin 17) (off : Nat) (v : Word) (be : BitVec 4) (s : State),
    (hostReach fn.val s = false ∨ be ≠ 15 ∨ off % 4 ≠ 0 ∨ regKey fn.val off = none ∨ (∃ k, regKey fn.val off = some k ∧ writeReach fn.val k s = false)) →
      exec (.registerWrite fn off v be) s = .next s) ∧
  (∀ (fn : Fin 17) (off k : Nat) (v : Word) (s : State), writes fn off k s →
    (∀ (st : Fin 64) (o : Nat), k = fes st.val + o → o < 0x200 → fesMask o ≠ 0 →
      ∃ t, exec (.registerWrite fn off v 15) s = .next t ∧ (OnlyRegs s t ∧ RegsSameBut (fun j => j == k) s t ∧
        rd k t = ((rd k s &&& ~~~ wd (fesMask o)) ||| (v &&& wd (fesMask o))))) ∧
    (∀ m, (k, m) ∈ [(kFAULT_EVT, 0x3), (kCLK_EVT, 0xF), (kPWR_EVT, 0x3F), (kFIO_EVT, 0x7), (kTIME_EVT, 0x7)] →
      ∃ t, exec (.registerWrite fn off v 15) s = .next t ∧ (OnlyRegs s t ∧ RegsSameBut (fun j => j == k) s t ∧
        rd k t = rd k s &&& ~~~ (v &&& wd m))) ∧
    ((∃ x, blkOf k = .str x) ∨ blkOf k = .sup → exec (.registerWrite fn off v 15) s = .next s)) ∧
  (∀ (fn : Fin 17) (off k : Nat) (s : State), hostReach fn.val s = true → off % 4 = 0 → regKey fn.val off = some k → readReach fn.val k s = true →
    (isLoCounter k = true → ∃ t, exec (.counterLoRead fn off) s = .next t ∧ (t = { s with regs := t.regs, readData := [(cntGet k s).setWidth 32] } ∧
      rd (k + 4) t = (cntGet k s >>> 32).setWidth 32 ∧ RegsSameBut (fun j => j == k + 4) s t)) ∧
    (isLoCounter k = false → k ∉ [kTIME_NOW_FRAC, kTIME_NOW_LO, kTIME_NOW_HI, kTIME_TICK_LO, kTIME_TICK_HI, kFIO_DI] →
      exec (.counterLoRead fn off) s = .next { s with readData := [rd k s] }) ∧
    (k = kTIME_NOW_HI → exec (.counterLoRead fn off) s = .next { s with readData := [(Fam.get 0 fn.val s.time.nowLatch >>> 48).setWidth 32] }) ∧
    (k = kTIME_NOW_FRAC → exec (.counterLoRead fn off) s = .next { s with readData := [((Fam.get 0 fn.val s.time.nowLatch).setWidth 16).setWidth 32] }) ∧
    (k = kTIME_TICK_HI → exec (.counterLoRead fn off) s = .next { s with readData := [(Fam.get 0 fn.val s.time.tickLatch >>> 32).setWidth 32] }) ∧
    (k = kTIME_NOW_LO → exec (.counterLoRead fn off) s = exec (.timeNowLoRead fn) s) ∧
    (k = kTIME_TICK_LO → exec (.counterLoRead fn off) s = exec (.timeTickLoRead fn) s) ∧
    (k = kFIO_DI → exec (.counterLoRead fn off) s =
      .next { s with readData := [if fn.val = 0 then rd k s else rd k s &&& wd (cfg 0x10 (fn.val - 1) 8 2 s)] })) ∧
  (∀ (fn : Fin 17) (off : Nat) (s : State), hostReach fn.val s = true →
    (off % 4 ≠ 0 ∨ regKey fn.val off = none ∨ (∃ k, regKey fn.val off = some k ∧ readReach fn.val k s = false)) →
      exec (.counterLoRead fn off) s = .next { s with readData := [0] }) ∧
  (∀ (fn : Fin 17) (s : State), hostReach fn.val s = true →
    (timeReach fn.val s = true → ∃ t, exec (.timeNowLoRead fn) s = .next t ∧ (t = { s with time := { s.time with nowLatch := t.time.nowLatch }, readData := [(nowNs s).setWidth 32] } ∧
        ∀ g, Fam.get 0 g t.time.nowLatch = if g = fn.val then nowFrac s else Fam.get 0 g s.time.nowLatch)) ∧
    (gateEn 5 s = true → fn.val = 0 → expert s = true → ∃ t, exec (.timeTickLoRead fn) s = .next t ∧ (t = { s with time := { s.time with tickLatch := t.time.tickLatch }, readData := [s.time.c.setWidth 32] } ∧
        Fam.get 0 0 t.time.tickLatch = s.time.c)) ∧
    (timeReach fn.val s = false → exec (.timeNowLoRead fn) s = .next { s with readData := [0] }) ∧
    (gateEn 5 s = false ∨ fn.val ≠ 0 ∨ expert s = false → exec (.timeTickLoRead fn) s = .next { s with readData := [0] }))

/-- R118, R119, R284, R285, R332, R369: the commits. That FES_TBL_CTL.START reads the table at once is DEDUCED (the manual gives the load no reading order). -/
def Obligations.CommitsTakeTheirShadowsTogether : Prop :=
  (∀ (v : Word) (s : State), hostReach 0 s = true →
    let step := (rd kTIME_STEP_HI s).toNat * 2 ^ 32 + (rd kTIME_STEP_LO s).toNat
    (expert s = true → gateEn 5 s = true → bitOf 0 v = true → rdB kTIME_CTL 0 s = true → ptpUsed s = false →
      ∃ t, exec (.timeCommitGo 0 v) s = .next t ∧ (nowFrac t = nowFrac s + BitVec.ofNat 80 (step * 65536) ∧ t.time.c = s.time.c ∧
        t.time.rate = rd kTIME_RATE_ADJ s ∧ rdForce kTIME_RATE_ADJ t = rd kTIME_RATE_ADJ s ∧ rd kTIME_STEP_LO t = 0 ∧ rd kTIME_STEP_HI t = 0 ∧
        rd kTIME_CNT_STEP t = rd kTIME_CNT_STEP s + (if step = 0 then 0 else 1) ∧ (step ≠ 0 → rdB kTIME_EVT 0 t = true) ∧
        RegsReported [kTIME_STEP_LO, kTIME_STEP_HI, kTIME_CNT_STEP, kTIME_EVT] s t ∧ t.faults = s.faults ∧ MemorySame s t)) ∧
    (expert s = false ∨ bitOf 0 v = false ∨ rdB kTIME_CTL 0 s = false ∨ ptpUsed s = true → exec (.timeCommitGo 0 v) s = .next s)) ∧
  (∀ (v : Word) (s : State), hostReach 0 s = true → expert s = true → bitOf 0 v = true →
    let refused := ((upTo 16).any fun p => decide (partState p s = 2 ∨ partState p s = 3)) = true ∨ 240 < ((upTo 16).map fun t => fld 31 24 (rd (kARB_TAG t) s)).foldl (· + ·) 0 ∨ arbInRange s = false
    (refused → ∃ t, exec (.arbCommitGo 0 v) s = .next t ∧ (OnlyRegs s t ∧ rdB kARB_STAT 1 t = true ∧ RegsSameBut (fun j => j == kARB_STAT) s t)) ∧
    (¬ refused → ∃ t, exec (.arbCommitGo 0 v) s = .next t ∧ (t = { s with regs := t.regs, force := t.force, ports := t.ports } ∧
      rdForce kARB_GLOBAL t = rd kARB_GLOBAL s ∧ (∀ i, i < 16 → rdForce (kARB_TAG i) t = rd (kARB_TAG i) s) ∧
      (∀ k, k < 10 → (port k t).deficit = [] ∧ (port k t).turn = 0 ∧ (port k t).oot = [] ∧ (port k t).waiting.length = (port k s).waiting.length) ∧
      rdB kARB_STAT 0 t = false ∧ rdB kARB_STAT 1 t = false ∧ rdB kARB_STAT 2 t = det s))) ∧
  (∀ (fn : Fin 17) (st : Fin 64) (v : Word) (s : State), hostReach fn.val s = true →
    (fesReach fn.val st.val s = true → bitOf 0 v = true →
      (∃ t, exec (.fesCommitGo fn st v) s = .next t ∧ (t = { s with regs := t.regs, fes := t.fes } ∧ RegsSameBut (fun j => j == fes st.val + 4) s t ∧
        rdB (fes st.val + 4) fsPEND t = true ∧ (bitOf 1 v = true → rdB (fes st.val + 4) fsTBLPEND t = true ∧ (fe st.val t).swap = true) ∧
        (bitOf 1 v = false → t.fes = s.fes))) ∧
      (∃ t, exec (.fesCommitTbl fn st v) s = .next t ∧ (t = { s with regs := t.regs, fes := t.fes } ∧ RegsSameBut (fun j => j == fes st.val + 4) s t ∧
        rdB (fes st.val + 4) fsPEND t = true ∧ rdB (fes st.val + 4) fsTBLPEND t = true ∧ fe st.val t = { fe st.val s with swap := true }))) ∧
    (fesReach fn.val st.val s = false ∨ bitOf 0 v = false → exec (.fesCommitGo fn st v) s = .next s ∧ exec (.fesCommitTbl fn st v) s = .next s)) ∧
  (∀ (fn : Fin 17) (st : Fin 64) (v : Word) (s : State), hostReach fn.val s = true →
    let a := (rd (fes st.val + 0x74) s).toNat / 64 * 64 + rdF (fes st.val + 0x78) 15 0 s * 2 ^ 32
    let n := tableLen st.val s
    fesReach fn.val st.val s = true → bitOf 0 v = true → (fe st.val s).calLoad = false → s.pwr.wiping = [] →
      (∀ x ∈ linesOf a n, reaches mFe (st.val / 4) (feTag st.val s) x.1 x.2 false s = true ∧ poisonedWords x.1 x.2 s = []) →
      ∃ t, exec (.fesTblCtlStart fn st v) s = .next t ∧ (t = { s with regs := t.regs, fes := t.fes } ∧
        (fe st.val t).loading = some (memRead a n s) ∧ rdB (fes st.val + 0x7C) tbBUSY t = true ∧ rdB (fes st.val + 0x7C) tbREADY t = false ∧
        rdB (fes st.val + 0x7C) tbERR t = false ∧ rdB (fes st.val + 4) fsTBLRDY t = false)) ∧
  (∀ (st : Fin 64) (bs : List Byte) (s : State), (fe st.val s).loading = some bs →
    ∃ t, exec (.tableLoadDone st) s = .next t ∧ (t = { s with regs := t.regs, fes := t.fes } ∧ (fe st.val t).loading = none ∧ (fe st.val t).calLoad = false ∧
      rdB (fes st.val + 0x7C) tbBUSY t = false ∧ (fe st.val t).active = (fe st.val s).active ∧
      (if bs = [] then (fe st.val t).pending = none ∧ rdB (fes st.val + 0x7C) tbERR t = true
       else (fe st.val t).pending = some bs ∧ rdB (fes st.val + 0x7C) tbREADY t = true ∧ rdB (fes st.val + 4) fsTBLRDY t = true))) ∧
  (∀ (fn : Fin 17) (st : Fin 64) (p : Nat) (v : Word) (s : State), hostReach fn.val s = true → ldsReach fn.val st.val s = true → bitOf 0 v = true →
    streamPart st.val s = some p →
    (ldsOk st.val p s = true → ∃ t, exec (.ldsCommitGo fn st v) s = .next t ∧ (t = { s with regs := t.regs, force := t.force } ∧
      (∀ o ∈ [0, 4, 8, 0xC, 0x10, 0x14, 0x18], rdForce (ldsBase st.val + o) t = rd (ldsBase st.val + o) s) ∧
      (∀ k, (∀ o ∈ [0, 4, 8, 0xC, 0x10, 0x14, 0x18], k ≠ ldsBase st.val + o) → rdForce k t = rdForce k s) ∧
      RegsSameBut (fun j => j == ldsBase st.val + 0x20) s t ∧ rdB (ldsBase st.val + 0x20) 0 t = false ∧ rdB (ldsBase st.val + 0x20) 1 t = false)) ∧
    (ldsOk st.val p s = false → ∃ t, exec (.ldsCommitGo fn st v) s = .next t ∧ (OnlyRegs s t ∧ rdB (ldsBase st.val + 0x20) 1 t = true ∧
      RegsSameBut (fun j => j == ldsBase st.val + 0x20) s t)))

/-- R314, R324, R325, R357. -/
def Obligations.LatchesPresetsAndHeartbeat : Prop :=
  let latched := fun (p : Nat) (s t : State) =>
    (∀ i, i < 14 → rd (acctBase p + 0x10 + 8 * i) t = (acctNow p (0x10 + 8 * i) s).setWidth 32 ∧
      rd (acctBase p + 0x10 + 8 * i + 4) t = (acctNow p (0x10 + 8 * i) s >>> 32).setWidth 32) ∧
    rd (acctBase p + 8) t = (nowNs s).setWidth 32 ∧ rd (acctBase p + 0xC) t = (nowNs s >>> 32).setWidth 32 ∧ rdB (acctBase p + 4) 0 t = true
  (∀ (fn : Fin 17) (p : Fin 16) (v : Word) (s : State), hostReach fn.val s = true →
    (bitOf 0 v = true → (fn.val = 0 ∧ expert s = true ∨ fn.val = p.val + 1 ∧ partUsed p.val s = true) →
      ∃ t, exec (.acctLatchGo fn p v) s = .next t ∧ (OnlyRegs s t ∧ latched p.val s t ∧
        RegsSameBut (fun k => decide (acctBase p.val < k) && decide (k < acctBase p.val + 0x80)) s t)) ∧
    ((fn.val ≠ 0 ∧ fn.val ≠ p.val + 1) ∨ bitOf 0 v = false → exec (.acctLatchGo fn p v) s = .next s)) ∧
  (∀ (v : Word) (s : State), hostReach 0 s = true → expert s = true → bitOf 0 v = true →
    ∃ t, exec (.acctModLatch 0 v) s = .next t ∧ (OnlyRegs s t ∧ (∀ p, p < 16 → latched p s t) ∧
      (∀ o ∈ [0, 8], rd (kACCT_MOD + o) t = (cntGet (kACCT_MOD + o) s).setWidth 32 ∧ rd (kACCT_MOD + o + 4) t = (cntGet (kACCT_MOD + o) s >>> 32).setWidth 32) ∧
      RegsSameBut (fun k => decide (0x180000 ≤ k) && decide (k < 0x186010)) s t)) ∧
  (∀ (v : Word) (s : State), hostReach 0 s = true → expert s = true → gateEn 6 s = true → bitOf 0 v = true →
    ∃ t, exec (.motSnapGo 0 v) s = .next t ∧ (OnlyRegs s t ∧ rd (ledBase + 8) t = (nowNs s).setWidth 32 ∧ rd (ledBase + 0xC) t = (nowNs s >>> 32).setWidth 32 ∧
      (∀ i, i < 6 → rd (ledBase + 0x10 + 4 * i) t = encPos i s ∧ rd (ledBase + 0x28 + 4 * i) t = rd (kSPEED i) s) ∧
      RegsSameBut (fun k => decide (ledBase + 8 ≤ k) && decide (k < ledBase + 0x40)) s t)) ∧
  (∀ (v : Word) (s : State), hostReach 0 s = true → expert s = true → gateEn 6 s = true →
    (∀ i : Fin 4,
      (srcUsed i.val s = false → ∃ t, exec (.encPreset 0 i v) s = .next t ∧ (t = { s with regs := t.regs, srcs := t.srcs, cmprs := t.cmprs } ∧ encPos i.val t = v ∧
        rdB (srcBase i.val + 0xC) 1 t = true ∧ RegsSameBut (fun k => k == kPOS i.val || k == srcBase i.val + 0xC) s t ∧
        (∀ j, j ≠ i.val → msrc j t = msrc j s))) ∧
      (srcUsed i.val s = true → ∃ t, exec (.encPreset 0 i v) s = .next t ∧ (OnlyRegs s t ∧ rdB (srcBase i.val + 0xC) 2 t = true ∧
        RegsSameBut (fun k => k == srcBase i.val + 0xC) s t))) ∧
    (∀ j : Fin 2,
      (srcUsed (4 + j.val) s = false → ∃ t, exec (.ssiPreset 0 j v) s = .next t ∧ (t = { s with regs := t.regs, srcs := t.srcs, cmprs := t.cmprs } ∧
        encPos (4 + j.val) t = v ∧ RegsSameBut (fun k => k == kPOS (4 + j.val)) s t ∧ (∀ i, i ≠ 4 + j.val → msrc i t = msrc i s))) ∧
      (srcUsed (4 + j.val) s = true → exec (.ssiPreset 0 j v) s = .next s))) ∧
  (∀ s : State,
    (s.boot.fwRunning = true → ∃ t, exec (.fioHb true) s = .next t ∧ (t = { s with regs := t.regs, fio := { s.fio with hbTick := tick s } } ∧
      rdB kFIO_STAT 2 t = true ∧ rd (supBase + 0x18) t = rd (supBase + 0x18) s + 1 ∧
      RegsSameBut (fun k => [kFIO_STAT, supBase + 0x18, supPfBase, kSUP_STAT, kSYS_GSTAT].contains k) s t)) ∧
    exec (.fioHb false) s = .next s)

/-- R357, R359 to R366: the supervisor port. The entry conditions of NIGHT_REQ (no entry or request open) only keep the statement short; entries that end then write their records. -/
def Obligations.SupervisorTransactionsMoveTheirWords : Prop :=
  let port := fun (s t : State) => t = { s with regs := t.regs, readData := t.readData, fio := { s.fio with mbxBusy := false } } ∧
    rd (supPfBase + 0x10) t = rd (supPfBase + 0x10) s + 1
  let regsBut := fun (s t : State) => RegsSameBut (fun k => [supPfBase, supPfBase + 0xC, supPfBase + 0x10, kSUP_STAT, kSYS_GSTAT].contains k) s t
  let reads := fun (addr : BitVec 16) (n : Nat) (s : State) (o : Host.Outcome State Fault Refusal) =>
    (addr.toNat % 4 = 0 → addr.toNat + 4 * n ≤ 0x4000 → poisonedIn (mailbox + addr.toNat) (4 * n) s = false →
      ∃ t, o = .next t ∧ (port s t ∧ regsBut s t ∧ t.readData = (upTo n).map fun i => wd (leNat (Memory.read s.mem (mailbox + addr.toNat + 4 * i) 4)))) ∧
    (addr.toNat % 4 = 0 → 0x400C ≤ addr.toNat → addr.toNat + 4 * n ≤ 0x401C →
      ∃ t, o = .next t ∧ (port s t ∧ regsBut s t ∧ t.readData = (upTo n).map fun i => rd (supBase + (addr.toNat - 0x4000) + 4 * i) s))
  let writes := fun (addr : BitVec 16) (bs : List Byte) (s : State) (o : Host.Outcome State Fault Refusal) =>
    (addr.toNat % 4 = 0 → addr.toNat + bs.length / 4 * 4 ≤ 0x4000 →
      ∃ t, o = .next t ∧ (t = { s with regs := t.regs, mem := t.mem, poison := t.poison, fio := { s.fio with mbxBusy := false } } ∧ regsBut s t ∧
        rd (supPfBase + 0x10) t = rd (supPfBase + 0x10) s + 1 ∧
        Memory.read t.mem (mailbox + addr.toNat) (bs.length / 4 * 4) = bs.take (bs.length / 4 * 4) ∧
        MemorySameBut (mailbox + addr.toNat) (bs.length / 4 * 4) s t ∧
        (bs.length % 4 ≠ 0 → rdB kSUP_STAT 1 t = true ∧ rd (supPfBase + 0xC) t = rd (supPfBase + 0xC) s + 1)))
  (∀ (addr : BitVec 16) (n : Nat) (s : State), supUp s = true →
    reads addr n s (exec (.qspiRead addr n none) s) ∧ reads addr n s (exec (.qspiQuadRead addr n none) s)) ∧
  (∀ (addr : BitVec 16) (bs : List Byte) (s : State), supUp s = true →
    writes addr bs s (exec (.qspiWrite addr bs none) s) ∧ writes addr bs s (exec (.qspiQuadWrite addr bs none) s)) ∧
  (∀ (addr : BitVec 16) (n : Nat) (bs : List Byte) (v : Word) (c : Option Collision) (s : State), supUp s = false →
    ∀ x ∈ [Instr.qspiRead addr n c, .qspiQuadRead addr n c, .qspiWrite addr bs c, .qspiQuadWrite addr bs c, .qspiReadStatus, .supCtlNightReq v, .supCtlClear v],
      exec x s = .next s) ∧
  (∀ s : State, supUp s = true → ∃ t, exec .qspiReadStatus s = .next t ∧ (port s t ∧ regsBut s t ∧ t.readData = [rd kSUP_STAT s &&& 0xFF] ∧
    rd kSUP_STAT t = rd kSUP_STAT s &&& ~~~ 0x23 ∧ rd supPfBase t = rd kSUP_STAT t)) ∧
  (∀ (v : Word) (s : State), supUp s = true → s.ents = [] → s.reqs = [] → bitOf 0 v = true → bitOf 1 v = false →
    ∃ t, exec (.supCtlNightReq v) s = .next t ∧ (night t = true ∧ rdB kFIO_CAUSE 1 t = true ∧ rd kSUP_CTL t = v &&& 5 ∧ rdB kFIO_STAT 3 t = false ∧
      MemorySame s t ∧ (night s = false → FaultActive 0x9002 0 0xFF t ∧ rd kFIO_CNT_NF t = rd kFIO_CNT_NF s + 1))) ∧
  (∀ (v : Word) (s : State), supUp s = true → bitOf 0 v = false → night s = true →
    (rdB kFIO_STAT 2 s = true → s.fio.fwUpdate = false → ∃ t, exec (.supCtlClear v) s = .next t ∧ (night t = false ∧ t.dos = [] ∧ t.reqs = [] ∧
      rd kFIO_CAUSE t = 0 ∧ t.fio.startNight = false ∧ MemorySame s t ∧ t.ents = s.ents ∧ t.faults = s.faults)) ∧
    (rdB kFIO_STAT 2 s = false ∨ s.fio.fwUpdate = true → ∃ t, exec (.supCtlClear v) s = .next t ∧ (OnlyRegs s t ∧ night t = true ∧
      rd kFIO_CAUSE t = rd kFIO_CAUSE s ∧ rdB kSUP_CTL 0 t = false))) ∧
  (∀ s : State, s.boot.fwRunning = true → poisonedIn (mailbox + 0x2000) 4 s = false →
    let seq := (Memory.le s.mem (mailbox + 0x2000) 4 + 1) % 2 ^ 32
    ∃ t, exec .mbxStatusUpdate s = .next t ∧ (t = { s with mem := t.mem, poison := t.poison } ∧ MemorySameBut (mailbox + 0x2000) 0x20 s t ∧
      Memory.le t.mem (mailbox + 0x2000) 4 = seq ∧ Memory.le t.mem (mailbox + 0x201C) 4 = seq ∧
      Memory.le t.mem (mailbox + 0x2010) 4 = s.ents.length % 2 ^ 32 ∧ Memory.le t.mem (mailbox + 0x2004) 4 = (rd (supBase + 0x18) s).toNat))

/-- R258 to R262, R119. -/
def Obligations.ScrubsRecordWhatTheyFind : Prop :=
  (∀ (a : Nat) (e : EccEvent) (s : State), scrubs a s = true →
    ∃ t, exec (.scrubPass (.mem a) e) s = .next t ∧ (t = { s with regs := t.regs, rings := t.rings, host := t.host, out := t.out, faults := t.faults, poison := t.poison, eccHour := t.eccHour } ∧
      (e ≠ .uncorrectable → t.poison = s.poison) ∧
      (e = .uncorrectable → (∀ w, w ∈ t.poison ↔ w = (if inMailbox a then a / 4 * 4 else a / 8 * 8) ∨ w ∈ s.poison) ∧
        (inScratch a = true → FaultActive 0x8001 (scratchCore a) ((coreOwner (scratchCore a) s).getD 0xFF) t) ∧
        (inCluster a = true → FaultActive 0x8002 ((a - 0x1000000000) / 0x2000000) ((regionOwner (a / 8 * 8) s).getD 0xFF) t) ∧
        (inHbm a = true → FaultActive 0x8003 (hbmPlace (a / 8 * 8) s).1 ((regionOwner (a / 8 * 8) s).getD 0xFF) t)) ∧
      (e = .clean → OnlyRegs s t ∧ RegsSameBut (fun k => (inHbm a && (k == hbmBase (hbmPlace a s).1 || k == hbmBase (hbmPlace a s).1 + 0x1C)) ||
        (inScratch a && k == coreBase (scratchCore a) + 0x200)) s t) ∧
      (e = .corrected → inCluster a = true → rd (cluBase ((a - 0x1000000000) / 0x2000000) + 8) t = rd (cluBase ((a - 0x1000000000) / 0x2000000) + 8) s + 1 ∧
        rdB (cluBase ((a - 0x1000000000) / 0x2000000) + 4) 0 t = true) ∧
      (e = .corrected → inHbm a = true → rd (hbmBase (hbmPlace a s).1 + 8) t = rd (hbmBase (hbmPlace a s).1 + 8) s + 1 ∧
        rdB (hbmBase (hbmPlace a s).1 + 4) 0 t = true) ∧
      (e = .stackCorrected → inHbm a = true → rd (hbmBase (hbmPlace a s).1 + 0xC) t = rd (hbmBase (hbmPlace a s).1 + 0xC) s + 1))) ∧
  (∀ (a : Nat) (e : EccEvent) (s : State), scrubs a s = false → exec (.scrubPass (.mem a) e) s = .next s) ∧
  (∀ (st : Fin 64) (s : State),
    exec (.scrubPass (.table st) .clean) s = .next s ∧
    (tableUp st.val s = true → ∃ t, exec (.scrubPass (.table st) .corrected) s = .next t ∧ (OnlyRegs s t ∧ RegsSameBut (fun k => k == feBase (st.val / 4) + 8) s t ∧
      rd (feBase (st.val / 4) + 8) t = rd (feBase (st.val / 4) + 8) s + 1)) ∧
    (tableUp st.val s = true → ∃ t, exec (.scrubPass (.table st) .uncorrectable) s = .next t ∧ ((fe st.val t).eccLine = true ∧ rdB (fes st.val + 8) 6 t = true ∧ MemorySame s t ∧
      (∀ p, streamPart st.val s = some p → FaultActive 0x6001 st.val p t))))

/-- R251, R269 to R278, R281. How many lines a revoked burst had moved is a free value (the manual gives no number), so the statement leaves the count of wasted lines open. -/
def Obligations.PortsGrantByClassDeficitAndSlot : Prop :=
  (∀ (pt : ArbPoint) (b : Burst) (s : State),
    let x := newBurst b s
    let at1 := updArb pt.no (fun p => { p with waiting := p.waiting ++ [x] }) s
    (burstOk b s = false ∨ (burstPath b s).head? ≠ some pt.no → exec (.burstRequest pt b) s = .next s) ∧
    (burstOk b s = true → (burstPath b s).head? = some pt.no →
      ((port pt.no s).holder = none ∨ det s = true ∨ srcDeadline b s = false →
        ∃ t, exec (.burstRequest pt b) s = .next t ∧ (t = { s with ports := t.ports } ∧ (∀ k, k ≠ pt.no → port k t = port k s) ∧
          port pt.no t = { port pt.no s with waiting := (port pt.no s).waiting ++ [x] })) ∧
      (∀ h, (port pt.no s).holder = some h → det s = false → srcDeadline b s = true → h.deadline = false → sealedBurst h s = false →
        (∀ y ∈ (port pt.no s).waiting, y.deadline = false) → 0 < Fam.get 0 b.tag.val (port pt.no s).deficit → hasRoom x at1 = true →
        ∃ t, exec (.burstRequest pt b) s = .next t ∧ (let first := h.path.headD pt.no
          t = { s with ports := t.ports, regs := t.regs, cnt := t.cnt, banks := t.banks, fresh := s.fresh + 1 } ∧
          (∀ k, k ≠ pt.no → k ≠ first → port k t = port k s) ∧ (port pt.no t).holder = some { x with charge := b.len } ∧
          (port first t).waiting = { h with leg := 0, count := h.count + 1, isSealed := h.isSealed || decide (revokeLimit s ≤ h.count + 1), charge := 0 } ::
            (port first s).waiting)))) ∧
  (∀ (pt : ArbPoint) (s : State),
    (det s = true → exec (.burstGrant pt) s = .next s) ∧
    (det s = false → (port pt.no s).waiting = [] → (∀ x, (port pt.no s).holder = some x → nextPoint x = none) →
      ∃ t, exec (.burstGrant pt) s = .next t ∧ (t = { s with ports := t.ports, cnt := t.cnt } ∧
      (port pt.no t).holder = none ∧ (∀ k, k ≠ pt.no → port k t = port k s) ∧
      (∀ x, (port pt.no s).holder = some x → pt.no < 2 → cntGet (hbmBase pt.no + 0x20) t = cntGet (hbmBase pt.no + 0x20) s + BitVec.ofNat 64 (64 * x.b.len)))) ∧
    (∀ x j, det s = false → (port pt.no s).waiting = [] → (port pt.no s).holder = some x → nextPoint x = some j → j ≠ pt.no → (port j s).holder = none →
      ∃ t, exec (.burstGrant pt) s = .next t ∧ (t = { s with ports := t.ports, cnt := t.cnt } ∧ (port pt.no t).holder = none ∧
        (port j t).holder = none ∧ (port j t).waiting = (port j s).waiting ++ [{ x with leg := x.leg + 1, charge := 0 }])) ∧
    (∀ x, det s = false → outOfTurn pt.no (finishHolder pt.no s) = some x → ∃ t, exec (.burstGrant pt) s = .next t ∧ ((port pt.no t).holder = some { x with charge := x.b.len } ∧ (port pt.no t).waiting = (port pt.no (finishHolder pt.no s)).waiting.erase x ∧
        x.deadline = true)) ∧
    (∀ x, det s = false → (port pt.no s).holder = none → (port pt.no s).waiting = [x] → x.deadline = false → x.b.src ≠ .clear → hasRoom x s = true →
      1 ≤ x.b.len → x.b.len ≤ 64 → (port pt.no s).deficit = [] → 0 < quantum pt.no x.b.tag.val s →
      ∃ t, exec (.burstGrant pt) s = .next t ∧ (t = { s with ports := t.ports, banks := t.banks } ∧
        (port pt.no t).holder = some { x with charge := x.b.len } ∧ (port pt.no t).waiting = [] ∧ 0 ≤ Fam.get 0 x.b.tag.val (port pt.no t).deficit)) ∧
    (det s = false → exec (.fixedSlotStart pt) s = .next s) ∧
    (∀ o x, det s = true → (port pt.no s).holder = none → slotOwner pt.no s = some o → readyBurst o pt.no s = some x →
      ∃ t, exec (.fixedSlotStart pt) s = .next t ∧ (t = { s with ports := t.ports, banks := t.banks } ∧ (port pt.no t).holder = some { x with charge := x.b.len } ∧
        (port pt.no t).waiting = (port pt.no s).waiting.erase x ∧
        x ∈ (port pt.no s).waiting ∧ x.b.tag.val = o ∧ (∀ k, k ≠ pt.no → port k t = port k s)))) ∧
  (∀ (c : Fin 4) (i : Fin 32) (cores : List (Fin 8)) (dmas : List BankReq) (s : State),
    let x := bankArrive (cores.map (·.val)) (dmas.map fun r => r.tag.val) (bank c.val i.val s)
    let after := fun (t : State) => bank c.val i.val t
    (∀ n ∈ (bank c.val i.val s).cores, n < 8) → (∀ l ∈ (bank c.val i.val s).lines, l.tag < 18) →
    ∃ t, exec (.bankSlot c i cores dmas) s = .next t ∧ (t = { s with regs := t.regs, banks := t.banks } ∧
      (∀ k b, b < 32 → (k ≠ c.val ∨ b ≠ i.val) → bank k b t = bank k b s) ∧
      (det s = true → t.regs = s.regs ∧ (after t).slot = x.slot + 1 ∧
        (if x.slot % dmaShare s = 0 then (after t).cores = x.cores else (after t).lines = x.lines)) ∧
      (det s = false → x.waited ≤ dmaShare s - 1 → (after t).waited ≤ dmaShare s - 1) ∧
      (det s = false → x.lines ≠ [] → dmaShare s - 1 ≤ x.waited →
        (∃ l ∈ x.lines, (after t).lines = x.lines.erase l ∧ (after t).tagTurn = l.tag + 1 ∧
          (l.deadline = false → ∀ m ∈ x.lines, m.tag = l.tag → m.deadline = false)) ∧
        (after t).waited = 0 ∧ (after t).coreTurn = x.coreTurn ∧ (after t).cores = x.cores ∧
          rd (cluBase c.val + 0x18) t = rd (cluBase c.val + 0x18) s + 1) ∧
      (det s = false → x.cores ≠ [] → (x.lines = [] ∨ x.waited < dmaShare s - 1) →
        (∃ n ∈ x.cores, (after t).cores = x.cores.erase n ∧ (after t).coreTurn = n + 1) ∧ (after t).lines = x.lines ∧
          (after t).tagTurn = x.tagTurn ∧ (after t).waited = (if x.lines = [] then 0 else x.waited + 1) ∧ t.regs = s.regs)))

/-- R68, R71, R74, R464. That invalid headers are counted with the event that ends them is DEDUCED. -/
def Obligations.LanesLoseAndGainLock : Prop :=
  let quiet := fun (l : LaneId) (s : State) => match l with
    | .cam n => ∀ st, laneStream n.val s = some st → (cport st s).line = none ∧ (cport st s).outst = [] ∧ (cport st s).waiting = []
    | .span _ => True
  let lost := fun (code : Nat) (l : LaneId) (s t : State) =>
    t = { s with regs := t.regs, cports := t.cports, spans := t.spans, sbonds := t.sbonds, rings := t.rings, host := t.host, out := t.out, faults := t.faults } ∧
    match l with
    | .cam n => ∀ st, laneStream n.val s = some st → (∀ p, streamPart st s = some p → FaultActive code n.val p t) ∧
        (rdB (laneBase n.val + 4) clLOCK s = true → aligned st t = false ∧ camUp st t = false)
    | .span n => (linkUsed (n.val / 4) s = true → FaultActive code (64 + n.val) 0xFF t) ∧
        (rdB (spanLaneBase n.val + 4) clLOCK s = true → linkIsUp (n.val / 4) t = false ∧ spAligned (n.val / 4) t = false)
  let unlocked := fun (l : LaneId) (s t : State) => rdB (laneBlk l + 4) clLOCK s = true →
    rdB (laneBlk l + 4) clLOCK t = false ∧ rdB (laneBlk l + 4) clHIBER t = false ∧ rd (laneBlk l + 0x14) t = rd (laneBlk l + 0x14) s + 1 ∧
      rdB (laneBlk l + 8) 1 t = true
  (∀ (l : LaneId) (s : State),
    (rdB (laneBlk l + 4) clLOS s = true → exec (.losEnter l) s = .next s ∧ exec (.blockLock l) s = .next s) ∧
    (rdB (laneBlk l + 4) clLOS s = false → quiet l s → ∃ t, exec (.losEnter l) s = .next t ∧ (rdB (laneBlk l + 4) clLOS t = true ∧ rdB (laneBlk l + 8) 0 t = true ∧ unlocked l s t ∧ lost 0x5001 l s t)) ∧
    (rdB (laneBlk l + 4) clLOS s = false → ∃ t, exec (.blockLock l) s = .next t ∧ (OnlyRegs s t ∧ rdB (laneBlk l + 4) clLOCK t = true ∧
      (∀ i, i ≠ clLOCK → rdB (laneBlk l + 4) i t = rdB (laneBlk l + 4) i s) ∧ RegsSameBut (fun k => k == laneBlk l + 4) s t)) ∧
    (cageDark (laneCage l) s = true → exec (.losExit l) s = .next s) ∧
    (cageDark (laneCage l) s = false → ∃ t, exec (.losExit l) s = .next t ∧ (OnlyRegs s t ∧ rdB (laneBlk l + 4) clLOS t = false ∧
      (∀ i, i ≠ clLOS → rdB (laneBlk l + 4) i t = rdB (laneBlk l + 4) i s) ∧ RegsSameBut (fun k => k == laneBlk l + 4) s t))) ∧
  (∀ (l : LaneId) (bad : Nat) (s : State),
    (rdB (laneBlk l + 4) clLOCK s = false → exec (.lockLost l bad) s = .next s ∧ exec (.hiBerEnter l bad) s = .next s ∧
      exec (.hiBerWindowEnd l bad) s = .next s) ∧
    (rdB (laneBlk l + 4) clLOCK s = true →
      (quiet l s → ∃ t, exec (.lockLost l bad) s = .next t ∧ (unlocked l s t ∧ rd (laneBlk l + 0x10) t = rd (laneBlk l + 0x10) s + wd bad ∧
        lost 0x5002 l s t)) ∧
      (∃ t, exec (.hiBerEnter l bad) s = .next t ∧ (OnlyRegs s t ∧ rdB (laneBlk l + 4) clHIBER t = true ∧
        rd (laneBlk l + 0x10) t = rd (laneBlk l + 0x10) s + wd bad ∧
        rd (laneBlk l + 0x1C) t = rd (laneBlk l + 0x1C) s + (if rdB (laneBlk l + 4) clHIBER s then 0 else 1) ∧
        RegsSameBut (fun k => [laneBlk l + 4, laneBlk l + 0x10, laneBlk l + 0x1C].contains k) s t)) ∧
      (∃ t, exec (.hiBerWindowEnd l bad) s = .next t ∧ (OnlyRegs s t ∧ rd (laneBlk l + 0x10) t = rd (laneBlk l + 0x10) s + wd bad ∧
        rdB (laneBlk l + 4) clHIBER t = (rdB (laneBlk l + 4) clHIBER s && decide (16 ≤ bad)) ∧
        RegsSameBut (fun k => [laneBlk l + 4, laneBlk l + 0x10].contains k) s t)))) ∧
  (∀ (st : Fin 64) (ms : List (Option Marker)) (s : State), streamUsed st.val s = true →
    let good := setOk (bondWidth st.val s) ms = true ∧ ∀ n ∈ bondLanes st.val s, rdB (laneBase n + 4) clLOCK s = true
    (good → ∃ t, exec (.alignmentMarker (.cam st) ms) s = .next t ∧ (t = { s with regs := t.regs, cports := t.cports } ∧
      (1 ≤ (cport st.val s).okSets ∨ aligned st.val s = true → ∀ n ∈ bondLanes st.val s, rdB (laneBase n + 4) clALIGNED t = true) ∧
      ((cport st.val s).okSets = 0 → aligned st.val s = false → t.regs = s.regs ∧ (cport st.val t).okSets = 1))) ∧
    (¬ good → (cport st.val s).line = none → (cport st.val s).outst = [] → (cport st.val s).waiting = [] → laneFirst st.val s < 64 → 1 ≤ bondWidth st.val s →
      ∃ t, exec (.alignmentMarker (.cam st) ms) s = .next t ∧ (MemorySame s t ∧
        (aligned st.val s = true → 2 ≤ (cport st.val s).badSets → aligned st.val t = false ∧ camUp st.val t = false) ∧
        ((cport st.val s).badSets < 2 → t.regs = s.regs ∧ (cport st.val t).okSets = 0 ∧ (cport st.val t).badSets = (cport st.val s).badSets + 1)))) ∧
  (∀ (m : Fin 4) (ms : List (Option Marker)) (s : State),
    (linkUsed m.val s = false → exec (.alignmentMarker (.span m) ms) s = .next s) ∧
    (linkUsed m.val s = true → setOk 4 ms = true → (∀ n ∈ spLanes m.val, rdB (spanLaneBase n + 4) clLOCK s = true) →
      ∃ t, exec (.alignmentMarker (.span m) ms) s = .next t ∧ (t = { s with regs := t.regs, sbonds := t.sbonds } ∧
        (1 ≤ (Fam.get (0, 0) m.val s.sbonds).1 ∨ spAligned m.val s = true → ∀ n ∈ spLanes m.val, rdB (spanLaneBase n + 4) clALIGNED t = true))) ∧
    (linkUsed m.val s = true → setOk 4 ms = false → spAligned m.val s = true → 2 ≤ (Fam.get (0, 0) m.val s.sbonds).2 →
      ∃ t, exec (.alignmentMarker (.span m) ms) s = .next t ∧ (t = { s with regs := t.regs, sbonds := t.sbonds, spans := t.spans } ∧
        spAligned m.val t = false ∧ linkIsUp m.val t = false)))

/-- R66 to R86, R478: the frames of a camera port. How the receive buffers drain is the model's reading of R95 (notes/assumptions/29.md). -/
def Obligations.CameraFramesActThroughTheirPort : Prop :=
  (∀ (st : Fin 64) (x : Stretch) (s : State), aligned st.val s = false → laneFirst st.val s + bondWidth st.val s ≤ 64 →
    ∀ c ∈ [Instr.lineSeg st x, .ctrlAck st x, .event st x, .hello st x, .unknownFrame st x], ∃ t, exec c s = .next t ∧ (OnlyRegs s t ∧
      (streamUsed st.val s = false → t = s) ∧
      ∀ i, i < bondWidth st.val s → i < x.length → streamUsed st.val s = true →
        let b := laneBase (laneFirst st.val s + i)
        let n := fun (f : Block → Bool) => if rdB (b + 4) clLOCK s then wd ((x.getD i []).filter f).length else 0
        rd (b + 0x18) t = rd (b + 0x18) s + n (fun y => decide (blockKind y = .invalid)) ∧ rd (b + 0x10) t = rd (b + 0x10) s + n blockBadHdr)) ∧
  ∀ (st : Fin 64) (f : List Byte) (s : State), streamUsed st.val s = true → aligned st.val s = true → laneFirst st.val s < 64 → 7 ≤ f.length →
    1 ≤ bondWidth st.val s → (cport st.val s).rx = none →
    let b := primBase st.val s
    let typ := leAt f 0 1
    let p := cport st.val s
    let x := oneFrame (bondWidth st.val s) f
    let fate := police st.val (frameNow st.val f s) (drainFe (st.val / 4) s)
    let others := fun (t : State) => OtherPorts st.val s t ∧ MemorySame s t ∧ t.cores = s.cores ∧ t.jobs = s.jobs
    let cmds := [Instr.lineSeg st x, .ctrlAck st x, .event st x, .hello st x, .unknownFrame st x]
    (inQuar st.val s = true → ∀ c ∈ cmds, ∃ t, exec c s = .next t ∧ (t = { s with regs := t.regs, cports := t.cports, drains := t.drains } ∧ others t ∧
      RegsSameBut (fun k => k == b + 0x148) s t ∧ rd (b + 0x148) t = rd (b + 0x148) s + 1 ∧ cport st.val t = { p with segs := (cport st.val t).segs })) ∧
    (inQuar st.val s = false → camUp st.val s = false → typ ≠ 5 → fate = .pass → ∀ c ∈ cmds, ∃ t, exec c s = .next t ∧ (t = { s with regs := t.regs, cports := t.cports, drains := t.drains } ∧ others t ∧ rd (b + 0x14C) t = rd (b + 0x14C) s + 1 ∧
        RegsSameBut (fun k => k == b + 0x14C) s t)) ∧
    (inQuar st.val s = false → camUp st.val s = true → fate = .pass →
      (typ = 1 → (leAt f 1 1).testBit 0 = true → (leAt f 1 1).testBit 1 = false → p.line = none → s.pwr.wiping = [] →
        ∃ t, exec (.lineSeg st x) s = .next t ∧ (t = { s with regs := t.regs, cnt := t.cnt, cports := t.cports, drains := t.drains } ∧ others t ∧
          (∃ q, (cport st.val t).segs = q ++ [(f.length, leAt f 10 2)]) ∧
          (∀ q, streamPart st.val s = some q → cntGet (acctBase q + 0x28) t = cntGet (acctBase q + 0x28) s + BitVec.ofNat 64 f.length) ∧
          ∃ l, (cport st.val t).line = some l ∧ l.line = wd (leAt f 4 4) ∧ l.seg = leAt f 2 2 + 1 ∧ l.t0 = (frameNow st.val f s).t0 ∧ l.pos = encPos (cfg 0x20 st.val 7 1 s) s ∧ l.stamp = BitVec.ofNat 64 (leAt f 16 8) ∧
            (l.good = true ↔ leAt f 2 2 = 0 ∧ leAt f 12 1 = 0 ∧ leAt f 8 2 = 0 ∧ leAt f 10 2 ≤ lineWidth st.val s) ∧
            (l.good = true → l.pix = unpackPix (fmtOf st.val s) (leAt f 10 2) ((f.drop 28).take (leAt f 14 2))))) ∧
      (∀ r, typ = 3 → p.outst = [r] → p.waiting = [] → r.seq = BitVec.ofNat 16 (leAt f 2 2) → (ring r.fn s).busy = none →
        ∃ t, exec (.ctrlAck st x) s = .next t ∧ (t = { s with regs := t.regs, cnt := t.cnt, cports := t.cports, drains := t.drains } ∧ others t ∧
          (cport st.val t).outst = [] ∧ (cport st.val t).retries = 0)) ∧
      (∀ (r : CReq) (d : SvcDesc) (m : Nat) (y : Word), typ = 3 → p.outst = [r] → p.waiting = [] → r.seq = BitVec.ofNat 16 (leAt f 2 2) →
        (ring r.fn s).busy = some (.camCtrl d m y) → ringServed r.fn s = true → (ring r.fn s).busMaster = true → (ring r.fn s).flushing = false →
        (ring r.fn s).fetched = [] → (ring r.fn s).held = [] → (ring r.fn s).cmdTail = rd (ringBase r.fn + oCMD_HEAD) s → ringEn r.fn s = true →
        cplRoom r.fn s = true → ∃ t, exec (.ctrlAck st x) s = .next t ∧ ((cport st.val t).outst = [] ∧
          Answered r.fn d stOK ((f.drop 8).take 8) s t ∧
          (r.op = 3 → Apart r.fn (dDATA d) (min (leAt f 6 2) (dLEN d)) d s → Memory.read t.host (dDATA d) (min (leAt f 6 2) (dLEN d)) =
            ((f.drop 16).take (leAt f 6 2)).take (dLEN d)))) ∧
      (typ = 4 → BitVec.ofNat 16 (leAt f 2 2) = nextRx st.val s → (rd (ssBase st.val + 8) s - rd (ssBase st.val + 0xC) s).toNat < 4 →
        ∃ t, exec (.event st x) s = .next t ∧ (t = { s with regs := t.regs, cnt := t.cnt, cports := t.cports, drains := t.drains, out := t.out } ∧ others t ∧
          (cport st.val t).events = p.events + 1 ∧ rd (ssBase st.val + 8) t = rd (ssBase st.val + 8) s + 1 ∧
          t.out.head? = some (.cam st.val [frameBlocks (ackFrame (leAt f 2 2))]) ∧ nextRx st.val t = nextRx st.val s + 1 ∧
          ∀ i, i < 96 → rd (kEVT st.val (rd (ssBase st.val + 8) s).toNat i) t =
            wd (leAt (eventBytes (rd (ssBase st.val + 8) s).toNat f s) (4 * i) 4)))) ∧
    (inQuar st.val s = false → fate = .pass → typ = 5 → linking st.val s = true →
      let pl := f.drop 16
      let fits := leAt pl 2 1 = bondWidth st.val s ∧ leAt pl 3 1 = cfg 0x20 st.val 3 1 s ∧ leAt pl 8 2 = lineWidth st.val s ∧
        leAt pl 10 1 = cfg 0x20 st.val 6 1 s ∧ leAt pl 11 1 = fmtOf st.val s
      (fits → (leAt f 1 1).testBit 0 = true → p.seen = true → ∃ t, exec (.hello st x) s = .next t ∧ (t = { s with regs := t.regs, cnt := t.cnt, cports := t.cports, drains := t.drains, fes := t.fes } ∧ others t ∧ camUp st.val t = true ∧
          (cport st.val t).session = p.initSeq ∧ (cport st.val t).initSeq = p.initSeq + 0x1000 ∧ (cport st.val t).outst = [] ∧
          nextRx st.val t = BitVec.ofNat 16 (leAt pl 4 2) ∧ nextTx st.val t = p.initSeq ∧ rdB (fes st.val + 4) fsPORT t = true)) ∧
      (fits → p.seen = false → ∃ t, exec (.hello st x) s = .next t ∧ (t = { s with regs := t.regs, cnt := t.cnt, cports := t.cports, drains := t.drains } ∧ others t ∧
        camUp st.val t = false ∧ (cport st.val t).seen = true)) ∧
      (¬ fits → ∀ q, streamPart st.val s = some q → ∃ t, exec (.hello st x) s = .next t ∧ (others t ∧ camUp st.val t = false ∧
        (cport st.val t).seen = false ∧ FaultActive 0x5006 st.val q t))) ∧
    (inQuar st.val s = false → fate = .unknown → p.fails + 1 < fld 15 0 (rdForce (b + 0x114) s) →
      ∃ t, exec (.unknownFrame st x) s = .next t ∧ (t = { s with regs := t.regs, cports := t.cports, drains := t.drains } ∧ others t ∧
        rd (b + 0x130) t = rd (b + 0x130) s + 1 ∧ cport st.val t = { p with fails := p.fails + 1, segs := (cport st.val t).segs }))

/-- R73, R79, R82, R86. -/
def Obligations.QuarantineAndPortTimersGovernThePort : Prop :=
  (∀ (fn : Fin 17) (n : Fin 64) (v : Word) (s : State), hostReach fn.val s = true →
    (portCtlOf fn.val n.val s = none → exec (.chkPortCtlQuar fn n v) s = .next s ∧ exec (.chkPortCtlRelease fn n v) s = .next s) ∧
    (∀ st, portCtlOf fn.val n.val s = some st →
      (inQuar st s = false → (cport st s).line = none → (cport st s).outst = [] → (cport st s).waiting = [] →
        ∃ t, exec (.chkPortCtlQuar fn n v) s = .next t ∧ (inQuar st t = true ∧ camUp st t = false ∧ (cport st t).seen = false ∧
          rdB (laneBase n.val + 0x100) 0 t = true ∧ MemorySame s t ∧ (∀ x, x ≠ st → cport x t = cport x s) ∧
          (∀ p, streamPart st s = some p → FaultActive 0x5003 st p t))) ∧
      (inQuar st s = true → bitOf 0 v = false → ∃ t, exec (.chkPortCtlRelease fn n v) s = .next t ∧ (t = { s with regs := t.regs, cports := t.cports } ∧
        inQuar st t = false ∧ cport st t = { cport st s with seen := false, fails := 0 } ∧ rdB (laneBase n.val + 0x100) 0 t = false)))) ∧
  (∀ (st : Fin 64) (s : State),
    (((cport st.val s).fails = 0 ∨ (cport st.val s).fails < fld 15 0 (rdForce (primBase st.val s + 0x114) s)) →
      ∃ t, exec (.quarWindowEnd st) s = .next t ∧ (t = { s with cports := t.cports } ∧ cport st.val t = { cport st.val s with fails := 0 } ∧
        ∀ x, x ≠ st.val → cport x t = cport x s)) ∧
    (∃ t, exec (.eventRateWindowEnd st) s = .next t ∧ (t = { s with cports := t.cports } ∧ cport st.val t = { cport st.val s with events := 0 } ∧
        ∀ x, x ≠ st.val → cport x t = cport x s)) ∧
    (streamUsed st.val s = true → inQuar st.val s = true → fld 31 26 (rdForce (primBase st.val s + 0x114) s) ≠ 0 →
      ∃ t, exec (.quarHoldExpiry st) s = .next t ∧ (t = { s with regs := t.regs, cports := t.cports } ∧ inQuar st.val t = false ∧
        cport st.val t = { cport st.val s with seen := false, fails := 0 })) ∧
    (inQuar st.val s = false → exec (.quarHoldExpiry st) s = .next s) ∧
    (linking st.val s = true → ∃ t, exec (.helloTimer (.cam st)) s = .next t ∧ (t = { s with out := .cam st.val [frameBlocks (ctrlFrame 5 (b2n (cport st.val s).seen) 0 [] [] (helloPayload st.val s))] :: s.out })) ∧
    (linking st.val s = false → exec (.helloTimer (.cam st)) s = .next s) ∧
    ((cport st.val s).outst = [] → exec (.ctrlRetryTimeout st) s = .next s) ∧
    ((cport st.val s).outst ≠ [] → (cport st.val s).retries < fld 23 16 (rdForce (primBase st.val s + 0x118) s) → inQuar st.val s = false →
      ∃ t, exec (.ctrlRetryTimeout st) s = .next t ∧ (t = { s with regs := t.regs, cports := t.cports, out := t.out } ∧
        cport st.val t = { cport st.val s with retries := (cport st.val s).retries + 1 } ∧
        t.out = ((cport st.val s).outst.map fun r => Out.cam st.val [frameBlocks (reqFrame r)]).reverse ++ s.out ∧
        rd (primBase st.val s + 0x140) t = rd (primBase st.val s + 0x140) s + wd (cport st.val s).outst.length)))

/-- R70, R90 to R93, R440: span links. That a HELLO is answered at once is a DESIGN CHOICE (notes/assumptions/28.md). -/
def Obligations.SpanLinksCarryFramesInOrder : Prop :=
  let sound := fun (m : Fin 4) (f : List Byte) (s : State) => f.length = 20 + leAt f 6 2 ∧ leAt f 6 2 ≤ 4096 ∧
    leAt f 6 2 % 8 = 0 ∧ leAt f (f.length - 4) 4 = (crc32 (f.take (f.length - 4))).toNat ∧
    (∀ n ∈ spLanes m.val, rdB (spanLaneBase n + 4) clHIBER s = false)
  (∀ (m : Fin 4) (x : Stretch) (s : State), ∀ c ∈ [Instr.spanData m x, .spanAck m x, .spanHello m x, .gopFrame m x],
    (linkUsed m.val s = false → exec c s = .next s) ∧
    (spAligned m.val s = false → ∃ t, exec c s = .next t ∧ (OnlyRegs s t))) ∧
  (∀ (m : Fin 4) (f : List Byte) (s : State), 7 ≤ f.length → (sp m.val s).rx = none →
    let y := oneFrame 4 f
    let cmds := [Instr.spanData m y, .spanAck m y, .spanHello m y, .gopFrame m y]
    let same := fun (t : State) => ∀ l, sp l t = sp l s
    let b := linkBase m.val
    let x := sp m.val s
    let typ := leAt f 0 1
    (linkUsed m.val s = true → spAligned m.val s = true →
      (¬ sound m f s → ∀ c ∈ cmds, ∃ t, exec c s = .next t ∧ (t = { s with regs := t.regs, spans := t.spans } ∧ same t ∧ rd (b + 0x110) t = rd (b + 0x110) s + 1 ∧ RegsSameBut (fun k => k == b + 0x110) s t)) ∧
      (sound m f s → linkIsUp m.val s = false → typ ≠ 0x43 → ∀ c ∈ cmds, ∃ t, exec c s = .next t ∧ (t = { s with regs := t.regs, spans := t.spans } ∧ same t ∧ rd (b + 0x114) t = rd (b + 0x114) s + 1 ∧ RegsSameBut (fun k => k == b + 0x114) s t)) ∧
      (sound m f s → linkIsUp m.val s = true →
        (typ = 0x42 → x.waiting = [] → ∃ t, exec (.spanAck m y) s = .next t ∧ (t = { s with spans := t.spans } ∧ (∀ l, l ≠ m.val → sp l t = sp l s) ∧
          (sp m.val t).unacked = x.unacked.filter (fun g => decide ((BitVec.ofNat 16 (leAt f 4 2) - g.seq).toInt < 0)) ∧
          (sp m.val t).nextRx = x.nextRx ∧ (x.credits.length = 3 → (sp m.val t).credits = (upTo 3).map fun i => x.credits.getD i 0 + leAt f (10 + i) 1))) ∧
        (typ = 0x41 → leAt f 1 1 % 4 = 1 → BitVec.ofNat 16 (leAt f 2 2) = x.nextRx → x.waiting = [] → leAt f 9 1 % 16 = spSelf s →
          ∃ t, exec (.spanData m y) s = .next t ∧ (t = { s with spans := t.spans } ∧ (∀ l, l ≠ m.val → sp l t = sp l s) ∧
            (sp m.val t).nextRx = x.nextRx + 1 ∧ (sp m.val t).ackDue = true ∧ (x.freed.length = 3 → (sp m.val t).freed.getD 1 0 = x.freed.getD 1 0 + 1))) ∧
        (typ = 0x41 → BitVec.ofNat 16 (leAt f 2 2) ≠ x.nextRx → ∀ c ∈ cmds, ∃ t, exec c s = .next t ∧ (t = { s with regs := t.regs, spans := t.spans } ∧ same t ∧
          rd (b + 0x114) t = rd (b + 0x114) s + 1 ∧ RegsSameBut (fun k => k == b + 0x114) s t))) ∧
      (sound m f s → linkIsUp m.val s = false → typ = 0x43 → leAt f 6 2 = 32 →
        let pl := f.drop 16
        let fits := leAt pl 10 1 = spDX s ∧ leAt pl 11 1 = spDY s ∧ leAt pl 24 8 = spCfg 8 8 s
        (fits → leAt f 8 1 = neighbour m.val s → leAt pl 0 1 = 1 → leAt pl 1 1 = 2 → (leAt f 1 1).testBit 0 = true → x.seen = true →
          ∃ t, exec (.spanHello m y) s = .next t ∧ (t = { s with regs := t.regs, spans := t.spans, out := t.out } ∧ linkIsUp m.val t = true ∧
            (sp m.val t).nextTx = x.initSeq ∧ (sp m.val t).nextRx = BitVec.ofNat 16 (leAt pl 4 2) ∧ (sp m.val t).credits = [32, 32, 32] ∧
            (sp m.val t).unacked = [] ∧ (∀ l, l ≠ m.val → sp l t = sp l s) ∧ rdB kSYS_STAT (12 + m.val) t = true)) ∧
        (¬ fits → ∃ t, exec (.spanHello m y) s = .next t ∧ (FaultActive 0x5006 (64 + m.val) 0xFF t ∧ (sp m.val t).seen = false ∧ linkIsUp m.val t = false ∧
          MemorySame s t))))) ∧
  (∀ (m : Fin 4) (s : State),
    let x := sp m.val s
    (linkUsed m.val s = true → spAligned m.val s = true → linkIsUp m.val s = false → ∃ t, exec (.helloTimer (.span m)) s = .next t ∧ (t = { s with out := .span m.val (oneFrame 4 (spanBytesOut 0x43 (b2n x.seen) 0 0 (spSelf s) (neighbour m.val s) [] (spanHello m.val s))) :: s.out })) ∧
    (linkUsed m.val s = false ∨ spAligned m.val s = false ∨ linkIsUp m.val s = true → exec (.helloTimer (.span m)) s = .next s) ∧
    (linkIsUp m.val s = true → x.ackDue = true → ∃ t, exec (.spanAckTimer m) s = .next t ∧ (t = { s with spans := t.spans, out := .span m.val (oneFrame 4 (spanBytesOut 0x42 0 0 (lastRx m.val s) (spSelf s) (neighbour m.val s) x.freed [])) :: s.out } ∧
        sp m.val t = { x with freed := [0, 0, 0], ackDue := false } ∧ ∀ l, l ≠ m.val → sp l t = sp l s)) ∧
    (linkIsUp m.val s = false ∨ x.ackDue = false → exec (.spanAckTimer m) s = .next s) ∧
    (linkIsUp m.val s = false ∨ x.unacked = [] → exec (.spanRto m) s = .next s) ∧
    (linkIsUp m.val s = true → x.unacked ≠ [] →
      (x.expiries + 1 < rdF (linkBase m.val + 0x108) 7 0 s → ∃ t, exec (.spanRto m) s = .next t ∧ (t = { s with regs := t.regs, spans := t.spans, out := t.out } ∧
        (sp m.val t).expiries = x.expiries + 1 ∧ (sp m.val t).unacked = x.unacked ∧
        rd (linkBase m.val + 0x10C) t = rd (linkBase m.val + 0x10C) s + wd x.unacked.length ∧
        t.out = (x.unacked.map fun f => Out.span m.val (oneFrame 4 (spanBytesOut 0x41 f.vc f.seq.toNat (lastRx m.val s) f.src f.dst f.credit f.payload))).reverse ++ s.out)) ∧
      (rdF (linkBase m.val + 0x108) 7 0 s ≤ x.expiries + 1 → ∃ t, exec (.spanRto m) s = .next t ∧ (linkIsUp m.val t = false ∧
        sp m.val t = { ({} : SpLink) with initSeq := x.initSeq, rx := x.rx } ∧ (∀ l, l ≠ m.val → sp l t = sp l s) ∧ FaultActive 0x5005 m.val 0xFF t ∧ MemorySame s t ∧
        rdB kSYS_STAT (12 + m.val) t = false))))

/-- R441 to R444. The layout of transfer frames and when a completion is delivered rest on the model's operands (notes/assumptions/1.md). -/
def Obligations.GlobalOperationsFollowTheirRequests : Prop :=
  let others := fun (p : Nat) (s t : State) => ∀ q, q ≠ p → gop q t = gop q s
  (∀ (p : Fin 16) (s : State), spPart p.val s = false ∨ spanArea p.val s = none →
    ∀ c ∈ [Instr.spanRequestLine p, .barrier p, .broadcast p, .snapshot p, .reset p, .spanTransferDoorbell p], exec c s = .next s) ∧
  (∀ (p : Fin 16) (s : State), spPart p.val s = true → spanArea p.val s ≠ none → (spanRead p.val 0 64 s).2 = s →
    let l := (spanRead p.val 0 64 s).1
    let seq := wd (leAt l 0 4)
    let op := leAt l 4 1
    let root := leAt l 5 1 % 16
    let len := leAt l 16 4
    let ts := BitVec.ofNat 64 (leAt l 20 8)
    let g := gop p.val s
    let self := BitVec.ofNat 16 (2 ^ spSelf s)
    let begun := fun (t0 : BitVec 64) (t : State) => t = { s with gops := t.gops, spans := t.spans, out := t.out } ∧ others p.val s t ∧
      (gop p.val t).cur = some { seq := seq, op := op, root := root, addr := leAt l 8 8, len := len, ts := t0, own := true, arrived := self, since := tick s }
    let ready := seq = g.last + 1 ∧ g.needReset = false ∧ g.cur = none ∧ (∀ m, m < 4 → linkUsed m s = true → linkIsUp m s = true) ∧ torusAll s ≠ self
    (ready → op = 1 → ∀ c ∈ [Instr.spanRequestLine p, .barrier p], ∃ t, exec c s = .next t ∧ (begun ts t)) ∧
    (ready → op = 2 → len % 8 = 0 → len ≤ 1048576 → ∀ c ∈ [Instr.spanRequestLine p, .broadcast p], ∃ t, exec c s = .next t ∧ (begun ts t)) ∧
    (ready → op = 3 → root = spSelf s → ∀ c ∈ [Instr.spanRequestLine p, .snapshot p], ∃ t, exec c s = .next t ∧ (begun (snapTime ts s) t)) ∧
    (ready → op = 4 → root = spSelf s → ∀ c ∈ [Instr.spanRequestLine p, .reset p], ∃ t, exec c s = .next t ∧ (begun ts t ∧
      (gop p.val t).head = g.tail ∧ (gop p.val t).busy = false)) ∧
    (op ≠ 1 → exec (.barrier p) s = .next s) ∧ (op ≠ 2 → exec (.broadcast p) s = .next s) ∧ (op ≠ 3 → exec (.snapshot p) s = .next s) ∧
    (op ≠ 4 → exec (.reset p) s = .next s) ∧
    (op = 1 → seq = g.last + 1 → g.needReset = false → g.cur = none → (∃ m, m < 4 ∧ linkUsed m s = true ∧ linkIsUp m s = false) →
      ∃ t, exec (.barrier p) s = .next t ∧ (others p.val s t ∧ (gop p.val t).last = seq ∧ (gop p.val t).needReset = true ∧ (gop p.val t).cur = none ∧
        t.spans = s.spans))) ∧
  (∀ (m : Fin 4) (f : List Byte) (p : Nat) (c : GopCur) (s : State), 7 ≤ f.length → (sp m.val s).rx = none →
    let pl := (f.drop 16).take (leAt f 6 2)
    let n := BitVec.ofNat 16 (leAt pl 8 2)
    linkUsed m.val s = true → spAligned m.val s = true → linkIsUp m.val s = true → f.length = 20 + leAt f 6 2 →
    leAt f 6 2 = 32 → leAt f (f.length - 4) 4 = (crc32 (f.take (f.length - 4))).toNat →
    (∀ n ∈ spLanes m.val, rdB (spanLaneBase n + 4) clHIBER s = false) → (sp m.val s).waiting = [] → leAt f 0 1 = 0x41 → leAt f 1 1 % 4 = 2 →
    BitVec.ofNat 16 (leAt f 2 2) = (sp m.val s).nextRx → leAt f 9 1 % 16 = spSelf s →
    leAt pl 0 1 = 1 → leAt pl 1 1 = p → p < 16 → spPart p s = true → wd (leAt pl 4 4) = (gop p s).last + 1 → (gop p s).needReset = false →
    (gop p s).cur = some c → c.op = 1 → s.pwr.wiping = [] →
    ∃ t, exec (.gopFrame m (oneFrame 4 f)) s = .next t ∧ (others p s t ∧
      (c.own = false ∨ c.arrived ||| n ≠ torusAll s → (gop p t).cur = some { c with arrived := c.arrived ||| n } ∧ MemorySame s t ∧ (gop p t).last = (gop p s).last) ∧
      (c.own = true → c.arrived ||| n = torusAll s → (gop p t).cur = none ∧ (gop p t).last = c.seq ∧ (gop p t).needReset = false ∧
        ∀ a, spanArea p s = some a → MemorySameBut (a + 0x40) 64 s t))) ∧
  (∀ (p : Fin 16) (c : GopCur) (a : Nat) (s : State), (gop p.val s).cur = some c →
    (c.op = 3 → s.pwr.wiping = [] → 0 ≤ (nowNs s - c.ts).toInt → spanArea p.val s = some a → reaches mSpan 0 p.val (a + 0x40) 64 true s = true →
      reaches mSpan 0 p.val (a + 0x100) 64 true s = true → ∃ t, exec (.snapshotCapture p) s = .next t ∧ (t = { s with gops := t.gops, mem := t.mem, poison := t.poison } ∧ others p.val s t ∧ (gop p.val t).cur = none ∧ (gop p.val t).last = c.seq ∧
        Memory.read t.mem (a + 0x100) 64 = snapBytes p.val c.ts s ∧ leAt (Memory.read t.mem (a + 0x40) 64) 0 4 = c.seq.toNat ∧
        (∀ b, (b < a + 0x40 ∨ a + 0x80 ≤ b) → (b < a + 0x100 ∨ a + 0x140 ≤ b) → devByte b t = devByte b s))) ∧
    (c.op ≠ 3 ∨ (nowNs s - c.ts).toInt < 0 → exec (.snapshotCapture p) s = .next s) ∧
    (c.own = true → spCfg 5 1 s * 62500 ≤ ticksSince c.since s → ∃ t, exec (.spanGopTimeout p) s = .next t ∧ (others p.val s t ∧ (gop p.val t).cur = none ∧
      (gop p.val t).last = c.seq ∧ (gop p.val t).needReset = true ∧ FaultActive 0x5007 p.val p.val t)) ∧
    (c.own = false ∨ ticksSince c.since s < spCfg 5 1 s * 62500 → exec (.spanGopTimeout p) s = .next s)) ∧
  (∀ (p : Fin 16) (s : State), spPart p.val s = true → spanArea p.val s ≠ none → (spanRead p.val 0x80 64 s).2 = s →
    let g := gop p.val s
    let tail := wd (leAt (spanRead p.val 0x80 64 s).1 0 4)
    let d := (spanRead p.val (0x1000 + g.head.toNat % 512 * 32) 32 s).1
    (g.busy = true ∨ g.head = tail ∨ g.needReset = true → ∃ t, exec (.spanTransferDoorbell p) s = .next t ∧ (t = { s with gops := t.gops } ∧ others p.val s t ∧ gop p.val t = { g with tail := tail })) ∧
    (g.busy = false → g.head ≠ tail → g.needReset = false → leAt d 0 1 < 16 → leAt d 0 1 % 4 < spDX s → leAt d 0 1 / 4 < spDY s → 64 ≤ leAt d 4 4 →
      leAt d 4 4 ≤ 1048576 → leAt d 4 4 % 64 = 0 → leAt d 0 1 ≠ spSelf s → s.pwr.wiping = [] → ∃ t, exec (.spanTransferDoorbell p) s = .next t ∧ (others p.val s t ∧ gop p.val t = { g with tail := tail, busy := true } ∧ MemorySame s t))) ∧
  (∀ (p : Fin 16) (refused : Bool) (s : State),
    let g := gop p.val s
    (g.busy = false → exec (.spanTransferComplete p refused) s = .next s) ∧
    (g.busy = true → g.head + 1 = g.tail → ∃ t, exec (.spanTransferComplete p refused) s = .next t ∧ (others p.val s t ∧ (gop p.val t).head = g.head + 1 ∧
      (gop p.val t).busy = false ∧ (gop p.val t).errors = g.errors + (if refused then 1 else 0) ∧ (refused = true → FaultActive 0x5008 p.val p.val t) ∧
      (refused = true → (gop p.val t).firstBad = some (g.firstBad.getD g.head)))))

/-- R316 to R329, R338 to R341. Which of BUSY and VALID a word's end changes first is not observable. -/
def Obligations.CountsMovePositionsOutputsAndLedger : Prop :=
  let still := fun (s : State) => s.ents = [] ∧ s.reqs = []
  (∀ (i : Fin 4) (fwd : Bool) (s : State),
    let r := encApply (srcDecided i.val s) (msrc i.val s).pend (msrc i.val s).q (encPos i.val s) fwd
    (srcOn i.val s = false → exec (.encCount i fwd) s = .next s ∧ exec (.encZEdge i) s = .next s) ∧
    (srcOn i.val s = true → still s → ∃ t, exec (.encCount i fwd) s = .next t ∧ (t = { s with regs := t.regs, srcs := t.srcs, emus := t.emus, dos := t.dos, rings := t.rings, host := t.host, out := t.out, faults := t.faults } ∧
      (srcDecided i.val s = true → srcDecided i.val t = true ∧
        ((msrc i.val s).q = encPos i.val s → encPos i.val t = if fwd then encPos i.val s + 1 else encPos i.val s) ∧
        ((msrc i.val s).q = encPos i.val s - 1 → encPos i.val t = if fwd then encPos i.val s else encPos i.val s - 1)) ∧
      (msrc i.val t).moved = (msrc i.val s).moved + (encPos i.val t - encPos i.val s).toInt ∧
      encPos i.val t = r.2.2.2 ∧ srcDecided i.val t = r.1 ∧ (msrc i.val t).q = r.2.2.1 ∧ (msrc i.val t).pend = r.2.1 ∧
      (∀ j, j < 6 → j ≠ i.val → encPos j t = encPos j s ∧ msrc j t = msrc j s))) ∧
    (srcOn i.val s = true → ∃ t, exec (.encZEdge i) s = .next t ∧ (OnlyRegs s t ∧ rd (srcBase i.val + 0x1C) t = encPos i.val s ∧
      rd (srcBase i.val + 0x20) t = rd (srcBase i.val + 0x20) s + 1 ∧ rdB (srcBase i.val + 0xC) 0 t = true ∧ encPos i.val t = encPos i.val s ∧
      RegsSameBut (fun k => [srcBase i.val + 8, srcBase i.val + 0xC, srcBase i.val + 0x1C, srcBase i.val + 0x20].contains k) s t))) ∧
  (∀ (i : Fin 4) (e : Nat) (x : LEntry) (d : Fin 32) (s : State),
    srcOn i.val s = true → srcDecided i.val s = true → (msrc i.val s).q = encPos i.val s → s.ents = [(e, x)] → s.reqs = [] → s.dos = [] → x.src = i.val → x.st = .decided → x.kSeen = true →
    x.mask = BitVec.ofNat 32 (2 ^ d.val) → fld 1 0 x.ctl = 1 → x.stream < 64 → night s = false → ((encPos i.val s + 1) - x.p0).toInt.natAbs < 2 ^ 31 - 2 ^ 24 →
    atFire x (encPos i.val s + 1) s = true → ∃ t, exec (.encCount i true) s = .next t ∧ (∃ y, ent e t = some y ∧ y.st = .firing ∧ y.has fFIRED = true ∧
      y.firePos = encPos i.val s + 1 ∧ y.fireTime = nowNs s ∧ y.mask = x.mask ∧ t.reqs = [] ∧
      (∃ o, doSt d.val t = some o ∧ o.pull = some (tick s) ∧ o.who = [e]) ∧ (∀ d', d' ≠ d.val → doSt d' t = none))) ∧
  (∀ (j : Fin 2) (raw : Word) (s : State),
    (srcOn (4 + j.val) s = false → exec (.ssiFrame j) s = .next s ∧ exec (.ssiFrameEnd j raw) s = .next s) ∧
    (srcOn (4 + j.val) s = true → ∃ t, exec (.ssiFrame j) s = .next t ∧ (OnlyRegs s t ∧ rdB (srcBase (4 + j.val) + 0xC) 1 t = true ∧
      RegsSameBut (fun k => k == srcBase (4 + j.val) + 0xC) s t)) ∧
    (srcOn (4 + j.val) s = true → rdB (srcBase (4 + j.val) + 0xC) 1 s = true → still s → ∃ t, exec (.ssiFrameEnd j raw) s = .next t ∧ (let b := srcBase (4 + j.val)
      let w := wd (if rdB b 1 s then grayToBin (raw.toNat % 2 ^ rdF b 7 2 s) % 2 ^ rdF b 7 2 s else raw.toNat % 2 ^ rdF b 7 2 s)
      srcDecided (4 + j.val) t = true ∧ rdB (b + 0xC) 1 t = false ∧ rd (b + 0x10) t = w ∧ rd (b + 0x1C) t = rd (b + 0x1C) s + 1 ∧
      encPos (4 + j.val) t = ssiPos (rdF b 7 2 s) (msrc (4 + j.val) s).last (encPos (4 + j.val) s) w ∧ (msrc (4 + j.val) t).last = some w ∧
      (∀ i, i < 6 → i ≠ 4 + j.val → encPos i t = encPos i s) ∧ MemorySame s t))) ∧
  (∀ (i : Fin 6) (s : State),
    (srcOn i.val s = false → exec (.speedWindowEnd i) s = .next s) ∧
    (srcOn i.val s = true → still s → ∃ t, exec (.speedWindowEnd i) s = .next t ∧ (t = { s with regs := t.regs, srcs := t.srcs, dos := t.dos } ∧
      rd (kSPEED i.val) t = wdi (speedOf (msrc i.val s).moved (srcWindow i.val s)) ∧ (msrc i.val t).moved = 0 ∧
      (i.val < 4 → rd (srcBase i.val + 0x18) t = wdi (msrc i.val s).moved) ∧ ∀ j, j < 6 → encPos j t = encPos j s))) ∧
  (∀ (m : Fin 4) (pins : BitVec 3) (s : State),
    ((emu m.val s).backlog = [] → exec (.emuEdge m) s = .next s) ∧
    (∀ k fwd pos r, (emu m.val s).backlog = (k, fwd, pos) :: r → 1 ≤ k → ∃ t, exec (.emuEdge m) s = .next t ∧ (t = { s with regs := t.regs, emus := t.emus, out := t.out } ∧
      (rdB (emuBase m.val) 5 s = false → t.out = s.out ∧ (emu m.val t).pins.getLsbD 2 = false) ∧
      (emu m.val t).out = (emu m.val s).out + (if fwd then 1 else -1) ∧ backlogN (emu m.val t) + 1 = backlogN (emu m.val s) ∧
      (emu m.val t).acc = (emu m.val s).acc ∧ ∀ n, n ≠ m.val → emu n t = emu n s)) ∧
    (emuMode m.val s ≠ 2 → exec (.passthroughEdge m pins) s = .next s) ∧
    (emuMode m.val s = 2 → emuSrc m.val s < 4 → srcOn (emuSrc m.val s) s = true → ∃ t, exec (.passthroughEdge m pins) s = .next t ∧ (t = { s with regs := t.regs, emus := t.emus } ∧ (emu m.val t).pins = pins ∧
      (emu m.val t).out = (emu m.val s).out + (match pinCount (emu m.val s).pins pins with | none => 0 | some true => 1 | some false => -1) ∧
      ∀ n, n ≠ m.val → emu n t = emu n s)))

/-- R326, R327, R340, R342. The rounding of e and the code of the audit record are free values (notes/assumptions/5.md). -/
def Obligations.MirrorsComparatorsAndOutputTimers : Prop :=
  (∀ (p : Fin 16) (s : State),
    (Fam.find p.val s.mirrors = none → exec (.mirrorRecord p) s = .next s) ∧
    (∀ m, Fam.find p.val s.mirrors = some m → (∀ x ∈ linesOf m.addr 64, reaches mMirror p.val p.val x.1 x.2 true s = true) →
      poisonedIn m.addr 64 s = false → s.pwr.wiping = [] → ∃ t, exec (.mirrorRecord p) s = .next t ∧ (t = { s with mem := t.mem, poison := t.poison, mirrors := t.mirrors } ∧ Memory.read t.mem m.addr 64 = mirrorBytes p.val m.seq s ∧
      MemorySameBut m.addr 64 s t ∧ Fam.find p.val t.mirrors = some { m with seq := m.seq + 1 }))) ∧
  (∀ (k : Fin 4) (s : State),
    let c := cmpr k.val s
    let e := (encPos c.y s - c.y0).toInt * 65536 - c.k * (encPos c.x s - c.x0).toInt
    (c.en = false → exec (.compareWindowEnd k) s = .next s) ∧
    (c.en = true → e.natAbs ≤ c.tol * 65536 → ∃ t, exec (.compareWindowEnd k) s = .next t ∧ (t = { s with cmprs := t.cmprs, fresh := t.fresh } ∧
      (cmpr k.val t).out = false ∧ (cmpr k.val t).x0 = encPos c.x s ∧ (cmpr k.val t).y0 = encPos c.y s ∧
      ((cmpr k.val t).e = e / 65536 ∨ (cmpr k.val t).e = e / 65536 + 1) ∧ ∀ j, j ≠ k.val → cmpr j t = cmpr j s)) ∧
    (c.en = true → c.tol * 65536 < e.natAbs → c.stop = false → ∃ t, exec (.compareWindowEnd k) s = .next t ∧ ((cmpr k.val t).out = true ∧
      (cmpr k.val t).x0 = encPos c.x s ∧ FaultActive 0x4005 k.val 0xFF t ∧ MemorySame s t ∧ t.strms = s.strms))) ∧
  (∀ (d : Fin 32) (s : State),
    (doSt d.val s = none → exec (.pullinEnd d) s = .next s ∧ exec (.pulseEnd d) s = .next s) ∧
    (∀ o, doSt d.val s = some o →
      (o.pull = none → exec (.pullinEnd d) s = .next s) ∧
      (∀ a, o.pull = some a → passed a (usTicks (pullinUs d.val s)) s = false → exec (.pullinEnd d) s = .next s) ∧
      (∀ a, o.pull = some a → passed a (usTicks (pullinUs d.val s)) s = true → s.reqs = [] → ∃ t, exec (.pullinEnd d) s = .next t ∧ (t = { s with regs := t.regs, dos := t.dos } ∧ doSt d.val t = some { o with pull := none } ∧ (∀ j, j ≠ d.val → doSt j t = doSt j s) ∧
        (rd kFIO_DO t).getLsbD d.val = true)) ∧
      (o.night = true ∨ (∃ x ∈ o.ends, (tick s - x.due).toInt < 0) → exec (.pulseEnd d) s = .next s) ∧
      (o.night = false → (∀ x ∈ o.ends, 0 ≤ (tick s - x.due).toInt) → s.reqs = [] → s.ents = [] → ∃ t, exec (.pulseEnd d) s = .next t ∧ (t = { s with regs := t.regs, dos := t.dos } ∧ doSt d.val t = none ∧ (∀ j, j ≠ d.val → doSt j t = doSt j s) ∧ (rd kFIO_DO t).getLsbD d.val = false))))

/-- R103 to R118, R130, R331. The frame of a live stream begins with its first slot where FRAME_START has not begun it (DESIGN CHOICE, notes/assumptions/15.md). -/
def Obligations.FrontEndsFillSlotsFramesAndRings : Prop :=
  let anchored := fun (st : Nat) (s : State) => (fe st s).j0.isSome = true ∧ (fe st s).src = trigSrc st s
  (∀ (st : Fin 64) (s : State),
    let f := fe st.val s
    let j := f.j0.getD 0 + wd f.next
    (feRuns st.val s = false ∨ f.replaying = true → exec (.triggerSlotMissing st) s = .next s) ∧
    (∀ c time, feRuns st.val s = true → f.replaying = false → anchored st.val s → f.src < 4 → trigAt f.src j s = some (c, time) →
      (time.toNat + winMax st.val s < (nowNs s).toNat → lineComing st.val (time.toNat + winMin st.val s) (time.toNat + winMax st.val s) s = false →
        (emu f.src s).trigs ≠ 0 → (wd (emu f.src s).trigs - 1 - j).toNat < 2 ^ 31 →
        ∃ t, exec (.triggerSlotMissing st) s = .next t ∧ ((fe st.val t).next = f.next + 1 ∧ rd (fes st.val + 0x98) t = rd (fes st.val + 0x98) s + 1)) ∧
      ((nowNs s).toNat ≤ time.toNat + winMax st.val s → exec (.triggerSlotMissing st) s = .next s)) ∧
    (feRuns st.val s = false → exec (.frameStart st) s = .next s) ∧
    (feRuns st.val s = true → anchored st.val s ∨ f.replaying = true →
      (f.next / frameLines st.val s < f.frames → exec (.frameStart st) s = .next s) ∧
      (f.frames ≤ f.next / frameLines st.val s → ∃ t, exec (.frameStart st) s = .next t ∧ (MemorySame s t ∧
        (fe st.val t).frames = f.next / frameLines st.val s + 1 ∧ (fe st.val t).next = f.next ∧
        rd (fes st.val + 0x80) t = f.fbase + wd (f.next / frameLines st.val s) ∧ rdB (fes st.val + 4) fsPEND t = false ∧
        (rdB (fes st.val + 4) fsPEND s = true → shadowsBad st.val s = none → ∀ o ∈ fesOffs, startOnly (fun n => (outOf st.val n s).isSome) o = false →
          rdForce (fes st.val + o) t = rd (fes st.val + o) s) ∧
        (rdB (fes st.val + 4) fsPEND s = false → ∀ o ∈ fesOffs, rdForce (fes st.val + o) t = rdForce (fes st.val + o) s))))) ∧
  (∀ (st : Fin 64) (n : Fin 4) (s : State),
    (nextGroup st.val n.val s = none → exec (.outputLineWrite st n) s = .next s) ∧
    (∀ ls o l, nextGroup st.val n.val s = some ls → outOf st.val n.val s = some o → ls.head? = some l →
      (∃ t, exec (.outputLineWrite st n) s = .next t ∧ (∃ o', outOf st.val n.val t = some o' ∧ o'.wr = o.wr + 1)) ∧
      (let c := outCtl st.val n.val s
       let fi := (ls.getLast?.map (·.k)).getD 0 / frameLines st.val s
       let bytes := outLine (fld 3 1 c) (fld 31 27 c + fld 19 18 c + fld 21 20 c) (bitOf 8 c) ((outChs st.val n.val s).map fun i => chanSums st.val n.val i l.cfg ls s)
       let a := outRing st.val n.val s + (wd o.wr).toNat % max 1 (outRingN st.val n.val s) * outStride (fld 3 1 c) (bitOf 8 c) (outChs st.val n.val s).length (outCols st.val n.val l.cfg s)
       fi ∉ (fe st.val s).dropped → (fe st.val s).dropping = none → o.fly < 4 → outUsed st.val n.val s < outRingN st.val n.val s → bitOf 8 (l.cfg.reg 0) = false →
       (∀ x ∈ linesOf a bytes.length, reaches mFe (st.val / 4) (feTag st.val s) x.1 x.2 true s = true) → s.poison = [] → s.pwr.wiping = [] →
       ∃ t, exec (.outputLineWrite st n) s = .next t ∧ (t = { s with regs := t.regs, fes := t.fes, mem := t.mem, fresh := t.fresh } ∧
         Memory.read t.mem a bytes.length = bytes ∧ MemorySameBut a bytes.length s t)))) ∧
  (∀ (st : Fin 64) (s : State),
    let b := fes st.val
    let n := fld 16 0 (rdForce (b + 0x68) s)
    let used := (rd (b + 0x6C) s - rd (b + 0x70) s).toNat
    (((fe st.val s).recs.find? fun r => r.done) = none → exec (.statRecordWrite st) s = .next s) ∧
    (∀ r, ((fe st.val s).recs.find? fun r => r.done) = some r →
      (n ≤ used → ∃ t, exec (.statRecordWrite st) s = .next t ∧ (t = { s with regs := t.regs, fes := t.fes, out := t.out } ∧
        rd (b + 0xB8) t = rd (b + 0xB8) s + 1 ∧ rd (b + 0x6C) t = rd (b + 0x6C) s ∧ rdB (b + 8) 5 t = true)) ∧
      (used < n → s.pwr.wiping = [] → ∃ t, exec (.statRecordWrite st) s = .next t ∧ (rd (b + 0x6C) t = rd (b + 0x6C) s + 1 ∧ r ∉ (fe st.val t).recs ∧
        MemorySameBut ((rdForce (b + 0x60) s).toNat / 64 * 64 + fld 15 0 (rdForce (b + 0x64) s) * 2 ^ 32 + (rd (b + 0x6C) s).toNat % n * 128)
          (recBytes (!trilinear st.val s) r).length s t))) ∧
    ((fe st.val s).wins = [] → exec (.objectWindowIssue st) s = .next s) ∧
    (∀ w rest p, (fe st.val s).wins = w :: rest → winHeld st.val w s = true → streamPart st.val s = some p → exec (.objectWindowIssue st) s = .next s) ∧
    (∀ w rest p, (fe st.val s).wins = w :: rest → winHeld st.val w s = false → streamPart st.val s = some p → p < 16 → w.rep = none → w.words.length = 16 →
      bindingOf st.val s = none → srcDecided (cfg 0x20 st.val 7 1 s) s = false → (s.ents.filter fun e => e.2.part = p).length < cfg 0x10 p 12 2 s →
      s.ents.length < 4096 → ∃ t, exec (.objectWindowIssue st) s = .next t ∧ ((fe st.val t).wins = rest ∧ rd (ssBase st.val + 4) t = rd (ssBase st.val + 4) s + 1 ∧
        rd (fes st.val + 0xAC) t = rd (fes st.val + 0xAC) s + 1 ∧ t.jobs = s.jobs ∧ MemorySame s t ∧
        (∀ i, i < 16 → i ≠ 6 → rd (ssBase st.val + 0x40 + 4 * i) t = w.words.getD i 0) ∧
        ∃ e x, ent e t = some x ∧ x.stream = st.val ∧ x.part = p ∧ x.obj = w.words.getD 0 0 ∧ x.st = .opened ∧ x.jobs = [] ∧ x.has fNOJOB = true))) ∧
  (∀ (n : Fin 16) (s : State),
    (cdsState n.val s ≠ 3 → exec (.replayLineFeed n) s = .next s) ∧
    (∀ p st x b, cdsOwner n.val s = some p → cdsTarget n.val s = some st → st < 64 → (cds n.val s).held[(cds n.val s).pos]? = some x → cdsState n.val s = 3 →
      feedReady n.val st s = true → feQuiet st s = true → (feedLine n.val p (cds n.val s).pos x { s with decTurn := n.val }).1 = some b → (cds n.val s).pos + 1 < (cds n.val s).held.length →
      (∀ m, m < 16 → cdsState m s ≠ 1 ∧ (m ≠ n.val → cdsState m s ≠ 3)) →
      ∃ t, exec (.replayLineFeed n) s = .next t ∧ ((cds n.val t).pos = (cds n.val s).pos + 1 ∧ (cds n.val t).lastTick = some (tick s) ∧
        (fe st t).next = (fe st s).next + 1)))

/-- R351 to R358. The statement on the Nightfall state has no entry or request open: entries that end then write their records. -/
def Obligations.FieldIslandProtectsAndFallsBack : Prop :=
  let guarded := fun (bits : BitVec 8) (s t : State) => t = { s with regs := t.regs, fio := t.fio, rings := t.rings, host := t.host, out := t.out, faults := t.faults } ∧
    t.fio.swOff = s.fio.swOff ||| bits ∧ rdB kFIO_STAT 0 t = true ∧ rdB kFIO_EVT 0 t = true ∧ rd 0x050028 t = rd 0x050028 s + 1 ∧ FaultActive 0x9001 0 0xFF t
  (∀ (smp : List DiSample) (s : State), ∃ t, exec (.diSense smp) s = .next t ∧ (t = { s with regs := t.regs, fio := { s.fio with prev := t.fio.prev } } ∧
    rd (supBase + 0x10) t = rd kFIO_DI t ∧ ∀ i, i < 16 →
      let v := smp.getD i .low
      let old := s.fio.prev.getD i .band
      (v = .high → old = .high → rdB kFIO_DI i t = true ∧ rd (kDI_CNT i) t = rd (kDI_CNT i) s + (if rdB kFIO_DI i s then 0 else 1)) ∧
      (v = .low → old = .low → rdB kFIO_DI i t = false ∧ rd (kDI_CNT i) t = rd (kDI_CNT i) s) ∧
      (v ≠ old ∨ v = .band → rdB kFIO_DI i t = rdB kFIO_DI i s ∧ rd (kDI_CNT i) t = rd (kDI_CNT i) s) ∧
      t.fio.prev.getD i .band = v)) ∧
  (∀ (g : Fin 8) (s : State), ∀ c ∈ [Instr.fioShort g, .fioOvertemp g], ∃ t, exec c s = .next t ∧ (guarded (BitVec.ofNat 8 (2 ^ g.val)) s t ∧
    t.fio.tripped = s.fio.tripped ||| BitVec.ofNat 8 (2 ^ g.val) ∧ t.fio.supplyLow = s.fio.supplyLow)) ∧
  (∀ s : State, ∃ t, exec .fioUndervoltage s = .next t ∧ (guarded 0xFF s t ∧ t.fio.supplyLow = true ∧ t.fio.tripped = s.fio.tripped)) ∧
  (∀ s : State,
    (s.fio.supplyLow = true → ∃ t, exec .fieldSupplyReturn s = .next t ∧ (t = { s with regs := t.regs, fio := { s.fio with supplyLow := false, prev := [] } } ∧
      rd kFIO_DI t = 0 ∧ rd (supBase + 0x10) t = 0 ∧ RegsSameBut (fun k => k == kFIO_DI || k == supBase + 0x10) s t)) ∧
    (s.fio.supplyLow = false → exec .fieldSupplyReturn s = .next s)) ∧
  (∀ s : State,
    let due := passed s.fio.hbTick (usTicks (1000 * rdF 0x050010 9 0 s)) s
    (due = false → exec .nfHeartbeatTimeout s = .next s) ∧
    (due = true → s.ents = [] → s.reqs = [] → ∃ t, exec .nfHeartbeatTimeout s = .next t ∧ (night t = true ∧ rdB kFIO_CAUSE 0 t = true ∧ rdB kFIO_STAT 2 t = false ∧
      rdB kFIO_STAT 3 t = false ∧ MemorySame s t ∧ t.cores = s.cores ∧ t.jobs = s.jobs ∧ (night s = false → FaultActive 0x9002 0 0xFF t))))

/-- R410 to R414. The trim code is a free value (notes/assumptions/5.md). The statement has no line or request in progress at a camera port; those end as R74 says. -/
def Obligations.ClocksFollowTheReference : Prop :=
  let idle := fun (s : State) => ∀ st, (cport st s).line = none ∧ (cport st s).outst = [] ∧ (cport st s).waiting = []
  let held := fun (cause : Nat) (s t : State) => holdover t = true ∧ rdF kCLK_STAT 15 8 t = cause ∧ qual t = 4 ∧
    rd kCLK_CNT_LOST t = rd kCLK_CNT_LOST s + 1 ∧ rdB kCLK_EVT 0 t = true ∧ FaultActive 0xB001 0 0xFF t ∧ MemorySame s t ∧ t.cores = s.cores ∧
    t.jobs = s.jobs ∧ (∀ n, n < 64 → rdB (laneBase n + 4) clLOCK t = false) ∧ (∀ n, n < 16 → rdB (spanLaneBase n + 4) clLOCK t = false) ∧
    (∀ p, p < 2 → rdB (ethBase p) 0 t = false)
  let trimmed := fun (s t : State) => rdB kCLK_STAT csTRIMMED t = true ∧ t.clk.trimTick = tick s ∧ (rd kCLK_OSC_TRIM t).toNat < 2 ^ 20
  (∀ (ppm : Int) (s : State), s.boot.osc = false →
    exec .refclkGlitch s = .next s ∧ exec (.refclkWindow ppm) s = .next s ∧ exec .refclkLoss s = .next s) ∧
  (∀ s : State, s.boot.osc = true →
    (∃ t, exec .refclkGlitch s = .next t ∧ (t = { s with regs := t.regs, clk := t.clk, rings := t.rings, host := t.host, out := t.out, faults := t.faults } ∧
      rdB kCLK_STAT csOOR t = true ∧ rdB kCLK_STAT csREFOK t = false ∧ rd kCLK_CNT_GLITCH t = rd kCLK_CNT_GLITCH s + 1 ∧ rdB kCLK_EVT 3 t = true ∧
      t.clk.glitch = true ∧ FaultActive 0xB002 0 0xFF t)) ∧
    (holdover s = false → idle s → ∃ t, exec .refclkLoss s = .next t ∧ (held 1 s t ∧ t.boot.refPresent = false)) ∧
    (holdover s = true → ∃ t, exec .refclkLoss s = .next t ∧ (t = { s with regs := t.regs, clk := t.clk, boot := { s.boot with refPresent := false } } ∧
      rdB kCLK_STAT csREFOK t = false ∧ holdover t = true))) ∧
  (∀ (ppm : Int) (s : State), s.boot.osc = true →
    (ppm.natAbs ≤ 2000 → holdover s = false → rdB kCLK_STAT csOOR s = false → ∃ t, exec (.refclkWindow ppm) s = .next t ∧ (t = { s with regs := t.regs, clk := t.clk, fresh := s.fresh + 1, boot := { s.boot with refPresent := true } } ∧ trimmed s t ∧ t.clk.outRun = 0 ∧
        rd kCLK_REF_PPM t = wd ((wdi ppm).toNat % 65536))) ∧
    (2000 < ppm.natAbs → holdover s = false → s.clk.outRun < 9 → ∃ t, exec (.refclkWindow ppm) s = .next t ∧ (t = { s with regs := t.regs, clk := t.clk, boot := { s.boot with refPresent := true }, rings := t.rings, host := t.host, out := t.out, faults := t.faults } ∧
        rdB kCLK_STAT csOOR t = true ∧ t.clk.outRun = s.clk.outRun + 1 ∧ rd kCLK_CNT_OOR t = rd kCLK_CNT_OOR s + 1 ∧ FaultActive 0xB002 0 0xFF t)) ∧
    (2000 < ppm.natAbs → holdover s = false → 9 ≤ s.clk.outRun → idle s → ∃ t, exec (.refclkWindow ppm) s = .next t ∧ (held 2 s t)) ∧
    (ppm.natAbs ≤ 1000 → holdover s = true → s.clk.glitch = false → 99 ≤ s.clk.backRun → idle s → ∃ t, exec (.refclkWindow ppm) s = .next t ∧ (holdover t = false ∧ trimmed s t ∧ rdB kCLK_EVT 1 t = true ∧ qual t = (if s.ptp.slave.isSome then 1 else 0) ∧ MemorySame s t ∧
        ∀ n, n < 64 → rdB (laneBase n + 4) clLOCK t = false))) ∧
  (∀ (st : Fin 64) (c : BitVec 24) (s : State),
    (holdover s = false ∨ sofSource s ≠ some st.val → exec (.sofMark st c) s = .next s) ∧
    (holdover s = true → sofSource s = some st.val →
      (s.clk.mark = some (c - 1) → s.clk.marks = 15 → ∃ t, exec (.sofMark st c) s = .next t ∧ (t = { s with regs := t.regs, clk := t.clk, fresh := s.fresh + 1 } ∧ trimmed s t ∧ t.clk.marks = 0 ∧ t.clk.mark = none)) ∧
      (s.clk.marks < 15 ∨ s.clk.mark ≠ some (c - 1) → ∃ t, exec (.sofMark st c) s = .next t ∧ (t = { s with regs := t.regs, clk := { s.clk with mark := some c, marks := if s.clk.mark = some (c - 1) then s.clk.marks + 1 else 1 } } ∧
          RegsSameBut (fun k => k == kCLK_STAT) s t))))

/-- R313, R420 to R424, R464. -/
def Obligations.GovernorPaceTripAndEnergy : Prop :=
  (∀ (g : GovReading) (s : State),
    let limit := 10 * (if rdB kPWR_STAT 1 s then pwrCfg 10 2 s else pwrCfg 12 2 s)
    let sus := 10 * pwrCfg 12 2 s
    (s.boot.osc = false → exec (.governorSample g) s = .next s) ∧
    (s.boot.osc = true → ∃ t, exec (.governorSample g) s = .next t ∧ (rd kPWR_IN t = wd (satN 65535 g.p10) ∧ rdF kPWR_TJ 7 0 t = satN 255 g.tj ∧
      rdF kPWR_VIN 15 0 t = satN 65535 g.vin ∧
      t = { s with regs := t.regs, fresh := t.fresh, pwr := { s.pwr with budget := t.pwr.budget }, rings := t.rings, host := t.host, out := t.out, faults := t.faults } ∧
      (s.boot.dawnDone = false → t.pwr = s.pwr ∧ ∀ k, k < 4 → rail k t = rail k s) ∧
      (s.boot.dawnDone = true →
        t.pwr.budget = (if sus < g.p10 then s.pwr.budget - 2 * (g.p10 - sus)
          else min (noonMax s) (s.pwr.budget + 5 * (pwrCfg 10 2 s - pwrCfg 12 2 s))) ∧
        rdB kPWR_STAT 1 t = noonOpen t ∧
        (103 ≤ g.tj ∨ limit < g.p10 → (∀ k, k < 4 → rail k t = rail k s - 5) ∧ (det s = true → rdB kPWR_STAT 6 t = true)) ∧
        (g.tj < 100 → g.p10 + 50 < limit → railSet s < 1024 → ∀ k, k < 4 → rail k t = if rail k s < railSet s then min (railSet s) (rail k s + 5) else rail k s) ∧
        (g.tj < 103 → g.p10 ≤ limit → (100 ≤ g.tj ∨ limit ≤ g.p10 + 50) → ∀ k, k < 4 → rail k t = rail k s) ∧
        (103 ≤ g.tj → rdB kPWR_STAT 4 t = true))))) ∧
  (∀ (live clu : List (BitVec 16)) (s : State),
    (s.boot.dawnDone = false → exec (.paceSample live clu) s = .next s) ∧
    (s.boot.dawnDone = true → ∃ t, exec (.paceSample live clu) s = .next t ∧ (OnlyReports s t ∧
      (∀ n, n < 32 → n < live.length → rdB kCLK_EN0 n s = true → rdF (coreBase n + 0xB00) 15 0 t = (live.getD n 0).toNat ∧
        rd (coreBase n + 0xB04) t = wd (min (rd (coreBase n + 0xB04) s).toNat (live.getD n 0).toNat) ∧
        rdF (coreBase n + 0xB00) 31 16 t = rdF (coreBase n + 0xB00) 31 16 s) ∧
      (∀ n, n < 32 → rdB kCLK_EN0 n s = false → rd (coreBase n + 0xB00) t = rd (coreBase n + 0xB00) s) ∧
      (∀ k, k < 4 → k < clu.length → rdB kCLK_EN1 (16 + k) s = true → rd (kPWR_CLU_PACE k) t = wd (clu.getD k 0).toNat) ∧
      rdB kPWR_STAT 3 t = (((upTo 4).any fun k => decide (rail k s < railFloor s)) || (upTo 32).any fun n => coreSlow n t)))) ∧
  (∀ s : State,
    (s.boot.dawnDone = false → exec .thermTrip s = .next s) ∧
    (s.boot.dawnDone = true → s.jobs = [] → ∃ t, exec .thermTrip s = .next t ∧ (rdB kPWR_STAT 5 t = true ∧ rd kPWR_CNT_THERM t = rd kPWR_CNT_THERM s + 1 ∧
      t.cores = [] ∧ (∀ d, 30 ≤ d → d < 114 → domOn d t = false) ∧ (∀ n, n < 32 → rdB kCLK_EN0 n t = false) ∧ FaultActive 0xB007 0 0xFF t ∧
      (∀ p, p < 16 → partUsed p s = true → partCores p s ≠ [] → partState p t = 4)))) ∧
  (∀ (uj : List Nat) (s : State), ∃ t, exec (.energyInterval uj) s = .next t ∧ (t = { s with cnt := t.cnt, pwr := { s.pwr with coreLast := t.pwr.coreLast }, parts := t.parts } ∧
    (let gain := fun k => cntGet k t - cntGet k s
     gain kACCT_MOD = BitVec.ofNat 64 ((uj.take 148).foldl (· + ·) 0) ∧
     gain kACCT_MOD = gain (kACCT_MOD + 8) + ((upTo 16).map fun p => gain (acctBase p + aENERGY)).foldl (· + ·) 0) ∧
    (∀ k, k ≠ kACCT_MOD → k ≠ kACCT_MOD + 8 → (∀ p, p < 16 → k ≠ acctBase p + aENERGY) → cntGet k t = cntGet k s) ∧
    (∀ p, (part p t).energySamples = 0 ∨ Fam.find p s.parts = none))) ∧
  (∀ (c : Cage) (dw : Nat) (s : State),
    (dw ≤ cageLimit c → ∃ t, exec (.pluggableInsertion c dw) s = .next t ∧ (t = { s with cages := t.cages } ∧ cageDark (cageNo c) t = false ∧
      ∀ k, k ≠ cageNo c → Fam.find k t.cages = Fam.find k s.cages)) ∧
    (cageLimit c < dw → (∀ st, (cport st s).line = none ∧ (cport st s).outst = [] ∧ (cport st s).waiting = []) →
      ∃ t, exec (.pluggableInsertion c dw) s = .next t ∧ (cageDark (cageNo c) t = true ∧ MemorySame s t ∧
        (∀ l ∈ cageLanes c, rdB (laneBlk l + 4) clLOS t = true) ∧ (∀ p, c = .sfp p → rdB (ethBase p.val) 0 t = false))))

/-- R373 to R378, R386. The servo's rate is a free value within its limit (notes/assumptions/16.md); the ARP reply's layout is that of RFC 826 (notes/assumptions/17.md). -/
def Obligations.EthernetPortsAndTheirClock : Prop :=
  (∀ (p : Fin 2) (m : PtpMsg) (s : State),
    let b := ethBase p.val
    let count := fun (s : State) (t : State) => rd (b + 0x14) t = rd (b + 0x14) s + 1 ∧ rd (b + 0x20) t = rd (b + 0x20) s + 1
    (portUp p.val s = false → exec (.ptpMessage p m) s = .next s) ∧
    (portUp p.val s = true → ptpRole p.val s = 0 ∨ m.domain ≠ ethCfg p.val 5 1 s → ∃ t, exec (.ptpMessage p m) s = .next t ∧ (OnlyRegs s t ∧ count s t ∧ RegsSameBut (fun k => k == b + 0x14 || k == b + 0x20) s t)) ∧
    (portUp p.val s = true → ptpRole p.val s = 3 → m.domain = ethCfg p.val 5 1 s → m.kind = .announce → m.state = 3 → m.offset = none →
      s.ptp.slave = none → rdF b 4 2 s ≠ 3 → qual s ≠ 0 → qual s ≠ 3 → ∃ t, exec (.ptpMessage p m) s = .next t ∧ (t = { s with regs := t.regs, ptp := { s.ptp with slave := some p.val, good := 0 } } ∧ count s t ∧ rdF b 4 2 t = 3 ∧ rdB (b + 4) 2 t = true ∧
          rdF kTIME_STAT 4 3 t = 2 + p.val)) ∧
    (∀ o, portUp p.val s = true → ptpRole p.val s ≠ 0 → m.domain = ethCfg p.val 5 1 s → m.kind = .sync → m.offset = some o → rdF b 4 2 s = 3 →
      s.boot.fwRunning = true → s.boot.restarting = false → ∃ t, exec (.ptpMessage p m) s = .next t ∧ (count s t ∧ t.ptp.offset = o ∧ t.ptp.delay = m.delay ∧
        rd kTIME_OFS_LAST t = wdi (satOfs o) ∧ (t.time.rate.toInt.natAbs ≤ 549755813) ∧ t.time.c = s.time.c ∧
        nowFrac t = nowFrac s + BitVec.ofInt 80 ((if ethCfg p.val 24 4 s ≠ 0 ∧ ethCfg p.val 24 4 s < o.natAbs then -o else 0) * 65536) ∧ MemorySame s t))) ∧
  (∀ (p : Fin 2) (k : PtpKind) (s : State),
    let b := ethBase p.val
    (portUp p.val s = false ∨ ptpRole p.val s = 0 → exec (.ptpTxTimer p k) s = .next s) ∧
    (portUp p.val s = true → ptpRole p.val s ≠ 0 → rdF b 4 2 s = 2 → (txWait p.val s ≠ [] ∨ txReady p.val (ptpLen p.val 0 s) s = false) →
      ∃ t, exec (.ptpTxTimer p .announce) s = .next t ∧ (t = { s with ethWait := t.ethWait } ∧ txWait p.val t = txWait p.val s ++ [.ptp 0])) ∧
    (portUp p.val s = true → ptpRole p.val s ≠ 0 → txWait p.val s = [] → txReady p.val (ptpLen p.val 0 s) s = true → rdF b 4 2 s = 2 →
      ∃ t, exec (.ptpTxTimer p .announce) s = .next t ∧ (t = { s with regs := t.regs, wire := t.wire, ptp := { s.ptp with sent := t.ptp.sent }, out := .ptp p.val 0 (nowNs s).toNat (ptpBytes p.val 0 s) :: s.out } ∧
        rd (b + 0x10) t = rd (b + 0x10) s + 1 ∧ rd (b + 0x24) t = rd (b + 0x24) s + 1 ∧ RegsSameBut (fun k => k == b + 0x10 || k == b + 0x24) s t))) ∧
  (∀ (p : Fin 2) (s : State),
    let b := ethBase p.val
    (s.ptp.slave ≠ some p.val → exec (.ptpLost p) s = .next s) ∧
    (s.ptp.slave = some p.val → rdF b 4 2 s ≠ 1 → ∃ t, exec (.ptpLost p) s = .next t ∧ (t.ptp.slave = none ∧ rdF b 4 2 t = 1 ∧
      FaultActive 0xA002 p.val 0xFF t ∧ rdB kTIME_EVT 2 t = true ∧ qual t = (if qual s = 1 ∨ qual s = 2 then 3 else qual s) ∧ MemorySame s t ∧ nowFrac t = nowFrac s))) ∧
  (∀ (p : Fin 2) (mac : BitVec 48) (ip tgt : Word) (bad : Bool) (s : State),
    let b := ethBase p.val
    (portUp p.val s = false → exec (.arpRequest p mac ip tgt) s = .next s ∧ exec (.ethFrameDrop p bad) s = .next s) ∧
    (portUp p.val s = true →
      (ethCfg p.val 16 4 s = 0 ∨ leNat (natBE 4 tgt.toNat) ≠ ethCfg p.val 16 4 s → ∃ t, exec (.arpRequest p mac ip tgt) s = .next t ∧ (OnlyRegs s t ∧ rd (b + 0x1C) t = rd (b + 0x1C) s + 1 ∧ RegsSameBut (fun k => k == b + 0x1C) s t)) ∧
      (ethCfg p.val 16 4 s ≠ 0 → leNat (natBE 4 tgt.toNat) = ethCfg p.val 16 4 s → txWait p.val s = [] → txReady p.val 64 s = true → ∃ t, exec (.arpRequest p mac ip tgt) s = .next t ∧ (t = { s with regs := t.regs, wire := t.wire, out := t.out } ∧ rd (b + 0x14) t = rd (b + 0x14) s + 1 ∧ rd (b + 0x10) t = rd (b + 0x10) s + 1 ∧
          ∃ f, t.out = .eth p.val (nowNs s).toNat (withFcs f) :: s.out ∧ f.length = 60 ∧ f.take 6 = natBE 6 mac.toNat ∧ (f.drop 6).take 6 = macBytes p.val s)) ∧
      (∃ t, exec (.ethFrameDrop p true) s = .next t ∧ (OnlyRegs s t ∧ rd (b + 0x18) t = rd (b + 0x18) s + 1 ∧ rdB (b + 4) 1 t = true ∧
        RegsSameBut (fun k => k == b + 0x18 || k == b + 4) s t)) ∧
      (∃ t, exec (.ethFrameDrop p false) s = .next t ∧ (OnlyRegs s t ∧ rd (b + 0x1C) t = rd (b + 0x1C) s + 1 ∧ RegsSameBut (fun k => k == b + 0x1C) s t)))) ∧
  (∀ (p : Fin 2) (s : State),
    let b := ethBase p.val
    (rdB b 0 s = false → exec (.ethLinkDown p) s = .next s) ∧
    (rdB b 0 s = true → ∃ t, exec (.ethLinkDown p) s = .next t ∧ (txWait p.val t = [] ∧ t = { s with regs := t.regs, rings := t.rings, host := t.host, out := t.out, faults := t.faults, ethWait := t.ethWait } ∧ rdB b 0 t = false ∧ rdB (b + 4) 0 t = true ∧ FaultActive 0xA003 p.val 0xFF t ∧
      RegsReported [b, b + 4] s t)) ∧
    (cageDark (12 + p.val) s = true ∨ ethOn p.val s = false ∨ rdB kCLK_EN2 (1 + p.val) s = false → exec (.ethLinkUp p) s = .next s) ∧
    (cageDark (12 + p.val) s = false → ethOn p.val s = true → rdB kCLK_EN2 (1 + p.val) s = true → ∃ t, exec (.ethLinkUp p) s = .next t ∧ (OnlyRegs s t ∧ rdF b 1 0 t = 3 ∧ RegsSameBut (fun k => k == b) s t)))

/-- R379 to R384, R386: launch queues with one entry; R383 says which of several goes first. -/
def Obligations.LaunchQueuesSendAtTheirTime : Prop :=
  (∀ (fn : Fin 17) (p : Fin 2) (q : Fin 8) (v : Word) (s : State), hostReach fn.val s = true →
    let b := ethqBase p.val q.val
    (lqReach fn.val p.val q.val s = false → exec (.ethqTail fn p q v) s = .next s ∧ exec (.ethqCtlWrite fn p q v) s = .next s) ∧
    (lqReach fn.val p.val q.val s = true →
      (lqEn p.val q.val s = false ∨ lqRing p.val q.val s = false → (lq p.val q.val s).ents = [] → ∃ t, exec (.ethqTail fn p q v) s = .next t ∧ (OnlyRegs s t ∧ rd (b + 0x24) t = v ∧ RegsSameBut (fun k => k == b + 0x24) s t)) ∧
      (∀ o d, lqEn p.val q.val s = true → lqRing p.val q.val s = true → lqOwner p.val q.val s = some o → (lq p.val q.val s).ents = [] →
        (lq p.val q.val s).read + 1 = v → d = lqDesc p.val q.val (lq p.val q.val s).read.toNat s →
        (∀ x ∈ linesOf d 32, reaches mLaunch p.val o x.1 x.2 false s = true) → s.poison = [] → s.pwr.wiping = [] → 60 ≤ Memory.le s.mem (d + 16) 2 → Memory.le s.mem (d + 16) 2 ≤ 1518 →
        Memory.le s.mem d 8 = 0 → ∃ t, exec (.ethqTail fn p q v) s = .next t ∧ (t = { s with regs := t.regs, lqs := t.lqs } ∧ rd (b + 0x24) t = v ∧
          (∀ r, r ≠ 8 * p.val + q.val → Fam.get ({} : LaunchQ) r t.lqs = Fam.get {} r s.lqs) ∧
          (lq p.val q.val t).read = v ∧ (lq p.val q.val t).ents =
            [{ launch := 0, frame := [], desc := some ((lq p.val q.val s).read.toNat, Memory.le s.mem (d + 8) 8, Memory.le s.mem (d + 16) 2), bad := false }])) ∧
      (lqEn p.val q.val s = true → bitOf 0 v = false → (∀ e ∈ (lq p.val q.val s).ents, e.desc = none) → (lq p.val q.val s).ents.length ≤ 64 →
        ∃ t, exec (.ethqCtlWrite fn p q v) s = .next t ∧ (t = { s with regs := t.regs, lqs := t.lqs } ∧ lqEn p.val q.val t = false ∧ (lq p.val q.val t).ents = [] ∧
          lqRing p.val q.val t = lqRing p.val q.val s)) ∧
      (lqEn p.val q.val s = false → bitOf 0 v = true → bitOf 1 v = false → (lq p.val q.val s).ents = [] → ∃ t, exec (.ethqCtlWrite fn p q v) s = .next t ∧ (t = { s with regs := t.regs, lqs := t.lqs } ∧ lqEn p.val q.val t = true ∧ lqRing p.val q.val t = false ∧ (lq p.val q.val t).read = rd (b + 0x28) s ∧
          (fld 25 16 v ≤ 1000 → rdF b 25 16 t = fld 25 16 v) ∧ (1000 < fld 25 16 v → rdF b 25 16 t = rdF b 25 16 s))))) ∧
  (∀ (p : Fin 2) (q : Fin 8) (e : LaunchEnt) (s : State), (lq p.val q.val s).ents = [e] → e.desc = none → e.bad = false → lqRing p.val q.val s = false →
    let b := ethqBase p.val q.val
    let late := lateness e.launch s
    (lqEn p.val q.val s = true → portUp p.val s = true → wireFree p.val s = true → launchCome e.launch s = true → lqYields p.val q.val e.launch s = false →
      late ≤ lateMaxNs p.val q.val s → ∃ t, exec (.frameLaunch p q) s = .next t ∧ (t = { s with regs := t.regs, cnt := t.cnt, lqs := t.lqs, wire := t.wire, out := t.out } ∧
        t.out = .eth p.val (nowNs s).toNat (withFcs e.frame) :: s.out ∧ 0 ≤ late ∧ (lq p.val q.val t).ents = [] ∧ rd (b + 0x2C) t = rd (b + 0x2C) s + 1 ∧
        rd (b + 0x30) t = rd (b + 0x30) s + (if 8 < late then 1 else 0) ∧ rd (ethBase p.val + 0x10) t = rd (ethBase p.val + 0x10) s + 1 ∧
        (∀ o, lqOwner p.val q.val s = some o → cntGet (acctBase o + 0x30) t = cntGet (acctBase o + 0x30) s + BitVec.ofNat 64 (e.frame.length + 4)))) ∧
    (launchCome e.launch s = false ∨ wireFree p.val s = false ∨ portUp p.val s = false → ∃ t, exec (.frameLaunch p q) s = .next t ∧ (OnlyRegs s t ∧
      RegsSameBut (fun k => k == b + 4) s t)) ∧
    (late ≤ lateMaxNs p.val q.val s → exec (.launchLateDrop p q) s = .next s) ∧
    ((lateMaxNs p.val q.val s : Int) < late → ∃ t, exec (.launchLateDrop p q) s = .next t ∧ (t = { s with regs := t.regs, lqs := t.lqs } ∧
      (lq p.val q.val t).ents = [] ∧ rd (b + 0x34) t = rd (b + 0x34) s + 1 ∧ t.out = s.out)))

/-- The block's step. That an empty queue lets one tick of the time base pass is the model's choice (notes/assumptions/2.md); R367 and R373 give the count and the estimate, R70, R95, R194, R249, R382 and R439 what else depends on time alone. -/
def Obligations.StepRunsFrontCommand : Prop :=
  (∀ (c : Instr) (rest : List Instr) (s : State), s.pending = c :: rest → step s = exec c { s with pending := rest }) ∧
  (∀ s : State, s.pending = [] → s.time.running = false → step s = .next s) ∧
  (∀ s : State, s.pending = [] → s.time.running = true → ∃ t, step s = .next t ∧
    t = { s with time := { s.time with c := s.time.c + 1 }, regs := t.regs, loads := t.loads, fresh := t.fresh, cores := t.cores, out := t.out,
                 wire := t.wire, ethWait := t.ethWait, ptp := { s.ptp with sent := t.ptp.sent } } ∧
    RegsSameBut (fun k => tickShows.contains k) s t ∧ (qual s ≠ 3 → qual s ≠ 4 → rd kTIME_ERR t = rd kTIME_ERR s) ∧
    (∀ n, coreOf n t = { coreOf n s with conv := { (coreOf n s).conv with stall := (coreOf n t).conv.stall } }))

/-- R8: no command stops the block. -/
def Obligations.EveryCommandAnswersANextState : Prop :=
  ∀ (c : Instr) (s : State), ∃ t, exec c s = .next t

/-- The queue is the host's alone: not even a reset of the module (R447) changes it. -/
def Obligations.CommandsLeaveTheQueueAlone : Prop :=
  (∀ (c : Instr) (s t : State), exec c s = .next t → t.pending = s.pending) ∧
  (∀ s t : State, step s = .next t → t.pending = s.pending.tail)

/-- The canonical form of both memories is kept by every command and by the tick. The form is the model's own (notes/assumptions/4.md, 8.md). -/
def Obligations.StepKeepsMemoriesCanonical : Prop :=
  ∀ s t : State, memoriesCanonical s → step s = .next t → memoriesCanonical t

/-- The invariants hold at reset. That memory lists nothing is the model's choice (notes/assumptions/4.md, 8.md). -/
def Obligations.ResetMemoriesCanonical : Prop :=
  memoriesCanonical State.reset ∧ State.reset.pending = [] ∧ (∀ fn, (ring fn State.reset).held = []) ∧ State.reset.faults = [] ∧
    State.reset.flash.audit = []

/-- R399 (64 held events), R454 (a fault is identified by code, unit and partition), R44 (682 records), R45 and R450 (numbers that only grow). -/
def Obligations.StepKeepsEventsFaultsAndAuditBounded : Prop :=
  let bounded := fun s : State => (∀ fn, (ring fn s).held.length ≤ 64) ∧
    (s.faults.map fun f => (f.code, f.unit, f.part)).Nodup ∧ s.flash.audit.length ≤ 682
  ∀ s t : State, step s = .next t →
    (bounded s → bounded t) ∧ s.fuses.fwSvn ≤ t.fuses.fwSvn ∧ s.flash.segNo ≤ t.flash.segNo ∧ s.flash.auditSeq ≤ t.flash.auditSeq

/-- R367: the counter is set to 0 at module reset and is never written, stepped or adjusted. That C stands until OSC_STABLE is DEDUCED (notes/assumptions/2.md). -/
def Obligations.TickCounterIsNeverWritten : Prop :=
  (∀ (c : Instr) (s t : State), exec c s = .next t → t.time.c = s.time.c ∨ t.time.c = 0 ∧
    match c with
    | .powerOn | .brownout | .modResetN _ | .modResetNRelease | .sysRstModule _ _ | .registerWrite _ _ _ _ | .oscStable _ => True
    | _ => False) ∧
  (∀ (s t : State), exec .powerOn s = .next t ∨ exec .brownout s = .next t → t.time.c = 0) ∧ State.reset.time.c = 0

/-- R9: an access to a peripheral whose enable bit is clear. -/
def Obligations.DisabledUnitsReadZeroAndIgnoreWrites : Prop :=
  ∀ (fn : Fin 17) (v : Word) (s : State), hostReach fn.val s = true →
    (∀ (off k : Nat) (be : BitVec 4), regKey fn.val off = some k → blkOn (blkOf k) s = false →
      exec (.registerWrite fn off v be) s = .next s ∧ exec (.counterLoRead fn off) s = .next { s with readData := [0] }) ∧
    (gateEn 5 s = false → exec (.timeNowLoRead fn) s = .next { s with readData := [0] } ∧
      exec (.timeTickLoRead fn) s = .next { s with readData := [0] } ∧ exec (.timeCommitGo fn v) s = .next s) ∧
    (gateEn 6 s = false → exec (.motSnapGo fn v) s = .next s ∧ (∀ i, exec (.encPreset fn i v) s = .next s) ∧
      (∀ j, exec (.ssiPreset fn j v) s = .next s) ∧ ∀ st, exec (.ldsCommitGo fn st v) s = .next s) ∧
    (∀ st : Fin 64, rdB kCLK_EN1 (st.val / 4) s = false → exec (.fesCommitGo fn st v) s = .next s ∧
      exec (.fesCommitTbl fn st v) s = .next s ∧ exec (.fesTblCtlStart fn st v) s = .next s) ∧
    (∀ n : Fin 64, rdB kCLK_EN1 (20 + n.val / 8) s = false → exec (.chkPortCtlQuar fn n v) s = .next s ∧
      exec (.chkPortCtlRelease fn n v) s = .next s) ∧
    (∀ (p : Fin 2) (q : Fin 8), rdB kCLK_EN2 (1 + p.val) s = false → exec (.ethqTail fn p q v) s = .next s ∧
      exec (.ethqCtlWrite fn p q v) s = .next s)

/-- R368: module time: with 1.6 = 8 / 5, n is the product in units of 2^-16 ns, truncated. -/
def Obligations.ModuleTimeIsComputedFromC : Prop :=
  (∀ (fn : Fin 17) (s : State), hostReach fn.val s = true → timeReach fn.val s = true →
    let d : Int := ((s.time.c - s.time.cBase).toNat : Int)
    ∃ (t : State) (n : Nat) (T : BitVec 80), exec (.timeNowLoRead fn) s = .next t ∧
      n * (5 * 2 ^ 40) ≤ d * 8 * 2 ^ 16 * (2 ^ 40 + s.time.rate.toInt) ∧ d * 8 * 2 ^ 16 * (2 ^ 40 + s.time.rate.toInt) < (n + 1) * (5 * 2 ^ 40) ∧
      T = s.time.tBase + BitVec.ofNat 80 n ∧ Fam.get 0 fn.val t.time.nowLatch = T ∧ t.readData = [(T >>> 16).setWidth 32]) ∧
  State.reset.time.tBase = 0 ∧ State.reset.time.cBase = 0 ∧ State.reset.time.rate = 0 ∧ State.reset.time.c = 0 ∧ nowFrac State.reset = 0

/-- R399, R454, R460: raising a fault. That a suppressed raise renews the fault's newest log record is DEDUCED (notes/assumptions/27.md). -/
def Obligations.FaultsAreRaisedByTheirClass : Prop :=
  ∀ (code unit part : Nat) (arg : Word) (fn : Nat) (s : State), fn < 17 → code < 2 ^ 16 → unit < 256 → part < 256 →
    let t := raiseFault code unit part arg [fn] s
    let again := faultClass code ≠ .info ∧ FaultActive code unit part s
    let slot := kFAULT_LOG ((rd kFAULT_LOG_WR s).toNat % 64)
    let e : Evt := { code := code, unit := unit, part := part, time := (nowNs s).toNat % 2 ^ 32 }
    OnlyReports s t ∧
    (again → t = { s with regs := t.regs } ∧ rd kFAULT_CNT_REPEAT t = rd kFAULT_CNT_REPEAT s + 1 ∧ rd kFAULT_LOG_WR t = rd kFAULT_LOG_WR s ∧
      ∀ i, i < 64 → rd (kFAULT_LOG i) t = rd (kFAULT_LOG i) s ∧ rd (kFAULT_LOG i + 0xC) t = rd (kFAULT_LOG i + 0xC) s) ∧
    (¬ again →
      t.faults = (if faultClass code = .info then s.faults
        else s.faults ++ [{ code := code, unit := unit, part := part, latch := decide (faultClass code = .latch), fns := [fn] }]) ∧
      rd kFAULT_LOG_WR t = rd kFAULT_LOG_WR s + 1 ∧ rd kFAULT_CNT_REPEAT t = rd kFAULT_CNT_REPEAT s ∧ rdB kFAULT_EVT 0 t = true ∧
      rd slot t = BitVec.ofNat 32 (code * 65536 + unit * 256 + part) ∧ rd (slot + 0xC) t = arg ∧
      (64 ≤ (ring fn s).held.length → ring fn t = ring fn s ∧ t.host = s.host ∧
        rd (ringBase fn + oCNT_EVT_LOST) t = rd (ringBase fn + oCNT_EVT_LOST) s + 1 ∧ rdB (ringBase fn + oRING_EVT) 2 t = true) ∧
      ((ring fn s).held.length < 64 → ringEn fn s = false → ring fn t = { ring fn s with held := (ring fn s).held ++ [e] } ∧ t.host = s.host) ∧
      ((ring fn s).held = [] → ringEn fn s = true → ringServed fn s = true → (ring fn s).busMaster = true → evtRoom fn s = true →
        ring fn t = ring fn s ∧ ∃ flags : Byte, t.host = Memory.write s.host (cplSlot fn (rd (ringBase fn + oCPL_TAIL) s).toNat s)
          (natLE 2 0xFFFF ++ natLE 2 stEVENT ++ [0, 0, flags, 0] ++ natLE 2 code ++ natLE 1 unit ++ natLE 1 part ++
            natLE 4 ((nowNs s).toNat % 2 ^ 32))))

/-- R19, R88, R120, R242, R348, R385, R386, R407: what the register tables give as reset values. -/
def Obligations.RegistersHoldTheirResetValues : Prop :=
  let z := State.reset
  rd 0x000 z = 0x4B596416 ∧ rd 0x008 z = 0x20484040 ∧ rd 0x00C z = 0x00204082 ∧ stage z = 0 ∧ rd kTIME_ERR z = 0xFFFFFFFF ∧ qual z = 0 ∧
  rd kCLK_EN0 z = 0 ∧ rd kCLK_EN1 z = 0 ∧ rd kCLK_EN2 z = 0 ∧ rd kFAULT_STAT z = 0 ∧ rd kFAULT_LOG_WR z = 0 ∧
  (∀ fn, fn < 17 → rd (ringBase fn + oCMD_SIZE) z = 0x10 ∧ rd (ringBase fn + oCPL_SIZE) z = 0x10 ∧ rd (ringBase fn + oINT_LDP) z = 1 ∧
    rd (ringBase fn + oCMD_HEAD) z = 0 ∧ rd (ringBase fn + oCPL_TAIL) z = 0 ∧ ringEn fn z = false) ∧
  (∀ st, st < 64 → rd (ldsBase st) z = 1 ∧ rd (ldsBase st + 4) z = 0 ∧ rd (ldsBase st + 0xC) z = 0x10 ∧ rd (ldsBase st + 0x10) z = 0x40 ∧
    rd (ldsBase st + 0x14) z = 0x2710 ∧ rd (ldsBase st + 0x18) z = 0x64 ∧
    rd (fes st) z = 0 ∧ rd (fes st + 0x1C) z = 0x100 ∧ rd (fes st + 0x24) z = 0x1000 ∧ rd (fes st + 0x40) z = 0x00010000 ∧
    rd (fes st + 0x50) z = 0x10000400 ∧ rd (laneBase st + 4) z = 1) ∧
  (∀ n, n < 32 → rd (coreBase n) z = 1 ∧ rd (coreBase n + 8) z = 0 ∧ rd (coreBase n + 0x800) z = 1) ∧
  (∀ p, p < 16 → partUsed p z = false ∧ partState p z = 0) ∧
  (∀ p q, p < 2 → q < 8 → rd (ethqBase p q) z = 0x000A0000 ∧ rd (ethqBase p q + 0x14) z = 0x88B5 ∧ rd (ethqBase p q + 0x20) z = 0x10)
end

