-- ==== Sys2Proof/Laws/Access.lean ====
section
/-! SUPPORT. What a master's read of device memory can do (R16, R245, R260, R265). -/

namespace Sys2Proof.Laws

open Sys2Proof Sys2Proof.Machine

theorem awaitWipe_none (a : Nat) {s : State} (h : s.pwr.wiping = []) : awaitWipe a s = s := by
  unfold awaitWipe; split <;> simp_all

/-- A read whose lines all reach gives what memory holds and leaves the machine alone. -/
theorem readPieces_reach {master unit t : Nat} {s : State} (hw : s.pwr.wiping = []) (hp : s.poison = []) :
    ∀ {ls : List (Nat × Nat)}, (∀ x ∈ ls, reaches master unit t x.1 x.2 false s = true) →
      readPieces master unit t ls s = ((ls.map fun x => memRead x.1 x.2 s).flatten, 0, false, s)
  | [], _ => rfl
  | (a, n) :: ls, h => by
    have ih := readPieces_reach (master := master) (unit := unit) (t := t) hw hp (ls := ls) fun x hx => h x (by simp [hx])
    have h0 : poisonedWords a n s = [] := by simp [poisonedWords, hp]
    simp [readPieces, h (a, n) (by simp), awaitWipe_none a hw, h0, eachDo, ih]

end Sys2Proof.Laws
end

