-- ==== Sys2Proof/Laws/Checksum.lean ====
section
/-! SUPPORT. The checksum checks of the array pass on sound data (R149, R158, R159): both are linear in the streamed vectors. -/

namespace Sys2Proof.Laws

open Sys2Proof Sys2Proof.Machine

theorem sumI_eq_sum (l : List Int) : sumI l = l.sum := by
  have h : ∀ (l : List Int) (a : Int), l.foldl (· + ·) a = a + l.sum := by
    intro l; induction l with
    | nil => simp
    | cons x r ih => intro a; simp [ih, add_assoc]
  simp [sumI, h]

/-- Two sums change places. -/
theorem sum_sum_comm {α β : Type} (l : List α) (m : List β) (f : α → β → Int) :
    (l.map fun i => (m.map fun j => f i j).sum).sum = (m.map fun j => (l.map fun i => f i j).sum).sum := by
  induction l with
  | nil => simp
  | cons x r ih => simp [ih, List.sum_map_add]

theorem colOut_none (mode : Nat) (w : WBuf) (v b j : Nat) (x : List Int) : colOut mode w none v x b j = colSum mode w.bytes x b j := by
  simp [colOut, injVec, injSum]

theorem ckOut_none (mode : Nat) (w : WBuf) (v b : Nat) (x : List Int) : ckOut mode w none v x b = ckSum mode w x b := by
  simp [ckOut, injVec, injSum]

/-- The columns' sums add up to the checksum column's, where the cells hold what it was formed from (R151). -/
theorem colSum_total (mode : Nat) (w : WBuf) (x : List Int) (b : Nat) (hb : w.bytes = w.loaded) (hf : w.ckFlip = []) :
    sumI ((upTo (accLanes mode)).map fun j => colSum mode w.bytes x b j) = ckSum mode w x b := by
  simp only [sumI_eq_sum, colSum, ckSum, ckW, hf, List.foldl_nil]
  rw [← sum_sum_comm]
  simp [List.sum_map_mul_left, hb]

/-- The column check passes on a sound buffer without an injected fault (R158). -/
theorem colCheck_sound (mode : Nat) (w : WBuf) (xs : List (List Int)) (hb : w.bytes = w.loaded) (hf : w.ckFlip = []) :
    colCheck mode w none xs = none := by
  simp only [colCheck, colOut_none, ckOut_none, colSum_total mode w _ _ hb hf]
  simp

/-- A weighted sum over a block's rows is linear in the vectors: the three slices give the run's total (R149). -/
theorem slices_total (mode b : Nat) (c : Nat → Int) (xs : List (List Int)) :
    let g := fun (x : List Int) => sumI ((blockRows mode b).map fun i => x.getD i 0 * c i)
    b < blocksOf mode →
    (xs.map g).sum = g ((sliceVecs xs).getD 0 []) + 256 * g ((sliceVecs xs).getD 1 []) + 65536 * g ((sliceVecs xs).getD 2 []) := by
  intro g hb
  have hr : ∀ i ∈ blockRows mode b, i < 64 := by
    intro i hi
    unfold blockRows at hi; unfold blocksOf at hb
    split at hi
    · rename_i h; simp [h] at hb; simp at hi; omega
    · simpa using hi
  have hg : ∀ (h : Nat → Int), g ((upTo 64).map h) = ((blockRows mode b).map fun i => h i * c i).sum := by
    intro h
    simp only [g, sumI_eq_sum]
    congr 1
    apply List.map_congr_left
    intro i hi
    simp [List.getD, hr i hi]
  simp only [sliceVecs, List.getD_cons_zero, List.getD_cons_succ, hg]
  simp only [g, sumI_eq_sum]
  rw [sum_sum_comm, ← List.sum_map_mul_left, ← List.sum_map_mul_left, ← List.sum_map_add, ← List.sum_map_add]
  congr 1
  apply List.map_congr_left
  intro i _
  rw [List.sum_map_mul_right]
  generalize (xs.map fun x => x.getD i 0).sum = S
  have : S = S % 256 + 256 * (S / 256 % 256) + 65536 * (S / 65536) := by omega
  linear_combination c i * this

/-- The row check passes without an injected fault (R159). -/
theorem rowCheck_sound (mode : Nat) (w : WBuf) (xs : List (List Int)) : rowCheck mode w none xs = none := by
  have key : ∀ (b : Nat) (c : Nat → Int), b < blocksOf mode →
      sumI (xs.zipIdx.map fun p => sumI ((blockRows mode b).map fun i => p.1.getD i 0 * c i)) =
        sumI ((blockRows mode b).map fun i => ((sliceVecs xs).getD 0 []).getD i 0 * c i) +
        256 * sumI ((blockRows mode b).map fun i => ((sliceVecs xs).getD 1 []).getD i 0 * c i) +
        65536 * sumI ((blockRows mode b).map fun i => ((sliceVecs xs).getD 2 []).getD i 0 * c i) := by
    intro b c hb
    rw [sumI_eq_sum]
    have h := slices_total mode b c xs hb
    simp only at h
    rw [← h]
    congr 1
    have e := congrArg (List.map fun x : List Int => sumI ((blockRows mode b).map fun i => x.getD i 0 * c i)) (List.zipIdx_map_fst 0 xs)
    rw [List.map_map] at e
    exact e
  simp only [rowCheck, colOut_none, ckOut_none, Option.map_eq_none_iff, List.find?_eq_none, List.mem_range, Bool.not_eq_true]
  intro j _
  rw [List.any_eq_false]
  intro b hb
  have hb : b < blocksOf mode := by simpa using hb
  split
  · have := key b (fun i => ckW mode w i) hb
    simpa [ckSum] using this
  · have := key b (fun i => tileW mode w.bytes i j) hb
    simpa [colSum] using this

end Sys2Proof.Laws
end

