-- ==== Sys2Proof/Laws/State.lean ====
section
/-! SUPPORT. What each named update of the state leaves as it was: one lemma for each field, true by definition, so that no later proof
unfolds a record update. -/

namespace Sys2Proof.Laws

open Sys2Proof Sys2Proof.Machine

variable (s : State)

/-! ### wr -/
@[simp] theorem wr_pending (k : Nat) (v : Word) : (wr k v s).pending = s.pending := rfl
@[simp] theorem wr_force (k : Nat) (v : Word) : (wr k v s).force = s.force := rfl
@[simp] theorem wr_cnt (k : Nat) (v : Word) : (wr k v s).cnt = s.cnt := rfl
@[simp] theorem wr_mem (k : Nat) (v : Word) : (wr k v s).mem = s.mem := rfl
@[simp] theorem wr_host (k : Nat) (v : Word) : (wr k v s).host = s.host := rfl
@[simp] theorem wr_poison (k : Nat) (v : Word) : (wr k v s).poison = s.poison := rfl
@[simp] theorem wr_time (k : Nat) (v : Word) : (wr k v s).time = s.time := rfl
@[simp] theorem wr_flash (k : Nat) (v : Word) : (wr k v s).flash = s.flash := rfl
@[simp] theorem wr_fuses (k : Nat) (v : Word) : (wr k v s).fuses = s.fuses := rfl
@[simp] theorem wr_boot (k : Nat) (v : Word) : (wr k v s).boot = s.boot := rfl
@[simp] theorem wr_img (k : Nat) (v : Word) : (wr k v s).img = s.img := rfl
@[simp] theorem wr_rings (k : Nat) (v : Word) : (wr k v s).rings = s.rings := rfl
@[simp] theorem wr_svc (k : Nat) (v : Word) : (wr k v s).svc = s.svc := rfl
@[simp] theorem wr_faults (k : Nat) (v : Word) : (wr k v s).faults = s.faults := rfl
@[simp] theorem wr_accRaised (k : Nat) (v : Word) : (wr k v s).accRaised = s.accRaised := rfl
@[simp] theorem wr_out (k : Nat) (v : Word) : (wr k v s).out = s.out := rfl
@[simp] theorem wr_readData (k : Nat) (v : Word) : (wr k v s).readData = s.readData := rfl
@[simp] theorem wr_fresh (k : Nat) (v : Word) : (wr k v s).fresh = s.fresh := rfl
@[simp] theorem wr_parts (k : Nat) (v : Word) : (wr k v s).parts = s.parts := rfl
@[simp] theorem wr_models (k : Nat) (v : Word) : (wr k v s).models = s.models := rfl
@[simp] theorem wr_binds (k : Nat) (v : Word) : (wr k v s).binds = s.binds := rfl
@[simp] theorem wr_strms (k : Nat) (v : Word) : (wr k v s).strms = s.strms := rfl
@[simp] theorem wr_jobs (k : Nat) (v : Word) : (wr k v s).jobs = s.jobs := rfl
@[simp] theorem wr_cores (k : Nat) (v : Word) : (wr k v s).cores = s.cores := rfl
@[simp] theorem wr_ports (k : Nat) (v : Word) : (wr k v s).ports = s.ports := rfl
@[simp] theorem wr_banks (k : Nat) (v : Word) : (wr k v s).banks = s.banks := rfl
@[simp] theorem wr_eccHour (k : Nat) (v : Word) : (wr k v s).eccHour = s.eccHour := rfl
@[simp] theorem wr_srcs (k : Nat) (v : Word) : (wr k v s).srcs = s.srcs := rfl
@[simp] theorem wr_emus (k : Nat) (v : Word) : (wr k v s).emus = s.emus := rfl
@[simp] theorem wr_ents (k : Nat) (v : Word) : (wr k v s).ents = s.ents := rfl
@[simp] theorem wr_dos (k : Nat) (v : Word) : (wr k v s).dos = s.dos := rfl
@[simp] theorem wr_reqs (k : Nat) (v : Word) : (wr k v s).reqs = s.reqs := rfl
@[simp] theorem wr_cmprs (k : Nat) (v : Word) : (wr k v s).cmprs = s.cmprs := rfl
@[simp] theorem wr_mirrors (k : Nat) (v : Word) : (wr k v s).mirrors = s.mirrors := rfl
@[simp] theorem wr_fio (k : Nat) (v : Word) : (wr k v s).fio = s.fio := rfl
@[simp] theorem wr_lqs (k : Nat) (v : Word) : (wr k v s).lqs = s.lqs := rfl
@[simp] theorem wr_wire (k : Nat) (v : Word) : (wr k v s).wire = s.wire := rfl
@[simp] theorem wr_ethWait (k : Nat) (v : Word) : (wr k v s).ethWait = s.ethWait := rfl
@[simp] theorem wr_ptp (k : Nat) (v : Word) : (wr k v s).ptp = s.ptp := rfl
@[simp] theorem wr_cports (k : Nat) (v : Word) : (wr k v s).cports = s.cports := rfl
@[simp] theorem wr_drains (k : Nat) (v : Word) : (wr k v s).drains = s.drains := rfl
@[simp] theorem wr_sbonds (k : Nat) (v : Word) : (wr k v s).sbonds = s.sbonds := rfl
@[simp] theorem wr_fes (k : Nat) (v : Word) : (wr k v s).fes = s.fes := rfl
@[simp] theorem wr_cds (k : Nat) (v : Word) : (wr k v s).cds = s.cds := rfl
@[simp] theorem wr_decTurn (k : Nat) (v : Word) : (wr k v s).decTurn = s.decTurn := rfl
@[simp] theorem wr_loads (k : Nat) (v : Word) : (wr k v s).loads = s.loads := rfl
@[simp] theorem wr_cages (k : Nat) (v : Word) : (wr k v s).cages = s.cages := rfl
@[simp] theorem wr_spans (k : Nat) (v : Word) : (wr k v s).spans = s.spans := rfl
@[simp] theorem wr_gops (k : Nat) (v : Word) : (wr k v s).gops = s.gops := rfl
@[simp] theorem wr_clk (k : Nat) (v : Word) : (wr k v s).clk = s.clk := rfl
@[simp] theorem wr_pwr (k : Nat) (v : Word) : (wr k v s).pwr = s.pwr := rfl

/-! ### wrF -/
@[simp] theorem wrF_pending (k hi lo v : Nat) : (wrF k hi lo v s).pending = s.pending := rfl
@[simp] theorem wrF_force (k hi lo v : Nat) : (wrF k hi lo v s).force = s.force := rfl
@[simp] theorem wrF_cnt (k hi lo v : Nat) : (wrF k hi lo v s).cnt = s.cnt := rfl
@[simp] theorem wrF_mem (k hi lo v : Nat) : (wrF k hi lo v s).mem = s.mem := rfl
@[simp] theorem wrF_host (k hi lo v : Nat) : (wrF k hi lo v s).host = s.host := rfl
@[simp] theorem wrF_poison (k hi lo v : Nat) : (wrF k hi lo v s).poison = s.poison := rfl
@[simp] theorem wrF_time (k hi lo v : Nat) : (wrF k hi lo v s).time = s.time := rfl
@[simp] theorem wrF_flash (k hi lo v : Nat) : (wrF k hi lo v s).flash = s.flash := rfl
@[simp] theorem wrF_fuses (k hi lo v : Nat) : (wrF k hi lo v s).fuses = s.fuses := rfl
@[simp] theorem wrF_boot (k hi lo v : Nat) : (wrF k hi lo v s).boot = s.boot := rfl
@[simp] theorem wrF_img (k hi lo v : Nat) : (wrF k hi lo v s).img = s.img := rfl
@[simp] theorem wrF_rings (k hi lo v : Nat) : (wrF k hi lo v s).rings = s.rings := rfl
@[simp] theorem wrF_svc (k hi lo v : Nat) : (wrF k hi lo v s).svc = s.svc := rfl
@[simp] theorem wrF_faults (k hi lo v : Nat) : (wrF k hi lo v s).faults = s.faults := rfl
@[simp] theorem wrF_accRaised (k hi lo v : Nat) : (wrF k hi lo v s).accRaised = s.accRaised := rfl
@[simp] theorem wrF_out (k hi lo v : Nat) : (wrF k hi lo v s).out = s.out := rfl
@[simp] theorem wrF_readData (k hi lo v : Nat) : (wrF k hi lo v s).readData = s.readData := rfl
@[simp] theorem wrF_fresh (k hi lo v : Nat) : (wrF k hi lo v s).fresh = s.fresh := rfl
@[simp] theorem wrF_parts (k hi lo v : Nat) : (wrF k hi lo v s).parts = s.parts := rfl
@[simp] theorem wrF_models (k hi lo v : Nat) : (wrF k hi lo v s).models = s.models := rfl
@[simp] theorem wrF_binds (k hi lo v : Nat) : (wrF k hi lo v s).binds = s.binds := rfl
@[simp] theorem wrF_strms (k hi lo v : Nat) : (wrF k hi lo v s).strms = s.strms := rfl
@[simp] theorem wrF_jobs (k hi lo v : Nat) : (wrF k hi lo v s).jobs = s.jobs := rfl
@[simp] theorem wrF_cores (k hi lo v : Nat) : (wrF k hi lo v s).cores = s.cores := rfl
@[simp] theorem wrF_ports (k hi lo v : Nat) : (wrF k hi lo v s).ports = s.ports := rfl
@[simp] theorem wrF_banks (k hi lo v : Nat) : (wrF k hi lo v s).banks = s.banks := rfl
@[simp] theorem wrF_eccHour (k hi lo v : Nat) : (wrF k hi lo v s).eccHour = s.eccHour := rfl
@[simp] theorem wrF_srcs (k hi lo v : Nat) : (wrF k hi lo v s).srcs = s.srcs := rfl
@[simp] theorem wrF_emus (k hi lo v : Nat) : (wrF k hi lo v s).emus = s.emus := rfl
@[simp] theorem wrF_ents (k hi lo v : Nat) : (wrF k hi lo v s).ents = s.ents := rfl
@[simp] theorem wrF_dos (k hi lo v : Nat) : (wrF k hi lo v s).dos = s.dos := rfl
@[simp] theorem wrF_reqs (k hi lo v : Nat) : (wrF k hi lo v s).reqs = s.reqs := rfl
@[simp] theorem wrF_cmprs (k hi lo v : Nat) : (wrF k hi lo v s).cmprs = s.cmprs := rfl
@[simp] theorem wrF_mirrors (k hi lo v : Nat) : (wrF k hi lo v s).mirrors = s.mirrors := rfl
@[simp] theorem wrF_fio (k hi lo v : Nat) : (wrF k hi lo v s).fio = s.fio := rfl
@[simp] theorem wrF_lqs (k hi lo v : Nat) : (wrF k hi lo v s).lqs = s.lqs := rfl
@[simp] theorem wrF_wire (k hi lo v : Nat) : (wrF k hi lo v s).wire = s.wire := rfl
@[simp] theorem wrF_ethWait (k hi lo v : Nat) : (wrF k hi lo v s).ethWait = s.ethWait := rfl
@[simp] theorem wrF_ptp (k hi lo v : Nat) : (wrF k hi lo v s).ptp = s.ptp := rfl
@[simp] theorem wrF_cports (k hi lo v : Nat) : (wrF k hi lo v s).cports = s.cports := rfl
@[simp] theorem wrF_drains (k hi lo v : Nat) : (wrF k hi lo v s).drains = s.drains := rfl
@[simp] theorem wrF_sbonds (k hi lo v : Nat) : (wrF k hi lo v s).sbonds = s.sbonds := rfl
@[simp] theorem wrF_fes (k hi lo v : Nat) : (wrF k hi lo v s).fes = s.fes := rfl
@[simp] theorem wrF_cds (k hi lo v : Nat) : (wrF k hi lo v s).cds = s.cds := rfl
@[simp] theorem wrF_decTurn (k hi lo v : Nat) : (wrF k hi lo v s).decTurn = s.decTurn := rfl
@[simp] theorem wrF_loads (k hi lo v : Nat) : (wrF k hi lo v s).loads = s.loads := rfl
@[simp] theorem wrF_cages (k hi lo v : Nat) : (wrF k hi lo v s).cages = s.cages := rfl
@[simp] theorem wrF_spans (k hi lo v : Nat) : (wrF k hi lo v s).spans = s.spans := rfl
@[simp] theorem wrF_gops (k hi lo v : Nat) : (wrF k hi lo v s).gops = s.gops := rfl
@[simp] theorem wrF_clk (k hi lo v : Nat) : (wrF k hi lo v s).clk = s.clk := rfl
@[simp] theorem wrF_pwr (k hi lo v : Nat) : (wrF k hi lo v s).pwr = s.pwr := rfl

/-! ### wrB -/
@[simp] theorem wrB_pending (k i : Nat) (b : Bool) : (wrB k i b s).pending = s.pending := rfl
@[simp] theorem wrB_force (k i : Nat) (b : Bool) : (wrB k i b s).force = s.force := rfl
@[simp] theorem wrB_cnt (k i : Nat) (b : Bool) : (wrB k i b s).cnt = s.cnt := rfl
@[simp] theorem wrB_mem (k i : Nat) (b : Bool) : (wrB k i b s).mem = s.mem := rfl
@[simp] theorem wrB_host (k i : Nat) (b : Bool) : (wrB k i b s).host = s.host := rfl
@[simp] theorem wrB_poison (k i : Nat) (b : Bool) : (wrB k i b s).poison = s.poison := rfl
@[simp] theorem wrB_time (k i : Nat) (b : Bool) : (wrB k i b s).time = s.time := rfl
@[simp] theorem wrB_flash (k i : Nat) (b : Bool) : (wrB k i b s).flash = s.flash := rfl
@[simp] theorem wrB_fuses (k i : Nat) (b : Bool) : (wrB k i b s).fuses = s.fuses := rfl
@[simp] theorem wrB_boot (k i : Nat) (b : Bool) : (wrB k i b s).boot = s.boot := rfl
@[simp] theorem wrB_img (k i : Nat) (b : Bool) : (wrB k i b s).img = s.img := rfl
@[simp] theorem wrB_rings (k i : Nat) (b : Bool) : (wrB k i b s).rings = s.rings := rfl
@[simp] theorem wrB_svc (k i : Nat) (b : Bool) : (wrB k i b s).svc = s.svc := rfl
@[simp] theorem wrB_faults (k i : Nat) (b : Bool) : (wrB k i b s).faults = s.faults := rfl
@[simp] theorem wrB_accRaised (k i : Nat) (b : Bool) : (wrB k i b s).accRaised = s.accRaised := rfl
@[simp] theorem wrB_out (k i : Nat) (b : Bool) : (wrB k i b s).out = s.out := rfl
@[simp] theorem wrB_readData (k i : Nat) (b : Bool) : (wrB k i b s).readData = s.readData := rfl
@[simp] theorem wrB_fresh (k i : Nat) (b : Bool) : (wrB k i b s).fresh = s.fresh := rfl
@[simp] theorem wrB_parts (k i : Nat) (b : Bool) : (wrB k i b s).parts = s.parts := rfl
@[simp] theorem wrB_models (k i : Nat) (b : Bool) : (wrB k i b s).models = s.models := rfl
@[simp] theorem wrB_binds (k i : Nat) (b : Bool) : (wrB k i b s).binds = s.binds := rfl
@[simp] theorem wrB_strms (k i : Nat) (b : Bool) : (wrB k i b s).strms = s.strms := rfl
@[simp] theorem wrB_jobs (k i : Nat) (b : Bool) : (wrB k i b s).jobs = s.jobs := rfl
@[simp] theorem wrB_cores (k i : Nat) (b : Bool) : (wrB k i b s).cores = s.cores := rfl
@[simp] theorem wrB_ports (k i : Nat) (b : Bool) : (wrB k i b s).ports = s.ports := rfl
@[simp] theorem wrB_banks (k i : Nat) (b : Bool) : (wrB k i b s).banks = s.banks := rfl
@[simp] theorem wrB_eccHour (k i : Nat) (b : Bool) : (wrB k i b s).eccHour = s.eccHour := rfl
@[simp] theorem wrB_srcs (k i : Nat) (b : Bool) : (wrB k i b s).srcs = s.srcs := rfl
@[simp] theorem wrB_emus (k i : Nat) (b : Bool) : (wrB k i b s).emus = s.emus := rfl
@[simp] theorem wrB_ents (k i : Nat) (b : Bool) : (wrB k i b s).ents = s.ents := rfl
@[simp] theorem wrB_dos (k i : Nat) (b : Bool) : (wrB k i b s).dos = s.dos := rfl
@[simp] theorem wrB_reqs (k i : Nat) (b : Bool) : (wrB k i b s).reqs = s.reqs := rfl
@[simp] theorem wrB_cmprs (k i : Nat) (b : Bool) : (wrB k i b s).cmprs = s.cmprs := rfl
@[simp] theorem wrB_mirrors (k i : Nat) (b : Bool) : (wrB k i b s).mirrors = s.mirrors := rfl
@[simp] theorem wrB_fio (k i : Nat) (b : Bool) : (wrB k i b s).fio = s.fio := rfl
@[simp] theorem wrB_lqs (k i : Nat) (b : Bool) : (wrB k i b s).lqs = s.lqs := rfl
@[simp] theorem wrB_wire (k i : Nat) (b : Bool) : (wrB k i b s).wire = s.wire := rfl
@[simp] theorem wrB_ethWait (k i : Nat) (b : Bool) : (wrB k i b s).ethWait = s.ethWait := rfl
@[simp] theorem wrB_ptp (k i : Nat) (b : Bool) : (wrB k i b s).ptp = s.ptp := rfl
@[simp] theorem wrB_cports (k i : Nat) (b : Bool) : (wrB k i b s).cports = s.cports := rfl
@[simp] theorem wrB_drains (k i : Nat) (b : Bool) : (wrB k i b s).drains = s.drains := rfl
@[simp] theorem wrB_sbonds (k i : Nat) (b : Bool) : (wrB k i b s).sbonds = s.sbonds := rfl
@[simp] theorem wrB_fes (k i : Nat) (b : Bool) : (wrB k i b s).fes = s.fes := rfl
@[simp] theorem wrB_cds (k i : Nat) (b : Bool) : (wrB k i b s).cds = s.cds := rfl
@[simp] theorem wrB_decTurn (k i : Nat) (b : Bool) : (wrB k i b s).decTurn = s.decTurn := rfl
@[simp] theorem wrB_loads (k i : Nat) (b : Bool) : (wrB k i b s).loads = s.loads := rfl
@[simp] theorem wrB_cages (k i : Nat) (b : Bool) : (wrB k i b s).cages = s.cages := rfl
@[simp] theorem wrB_spans (k i : Nat) (b : Bool) : (wrB k i b s).spans = s.spans := rfl
@[simp] theorem wrB_gops (k i : Nat) (b : Bool) : (wrB k i b s).gops = s.gops := rfl
@[simp] theorem wrB_clk (k i : Nat) (b : Bool) : (wrB k i b s).clk = s.clk := rfl
@[simp] theorem wrB_pwr (k i : Nat) (b : Bool) : (wrB k i b s).pwr = s.pwr := rfl

/-! ### inc -/
@[simp] theorem inc_pending (k n : Nat) : (inc k n s).pending = s.pending := rfl
@[simp] theorem inc_force (k n : Nat) : (inc k n s).force = s.force := rfl
@[simp] theorem inc_cnt (k n : Nat) : (inc k n s).cnt = s.cnt := rfl
@[simp] theorem inc_mem (k n : Nat) : (inc k n s).mem = s.mem := rfl
@[simp] theorem inc_host (k n : Nat) : (inc k n s).host = s.host := rfl
@[simp] theorem inc_poison (k n : Nat) : (inc k n s).poison = s.poison := rfl
@[simp] theorem inc_time (k n : Nat) : (inc k n s).time = s.time := rfl
@[simp] theorem inc_flash (k n : Nat) : (inc k n s).flash = s.flash := rfl
@[simp] theorem inc_fuses (k n : Nat) : (inc k n s).fuses = s.fuses := rfl
@[simp] theorem inc_boot (k n : Nat) : (inc k n s).boot = s.boot := rfl
@[simp] theorem inc_img (k n : Nat) : (inc k n s).img = s.img := rfl
@[simp] theorem inc_rings (k n : Nat) : (inc k n s).rings = s.rings := rfl
@[simp] theorem inc_svc (k n : Nat) : (inc k n s).svc = s.svc := rfl
@[simp] theorem inc_faults (k n : Nat) : (inc k n s).faults = s.faults := rfl
@[simp] theorem inc_accRaised (k n : Nat) : (inc k n s).accRaised = s.accRaised := rfl
@[simp] theorem inc_out (k n : Nat) : (inc k n s).out = s.out := rfl
@[simp] theorem inc_readData (k n : Nat) : (inc k n s).readData = s.readData := rfl
@[simp] theorem inc_fresh (k n : Nat) : (inc k n s).fresh = s.fresh := rfl
@[simp] theorem inc_parts (k n : Nat) : (inc k n s).parts = s.parts := rfl
@[simp] theorem inc_models (k n : Nat) : (inc k n s).models = s.models := rfl
@[simp] theorem inc_binds (k n : Nat) : (inc k n s).binds = s.binds := rfl
@[simp] theorem inc_strms (k n : Nat) : (inc k n s).strms = s.strms := rfl
@[simp] theorem inc_jobs (k n : Nat) : (inc k n s).jobs = s.jobs := rfl
@[simp] theorem inc_cores (k n : Nat) : (inc k n s).cores = s.cores := rfl
@[simp] theorem inc_ports (k n : Nat) : (inc k n s).ports = s.ports := rfl
@[simp] theorem inc_banks (k n : Nat) : (inc k n s).banks = s.banks := rfl
@[simp] theorem inc_eccHour (k n : Nat) : (inc k n s).eccHour = s.eccHour := rfl
@[simp] theorem inc_srcs (k n : Nat) : (inc k n s).srcs = s.srcs := rfl
@[simp] theorem inc_emus (k n : Nat) : (inc k n s).emus = s.emus := rfl
@[simp] theorem inc_ents (k n : Nat) : (inc k n s).ents = s.ents := rfl
@[simp] theorem inc_dos (k n : Nat) : (inc k n s).dos = s.dos := rfl
@[simp] theorem inc_reqs (k n : Nat) : (inc k n s).reqs = s.reqs := rfl
@[simp] theorem inc_cmprs (k n : Nat) : (inc k n s).cmprs = s.cmprs := rfl
@[simp] theorem inc_mirrors (k n : Nat) : (inc k n s).mirrors = s.mirrors := rfl
@[simp] theorem inc_fio (k n : Nat) : (inc k n s).fio = s.fio := rfl
@[simp] theorem inc_lqs (k n : Nat) : (inc k n s).lqs = s.lqs := rfl
@[simp] theorem inc_wire (k n : Nat) : (inc k n s).wire = s.wire := rfl
@[simp] theorem inc_ethWait (k n : Nat) : (inc k n s).ethWait = s.ethWait := rfl
@[simp] theorem inc_ptp (k n : Nat) : (inc k n s).ptp = s.ptp := rfl
@[simp] theorem inc_cports (k n : Nat) : (inc k n s).cports = s.cports := rfl
@[simp] theorem inc_drains (k n : Nat) : (inc k n s).drains = s.drains := rfl
@[simp] theorem inc_sbonds (k n : Nat) : (inc k n s).sbonds = s.sbonds := rfl
@[simp] theorem inc_fes (k n : Nat) : (inc k n s).fes = s.fes := rfl
@[simp] theorem inc_cds (k n : Nat) : (inc k n s).cds = s.cds := rfl
@[simp] theorem inc_decTurn (k n : Nat) : (inc k n s).decTurn = s.decTurn := rfl
@[simp] theorem inc_loads (k n : Nat) : (inc k n s).loads = s.loads := rfl
@[simp] theorem inc_cages (k n : Nat) : (inc k n s).cages = s.cages := rfl
@[simp] theorem inc_spans (k n : Nat) : (inc k n s).spans = s.spans := rfl
@[simp] theorem inc_gops (k n : Nat) : (inc k n s).gops = s.gops := rfl
@[simp] theorem inc_clk (k n : Nat) : (inc k n s).clk = s.clk := rfl
@[simp] theorem inc_pwr (k n : Nat) : (inc k n s).pwr = s.pwr := rfl

/-! ### takeShadow -/
@[simp] theorem takeShadow_pending (k : Nat) : (takeShadow k s).pending = s.pending := rfl
@[simp] theorem takeShadow_regs (k : Nat) : (takeShadow k s).regs = s.regs := rfl
@[simp] theorem takeShadow_cnt (k : Nat) : (takeShadow k s).cnt = s.cnt := rfl
@[simp] theorem takeShadow_mem (k : Nat) : (takeShadow k s).mem = s.mem := rfl
@[simp] theorem takeShadow_host (k : Nat) : (takeShadow k s).host = s.host := rfl
@[simp] theorem takeShadow_poison (k : Nat) : (takeShadow k s).poison = s.poison := rfl
@[simp] theorem takeShadow_time (k : Nat) : (takeShadow k s).time = s.time := rfl
@[simp] theorem takeShadow_flash (k : Nat) : (takeShadow k s).flash = s.flash := rfl
@[simp] theorem takeShadow_fuses (k : Nat) : (takeShadow k s).fuses = s.fuses := rfl
@[simp] theorem takeShadow_boot (k : Nat) : (takeShadow k s).boot = s.boot := rfl
@[simp] theorem takeShadow_img (k : Nat) : (takeShadow k s).img = s.img := rfl
@[simp] theorem takeShadow_rings (k : Nat) : (takeShadow k s).rings = s.rings := rfl
@[simp] theorem takeShadow_svc (k : Nat) : (takeShadow k s).svc = s.svc := rfl
@[simp] theorem takeShadow_faults (k : Nat) : (takeShadow k s).faults = s.faults := rfl
@[simp] theorem takeShadow_accRaised (k : Nat) : (takeShadow k s).accRaised = s.accRaised := rfl
@[simp] theorem takeShadow_out (k : Nat) : (takeShadow k s).out = s.out := rfl
@[simp] theorem takeShadow_readData (k : Nat) : (takeShadow k s).readData = s.readData := rfl
@[simp] theorem takeShadow_fresh (k : Nat) : (takeShadow k s).fresh = s.fresh := rfl
@[simp] theorem takeShadow_parts (k : Nat) : (takeShadow k s).parts = s.parts := rfl
@[simp] theorem takeShadow_models (k : Nat) : (takeShadow k s).models = s.models := rfl
@[simp] theorem takeShadow_binds (k : Nat) : (takeShadow k s).binds = s.binds := rfl
@[simp] theorem takeShadow_strms (k : Nat) : (takeShadow k s).strms = s.strms := rfl
@[simp] theorem takeShadow_jobs (k : Nat) : (takeShadow k s).jobs = s.jobs := rfl
@[simp] theorem takeShadow_cores (k : Nat) : (takeShadow k s).cores = s.cores := rfl
@[simp] theorem takeShadow_ports (k : Nat) : (takeShadow k s).ports = s.ports := rfl
@[simp] theorem takeShadow_banks (k : Nat) : (takeShadow k s).banks = s.banks := rfl
@[simp] theorem takeShadow_eccHour (k : Nat) : (takeShadow k s).eccHour = s.eccHour := rfl
@[simp] theorem takeShadow_srcs (k : Nat) : (takeShadow k s).srcs = s.srcs := rfl
@[simp] theorem takeShadow_emus (k : Nat) : (takeShadow k s).emus = s.emus := rfl
@[simp] theorem takeShadow_ents (k : Nat) : (takeShadow k s).ents = s.ents := rfl
@[simp] theorem takeShadow_dos (k : Nat) : (takeShadow k s).dos = s.dos := rfl
@[simp] theorem takeShadow_reqs (k : Nat) : (takeShadow k s).reqs = s.reqs := rfl
@[simp] theorem takeShadow_cmprs (k : Nat) : (takeShadow k s).cmprs = s.cmprs := rfl
@[simp] theorem takeShadow_mirrors (k : Nat) : (takeShadow k s).mirrors = s.mirrors := rfl
@[simp] theorem takeShadow_fio (k : Nat) : (takeShadow k s).fio = s.fio := rfl
@[simp] theorem takeShadow_lqs (k : Nat) : (takeShadow k s).lqs = s.lqs := rfl
@[simp] theorem takeShadow_wire (k : Nat) : (takeShadow k s).wire = s.wire := rfl
@[simp] theorem takeShadow_ethWait (k : Nat) : (takeShadow k s).ethWait = s.ethWait := rfl
@[simp] theorem takeShadow_ptp (k : Nat) : (takeShadow k s).ptp = s.ptp := rfl
@[simp] theorem takeShadow_cports (k : Nat) : (takeShadow k s).cports = s.cports := rfl
@[simp] theorem takeShadow_drains (k : Nat) : (takeShadow k s).drains = s.drains := rfl
@[simp] theorem takeShadow_sbonds (k : Nat) : (takeShadow k s).sbonds = s.sbonds := rfl
@[simp] theorem takeShadow_fes (k : Nat) : (takeShadow k s).fes = s.fes := rfl
@[simp] theorem takeShadow_cds (k : Nat) : (takeShadow k s).cds = s.cds := rfl
@[simp] theorem takeShadow_decTurn (k : Nat) : (takeShadow k s).decTurn = s.decTurn := rfl
@[simp] theorem takeShadow_loads (k : Nat) : (takeShadow k s).loads = s.loads := rfl
@[simp] theorem takeShadow_cages (k : Nat) : (takeShadow k s).cages = s.cages := rfl
@[simp] theorem takeShadow_spans (k : Nat) : (takeShadow k s).spans = s.spans := rfl
@[simp] theorem takeShadow_gops (k : Nat) : (takeShadow k s).gops = s.gops := rfl
@[simp] theorem takeShadow_clk (k : Nat) : (takeShadow k s).clk = s.clk := rfl
@[simp] theorem takeShadow_pwr (k : Nat) : (takeShadow k s).pwr = s.pwr := rfl

/-! ### cntAdd -/
@[simp] theorem cntAdd_pending (k n : Nat) : (cntAdd k n s).pending = s.pending := rfl
@[simp] theorem cntAdd_regs (k n : Nat) : (cntAdd k n s).regs = s.regs := rfl
@[simp] theorem cntAdd_force (k n : Nat) : (cntAdd k n s).force = s.force := rfl
@[simp] theorem cntAdd_mem (k n : Nat) : (cntAdd k n s).mem = s.mem := rfl
@[simp] theorem cntAdd_host (k n : Nat) : (cntAdd k n s).host = s.host := rfl
@[simp] theorem cntAdd_poison (k n : Nat) : (cntAdd k n s).poison = s.poison := rfl
@[simp] theorem cntAdd_time (k n : Nat) : (cntAdd k n s).time = s.time := rfl
@[simp] theorem cntAdd_flash (k n : Nat) : (cntAdd k n s).flash = s.flash := rfl
@[simp] theorem cntAdd_fuses (k n : Nat) : (cntAdd k n s).fuses = s.fuses := rfl
@[simp] theorem cntAdd_boot (k n : Nat) : (cntAdd k n s).boot = s.boot := rfl
@[simp] theorem cntAdd_img (k n : Nat) : (cntAdd k n s).img = s.img := rfl
@[simp] theorem cntAdd_rings (k n : Nat) : (cntAdd k n s).rings = s.rings := rfl
@[simp] theorem cntAdd_svc (k n : Nat) : (cntAdd k n s).svc = s.svc := rfl
@[simp] theorem cntAdd_faults (k n : Nat) : (cntAdd k n s).faults = s.faults := rfl
@[simp] theorem cntAdd_accRaised (k n : Nat) : (cntAdd k n s).accRaised = s.accRaised := rfl
@[simp] theorem cntAdd_out (k n : Nat) : (cntAdd k n s).out = s.out := rfl
@[simp] theorem cntAdd_readData (k n : Nat) : (cntAdd k n s).readData = s.readData := rfl
@[simp] theorem cntAdd_fresh (k n : Nat) : (cntAdd k n s).fresh = s.fresh := rfl
@[simp] theorem cntAdd_parts (k n : Nat) : (cntAdd k n s).parts = s.parts := rfl
@[simp] theorem cntAdd_models (k n : Nat) : (cntAdd k n s).models = s.models := rfl
@[simp] theorem cntAdd_binds (k n : Nat) : (cntAdd k n s).binds = s.binds := rfl
@[simp] theorem cntAdd_strms (k n : Nat) : (cntAdd k n s).strms = s.strms := rfl
@[simp] theorem cntAdd_jobs (k n : Nat) : (cntAdd k n s).jobs = s.jobs := rfl
@[simp] theorem cntAdd_cores (k n : Nat) : (cntAdd k n s).cores = s.cores := rfl
@[simp] theorem cntAdd_ports (k n : Nat) : (cntAdd k n s).ports = s.ports := rfl
@[simp] theorem cntAdd_banks (k n : Nat) : (cntAdd k n s).banks = s.banks := rfl
@[simp] theorem cntAdd_eccHour (k n : Nat) : (cntAdd k n s).eccHour = s.eccHour := rfl
@[simp] theorem cntAdd_srcs (k n : Nat) : (cntAdd k n s).srcs = s.srcs := rfl
@[simp] theorem cntAdd_emus (k n : Nat) : (cntAdd k n s).emus = s.emus := rfl
@[simp] theorem cntAdd_ents (k n : Nat) : (cntAdd k n s).ents = s.ents := rfl
@[simp] theorem cntAdd_dos (k n : Nat) : (cntAdd k n s).dos = s.dos := rfl
@[simp] theorem cntAdd_reqs (k n : Nat) : (cntAdd k n s).reqs = s.reqs := rfl
@[simp] theorem cntAdd_cmprs (k n : Nat) : (cntAdd k n s).cmprs = s.cmprs := rfl
@[simp] theorem cntAdd_mirrors (k n : Nat) : (cntAdd k n s).mirrors = s.mirrors := rfl
@[simp] theorem cntAdd_fio (k n : Nat) : (cntAdd k n s).fio = s.fio := rfl
@[simp] theorem cntAdd_lqs (k n : Nat) : (cntAdd k n s).lqs = s.lqs := rfl
@[simp] theorem cntAdd_wire (k n : Nat) : (cntAdd k n s).wire = s.wire := rfl
@[simp] theorem cntAdd_ethWait (k n : Nat) : (cntAdd k n s).ethWait = s.ethWait := rfl
@[simp] theorem cntAdd_ptp (k n : Nat) : (cntAdd k n s).ptp = s.ptp := rfl
@[simp] theorem cntAdd_cports (k n : Nat) : (cntAdd k n s).cports = s.cports := rfl
@[simp] theorem cntAdd_drains (k n : Nat) : (cntAdd k n s).drains = s.drains := rfl
@[simp] theorem cntAdd_sbonds (k n : Nat) : (cntAdd k n s).sbonds = s.sbonds := rfl
@[simp] theorem cntAdd_fes (k n : Nat) : (cntAdd k n s).fes = s.fes := rfl
@[simp] theorem cntAdd_cds (k n : Nat) : (cntAdd k n s).cds = s.cds := rfl
@[simp] theorem cntAdd_decTurn (k n : Nat) : (cntAdd k n s).decTurn = s.decTurn := rfl
@[simp] theorem cntAdd_loads (k n : Nat) : (cntAdd k n s).loads = s.loads := rfl
@[simp] theorem cntAdd_cages (k n : Nat) : (cntAdd k n s).cages = s.cages := rfl
@[simp] theorem cntAdd_spans (k n : Nat) : (cntAdd k n s).spans = s.spans := rfl
@[simp] theorem cntAdd_gops (k n : Nat) : (cntAdd k n s).gops = s.gops := rfl
@[simp] theorem cntAdd_clk (k n : Nat) : (cntAdd k n s).clk = s.clk := rfl
@[simp] theorem cntAdd_pwr (k n : Nat) : (cntAdd k n s).pwr = s.pwr := rfl

/-! ### regsReset -/
@[simp] theorem regsReset_pending (lo hi : Nat) : (regsReset lo hi s).pending = s.pending := rfl
@[simp] theorem regsReset_mem (lo hi : Nat) : (regsReset lo hi s).mem = s.mem := rfl
@[simp] theorem regsReset_host (lo hi : Nat) : (regsReset lo hi s).host = s.host := rfl
@[simp] theorem regsReset_poison (lo hi : Nat) : (regsReset lo hi s).poison = s.poison := rfl
@[simp] theorem regsReset_time (lo hi : Nat) : (regsReset lo hi s).time = s.time := rfl
@[simp] theorem regsReset_flash (lo hi : Nat) : (regsReset lo hi s).flash = s.flash := rfl
@[simp] theorem regsReset_fuses (lo hi : Nat) : (regsReset lo hi s).fuses = s.fuses := rfl
@[simp] theorem regsReset_boot (lo hi : Nat) : (regsReset lo hi s).boot = s.boot := rfl
@[simp] theorem regsReset_img (lo hi : Nat) : (regsReset lo hi s).img = s.img := rfl
@[simp] theorem regsReset_rings (lo hi : Nat) : (regsReset lo hi s).rings = s.rings := rfl
@[simp] theorem regsReset_svc (lo hi : Nat) : (regsReset lo hi s).svc = s.svc := rfl
@[simp] theorem regsReset_faults (lo hi : Nat) : (regsReset lo hi s).faults = s.faults := rfl
@[simp] theorem regsReset_accRaised (lo hi : Nat) : (regsReset lo hi s).accRaised = s.accRaised := rfl
@[simp] theorem regsReset_out (lo hi : Nat) : (regsReset lo hi s).out = s.out := rfl
@[simp] theorem regsReset_readData (lo hi : Nat) : (regsReset lo hi s).readData = s.readData := rfl
@[simp] theorem regsReset_fresh (lo hi : Nat) : (regsReset lo hi s).fresh = s.fresh := rfl
@[simp] theorem regsReset_parts (lo hi : Nat) : (regsReset lo hi s).parts = s.parts := rfl
@[simp] theorem regsReset_models (lo hi : Nat) : (regsReset lo hi s).models = s.models := rfl
@[simp] theorem regsReset_binds (lo hi : Nat) : (regsReset lo hi s).binds = s.binds := rfl
@[simp] theorem regsReset_strms (lo hi : Nat) : (regsReset lo hi s).strms = s.strms := rfl
@[simp] theorem regsReset_jobs (lo hi : Nat) : (regsReset lo hi s).jobs = s.jobs := rfl
@[simp] theorem regsReset_cores (lo hi : Nat) : (regsReset lo hi s).cores = s.cores := rfl
@[simp] theorem regsReset_ports (lo hi : Nat) : (regsReset lo hi s).ports = s.ports := rfl
@[simp] theorem regsReset_banks (lo hi : Nat) : (regsReset lo hi s).banks = s.banks := rfl
@[simp] theorem regsReset_eccHour (lo hi : Nat) : (regsReset lo hi s).eccHour = s.eccHour := rfl
@[simp] theorem regsReset_srcs (lo hi : Nat) : (regsReset lo hi s).srcs = s.srcs := rfl
@[simp] theorem regsReset_emus (lo hi : Nat) : (regsReset lo hi s).emus = s.emus := rfl
@[simp] theorem regsReset_ents (lo hi : Nat) : (regsReset lo hi s).ents = s.ents := rfl
@[simp] theorem regsReset_dos (lo hi : Nat) : (regsReset lo hi s).dos = s.dos := rfl
@[simp] theorem regsReset_reqs (lo hi : Nat) : (regsReset lo hi s).reqs = s.reqs := rfl
@[simp] theorem regsReset_cmprs (lo hi : Nat) : (regsReset lo hi s).cmprs = s.cmprs := rfl
@[simp] theorem regsReset_mirrors (lo hi : Nat) : (regsReset lo hi s).mirrors = s.mirrors := rfl
@[simp] theorem regsReset_fio (lo hi : Nat) : (regsReset lo hi s).fio = s.fio := rfl
@[simp] theorem regsReset_lqs (lo hi : Nat) : (regsReset lo hi s).lqs = s.lqs := rfl
@[simp] theorem regsReset_wire (lo hi : Nat) : (regsReset lo hi s).wire = s.wire := rfl
@[simp] theorem regsReset_ethWait (lo hi : Nat) : (regsReset lo hi s).ethWait = s.ethWait := rfl
@[simp] theorem regsReset_ptp (lo hi : Nat) : (regsReset lo hi s).ptp = s.ptp := rfl
@[simp] theorem regsReset_cports (lo hi : Nat) : (regsReset lo hi s).cports = s.cports := rfl
@[simp] theorem regsReset_drains (lo hi : Nat) : (regsReset lo hi s).drains = s.drains := rfl
@[simp] theorem regsReset_sbonds (lo hi : Nat) : (regsReset lo hi s).sbonds = s.sbonds := rfl
@[simp] theorem regsReset_fes (lo hi : Nat) : (regsReset lo hi s).fes = s.fes := rfl
@[simp] theorem regsReset_cds (lo hi : Nat) : (regsReset lo hi s).cds = s.cds := rfl
@[simp] theorem regsReset_decTurn (lo hi : Nat) : (regsReset lo hi s).decTurn = s.decTurn := rfl
@[simp] theorem regsReset_loads (lo hi : Nat) : (regsReset lo hi s).loads = s.loads := rfl
@[simp] theorem regsReset_cages (lo hi : Nat) : (regsReset lo hi s).cages = s.cages := rfl
@[simp] theorem regsReset_spans (lo hi : Nat) : (regsReset lo hi s).spans = s.spans := rfl
@[simp] theorem regsReset_gops (lo hi : Nat) : (regsReset lo hi s).gops = s.gops := rfl
@[simp] theorem regsReset_clk (lo hi : Nat) : (regsReset lo hi s).clk = s.clk := rfl
@[simp] theorem regsReset_pwr (lo hi : Nat) : (regsReset lo hi s).pwr = s.pwr := rfl

/-! ### draw -/
@[simp] theorem draw_pending (n : Nat) : (draw n s).pending = s.pending := rfl
@[simp] theorem draw_regs (n : Nat) : (draw n s).regs = s.regs := rfl
@[simp] theorem draw_force (n : Nat) : (draw n s).force = s.force := rfl
@[simp] theorem draw_cnt (n : Nat) : (draw n s).cnt = s.cnt := rfl
@[simp] theorem draw_mem (n : Nat) : (draw n s).mem = s.mem := rfl
@[simp] theorem draw_host (n : Nat) : (draw n s).host = s.host := rfl
@[simp] theorem draw_poison (n : Nat) : (draw n s).poison = s.poison := rfl
@[simp] theorem draw_time (n : Nat) : (draw n s).time = s.time := rfl
@[simp] theorem draw_flash (n : Nat) : (draw n s).flash = s.flash := rfl
@[simp] theorem draw_fuses (n : Nat) : (draw n s).fuses = s.fuses := rfl
@[simp] theorem draw_boot (n : Nat) : (draw n s).boot = s.boot := rfl
@[simp] theorem draw_img (n : Nat) : (draw n s).img = s.img := rfl
@[simp] theorem draw_rings (n : Nat) : (draw n s).rings = s.rings := rfl
@[simp] theorem draw_svc (n : Nat) : (draw n s).svc = s.svc := rfl
@[simp] theorem draw_faults (n : Nat) : (draw n s).faults = s.faults := rfl
@[simp] theorem draw_accRaised (n : Nat) : (draw n s).accRaised = s.accRaised := rfl
@[simp] theorem draw_out (n : Nat) : (draw n s).out = s.out := rfl
@[simp] theorem draw_readData (n : Nat) : (draw n s).readData = s.readData := rfl
@[simp] theorem draw_parts (n : Nat) : (draw n s).parts = s.parts := rfl
@[simp] theorem draw_models (n : Nat) : (draw n s).models = s.models := rfl
@[simp] theorem draw_binds (n : Nat) : (draw n s).binds = s.binds := rfl
@[simp] theorem draw_strms (n : Nat) : (draw n s).strms = s.strms := rfl
@[simp] theorem draw_jobs (n : Nat) : (draw n s).jobs = s.jobs := rfl
@[simp] theorem draw_cores (n : Nat) : (draw n s).cores = s.cores := rfl
@[simp] theorem draw_ports (n : Nat) : (draw n s).ports = s.ports := rfl
@[simp] theorem draw_banks (n : Nat) : (draw n s).banks = s.banks := rfl
@[simp] theorem draw_eccHour (n : Nat) : (draw n s).eccHour = s.eccHour := rfl
@[simp] theorem draw_srcs (n : Nat) : (draw n s).srcs = s.srcs := rfl
@[simp] theorem draw_emus (n : Nat) : (draw n s).emus = s.emus := rfl
@[simp] theorem draw_ents (n : Nat) : (draw n s).ents = s.ents := rfl
@[simp] theorem draw_dos (n : Nat) : (draw n s).dos = s.dos := rfl
@[simp] theorem draw_reqs (n : Nat) : (draw n s).reqs = s.reqs := rfl
@[simp] theorem draw_cmprs (n : Nat) : (draw n s).cmprs = s.cmprs := rfl
@[simp] theorem draw_mirrors (n : Nat) : (draw n s).mirrors = s.mirrors := rfl
@[simp] theorem draw_fio (n : Nat) : (draw n s).fio = s.fio := rfl
@[simp] theorem draw_lqs (n : Nat) : (draw n s).lqs = s.lqs := rfl
@[simp] theorem draw_wire (n : Nat) : (draw n s).wire = s.wire := rfl
@[simp] theorem draw_ethWait (n : Nat) : (draw n s).ethWait = s.ethWait := rfl
@[simp] theorem draw_ptp (n : Nat) : (draw n s).ptp = s.ptp := rfl
@[simp] theorem draw_cports (n : Nat) : (draw n s).cports = s.cports := rfl
@[simp] theorem draw_drains (n : Nat) : (draw n s).drains = s.drains := rfl
@[simp] theorem draw_sbonds (n : Nat) : (draw n s).sbonds = s.sbonds := rfl
@[simp] theorem draw_fes (n : Nat) : (draw n s).fes = s.fes := rfl
@[simp] theorem draw_cds (n : Nat) : (draw n s).cds = s.cds := rfl
@[simp] theorem draw_decTurn (n : Nat) : (draw n s).decTurn = s.decTurn := rfl
@[simp] theorem draw_loads (n : Nat) : (draw n s).loads = s.loads := rfl
@[simp] theorem draw_cages (n : Nat) : (draw n s).cages = s.cages := rfl
@[simp] theorem draw_spans (n : Nat) : (draw n s).spans = s.spans := rfl
@[simp] theorem draw_gops (n : Nat) : (draw n s).gops = s.gops := rfl
@[simp] theorem draw_clk (n : Nat) : (draw n s).clk = s.clk := rfl
@[simp] theorem draw_pwr (n : Nat) : (draw n s).pwr = s.pwr := rfl

/-! ### updRing -/
@[simp] theorem updRing_pending (fn : Nat) (f : Ring → Ring) : (updRing fn f s).pending = s.pending := rfl
@[simp] theorem updRing_regs (fn : Nat) (f : Ring → Ring) : (updRing fn f s).regs = s.regs := rfl
@[simp] theorem updRing_force (fn : Nat) (f : Ring → Ring) : (updRing fn f s).force = s.force := rfl
@[simp] theorem updRing_cnt (fn : Nat) (f : Ring → Ring) : (updRing fn f s).cnt = s.cnt := rfl
@[simp] theorem updRing_mem (fn : Nat) (f : Ring → Ring) : (updRing fn f s).mem = s.mem := rfl
@[simp] theorem updRing_host (fn : Nat) (f : Ring → Ring) : (updRing fn f s).host = s.host := rfl
@[simp] theorem updRing_poison (fn : Nat) (f : Ring → Ring) : (updRing fn f s).poison = s.poison := rfl
@[simp] theorem updRing_time (fn : Nat) (f : Ring → Ring) : (updRing fn f s).time = s.time := rfl
@[simp] theorem updRing_flash (fn : Nat) (f : Ring → Ring) : (updRing fn f s).flash = s.flash := rfl
@[simp] theorem updRing_fuses (fn : Nat) (f : Ring → Ring) : (updRing fn f s).fuses = s.fuses := rfl
@[simp] theorem updRing_boot (fn : Nat) (f : Ring → Ring) : (updRing fn f s).boot = s.boot := rfl
@[simp] theorem updRing_img (fn : Nat) (f : Ring → Ring) : (updRing fn f s).img = s.img := rfl
@[simp] theorem updRing_svc (fn : Nat) (f : Ring → Ring) : (updRing fn f s).svc = s.svc := rfl
@[simp] theorem updRing_faults (fn : Nat) (f : Ring → Ring) : (updRing fn f s).faults = s.faults := rfl
@[simp] theorem updRing_accRaised (fn : Nat) (f : Ring → Ring) : (updRing fn f s).accRaised = s.accRaised := rfl
@[simp] theorem updRing_out (fn : Nat) (f : Ring → Ring) : (updRing fn f s).out = s.out := rfl
@[simp] theorem updRing_readData (fn : Nat) (f : Ring → Ring) : (updRing fn f s).readData = s.readData := rfl
@[simp] theorem updRing_fresh (fn : Nat) (f : Ring → Ring) : (updRing fn f s).fresh = s.fresh := rfl
@[simp] theorem updRing_parts (fn : Nat) (f : Ring → Ring) : (updRing fn f s).parts = s.parts := rfl
@[simp] theorem updRing_models (fn : Nat) (f : Ring → Ring) : (updRing fn f s).models = s.models := rfl
@[simp] theorem updRing_binds (fn : Nat) (f : Ring → Ring) : (updRing fn f s).binds = s.binds := rfl
@[simp] theorem updRing_strms (fn : Nat) (f : Ring → Ring) : (updRing fn f s).strms = s.strms := rfl
@[simp] theorem updRing_jobs (fn : Nat) (f : Ring → Ring) : (updRing fn f s).jobs = s.jobs := rfl
@[simp] theorem updRing_cores (fn : Nat) (f : Ring → Ring) : (updRing fn f s).cores = s.cores := rfl
@[simp] theorem updRing_ports (fn : Nat) (f : Ring → Ring) : (updRing fn f s).ports = s.ports := rfl
@[simp] theorem updRing_banks (fn : Nat) (f : Ring → Ring) : (updRing fn f s).banks = s.banks := rfl
@[simp] theorem updRing_eccHour (fn : Nat) (f : Ring → Ring) : (updRing fn f s).eccHour = s.eccHour := rfl
@[simp] theorem updRing_srcs (fn : Nat) (f : Ring → Ring) : (updRing fn f s).srcs = s.srcs := rfl
@[simp] theorem updRing_emus (fn : Nat) (f : Ring → Ring) : (updRing fn f s).emus = s.emus := rfl
@[simp] theorem updRing_ents (fn : Nat) (f : Ring → Ring) : (updRing fn f s).ents = s.ents := rfl
@[simp] theorem updRing_dos (fn : Nat) (f : Ring → Ring) : (updRing fn f s).dos = s.dos := rfl
@[simp] theorem updRing_reqs (fn : Nat) (f : Ring → Ring) : (updRing fn f s).reqs = s.reqs := rfl
@[simp] theorem updRing_cmprs (fn : Nat) (f : Ring → Ring) : (updRing fn f s).cmprs = s.cmprs := rfl
@[simp] theorem updRing_mirrors (fn : Nat) (f : Ring → Ring) : (updRing fn f s).mirrors = s.mirrors := rfl
@[simp] theorem updRing_fio (fn : Nat) (f : Ring → Ring) : (updRing fn f s).fio = s.fio := rfl
@[simp] theorem updRing_lqs (fn : Nat) (f : Ring → Ring) : (updRing fn f s).lqs = s.lqs := rfl
@[simp] theorem updRing_wire (fn : Nat) (f : Ring → Ring) : (updRing fn f s).wire = s.wire := rfl
@[simp] theorem updRing_ethWait (fn : Nat) (f : Ring → Ring) : (updRing fn f s).ethWait = s.ethWait := rfl
@[simp] theorem updRing_ptp (fn : Nat) (f : Ring → Ring) : (updRing fn f s).ptp = s.ptp := rfl
@[simp] theorem updRing_cports (fn : Nat) (f : Ring → Ring) : (updRing fn f s).cports = s.cports := rfl
@[simp] theorem updRing_drains (fn : Nat) (f : Ring → Ring) : (updRing fn f s).drains = s.drains := rfl
@[simp] theorem updRing_sbonds (fn : Nat) (f : Ring → Ring) : (updRing fn f s).sbonds = s.sbonds := rfl
@[simp] theorem updRing_fes (fn : Nat) (f : Ring → Ring) : (updRing fn f s).fes = s.fes := rfl
@[simp] theorem updRing_cds (fn : Nat) (f : Ring → Ring) : (updRing fn f s).cds = s.cds := rfl
@[simp] theorem updRing_decTurn (fn : Nat) (f : Ring → Ring) : (updRing fn f s).decTurn = s.decTurn := rfl
@[simp] theorem updRing_loads (fn : Nat) (f : Ring → Ring) : (updRing fn f s).loads = s.loads := rfl
@[simp] theorem updRing_cages (fn : Nat) (f : Ring → Ring) : (updRing fn f s).cages = s.cages := rfl
@[simp] theorem updRing_spans (fn : Nat) (f : Ring → Ring) : (updRing fn f s).spans = s.spans := rfl
@[simp] theorem updRing_gops (fn : Nat) (f : Ring → Ring) : (updRing fn f s).gops = s.gops := rfl
@[simp] theorem updRing_clk (fn : Nat) (f : Ring → Ring) : (updRing fn f s).clk = s.clk := rfl
@[simp] theorem updRing_pwr (fn : Nat) (f : Ring → Ring) : (updRing fn f s).pwr = s.pwr := rfl

/-! ### updPart -/
@[simp] theorem updPart_pending (p : Nat) (f : Part → Part) : (updPart p f s).pending = s.pending := rfl
@[simp] theorem updPart_regs (p : Nat) (f : Part → Part) : (updPart p f s).regs = s.regs := rfl
@[simp] theorem updPart_force (p : Nat) (f : Part → Part) : (updPart p f s).force = s.force := rfl
@[simp] theorem updPart_cnt (p : Nat) (f : Part → Part) : (updPart p f s).cnt = s.cnt := rfl
@[simp] theorem updPart_mem (p : Nat) (f : Part → Part) : (updPart p f s).mem = s.mem := rfl
@[simp] theorem updPart_host (p : Nat) (f : Part → Part) : (updPart p f s).host = s.host := rfl
@[simp] theorem updPart_poison (p : Nat) (f : Part → Part) : (updPart p f s).poison = s.poison := rfl
@[simp] theorem updPart_time (p : Nat) (f : Part → Part) : (updPart p f s).time = s.time := rfl
@[simp] theorem updPart_flash (p : Nat) (f : Part → Part) : (updPart p f s).flash = s.flash := rfl
@[simp] theorem updPart_fuses (p : Nat) (f : Part → Part) : (updPart p f s).fuses = s.fuses := rfl
@[simp] theorem updPart_boot (p : Nat) (f : Part → Part) : (updPart p f s).boot = s.boot := rfl
@[simp] theorem updPart_img (p : Nat) (f : Part → Part) : (updPart p f s).img = s.img := rfl
@[simp] theorem updPart_rings (p : Nat) (f : Part → Part) : (updPart p f s).rings = s.rings := rfl
@[simp] theorem updPart_svc (p : Nat) (f : Part → Part) : (updPart p f s).svc = s.svc := rfl
@[simp] theorem updPart_faults (p : Nat) (f : Part → Part) : (updPart p f s).faults = s.faults := rfl
@[simp] theorem updPart_accRaised (p : Nat) (f : Part → Part) : (updPart p f s).accRaised = s.accRaised := rfl
@[simp] theorem updPart_out (p : Nat) (f : Part → Part) : (updPart p f s).out = s.out := rfl
@[simp] theorem updPart_readData (p : Nat) (f : Part → Part) : (updPart p f s).readData = s.readData := rfl
@[simp] theorem updPart_fresh (p : Nat) (f : Part → Part) : (updPart p f s).fresh = s.fresh := rfl
@[simp] theorem updPart_models (p : Nat) (f : Part → Part) : (updPart p f s).models = s.models := rfl
@[simp] theorem updPart_binds (p : Nat) (f : Part → Part) : (updPart p f s).binds = s.binds := rfl
@[simp] theorem updPart_strms (p : Nat) (f : Part → Part) : (updPart p f s).strms = s.strms := rfl
@[simp] theorem updPart_jobs (p : Nat) (f : Part → Part) : (updPart p f s).jobs = s.jobs := rfl
@[simp] theorem updPart_cores (p : Nat) (f : Part → Part) : (updPart p f s).cores = s.cores := rfl
@[simp] theorem updPart_ports (p : Nat) (f : Part → Part) : (updPart p f s).ports = s.ports := rfl
@[simp] theorem updPart_banks (p : Nat) (f : Part → Part) : (updPart p f s).banks = s.banks := rfl
@[simp] theorem updPart_eccHour (p : Nat) (f : Part → Part) : (updPart p f s).eccHour = s.eccHour := rfl
@[simp] theorem updPart_srcs (p : Nat) (f : Part → Part) : (updPart p f s).srcs = s.srcs := rfl
@[simp] theorem updPart_emus (p : Nat) (f : Part → Part) : (updPart p f s).emus = s.emus := rfl
@[simp] theorem updPart_ents (p : Nat) (f : Part → Part) : (updPart p f s).ents = s.ents := rfl
@[simp] theorem updPart_dos (p : Nat) (f : Part → Part) : (updPart p f s).dos = s.dos := rfl
@[simp] theorem updPart_reqs (p : Nat) (f : Part → Part) : (updPart p f s).reqs = s.reqs := rfl
@[simp] theorem updPart_cmprs (p : Nat) (f : Part → Part) : (updPart p f s).cmprs = s.cmprs := rfl
@[simp] theorem updPart_mirrors (p : Nat) (f : Part → Part) : (updPart p f s).mirrors = s.mirrors := rfl
@[simp] theorem updPart_fio (p : Nat) (f : Part → Part) : (updPart p f s).fio = s.fio := rfl
@[simp] theorem updPart_lqs (p : Nat) (f : Part → Part) : (updPart p f s).lqs = s.lqs := rfl
@[simp] theorem updPart_wire (p : Nat) (f : Part → Part) : (updPart p f s).wire = s.wire := rfl
@[simp] theorem updPart_ethWait (p : Nat) (f : Part → Part) : (updPart p f s).ethWait = s.ethWait := rfl
@[simp] theorem updPart_ptp (p : Nat) (f : Part → Part) : (updPart p f s).ptp = s.ptp := rfl
@[simp] theorem updPart_cports (p : Nat) (f : Part → Part) : (updPart p f s).cports = s.cports := rfl
@[simp] theorem updPart_drains (p : Nat) (f : Part → Part) : (updPart p f s).drains = s.drains := rfl
@[simp] theorem updPart_sbonds (p : Nat) (f : Part → Part) : (updPart p f s).sbonds = s.sbonds := rfl
@[simp] theorem updPart_fes (p : Nat) (f : Part → Part) : (updPart p f s).fes = s.fes := rfl
@[simp] theorem updPart_cds (p : Nat) (f : Part → Part) : (updPart p f s).cds = s.cds := rfl
@[simp] theorem updPart_decTurn (p : Nat) (f : Part → Part) : (updPart p f s).decTurn = s.decTurn := rfl
@[simp] theorem updPart_loads (p : Nat) (f : Part → Part) : (updPart p f s).loads = s.loads := rfl
@[simp] theorem updPart_cages (p : Nat) (f : Part → Part) : (updPart p f s).cages = s.cages := rfl
@[simp] theorem updPart_spans (p : Nat) (f : Part → Part) : (updPart p f s).spans = s.spans := rfl
@[simp] theorem updPart_gops (p : Nat) (f : Part → Part) : (updPart p f s).gops = s.gops := rfl
@[simp] theorem updPart_clk (p : Nat) (f : Part → Part) : (updPart p f s).clk = s.clk := rfl
@[simp] theorem updPart_pwr (p : Nat) (f : Part → Part) : (updPart p f s).pwr = s.pwr := rfl

/-! ### updStrm -/
@[simp] theorem updStrm_pending (st : Nat) (f : Strm → Strm) : (updStrm st f s).pending = s.pending := rfl
@[simp] theorem updStrm_regs (st : Nat) (f : Strm → Strm) : (updStrm st f s).regs = s.regs := rfl
@[simp] theorem updStrm_force (st : Nat) (f : Strm → Strm) : (updStrm st f s).force = s.force := rfl
@[simp] theorem updStrm_cnt (st : Nat) (f : Strm → Strm) : (updStrm st f s).cnt = s.cnt := rfl
@[simp] theorem updStrm_mem (st : Nat) (f : Strm → Strm) : (updStrm st f s).mem = s.mem := rfl
@[simp] theorem updStrm_host (st : Nat) (f : Strm → Strm) : (updStrm st f s).host = s.host := rfl
@[simp] theorem updStrm_poison (st : Nat) (f : Strm → Strm) : (updStrm st f s).poison = s.poison := rfl
@[simp] theorem updStrm_time (st : Nat) (f : Strm → Strm) : (updStrm st f s).time = s.time := rfl
@[simp] theorem updStrm_flash (st : Nat) (f : Strm → Strm) : (updStrm st f s).flash = s.flash := rfl
@[simp] theorem updStrm_fuses (st : Nat) (f : Strm → Strm) : (updStrm st f s).fuses = s.fuses := rfl
@[simp] theorem updStrm_boot (st : Nat) (f : Strm → Strm) : (updStrm st f s).boot = s.boot := rfl
@[simp] theorem updStrm_img (st : Nat) (f : Strm → Strm) : (updStrm st f s).img = s.img := rfl
@[simp] theorem updStrm_rings (st : Nat) (f : Strm → Strm) : (updStrm st f s).rings = s.rings := rfl
@[simp] theorem updStrm_svc (st : Nat) (f : Strm → Strm) : (updStrm st f s).svc = s.svc := rfl
@[simp] theorem updStrm_faults (st : Nat) (f : Strm → Strm) : (updStrm st f s).faults = s.faults := rfl
@[simp] theorem updStrm_accRaised (st : Nat) (f : Strm → Strm) : (updStrm st f s).accRaised = s.accRaised := rfl
@[simp] theorem updStrm_out (st : Nat) (f : Strm → Strm) : (updStrm st f s).out = s.out := rfl
@[simp] theorem updStrm_readData (st : Nat) (f : Strm → Strm) : (updStrm st f s).readData = s.readData := rfl
@[simp] theorem updStrm_fresh (st : Nat) (f : Strm → Strm) : (updStrm st f s).fresh = s.fresh := rfl
@[simp] theorem updStrm_parts (st : Nat) (f : Strm → Strm) : (updStrm st f s).parts = s.parts := rfl
@[simp] theorem updStrm_models (st : Nat) (f : Strm → Strm) : (updStrm st f s).models = s.models := rfl
@[simp] theorem updStrm_binds (st : Nat) (f : Strm → Strm) : (updStrm st f s).binds = s.binds := rfl
@[simp] theorem updStrm_jobs (st : Nat) (f : Strm → Strm) : (updStrm st f s).jobs = s.jobs := rfl
@[simp] theorem updStrm_cores (st : Nat) (f : Strm → Strm) : (updStrm st f s).cores = s.cores := rfl
@[simp] theorem updStrm_ports (st : Nat) (f : Strm → Strm) : (updStrm st f s).ports = s.ports := rfl
@[simp] theorem updStrm_banks (st : Nat) (f : Strm → Strm) : (updStrm st f s).banks = s.banks := rfl
@[simp] theorem updStrm_eccHour (st : Nat) (f : Strm → Strm) : (updStrm st f s).eccHour = s.eccHour := rfl
@[simp] theorem updStrm_srcs (st : Nat) (f : Strm → Strm) : (updStrm st f s).srcs = s.srcs := rfl
@[simp] theorem updStrm_emus (st : Nat) (f : Strm → Strm) : (updStrm st f s).emus = s.emus := rfl
@[simp] theorem updStrm_ents (st : Nat) (f : Strm → Strm) : (updStrm st f s).ents = s.ents := rfl
@[simp] theorem updStrm_dos (st : Nat) (f : Strm → Strm) : (updStrm st f s).dos = s.dos := rfl
@[simp] theorem updStrm_reqs (st : Nat) (f : Strm → Strm) : (updStrm st f s).reqs = s.reqs := rfl
@[simp] theorem updStrm_cmprs (st : Nat) (f : Strm → Strm) : (updStrm st f s).cmprs = s.cmprs := rfl
@[simp] theorem updStrm_mirrors (st : Nat) (f : Strm → Strm) : (updStrm st f s).mirrors = s.mirrors := rfl
@[simp] theorem updStrm_fio (st : Nat) (f : Strm → Strm) : (updStrm st f s).fio = s.fio := rfl
@[simp] theorem updStrm_lqs (st : Nat) (f : Strm → Strm) : (updStrm st f s).lqs = s.lqs := rfl
@[simp] theorem updStrm_wire (st : Nat) (f : Strm → Strm) : (updStrm st f s).wire = s.wire := rfl
@[simp] theorem updStrm_ethWait (st : Nat) (f : Strm → Strm) : (updStrm st f s).ethWait = s.ethWait := rfl
@[simp] theorem updStrm_ptp (st : Nat) (f : Strm → Strm) : (updStrm st f s).ptp = s.ptp := rfl
@[simp] theorem updStrm_cports (st : Nat) (f : Strm → Strm) : (updStrm st f s).cports = s.cports := rfl
@[simp] theorem updStrm_drains (st : Nat) (f : Strm → Strm) : (updStrm st f s).drains = s.drains := rfl
@[simp] theorem updStrm_sbonds (st : Nat) (f : Strm → Strm) : (updStrm st f s).sbonds = s.sbonds := rfl
@[simp] theorem updStrm_fes (st : Nat) (f : Strm → Strm) : (updStrm st f s).fes = s.fes := rfl
@[simp] theorem updStrm_cds (st : Nat) (f : Strm → Strm) : (updStrm st f s).cds = s.cds := rfl
@[simp] theorem updStrm_decTurn (st : Nat) (f : Strm → Strm) : (updStrm st f s).decTurn = s.decTurn := rfl
@[simp] theorem updStrm_loads (st : Nat) (f : Strm → Strm) : (updStrm st f s).loads = s.loads := rfl
@[simp] theorem updStrm_cages (st : Nat) (f : Strm → Strm) : (updStrm st f s).cages = s.cages := rfl
@[simp] theorem updStrm_spans (st : Nat) (f : Strm → Strm) : (updStrm st f s).spans = s.spans := rfl
@[simp] theorem updStrm_gops (st : Nat) (f : Strm → Strm) : (updStrm st f s).gops = s.gops := rfl
@[simp] theorem updStrm_clk (st : Nat) (f : Strm → Strm) : (updStrm st f s).clk = s.clk := rfl
@[simp] theorem updStrm_pwr (st : Nat) (f : Strm → Strm) : (updStrm st f s).pwr = s.pwr := rfl

/-! ### updCore -/
@[simp] theorem updCore_pending (n : Nat) (f : Core → Core) : (updCore n f s).pending = s.pending := rfl
@[simp] theorem updCore_regs (n : Nat) (f : Core → Core) : (updCore n f s).regs = s.regs := rfl
@[simp] theorem updCore_force (n : Nat) (f : Core → Core) : (updCore n f s).force = s.force := rfl
@[simp] theorem updCore_cnt (n : Nat) (f : Core → Core) : (updCore n f s).cnt = s.cnt := rfl
@[simp] theorem updCore_mem (n : Nat) (f : Core → Core) : (updCore n f s).mem = s.mem := rfl
@[simp] theorem updCore_host (n : Nat) (f : Core → Core) : (updCore n f s).host = s.host := rfl
@[simp] theorem updCore_poison (n : Nat) (f : Core → Core) : (updCore n f s).poison = s.poison := rfl
@[simp] theorem updCore_time (n : Nat) (f : Core → Core) : (updCore n f s).time = s.time := rfl
@[simp] theorem updCore_flash (n : Nat) (f : Core → Core) : (updCore n f s).flash = s.flash := rfl
@[simp] theorem updCore_fuses (n : Nat) (f : Core → Core) : (updCore n f s).fuses = s.fuses := rfl
@[simp] theorem updCore_boot (n : Nat) (f : Core → Core) : (updCore n f s).boot = s.boot := rfl
@[simp] theorem updCore_img (n : Nat) (f : Core → Core) : (updCore n f s).img = s.img := rfl
@[simp] theorem updCore_rings (n : Nat) (f : Core → Core) : (updCore n f s).rings = s.rings := rfl
@[simp] theorem updCore_svc (n : Nat) (f : Core → Core) : (updCore n f s).svc = s.svc := rfl
@[simp] theorem updCore_faults (n : Nat) (f : Core → Core) : (updCore n f s).faults = s.faults := rfl
@[simp] theorem updCore_accRaised (n : Nat) (f : Core → Core) : (updCore n f s).accRaised = s.accRaised := rfl
@[simp] theorem updCore_out (n : Nat) (f : Core → Core) : (updCore n f s).out = s.out := rfl
@[simp] theorem updCore_readData (n : Nat) (f : Core → Core) : (updCore n f s).readData = s.readData := rfl
@[simp] theorem updCore_fresh (n : Nat) (f : Core → Core) : (updCore n f s).fresh = s.fresh := rfl
@[simp] theorem updCore_parts (n : Nat) (f : Core → Core) : (updCore n f s).parts = s.parts := rfl
@[simp] theorem updCore_models (n : Nat) (f : Core → Core) : (updCore n f s).models = s.models := rfl
@[simp] theorem updCore_binds (n : Nat) (f : Core → Core) : (updCore n f s).binds = s.binds := rfl
@[simp] theorem updCore_strms (n : Nat) (f : Core → Core) : (updCore n f s).strms = s.strms := rfl
@[simp] theorem updCore_jobs (n : Nat) (f : Core → Core) : (updCore n f s).jobs = s.jobs := rfl
@[simp] theorem updCore_ports (n : Nat) (f : Core → Core) : (updCore n f s).ports = s.ports := rfl
@[simp] theorem updCore_banks (n : Nat) (f : Core → Core) : (updCore n f s).banks = s.banks := rfl
@[simp] theorem updCore_eccHour (n : Nat) (f : Core → Core) : (updCore n f s).eccHour = s.eccHour := rfl
@[simp] theorem updCore_srcs (n : Nat) (f : Core → Core) : (updCore n f s).srcs = s.srcs := rfl
@[simp] theorem updCore_emus (n : Nat) (f : Core → Core) : (updCore n f s).emus = s.emus := rfl
@[simp] theorem updCore_ents (n : Nat) (f : Core → Core) : (updCore n f s).ents = s.ents := rfl
@[simp] theorem updCore_dos (n : Nat) (f : Core → Core) : (updCore n f s).dos = s.dos := rfl
@[simp] theorem updCore_reqs (n : Nat) (f : Core → Core) : (updCore n f s).reqs = s.reqs := rfl
@[simp] theorem updCore_cmprs (n : Nat) (f : Core → Core) : (updCore n f s).cmprs = s.cmprs := rfl
@[simp] theorem updCore_mirrors (n : Nat) (f : Core → Core) : (updCore n f s).mirrors = s.mirrors := rfl
@[simp] theorem updCore_fio (n : Nat) (f : Core → Core) : (updCore n f s).fio = s.fio := rfl
@[simp] theorem updCore_lqs (n : Nat) (f : Core → Core) : (updCore n f s).lqs = s.lqs := rfl
@[simp] theorem updCore_wire (n : Nat) (f : Core → Core) : (updCore n f s).wire = s.wire := rfl
@[simp] theorem updCore_ethWait (n : Nat) (f : Core → Core) : (updCore n f s).ethWait = s.ethWait := rfl
@[simp] theorem updCore_ptp (n : Nat) (f : Core → Core) : (updCore n f s).ptp = s.ptp := rfl
@[simp] theorem updCore_cports (n : Nat) (f : Core → Core) : (updCore n f s).cports = s.cports := rfl
@[simp] theorem updCore_drains (n : Nat) (f : Core → Core) : (updCore n f s).drains = s.drains := rfl
@[simp] theorem updCore_sbonds (n : Nat) (f : Core → Core) : (updCore n f s).sbonds = s.sbonds := rfl
@[simp] theorem updCore_fes (n : Nat) (f : Core → Core) : (updCore n f s).fes = s.fes := rfl
@[simp] theorem updCore_cds (n : Nat) (f : Core → Core) : (updCore n f s).cds = s.cds := rfl
@[simp] theorem updCore_decTurn (n : Nat) (f : Core → Core) : (updCore n f s).decTurn = s.decTurn := rfl
@[simp] theorem updCore_loads (n : Nat) (f : Core → Core) : (updCore n f s).loads = s.loads := rfl
@[simp] theorem updCore_cages (n : Nat) (f : Core → Core) : (updCore n f s).cages = s.cages := rfl
@[simp] theorem updCore_spans (n : Nat) (f : Core → Core) : (updCore n f s).spans = s.spans := rfl
@[simp] theorem updCore_gops (n : Nat) (f : Core → Core) : (updCore n f s).gops = s.gops := rfl
@[simp] theorem updCore_clk (n : Nat) (f : Core → Core) : (updCore n f s).clk = s.clk := rfl
@[simp] theorem updCore_pwr (n : Nat) (f : Core → Core) : (updCore n f s).pwr = s.pwr := rfl

/-! ### emit -/
@[simp] theorem emit_pending (o : Out) : (emit o s).pending = s.pending := rfl
@[simp] theorem emit_regs (o : Out) : (emit o s).regs = s.regs := rfl
@[simp] theorem emit_force (o : Out) : (emit o s).force = s.force := rfl
@[simp] theorem emit_cnt (o : Out) : (emit o s).cnt = s.cnt := rfl
@[simp] theorem emit_mem (o : Out) : (emit o s).mem = s.mem := rfl
@[simp] theorem emit_host (o : Out) : (emit o s).host = s.host := rfl
@[simp] theorem emit_poison (o : Out) : (emit o s).poison = s.poison := rfl
@[simp] theorem emit_time (o : Out) : (emit o s).time = s.time := rfl
@[simp] theorem emit_flash (o : Out) : (emit o s).flash = s.flash := rfl
@[simp] theorem emit_fuses (o : Out) : (emit o s).fuses = s.fuses := rfl
@[simp] theorem emit_boot (o : Out) : (emit o s).boot = s.boot := rfl
@[simp] theorem emit_img (o : Out) : (emit o s).img = s.img := rfl
@[simp] theorem emit_rings (o : Out) : (emit o s).rings = s.rings := rfl
@[simp] theorem emit_svc (o : Out) : (emit o s).svc = s.svc := rfl
@[simp] theorem emit_faults (o : Out) : (emit o s).faults = s.faults := rfl
@[simp] theorem emit_accRaised (o : Out) : (emit o s).accRaised = s.accRaised := rfl
@[simp] theorem emit_readData (o : Out) : (emit o s).readData = s.readData := rfl
@[simp] theorem emit_fresh (o : Out) : (emit o s).fresh = s.fresh := rfl
@[simp] theorem emit_parts (o : Out) : (emit o s).parts = s.parts := rfl
@[simp] theorem emit_models (o : Out) : (emit o s).models = s.models := rfl
@[simp] theorem emit_binds (o : Out) : (emit o s).binds = s.binds := rfl
@[simp] theorem emit_strms (o : Out) : (emit o s).strms = s.strms := rfl
@[simp] theorem emit_jobs (o : Out) : (emit o s).jobs = s.jobs := rfl
@[simp] theorem emit_cores (o : Out) : (emit o s).cores = s.cores := rfl
@[simp] theorem emit_ports (o : Out) : (emit o s).ports = s.ports := rfl
@[simp] theorem emit_banks (o : Out) : (emit o s).banks = s.banks := rfl
@[simp] theorem emit_eccHour (o : Out) : (emit o s).eccHour = s.eccHour := rfl
@[simp] theorem emit_srcs (o : Out) : (emit o s).srcs = s.srcs := rfl
@[simp] theorem emit_emus (o : Out) : (emit o s).emus = s.emus := rfl
@[simp] theorem emit_ents (o : Out) : (emit o s).ents = s.ents := rfl
@[simp] theorem emit_dos (o : Out) : (emit o s).dos = s.dos := rfl
@[simp] theorem emit_reqs (o : Out) : (emit o s).reqs = s.reqs := rfl
@[simp] theorem emit_cmprs (o : Out) : (emit o s).cmprs = s.cmprs := rfl
@[simp] theorem emit_mirrors (o : Out) : (emit o s).mirrors = s.mirrors := rfl
@[simp] theorem emit_fio (o : Out) : (emit o s).fio = s.fio := rfl
@[simp] theorem emit_lqs (o : Out) : (emit o s).lqs = s.lqs := rfl
@[simp] theorem emit_wire (o : Out) : (emit o s).wire = s.wire := rfl
@[simp] theorem emit_ethWait (o : Out) : (emit o s).ethWait = s.ethWait := rfl
@[simp] theorem emit_ptp (o : Out) : (emit o s).ptp = s.ptp := rfl
@[simp] theorem emit_cports (o : Out) : (emit o s).cports = s.cports := rfl
@[simp] theorem emit_drains (o : Out) : (emit o s).drains = s.drains := rfl
@[simp] theorem emit_sbonds (o : Out) : (emit o s).sbonds = s.sbonds := rfl
@[simp] theorem emit_fes (o : Out) : (emit o s).fes = s.fes := rfl
@[simp] theorem emit_cds (o : Out) : (emit o s).cds = s.cds := rfl
@[simp] theorem emit_decTurn (o : Out) : (emit o s).decTurn = s.decTurn := rfl
@[simp] theorem emit_loads (o : Out) : (emit o s).loads = s.loads := rfl
@[simp] theorem emit_cages (o : Out) : (emit o s).cages = s.cages := rfl
@[simp] theorem emit_spans (o : Out) : (emit o s).spans = s.spans := rfl
@[simp] theorem emit_gops (o : Out) : (emit o s).gops = s.gops := rfl
@[simp] theorem emit_clk (o : Out) : (emit o s).clk = s.clk := rfl
@[simp] theorem emit_pwr (o : Out) : (emit o s).pwr = s.pwr := rfl

/-! ### memWrite -/
@[simp] theorem memWrite_pending (a : Nat) (bs : List Byte) : (memWrite a bs s).pending = s.pending := rfl
@[simp] theorem memWrite_regs (a : Nat) (bs : List Byte) : (memWrite a bs s).regs = s.regs := rfl
@[simp] theorem memWrite_force (a : Nat) (bs : List Byte) : (memWrite a bs s).force = s.force := rfl
@[simp] theorem memWrite_cnt (a : Nat) (bs : List Byte) : (memWrite a bs s).cnt = s.cnt := rfl
@[simp] theorem memWrite_host (a : Nat) (bs : List Byte) : (memWrite a bs s).host = s.host := rfl
@[simp] theorem memWrite_time (a : Nat) (bs : List Byte) : (memWrite a bs s).time = s.time := rfl
@[simp] theorem memWrite_flash (a : Nat) (bs : List Byte) : (memWrite a bs s).flash = s.flash := rfl
@[simp] theorem memWrite_fuses (a : Nat) (bs : List Byte) : (memWrite a bs s).fuses = s.fuses := rfl
@[simp] theorem memWrite_boot (a : Nat) (bs : List Byte) : (memWrite a bs s).boot = s.boot := rfl
@[simp] theorem memWrite_img (a : Nat) (bs : List Byte) : (memWrite a bs s).img = s.img := rfl
@[simp] theorem memWrite_rings (a : Nat) (bs : List Byte) : (memWrite a bs s).rings = s.rings := rfl
@[simp] theorem memWrite_svc (a : Nat) (bs : List Byte) : (memWrite a bs s).svc = s.svc := rfl
@[simp] theorem memWrite_faults (a : Nat) (bs : List Byte) : (memWrite a bs s).faults = s.faults := rfl
@[simp] theorem memWrite_accRaised (a : Nat) (bs : List Byte) : (memWrite a bs s).accRaised = s.accRaised := rfl
@[simp] theorem memWrite_out (a : Nat) (bs : List Byte) : (memWrite a bs s).out = s.out := rfl
@[simp] theorem memWrite_readData (a : Nat) (bs : List Byte) : (memWrite a bs s).readData = s.readData := rfl
@[simp] theorem memWrite_fresh (a : Nat) (bs : List Byte) : (memWrite a bs s).fresh = s.fresh := rfl
@[simp] theorem memWrite_parts (a : Nat) (bs : List Byte) : (memWrite a bs s).parts = s.parts := rfl
@[simp] theorem memWrite_models (a : Nat) (bs : List Byte) : (memWrite a bs s).models = s.models := rfl
@[simp] theorem memWrite_binds (a : Nat) (bs : List Byte) : (memWrite a bs s).binds = s.binds := rfl
@[simp] theorem memWrite_strms (a : Nat) (bs : List Byte) : (memWrite a bs s).strms = s.strms := rfl
@[simp] theorem memWrite_jobs (a : Nat) (bs : List Byte) : (memWrite a bs s).jobs = s.jobs := rfl
@[simp] theorem memWrite_cores (a : Nat) (bs : List Byte) : (memWrite a bs s).cores = s.cores := rfl
@[simp] theorem memWrite_ports (a : Nat) (bs : List Byte) : (memWrite a bs s).ports = s.ports := rfl
@[simp] theorem memWrite_banks (a : Nat) (bs : List Byte) : (memWrite a bs s).banks = s.banks := rfl
@[simp] theorem memWrite_eccHour (a : Nat) (bs : List Byte) : (memWrite a bs s).eccHour = s.eccHour := rfl
@[simp] theorem memWrite_srcs (a : Nat) (bs : List Byte) : (memWrite a bs s).srcs = s.srcs := rfl
@[simp] theorem memWrite_emus (a : Nat) (bs : List Byte) : (memWrite a bs s).emus = s.emus := rfl
@[simp] theorem memWrite_ents (a : Nat) (bs : List Byte) : (memWrite a bs s).ents = s.ents := rfl
@[simp] theorem memWrite_dos (a : Nat) (bs : List Byte) : (memWrite a bs s).dos = s.dos := rfl
@[simp] theorem memWrite_reqs (a : Nat) (bs : List Byte) : (memWrite a bs s).reqs = s.reqs := rfl
@[simp] theorem memWrite_cmprs (a : Nat) (bs : List Byte) : (memWrite a bs s).cmprs = s.cmprs := rfl
@[simp] theorem memWrite_mirrors (a : Nat) (bs : List Byte) : (memWrite a bs s).mirrors = s.mirrors := rfl
@[simp] theorem memWrite_fio (a : Nat) (bs : List Byte) : (memWrite a bs s).fio = s.fio := rfl
@[simp] theorem memWrite_lqs (a : Nat) (bs : List Byte) : (memWrite a bs s).lqs = s.lqs := rfl
@[simp] theorem memWrite_wire (a : Nat) (bs : List Byte) : (memWrite a bs s).wire = s.wire := rfl
@[simp] theorem memWrite_ethWait (a : Nat) (bs : List Byte) : (memWrite a bs s).ethWait = s.ethWait := rfl
@[simp] theorem memWrite_ptp (a : Nat) (bs : List Byte) : (memWrite a bs s).ptp = s.ptp := rfl
@[simp] theorem memWrite_cports (a : Nat) (bs : List Byte) : (memWrite a bs s).cports = s.cports := rfl
@[simp] theorem memWrite_drains (a : Nat) (bs : List Byte) : (memWrite a bs s).drains = s.drains := rfl
@[simp] theorem memWrite_sbonds (a : Nat) (bs : List Byte) : (memWrite a bs s).sbonds = s.sbonds := rfl
@[simp] theorem memWrite_fes (a : Nat) (bs : List Byte) : (memWrite a bs s).fes = s.fes := rfl
@[simp] theorem memWrite_cds (a : Nat) (bs : List Byte) : (memWrite a bs s).cds = s.cds := rfl
@[simp] theorem memWrite_decTurn (a : Nat) (bs : List Byte) : (memWrite a bs s).decTurn = s.decTurn := rfl
@[simp] theorem memWrite_loads (a : Nat) (bs : List Byte) : (memWrite a bs s).loads = s.loads := rfl
@[simp] theorem memWrite_cages (a : Nat) (bs : List Byte) : (memWrite a bs s).cages = s.cages := rfl
@[simp] theorem memWrite_spans (a : Nat) (bs : List Byte) : (memWrite a bs s).spans = s.spans := rfl
@[simp] theorem memWrite_gops (a : Nat) (bs : List Byte) : (memWrite a bs s).gops = s.gops := rfl
@[simp] theorem memWrite_clk (a : Nat) (bs : List Byte) : (memWrite a bs s).clk = s.clk := rfl
@[simp] theorem memWrite_pwr (a : Nat) (bs : List Byte) : (memWrite a bs s).pwr = s.pwr := rfl

/-! ### memClear -/
@[simp] theorem memClear_pending (a len : Nat) : (memClear a len s).pending = s.pending := rfl
@[simp] theorem memClear_regs (a len : Nat) : (memClear a len s).regs = s.regs := rfl
@[simp] theorem memClear_force (a len : Nat) : (memClear a len s).force = s.force := rfl
@[simp] theorem memClear_cnt (a len : Nat) : (memClear a len s).cnt = s.cnt := rfl
@[simp] theorem memClear_host (a len : Nat) : (memClear a len s).host = s.host := rfl
@[simp] theorem memClear_time (a len : Nat) : (memClear a len s).time = s.time := rfl
@[simp] theorem memClear_flash (a len : Nat) : (memClear a len s).flash = s.flash := rfl
@[simp] theorem memClear_fuses (a len : Nat) : (memClear a len s).fuses = s.fuses := rfl
@[simp] theorem memClear_boot (a len : Nat) : (memClear a len s).boot = s.boot := rfl
@[simp] theorem memClear_img (a len : Nat) : (memClear a len s).img = s.img := rfl
@[simp] theorem memClear_rings (a len : Nat) : (memClear a len s).rings = s.rings := rfl
@[simp] theorem memClear_svc (a len : Nat) : (memClear a len s).svc = s.svc := rfl
@[simp] theorem memClear_faults (a len : Nat) : (memClear a len s).faults = s.faults := rfl
@[simp] theorem memClear_accRaised (a len : Nat) : (memClear a len s).accRaised = s.accRaised := rfl
@[simp] theorem memClear_out (a len : Nat) : (memClear a len s).out = s.out := rfl
@[simp] theorem memClear_readData (a len : Nat) : (memClear a len s).readData = s.readData := rfl
@[simp] theorem memClear_fresh (a len : Nat) : (memClear a len s).fresh = s.fresh := rfl
@[simp] theorem memClear_parts (a len : Nat) : (memClear a len s).parts = s.parts := rfl
@[simp] theorem memClear_models (a len : Nat) : (memClear a len s).models = s.models := rfl
@[simp] theorem memClear_binds (a len : Nat) : (memClear a len s).binds = s.binds := rfl
@[simp] theorem memClear_strms (a len : Nat) : (memClear a len s).strms = s.strms := rfl
@[simp] theorem memClear_jobs (a len : Nat) : (memClear a len s).jobs = s.jobs := rfl
@[simp] theorem memClear_cores (a len : Nat) : (memClear a len s).cores = s.cores := rfl
@[simp] theorem memClear_ports (a len : Nat) : (memClear a len s).ports = s.ports := rfl
@[simp] theorem memClear_banks (a len : Nat) : (memClear a len s).banks = s.banks := rfl
@[simp] theorem memClear_eccHour (a len : Nat) : (memClear a len s).eccHour = s.eccHour := rfl
@[simp] theorem memClear_srcs (a len : Nat) : (memClear a len s).srcs = s.srcs := rfl
@[simp] theorem memClear_emus (a len : Nat) : (memClear a len s).emus = s.emus := rfl
@[simp] theorem memClear_ents (a len : Nat) : (memClear a len s).ents = s.ents := rfl
@[simp] theorem memClear_dos (a len : Nat) : (memClear a len s).dos = s.dos := rfl
@[simp] theorem memClear_reqs (a len : Nat) : (memClear a len s).reqs = s.reqs := rfl
@[simp] theorem memClear_cmprs (a len : Nat) : (memClear a len s).cmprs = s.cmprs := rfl
@[simp] theorem memClear_mirrors (a len : Nat) : (memClear a len s).mirrors = s.mirrors := rfl
@[simp] theorem memClear_fio (a len : Nat) : (memClear a len s).fio = s.fio := rfl
@[simp] theorem memClear_lqs (a len : Nat) : (memClear a len s).lqs = s.lqs := rfl
@[simp] theorem memClear_wire (a len : Nat) : (memClear a len s).wire = s.wire := rfl
@[simp] theorem memClear_ethWait (a len : Nat) : (memClear a len s).ethWait = s.ethWait := rfl
@[simp] theorem memClear_ptp (a len : Nat) : (memClear a len s).ptp = s.ptp := rfl
@[simp] theorem memClear_cports (a len : Nat) : (memClear a len s).cports = s.cports := rfl
@[simp] theorem memClear_drains (a len : Nat) : (memClear a len s).drains = s.drains := rfl
@[simp] theorem memClear_sbonds (a len : Nat) : (memClear a len s).sbonds = s.sbonds := rfl
@[simp] theorem memClear_fes (a len : Nat) : (memClear a len s).fes = s.fes := rfl
@[simp] theorem memClear_cds (a len : Nat) : (memClear a len s).cds = s.cds := rfl
@[simp] theorem memClear_decTurn (a len : Nat) : (memClear a len s).decTurn = s.decTurn := rfl
@[simp] theorem memClear_loads (a len : Nat) : (memClear a len s).loads = s.loads := rfl
@[simp] theorem memClear_cages (a len : Nat) : (memClear a len s).cages = s.cages := rfl
@[simp] theorem memClear_spans (a len : Nat) : (memClear a len s).spans = s.spans := rfl
@[simp] theorem memClear_gops (a len : Nat) : (memClear a len s).gops = s.gops := rfl
@[simp] theorem memClear_clk (a len : Nat) : (memClear a len s).clk = s.clk := rfl
@[simp] theorem memClear_pwr (a len : Nat) : (memClear a len s).pwr = s.pwr := rfl

end Sys2Proof.Laws
end

