-- ==== Sys2Proof/Laws/Fields.lean ====
section
/-! SUPPORT. Bit fields, sparse maps and registers: what a read gives after a write. -/

namespace Sys2Proof.Laws

open Sys2Proof Sys2Proof.Machine

/-! ### Fields of a word -/

/-- A bit of a word whose field was replaced. -/
theorem bitOf_setFld (i hi lo v : Nat) (w : Word) (hi31 : i < 32) :
    bitOf i (setFld hi lo v w) = if lo ≤ i ∧ i < hi + 1 then v.testBit (i - lo) else bitOf i w := by
  have key : ∀ j, (setFld hi lo v w).toNat.testBit j = (setFld hi lo v w).getLsbD j := fun j => (BitVec.testBit_toNat _)
  simp only [bitOf, key]
  simp only [setFld, BitVec.getLsbD_or, BitVec.getLsbD_and, BitVec.getLsbD_not, BitVec.getLsbD_ofNat, hi31, decide_true, Bool.true_and,
    Nat.testBit_shiftLeft]
  by_cases hl : lo ≤ i
  · by_cases hh : i < hi + 1
    · have h1 : (2 ^ (hi + 1 - lo) - 1).testBit (i - lo) = true := by
        rw [Nat.testBit_two_pow_sub_one]; simp; omega
      simp [hl, hh, h1]
    · have h1 : (2 ^ (hi + 1 - lo) - 1).testBit (i - lo) = false := by
        rw [Nat.testBit_two_pow_sub_one]; simp; omega
      simp [hh, h1, BitVec.testBit_toNat]
  · simp [hl, BitVec.testBit_toNat]

/-- A bit set or cleared, read back. -/
@[simp] theorem bitOf_setBit_same (i : Nat) (b : Bool) (w : Word) (h : i < 32) : bitOf i (setBit i b w) = b := by
  rw [setBit, bitOf_setFld i i i _ w h]
  cases b <;> simp

/-- A bit set or cleared leaves the others. -/
theorem bitOf_setBit_ne {i j : Nat} (b : Bool) (w : Word) (hne : j ≠ i) : bitOf j (setBit i b w) = bitOf j w := by
  by_cases h : j < 32
  · rw [setBit, bitOf_setFld j i i _ w h]
    have : ¬ (i ≤ j ∧ j < i + 1) := by omega
    rw [if_neg this]
  · have : ∀ x : Word, bitOf j x = false := fun x => by
      rw [bitOf, BitVec.testBit_toNat, BitVec.getLsbD_of_ge _ _ (by omega)]
    rw [this, this]

theorem fld_testBit (hi lo j : Nat) (w : Word) : (fld hi lo w).testBit j = (decide (j < hi + 1 - lo) && bitOf (lo + j) w) := by
  simp [fld, bitOf, Nat.testBit_mod_two_pow, Nat.testBit_shiftRight]

/-- A field replaced, read back. -/
theorem fld_setFld_same (hi lo v : Nat) (w : Word) (h : hi < 32) (hv : v < 2 ^ (hi + 1 - lo)) : fld hi lo (setFld hi lo v w) = v := by
  apply Nat.eq_of_testBit_eq
  intro j
  rw [fld_testBit]
  by_cases hj : j < hi + 1 - lo
  · rw [bitOf_setFld _ _ _ _ _ (by omega)]
    have : lo ≤ lo + j ∧ lo + j < hi + 1 := by omega
    simp [hj, this]
  · have : v.testBit j = false := Nat.testBit_lt_two_pow (Nat.lt_of_lt_of_le hv (Nat.pow_le_pow_right (by omega) (by omega)))
    simp [hj, this]

/-- A field replaced leaves a field beside it. -/
theorem fld_setFld_ne (hi lo v hi' lo' : Nat) (w : Word) (h : hi' < lo ∨ hi < lo') (h' : hi' < 32) :
    fld hi' lo' (setFld hi lo v w) = fld hi' lo' w := by
  apply Nat.eq_of_testBit_eq
  intro j
  rw [fld_testBit, fld_testBit]
  by_cases hj : j < hi' + 1 - lo'
  · rw [bitOf_setFld _ _ _ _ _ (by omega)]
    have : ¬ (lo ≤ lo' + j ∧ lo' + j < hi + 1) := by omega
    rw [if_neg this]
  · simp [hj]

/-! ### Sparse maps -/

theorem find_set_self {α : Type} (v : α) (k : Nat) (m : Fam α) : Fam.find k (m.set k v) = some v := by
  induction m with
  | nil => simp [Fam.set, Fam.find]
  | cons p r ih =>
    obtain ⟨j, w⟩ := p
    simp only [Fam.set]
    split
    · simp [Fam.find]
    · split
      · simp [Fam.find]
      · rename_i h1 h2
        simp [Fam.find, Ne.symm h2, ih]

theorem find_set_ne {α : Type} (v : α) {k k' : Nat} (h : k' ≠ k) (m : Fam α) : Fam.find k' (m.set k v) = Fam.find k' m := by
  induction m with
  | nil => simp [Fam.set, Fam.find, Ne.symm h]
  | cons p r ih =>
    obtain ⟨j, w⟩ := p
    simp only [Fam.set]
    split
    · simp [Fam.find, Ne.symm h]
    · split
      · rename_i h1 h2; subst h2; simp [Fam.find, Ne.symm h]
      · simp only [Fam.find, ih]

theorem get_filter_out {α : Type} (d : α) (k : Nat) (p : Nat × α → Bool) (m : Fam α) (h : ∀ v, p (k, v) = false) :
    Fam.get d k (m.filter p) = d := by
  induction m with
  | nil => rfl
  | cons q r ih =>
    obtain ⟨j, w⟩ := q
    by_cases hj : j = k
    · subst hj; simp [List.filter, h w, ih]
    · simp only [List.filter]
      split
      · simp [Fam.get, hj, ih]
      · exact ih

theorem get_filter_in {α : Type} (d : α) (k : Nat) (p : Nat × α → Bool) (m : Fam α) (h : ∀ v, p (k, v) = true) :
    Fam.get d k (m.filter p) = Fam.get d k m := by
  induction m with
  | nil => rfl
  | cons q r ih =>
    obtain ⟨j, w⟩ := q
    by_cases hj : j = k
    · subst hj; simp [List.filter, h w, Fam.get]
    · simp only [List.filter]
      split
      · simp [Fam.get, hj, ih]
      · simp [Fam.get, hj, ih]

/-- A key removed reads as the default. -/
theorem get_del_self {α : Type} (d : α) (k : Nat) (m : Fam α) : Fam.get d k (m.del k) = d := get_filter_out d k _ m (by simp)
/-- A key removed leaves the others. -/
theorem get_del_ne {α : Type} (d : α) {k k' : Nat} (h : k' ≠ k) (m : Fam α) : Fam.get d k' (m.del k) = Fam.get d k' m :=
  get_filter_in d k' _ m (by simp [h])
/-- A removed key is not found. -/
theorem find_del_self {α : Type} (k : Nat) (m : Fam α) : Fam.find k (m.del k) = none := by
  induction m with
  | nil => rfl
  | cons q r ih =>
    obtain ⟨j, w⟩ := q
    simp only [Fam.del, List.filter] at ih ⊢
    by_cases hj : j = k
    · subst hj; simpa using ih
    · have : (j != k) = true := by simp [hj]
      simp only [this]
      simpa [Fam.find, hj] using ih

/-! ### Registers -/

variable (s : State)

@[simp] theorem rd_wr_same (k : Nat) (v : Word) : rd k (wr k v s) = v := Fam.get_set_self _ _ _ _
theorem rd_wr_ne {k k' : Nat} (v : Word) (h : k' ≠ k) : rd k' (wr k v s) = rd k' s := Fam.get_set_ne _ _ h _
theorem rd_wr (k k' : Nat) (v : Word) : rd k' (wr k v s) = if k' = k then v else rd k' s := by
  by_cases h : k' = k
  · subst h; simp
  · simp [h, rd_wr_ne s v h]
@[simp] theorem rd_wrF_same (k hi lo v : Nat) : rd k (wrF k hi lo v s) = setFld hi lo v (rd k s) := rd_wr_same s _ _
theorem rd_wrF_ne {k k' : Nat} (hi lo v : Nat) (h : k' ≠ k) : rd k' (wrF k hi lo v s) = rd k' s := rd_wr_ne s _ h
theorem rd_wrF (k k' hi lo v : Nat) : rd k' (wrF k hi lo v s) = if k' = k then setFld hi lo v (rd k s) else rd k' s := rd_wr s _ _ _
@[simp] theorem rd_wrB_same (k i : Nat) (b : Bool) : rd k (wrB k i b s) = setBit i b (rd k s) := rd_wr_same s _ _
theorem rd_wrB_ne {k k' : Nat} (i : Nat) (b : Bool) (h : k' ≠ k) : rd k' (wrB k i b s) = rd k' s := rd_wr_ne s _ h
theorem rd_wrB (k k' i : Nat) (b : Bool) : rd k' (wrB k i b s) = if k' = k then setBit i b (rd k s) else rd k' s := rd_wr s _ _ _
@[simp] theorem rd_inc_same (k n : Nat) : rd k (inc k n s) = rd k s + wd n := rd_wr_same s _ _
theorem rd_inc_ne {k k' : Nat} (n : Nat) (h : k' ≠ k) : rd k' (inc k n s) = rd k' s := rd_wr_ne s _ h
theorem rd_inc (k k' n : Nat) : rd k' (inc k n s) = if k' = k then rd k s + wd n else rd k' s := rd_wr s _ _ _
/-- A read depends on the register map alone. -/
theorem rd_congr {s t : State} (h : t.regs = s.regs) (k : Nat) : rd k t = rd k s := by simp [rd, h]
@[simp] theorem rdB_wrB_same (k i : Nat) (b : Bool) (h : i < 32) : rdB k i (wrB k i b s) = b := by simp [rdB, h]
@[simp] theorem rdF_wrF_same (k hi lo v : Nat) (h : hi < 32) (hv : v < 2 ^ (hi + 1 - lo)) : rdF k hi lo (wrF k hi lo v s) = v := by
  simp [rdF, fld_setFld_same, h, hv]
@[simp] theorem rdForce_takeShadow_same (k : Nat) : rdForce k (takeShadow k s) = rd k s := Fam.get_set_self _ _ _ _
theorem rdForce_takeShadow_ne {k k' : Nat} (h : k' ≠ k) : rdForce k' (takeShadow k s) = rdForce k' s := Fam.get_set_ne _ _ h _
@[simp] theorem cntGet_cntAdd_same (k n : Nat) : cntGet k (cntAdd k n s) = cntGet k s + BitVec.ofNat 64 n := Fam.get_set_self _ _ _ _
theorem cntGet_cntAdd_ne {k k' : Nat} (n : Nat) (h : k' ≠ k) : cntGet k' (cntAdd k n s) = cntGet k' s := Fam.get_set_ne _ _ h _
/-- A register of a range that was reset reads its reset value. -/
theorem rd_regsReset_in {lo hi k : Nat} (h1 : lo ≤ k) (h2 : k < hi) : rd k (regsReset lo hi s) = resetVal k := by
  simp only [rd, regsReset, Fam.delWhere]
  exact get_filter_out _ _ _ _ (by simp [h1, h2])
/-- A register outside a range that was reset keeps its value. -/
theorem rd_regsReset_out {lo hi k : Nat} (h : k < lo ∨ hi ≤ k) : rd k (regsReset lo hi s) = rd k s := by
  simp only [rd, regsReset, Fam.delWhere]
  exact get_filter_in _ _ _ _ (by intro v; simp; omega)

/-! ### Units kept in maps -/

@[simp] theorem core_updCore_same (n : Nat) (f : Core → Core) : coreOf n (updCore n f s) = f (coreOf n s) := Fam.get_set_self _ _ _ _
theorem core_updCore_ne {n m : Nat} (f : Core → Core) (h : m ≠ n) : coreOf m (updCore n f s) = coreOf m s := Fam.get_set_ne _ _ h _
@[simp] theorem ring_updRing_same (fn : Nat) (f : Ring → Ring) : ring fn (updRing fn f s) = f (ring fn s) := Fam.get_set_self _ _ _ _
theorem ring_updRing_ne {fn g : Nat} (f : Ring → Ring) (h : g ≠ fn) : ring g (updRing fn f s) = ring g s := Fam.get_set_ne _ _ h _
@[simp] theorem part_updPart_same (p : Nat) (f : Part → Part) : part p (updPart p f s) = f (part p s) := Fam.get_set_self _ _ _ _
theorem part_updPart_ne {p q : Nat} (f : Part → Part) (h : q ≠ p) : part q (updPart p f s) = part q s := Fam.get_set_ne _ _ h _
@[simp] theorem strm_updStrm_same (p : Nat) (f : Strm → Strm) : strm p (updStrm p f s) = f (strm p s) := Fam.get_set_self _ _ _ _
theorem strm_updStrm_ne {p q : Nat} (f : Strm → Strm) (h : q ≠ p) : strm q (updStrm p f s) = strm q s := Fam.get_set_ne _ _ h _
theorem core_congr {s t : State} (h : t.cores = s.cores) (n : Nat) : coreOf n t = coreOf n s := by simp [coreOf, h]
theorem ring_congr {s t : State} (h : t.rings = s.rings) (n : Nat) : ring n t = ring n s := by simp [ring, h]

end Sys2Proof.Laws
end

