-- ==== Sys2Proof/Laws/Memory.lean ====
section
/-! SUPPORT. Byte memory: a read after a write, and every operation keeps the canonical form. -/

namespace Sys2Proof.Laws

open Sys2Proof Sys2Proof.Machine

/-! ### The canonical form -/

theorem wf_iff (m : Memory) : m.wf = true ↔ (m.Pairwise fun c d => c.1 < d.1) ∧ ∀ c ∈ m, c.2 ≠ 0 := by simp [Memory.wf]

/-- Cells dropped keep the canonical form. -/
theorem filter_wf (p : Host.Cell → Bool) {m : Memory} (h : m.wf = true) : Memory.wf (m.filter p) = true :=
  have ⟨rising, listed⟩ := (wf_iff m).1 h
  (wf_iff _).2 ⟨rising.filter p, fun c hc => listed c (List.mem_filter.1 hc).1⟩

/-- A cell of the memory after one is entered is that one or was there. -/
theorem mem_put {a : Nat} {v : Byte} {c : Host.Cell} : ∀ {m : Memory}, c ∈ Memory.put a v m → c = (a, v) ∨ c ∈ m
  | [], h => .inl (List.mem_singleton.1 h)
  | d :: r, h => by
    unfold Memory.put at h
    split at h
    · rcases List.mem_cons.1 h with e | h
      · exact .inr (e ▸ List.mem_cons_self)
      · exact (mem_put h).imp_right (List.mem_cons_of_mem d)
    · rcases List.mem_cons.1 h with e | h
      · exact .inl e
      · split at h
        · exact .inr (List.mem_cons_of_mem d h)
        · exact .inr h

/-- A cell entered keeps the addresses rising. -/
theorem put_rising (a : Nat) (v : Byte) : ∀ {m : Memory}, (m.Pairwise fun c d => c.1 < d.1) → (Memory.put a v m).Pairwise fun c d => c.1 < d.1
  | [], _ => List.pairwise_singleton _ _
  | d :: r, h => by
    have ⟨above, rest⟩ := List.pairwise_cons.1 h
    unfold Memory.put
    split
    · refine List.pairwise_cons.2 ⟨fun c hc => ?_, put_rising a v rest⟩
      rcases mem_put hc with e | hc
      · simpa [e] using ‹d.1 < a›
      · exact above c hc
    · refine List.pairwise_cons.2 ⟨fun c hc => ?_, ?_⟩
      · split at hc
        · have := above c hc; simp; omega
        · rcases List.mem_cons.1 hc with e | hc
          · subst e; simp; omega
          · have := above c hc; simp; omega
      · split
        · exact rest
        · exact h

/-- A written byte keeps the canonical form. -/
theorem set_wf (a : Nat) (v : Byte) {m : Memory} (h : m.wf = true) : (m.set a v).wf = true := by
  unfold Memory.set
  split
  · exact filter_wf _ h
  · have ⟨rising, listed⟩ := (wf_iff m).1 h
    refine (wf_iff _).2 ⟨put_rising a v rising, fun c hc => ?_⟩
    rcases mem_put hc with e | hc
    · simpa [e]
    · exact listed c hc

/-- Written bytes keep the canonical form. -/
theorem write_wf (a : Nat) (bs : List Byte) {m : Memory} (h : m.wf = true) : (Memory.write m a bs).wf = true := by
  induction bs generalizing a m with
  | nil => exact h
  | cons b bs ih => exact ih (a + 1) (set_wf a b h)

/-- A cleared range keeps the canonical form. -/
theorem clear_wf (a k : Nat) {m : Memory} (h : m.wf = true) : (Memory.clear m a k).wf = true := filter_wf _ h

/-! ### Reads after writes -/

/-- Cells dropped by their addresses read 0, the others as before. -/
theorem get_filter (p : Nat → Bool) (a : Nat) (m : Memory) : Memory.get a (m.filter fun c => p c.1) = if p a then Memory.get a m else 0 := by
  induction m with
  | nil => simp [Memory.get]
  | cons c r ih => by_cases hc : c.1 = a <;> by_cases hp : p c.1 = true <;> simp_all [Memory.get]

/-- An entered cell reads back, and no other address changes. -/
theorem get_put (a b : Nat) (v : Byte) (m : Memory) : Memory.get b (Memory.put a v m) = if b = a then v else Memory.get b m := by
  induction m with
  | nil => simp only [Memory.put, Memory.get, eq_comm (a := a)]
  | cons c r ih =>
    unfold Memory.put
    split
    · have : b = a → c.1 ≠ b := by omega
      simp only [Memory.get, ih]
      split <;> simp_all
    · simp only [Memory.get, eq_comm (a := a)]
      split
      · rfl
      · split
        · rw [if_neg (by omega)]
        · rfl

/-- A byte written reads back, and no other address changes. -/
theorem get_set (a b : Nat) (v : Byte) (m : Memory) : Memory.get b (m.set a v) = if b = a then v else Memory.get b m := by
  unfold Memory.set
  split
  · rw [get_filter (fun x => x != a)]
    by_cases h : b = a <;> simp_all
  · exact get_put a b v m

/-- Written bytes leave every address outside their range as it was. -/
theorem get_write_out {a b : Nat} (bs : List Byte) (m : Memory) (h : b < a ∨ a + bs.length ≤ b) :
    Memory.get b (Memory.write m a bs) = Memory.get b m := by
  induction bs generalizing a m with
  | nil => rfl
  | cons c bs ih =>
    rw [List.length_cons] at h
    rw [Memory.write, ih (m.set a c) (by omega), get_set, if_neg (by omega)]

/-- Written bytes read back. -/
theorem get_write_in {a i : Nat} (bs : List Byte) (m : Memory) (h : i < bs.length) : Memory.get (a + i) (Memory.write m a bs) = bs[i] := by
  induction bs generalizing a i m with
  | nil => cases h
  | cons c bs ih =>
    cases i with
    | zero => rw [Memory.write, get_write_out bs _ (by omega), get_set]; simp
    | succ j =>
      rw [Memory.write, show a + (j + 1) = a + 1 + j by omega, ih (m.set a c) (by simpa using h)]
      rfl

/-- A range written reads back whole. -/
theorem read_write (a : Nat) (bs : List Byte) (m : Memory) : Memory.read (Memory.write m a bs) a bs.length = bs := by
  apply List.ext_getElem
  · simp [Memory.read]
  · intro i h1 h2
    simp only [Memory.read, List.getElem_map, List.getElem_range]
    exact get_write_in bs m h2

/-- A read meets none of the bytes written elsewhere. -/
theorem read_write_out {a b k : Nat} (bs : List Byte) (m : Memory) (h : b + k ≤ a ∨ a + bs.length ≤ b) :
    Memory.read (Memory.write m a bs) b k = Memory.read m b k :=
  List.map_congr_left fun i hi => get_write_out bs m (by have := List.mem_range.1 hi; omega)

/-- A cleared range reads 0, every other address as before. -/
theorem get_clear (a k b : Nat) (m : Memory) :
    Memory.get b (Memory.clear m a k) = if a ≤ b ∧ b < a + k then 0 else Memory.get b m := by
  rw [Memory.clear, get_filter fun x => decide (x < a) || decide (a + k ≤ x)]
  by_cases h : a ≤ b ∧ b < a + k
  · rw [if_pos h, if_neg]; simp; omega
  · rw [if_neg h, if_pos]; simp; omega

end Sys2Proof.Laws
end

