-- ==== Sys2Proof/Laws/Words.lean ====
section
/-! SUPPORT. The sequencer's shared operations: what issue, the move to the next word and a register write do. -/

namespace Sys2Proof.Laws

open Sys2Proof Sys2Proof.Machine

/-- A word that runs is its body. -/
theorem issue_runs {n : Nat} {s : State} (h : WordRuns n s) (body : State → State) : issue n body s = body s := by
  simp [issue, h.issues, h.fetched, h.sound]

theorem setPc_rest (n : Nat) (pc : BitVec 48) (ls : List LoopSt) (s : State) :
    setPc n pc ls s = { s with regs := (setPc n pc ls s).regs, cores := (setPc n pc ls s).cores } := rfl

theorem core_setPc_same (n : Nat) (pc : BitVec 48) (ls : List LoopSt) (s : State) :
    coreOf n (setPc n pc ls s) = { coreOf n s with pc := pc, loops := ls } := by
  have : coreOf n (setPc n pc ls s) = coreOf n (updCore n (fun c => { c with pc := pc, loops := ls }) s) := rfl
  rw [this, core_updCore_same]

theorem core_setPc_ne {n m : Nat} (pc : BitVec 48) (ls : List LoopSt) (s : State) (h : m ≠ n) : coreOf m (setPc n pc ls s) = coreOf m s := by
  have : coreOf m (setPc n pc ls s) = coreOf m (updCore n (fun c => { c with pc := pc, loops := ls }) s) := rfl
  rw [this, core_updCore_ne s _ h]

theorem rd_setPc (n k : Nat) (pc : BitVec 48) (ls : List LoopSt) (s : State) :
    rd k (setPc n pc ls s) = if k = coreBase n then setFld 18 16 ls.length (rd k s)
      else if k = coreBase n + 0xC then wd (pc.toNat / 2 ^ 32) else if k = coreBase n + 8 then wd pc.toNat else rd k s := by
  have hc : coreOf n (updCore n (fun c => { c with pc := pc, loops := ls }) s) = { coreOf n s with pc := pc, loops := ls } := core_updCore_same ..
  have hr : ∀ k, rd k (updCore n (fun c => { c with pc := pc, loops := ls }) s) = rd k s := fun _ => rfl
  simp only [setPc, showPc, hc, rd_wrF, rd_wr, hr]
  split
  · rename_i h; subst h
    rw [if_neg (by omega), if_neg (by omega)]
  · rfl

theorem cntGet_setPc (n k : Nat) (pc : BitVec 48) (ls : List LoopSt) (s : State) : cntGet k (setPc n pc ls s) = cntGet k s := rfl

theorem core_countWord (n m : Nat) (s : State) : coreOf m (countWord n s) = coreOf m s := rfl
theorem rd_countWord (n k : Nat) (s : State) : rd k (countWord n s) = if k = coreBase n then setBit 2 false (rd k s) else rd k s := by
  have : rd k (countWord n s) = rd k (wrB (coreBase n) 2 false s) := rfl
  rw [this, rd_wrB]
  split
  · rename_i h; subst h; rfl
  · rfl
theorem cntGet_countWord_same (n : Nat) (s : State) : cntGet (coreBase n + 0x30) (countWord n s) = cntGet (coreBase n + 0x30) s + 1 := by
  simp only [countWord, cntGet_cntAdd_same]; rfl
theorem cntGet_countWord_ne {n k : Nat} (s : State) (h : k ≠ coreBase n + 0x30) : cntGet k (countWord n s) = cntGet k s := by
  rw [countWord, cntGet_cntAdd_ne _ _ h]; rfl

/-- What the state before the move to the next word may have changed: the core's own registers and memory. -/
structure OwnChange (n : Nat) (s0 s : State) : Prop where
  rest : s = { s0 with cores := s.cores, mem := s.mem, poison := s.poison }
  otherCores : ∀ m, m ≠ n → coreOf m s = coreOf m s0
  pc : (coreOf n s).pc = (coreOf n s0).pc ∧ (coreOf n s).loops = (coreOf n s0).loops
  job : (coreOf n s).job = (coreOf n s0).job ∧ (coreOf n s).part = (coreOf n s0).part

theorem OwnChange.rfl' (n : Nat) (s : State) : OwnChange n s s := ⟨rfl, fun _ _ => rfl, ⟨rfl, rfl⟩, ⟨rfl, rfl⟩⟩

theorem OwnChange.regs {n : Nat} {s0 s : State} (h : OwnChange n s0 s) (k : Nat) : rd k s = rd k s0 := by rw [h.rest]; rfl
theorem OwnChange.cnt {n : Nat} {s0 s : State} (h : OwnChange n s0 s) (k : Nat) : cntGet k s = cntGet k s0 := by rw [h.rest]; rfl

/-- Setting the PC after the word was counted is the end of a word. -/
theorem setPc_frame {n : Nat} {s0 s : State} (h : OwnChange n s0 s) (pc : BitVec 48) (ls : List LoopSt) :
    WordFrame n [] s0 (setPc n pc ls (countWord n s)) where
  rest := by rw [setPc_rest]; rw [h.rest]; rfl
  registers := by
    intro k hk
    simp only [List.append_nil, List.mem_cons, List.not_mem_nil, or_false, not_or] at hk
    rw [rd_setPc, if_neg hk.1, if_neg hk.2.2, if_neg hk.2.1, rd_countWord, if_neg hk.1, h.regs]
  status := by
    intro i hi h2 h3 _
    simp only [rdB, rd_setPc, if_true, rd_countWord]
    rw [bitOf_setFld _ _ _ _ _ hi, if_neg (by omega), bitOf_setBit_ne _ _ h2, h.regs]
  counters := by
    intro k hk
    rw [cntGet_setPc, cntGet_countWord_ne _ hk, h.cnt]
  otherCores := by
    intro m hm
    rw [core_setPc_ne _ _ _ hm, core_countWord, h.otherCores m hm]
  job := by
    rw [core_setPc_same, core_countWord]; exact h.job

/-- The move to the next word. -/
theorem advance_goesOn {n : Nat} {s0 s : State} (h : OwnChange n s0 s) : WordGoesOn n s0 (advance n s) where
  pc := by
    simp only [advance, core_setPc_same]
    rw [h.pc.1, h.pc.2]
  shown := by
    simp only [advance, core_setPc_same, rd_setPc]
    constructor
    · rw [if_neg (by omega), if_neg (by omega), if_pos trivial]
    · rw [if_neg (by omega), if_pos trivial]
  counted := by
    simp only [advance, cntGet_setPc, cntGet_countWord_same, h.cnt]

theorem advance_frame {n : Nat} {s0 s : State} (h : OwnChange n s0 s) : WordFrame n [] s0 (advance n s) := setPc_frame h _ _

theorem core_advance_same (n : Nat) (s : State) : coreOf n (advance n s) =
    { coreOf n s with pc := (nextPc (coreOf n s).pc (coreOf n s).loops).1, loops := (nextPc (coreOf n s).pc (coreOf n s).loops).2 } := by
  simp only [advance, core_setPc_same, core_countWord]
@[simp] theorem sreg_advance (n : Nat) (q : SReg) (s : State) : sreg n q (advance n s) = sreg n q s := by simp [sreg, core_advance_same]
@[simp] theorem areg_advance (n : Nat) (q : AReg) (s : State) : areg n q (advance n s) = areg n q s := by simp [areg, core_advance_same]
@[simp] theorem mem_advance (n : Nat) (s : State) : (advance n s).mem = s.mem := rfl
@[simp] theorem poison_advance (n : Nat) (s : State) : (advance n s).poison = s.poison := rfl

/-- A core's own change. -/
theorem ownChange_updCore (n : Nat) (f : Core → Core) (s : State)
    (h : ∀ c, (f c).pc = c.pc ∧ (f c).loops = c.loops ∧ (f c).job = c.job ∧ (f c).part = c.part) : OwnChange n s (updCore n f s) where
  rest := rfl
  otherCores := fun _ hm => core_updCore_ne s f hm
  pc := by rw [core_updCore_same]; exact ⟨(h _).1, (h _).2.1⟩
  job := by rw [core_updCore_same]; exact (h _).2.2

theorem ownChange_setS (n : Nat) (r : SReg) (v : Word) (s : State) : OwnChange n s (setS n r v s) := by
  unfold setS
  split
  · exact OwnChange.rfl' n s
  · exact ownChange_updCore n _ s fun _ => ⟨rfl, rfl, rfl, rfl⟩

theorem ownChange_setA (n : Nat) (r : AReg) (v : BitVec 48) (s : State) : OwnChange n s (setA n r v s) :=
  ownChange_updCore n _ s fun _ => ⟨rfl, rfl, rfl, rfl⟩

theorem scalarGets_setS (n : Nat) (r : SReg) (v : Word) (s : State) : ScalarGets n r v s (setS n r v s) := by
  intro q
  unfold setS
  split
  · rename_i h
    by_cases hq : q = r
    · subst hq; simp [h]
    · simp [hq]
  · rename_i h
    by_cases hq : q = r
    · subst hq; simp [sreg, h, Fam.get_set_self]
    · have : q.val ≠ r.val := fun e => hq (Fin.ext e)
      simp [sreg, hq, Fam.get_set_ne _ _ this]

theorem addressGets_setA (n : Nat) (r : AReg) (v : BitVec 48) (s : State) : AddressGets n r v s (setA n r v s) := by
  intro q
  by_cases hq : q = r
  · subst hq; simp [areg, setA, Fam.get_set_self]
  · have : q.val ≠ r.val := fun e => hq (Fin.ext e)
    simp [areg, setA, hq, Fam.get_set_ne _ _ this]

theorem addressesSame_setS (n : Nat) (r : SReg) (v : Word) (s : State) : AddressesSame n s (setS n r v s) := by
  intro q; unfold setS; split <;> simp [areg]
theorem scalarsSame_setA (n : Nat) (r : AReg) (v : BitVec 48) (s : State) : ScalarsSame n s (setA n r v s) := by
  intro q; simp [sreg, setA]

/-- A scalar word. -/
theorem setsScalar (n : Nat) (r : SReg) (v : Word) (s : State) : WordSetsScalar n r v s (.next (advance n (setS n r v s))) := by
  have h := ownChange_setS n r v s
  refine ⟨_, rfl, advance_goesOn h, ?_, ?_, ?_, ?_, advance_frame h⟩
  · intro q; rw [sreg_advance]; exact scalarGets_setS n r v s q
  · intro q; rw [areg_advance]; exact addressesSame_setS n r v s q
  · simp only [UnitsSame, core_advance_same]; unfold setS; split <;> simp
  · refine ⟨fun a => ?_, ?_⟩
    · simp only [devByte, mem_advance]; unfold setS; split <;> rfl
    · rw [poison_advance]; unfold setS; split <;> rfl

/-- An address word. -/
theorem setsAddress (n : Nat) (r : AReg) (v : BitVec 48) (s : State) : WordSetsAddress n r v s (.next (advance n (setA n r v s))) := by
  have h := ownChange_setA n r v s
  refine ⟨_, rfl, advance_goesOn h, ?_, ?_, ?_, ?_, advance_frame h⟩
  · intro q; rw [areg_advance]; exact addressGets_setA n r v s q
  · intro q; rw [sreg_advance]; exact scalarsSame_setA n r v s q
  · simp only [UnitsSame, core_advance_same, setA, core_updCore_same]; simp
  · exact ⟨fun _ => rfl, rfl⟩

end Sys2Proof.Laws
end

