-- ==== Sys2Proof/WellFormed.lean ====
section
/-! DEFINITION. Which commands are well formed: the lengths and ranges that the operands' own types do not hold. The meanings do not need
these checks; a caller that keeps them asks only for what the manual describes. -/

namespace Sys2Proof

/-- A descriptor has 64 bytes (R397), an authorisation block 96 (R38), a command's data at most 64 MiB (R397). -/
def wfDesc (d : SvcDesc) (h : HostIn) : Bool :=
  decide (d.length = 64) && (match h.auth with | some a => decide (a.length = 96) | none => true) &&
    (match h.data with | some x => decide (x.length ≤ 67108864) | none => true)
/-- An aligned offset within BAR0: 16 MiB of the PF, 1 MiB of a VF (R389, R391). -/
def wfOffset (fn : Fin 17) (off : Nat) : Bool := decide (off % 4 = 0) && decide (off < if fn = 0 then 0x1000000 else 0x100000)
/-- A Morning check reads each core once (R426). -/
def wfReadings (rs : List CheckReading) : Bool := decide (rs.map fun r => r.core).Nodup
/-- The words a memory's check bits cover are 64 bits wide and aligned (R258). -/
def wfEcc (es : List EccHit) : Bool := es.all fun e => decide (e.addr % 8 = 0)
/-- A scrub reads an aligned word (R262): 64 bits, 32 in the mailbox (R258). -/
def wfPlace (p : EccPlace) : Bool :=
  match p with
  | .mem a => decide (a % (if 0x1200000000 ≤ a then 4 else 8) = 0)
  | .table _ => true
/-- A burst is 1 to 64 lines within one aligned 4 KiB block (R269). -/
def wfBurst (b : Burst) : Bool :=
  decide (1 ≤ b.len) && decide (b.len ≤ 64) && decide (b.addr % 64 = 0) && decide (b.addr % 4096 + 64 * b.len ≤ 4096)
/-- A marker set has one place for each lane of its bond (R70, R90). -/
def wfMarkers (b : BondId) (ms : List (Option Marker)) : Bool :=
  match b with
  | .cam _ => decide (ms.length = 1 ∨ ms.length = 2 ∨ ms.length = 4 ∨ ms.length = 8)
  | .span _ => decide (ms.length = 4)

/-- A stretch covers one to `w` lanes. -/
def wfStretch (w : Nat) (x : Stretch) : Bool := !x.isEmpty && decide (x.length ≤ w)

/-- A command is well formed. -/
def Instr.wellFormed (i : Instr) : Bool :=
  match i with
  | .powerOn => true
  | .modResetN _ => true
  | .brownout => true
  | .oscStable _ => true
  | .bootFwVerified => true
  | .fwPendingTimeout => true
  | .dawnSequence => true
  | .midnightWipe _ => true
  | .ready => true
  | .stewardWatchdog => true
  | .stewardServiceStep => true
  | .expertUnlockTimeout => true
  | .perst => true
  | .functionLevelReset _ => true
  | .busMasterDisable _ => true
  | .svcDbCmd _ _ => true
  | .svcDbCpl _ _ => true
  | .svcRingCtlEn _ _ => true
  | .svcRingCtlFlush _ _ => true
  | .ringFlushGraceExpiry _ => true
  | .cplCoalesceTimeout _ => true
  | .svcNop _ d h => wfDesc d h
  | .svcGetNonce _ d h => wfDesc d h
  | .svcCopyIn _ d h => wfDesc d h
  | .svcCopyOut _ d h => wfDesc d h
  | .svcExpertUnlock _ d h => wfDesc d h
  | .svcExpertLock _ d h => wfDesc d h
  | .svcKeyInstall _ d h => wfDesc d h
  | .svcKeyRevoke _ d h => wfDesc d h
  | .svcFwUpdate _ d h => wfDesc d h
  | .svcFuseBurn _ d h => wfDesc d h
  | .svcAuditRead _ d h => wfDesc d h
  | .svcAuditExport _ d h => wfDesc d h
  | .svcAuditSeal _ d h => wfDesc d h
  | .svcImageLoad _ d h => wfDesc d h
  | .svcImageCommit _ d h => wfDesc d h
  | .svcImageDiscard _ d h => wfDesc d h
  | .svcImageRead _ d h => wfDesc d h
  | .svcStartStream _ d h => wfDesc d h
  | .svcStopStream _ d h => wfDesc d h
  | .svcRecipeSelect _ d h => wfDesc d h
  | .svcCamCtrl _ d h => wfDesc d h
  | .svcLaneQuarantine _ d h => wfDesc d h
  | .svcLaneRelease _ d h => wfDesc d h
  | .svcLoadModel _ d h => wfDesc d h
  | .svcUnloadModel _ d h => wfDesc d h
  | .svcBindStream _ d h => wfDesc d h
  | .svcSchedArea _ d h => wfDesc d h
  | .svcCoreRelease _ d h => wfDesc d h
  | .svcMorningCheck _ d h => wfDesc d h
  | .morningCheck rs => wfReadings rs
  | .svcRecStart _ d h => wfDesc d h
  | .svcRecStop _ d h => wfDesc d h
  | .svcReplayStart _ d h => wfDesc d h
  | .svcReplayStop _ d h => wfDesc d h
  | .svcCalRun _ d h => wfDesc d h
  | .calRunDone => true
  | .svcLedgerCfg _ d h => wfDesc d h
  | .svcLedgerLog _ d h => wfDesc d h
  | .svcEncMirror _ d h => wfDesc d h
  | .svcEncPreset _ d h => wfDesc d h
  | .svcEncCompare _ d h => wfDesc d h
  | .svcEncCompareRead _ d h => wfDesc d h
  | .svcNightfallEnter _ d h => wfDesc d h
  | .svcNightfallClear _ d h => wfDesc d h
  | .svcDoTest _ d h => wfDesc d h
  | .svcMbxRead _ d h => wfDesc d h
  | .svcMbxWrite _ d h => wfDesc d h
  | .svcFaultAck _ d h => wfDesc d h
  | .registerWrite fn off _ _ => wfOffset fn off
  | .counterLoRead fn off => wfOffset fn off
  | .timeNowLoRead _ => true
  | .timeTickLoRead _ => true
  | .timeCommitGo _ _ => true
  | .arbCommitGo _ _ => true
  | .fesCommitGo _ _ _ => true
  | .fesCommitTbl _ _ _ => true
  | .fesTblCtlStart _ _ _ => true
  | .tableLoadDone _ => true
  | .ldsCommitGo _ _ _ => true
  | .acctLatchGo _ _ _ => true
  | .acctModLatch _ _ => true
  | .motSnapGo _ _ => true
  | .encPreset _ _ _ => true
  | .ssiPreset _ _ _ => true
  | .chkPortCtlQuar _ _ _ => true
  | .chkPortCtlRelease _ _ _ => true
  | .fioHb _ => true
  | .sysRstModule _ _ => true
  | .ethqTail _ _ _ _ => true
  | .ethqCtlWrite _ _ _ _ => true
  | .qspiRead _ words _ => decide (1 ≤ words)
  | .qspiQuadRead _ words _ => decide (1 ≤ words)
  | .qspiWrite _ data _ => !data.isEmpty
  | .qspiQuadWrite _ data _ => !data.isEmpty
  | .qspiReadStatus => true
  | .supCtlNightReq _ => true
  | .supCtlClear _ => true
  | .mbxStatusUpdate => true
  | .nop _ => true
  | .li _ _ _ => true
  | .add _ _ _ _ _ _ => true
  | .sub _ _ _ _ _ _ => true
  | .mul _ _ _ _ _ _ => true
  | .and _ _ _ _ _ _ => true
  | .or _ _ _ _ _ _ => true
  | .xor _ _ _ _ _ _ => true
  | .shl _ _ _ _ _ _ => true
  | .shr _ _ _ _ _ _ => true
  | .sra _ _ _ _ _ _ => true
  | .slt _ _ _ _ _ _ => true
  | .ld _ _ _ _ => true
  | .st _ _ _ _ => true
  | .lia _ _ _ => true
  | .liah _ _ _ => true
  | .adda _ _ _ _ _ _ => true
  | .movas _ _ _ => true
  | .br _ _ _ _ _ _ _ => true
  | .loop _ _ _ => true
  | .wait _ _ _ _ _ => true
  | .waitComplete _ => true
  | .tokenWaitTimeout _ => true
  | .signal _ _ _ => true
  | .signalFire _ => true
  | .mark _ _ => true
  | .yield_ _ _ => true
  | .yieldSave _ => true
  | .end_ _ => true
  | .testf _ _ => true
  | .copy _ _ _ _ => true
  | .dmaTransferComplete _ _ ecc => wfEcc ecc
  | .tload _ _ _ _ _ _ => true
  | .tloadComplete _ => true
  | .tstream _ _ => true
  | .tileVerdict _ _ => true
  | .replan _ => true
  | .ccfg _ _ _ => true
  | .ccfgComplete _ => true
  | .cstart _ _ _ => true
  | .vparam _ _ _ _ => true
  | .vq _ _ => true
  | .vrawst _ _ _ _ _ _ => true
  | .vrawadd _ _ _ _ _ _ => true
  | .vpool _ _ _ _ _ _ => true
  | .vcvt _ _ => true
  | .vew _ _ => true
  | .vectorOpComplete _ => true
  | .padv _ _ _ _ => true
  | .progressPublish _ => true
  | .pwait _ _ _ _ _ _ _ => true
  | .progressWaitComplete _ => true
  | .progressWaitTimeout _ => true
  | .post _ _ _ => true
  | .postHandover _ => true
  | .sysTrap _ _ => true
  | .flushGraceExpiry _ => true
  | .scrubPass w _ => wfPlace w
  | .burstRequest _ b => wfBurst b
  | .burstGrant _ => true
  | .fixedSlotStart _ => true
  | .bankSlot _ _ coreReq _ => decide coreReq.Nodup
  | .losEnter _ => true
  | .losExit _ => true
  | .blockLock _ => true
  | .lockLost _ _ => true
  | .hiBerEnter _ _ => true
  | .hiBerWindowEnd _ _ => true
  | .alignmentMarker bond ms => wfMarkers bond ms
  | .lineSeg _ x => wfStretch 8 x
  | .ctrlAck _ x => wfStretch 8 x
  | .event _ x => wfStretch 8 x
  | .hello _ x => wfStretch 8 x
  | .helloTimer _ => true
  | .ctrlRetryTimeout _ => true
  | .quarWindowEnd _ => true
  | .eventRateWindowEnd _ => true
  | .quarHoldExpiry _ => true
  | .sofMark _ _ => true
  | .spanData _ x => wfStretch 4 x
  | .spanAck _ x => wfStretch 4 x
  | .spanHello _ x => wfStretch 4 x
  | .spanAckTimer _ => true
  | .spanRto _ => true
  | .spanRequestLine _ => true
  | .barrier _ => true
  | .broadcast _ => true
  | .snapshot _ => true
  | .reset _ => true
  | .gopFrame _ x => wfStretch 4 x
  | .snapshotCapture _ => true
  | .spanGopTimeout _ => true
  | .spanTransferDoorbell _ => true
  | .spanTransferComplete _ _ => true
  | .encCount _ _ => true
  | .encZEdge _ => true
  | .passthroughEdge _ _ => true
  | .emuEdge _ => true
  | .speedWindowEnd _ => true
  | .ssiFrame _ => true
  | .ssiFrameEnd _ _ => true
  | .compareWindowEnd _ => true
  | .mirrorRecord _ => true
  | .pullinEnd _ => true
  | .pulseEnd _ => true
  | .triggerSlotMissing _ => true
  | .frameStart _ => true
  | .outputLineWrite _ _ => true
  | .objectWindowIssue _ => true
  | .statRecordWrite _ => true
  | .replayLineFeed _ => true
  | .jobStart _ => true
  | .monitorEval _ _ => true
  | .duskExit _ => true
  | .modelSetSwitch _ => true
  | .diSense smp => decide (smp.length = 16)
  | .fioShort _ => true
  | .fioOvertemp _ => true
  | .fioUndervoltage => true
  | .nfHeartbeatTimeout => true
  | .ptpMessage _ m => decide (m.state ≤ 5)
  | .ptpTxTimer _ _ => true
  | .ptpLost _ => true
  | .arpRequest _ _ _ _ => true
  | .ethFrameDrop _ _ => true
  | .ethLinkDown _ => true
  | .frameLaunch _ _ => true
  | .launchLateDrop _ _ => true
  | .refclkGlitch => true
  | .refclkWindow _ => true
  | .refclkLoss => true
  | .governorSample _ => true
  | .paceSample live clu => decide (live.length = 32) && decide (clu.length = 4)
  | .thermTrip => true
  | .unknownFrame _ x => wfStretch 8 x
  | .illegalWord _ _ => true
  | .fieldSupplyReturn => true
  | .modResetNRelease => true
  | .pcieLinkUp => true
  | .vfEnable _ => true
  | .busMasterEnable _ => true
  | .ethLinkUp _ => true
  | .completionTimeout _ => true
  | .pluggableInsertion _ _ => true
  | .energyInterval uj => decide (uj.length = 148)

end Sys2Proof
end

