-- ==== Sys2Proof/Tests/Slice0.lean ====
section
/-! SUPPORT. Tests: witnesses that the statements' hypotheses can be met, the manual's worked figures, and ill-formed commands refused. -/

namespace Sys2Proof.Tests

open Sys2Proof Sys2Proof.Machine

set_option Elab.async false

/-! ### States the tests build -/

/-- The reset state with some registers. -/
def withRegs (rs : Fam Word) (s : State) : State := { s with regs := rs ++ s.regs }
/-- Bytes in device memory. -/
def withMem (a : Nat) (bs : List Byte) (s : State) : State := { s with mem := Memory.write s.mem a bs }
/-- Core `n` runs job 7 of P0 at 0x1000, in a region of the low 4 GiB with every right; `rs` are further registers. -/
def runAt (n : Nat) (c : Core) (rs : Fam Word) : State :=
  { State.reset with
    cores := [(n, { c with job := some 7, pc := 0x1000 })],
    regs := [(0x71000, 0), (0x71008, 0xFFFFF000), (0x7100C, 0x80070000)] ++ rs }
/-- A core's word runs, as three tests show. -/
theorem runs_of {n : Nat} {s : State} (h : issuing n s = true ∧ fetchOk n s = true ∧ poisonedIn (coreOf n s).pc.toNat 8 s = false) : WordRuns n s :=
  ⟨h.1, h.2.1, h.2.2⟩
/-- The word of such a core runs. -/
theorem test_run : WordRuns 0 (runAt 0 {} []) ∧ WordRuns 31 (runAt 31 {} []) := ⟨runs_of (by decide), runs_of (by decide)⟩

/-- A PARTITION section: cores, front ends, valve groups. -/
def secPart (p cores fes groups : Nat) : Sec := { ty := 0x10, inst := p, body := natLE 4 cores ++ natLE 2 fes ++ natLE 1 groups ++ zeros 57 }
/-- A STREAM section: the partition that owns the stream, nothing else set. -/
def secStream (st p : Nat) : Sec := { ty := 0x20, inst := st, body := natLE 1 p ++ zeros 63 }
/-- P0 owns all cores, front ends and valve groups, and stream 0. -/
def tenantImg : List Sec := [secPart 0 0xFFFFFFFF 0xFFFF 0xFF, secStream 0 0]
def withImg (s : State) : State := { s with img := tenantImg }
/-- LD and ST at the last word of the activation bank. -/
theorem test_narrow_hyp : let s := withMem 0x11003FFFFC [1, 2, 3, 4] (runAt 0 { a := [(2, 0x3FFFF8)] } [])
    WordRuns 0 s ∧ memoriesCanonical s ∧ areg 0 2 s + 4 = 0x3FFFFC ∧ poisonedIn (weightBank 0 + 0x3FFFFC) 4 s = false ∧
      writeHeld 0 (weightBank 0 + 0x3FFFFC) 4 s = false := by
  and_intros <;> first | decide +kernel | exact runs_of (by decide +kernel)
/-- A fourth loop may start; with four active, one of count 0 may. -/
theorem test_loop_hyp : let l : LoopSt := { first := 0x1000, last := 0x1010, left := 2 }
    let s := runAt 0 { loops := [l, l, l], s := [(3, 1)] } []
    let s' := runAt 0 { loops := [l, l, l, l] } []
    WordRuns 0 s ∧ (coreOf 0 s).loops.length < 4 ∧ WordRuns 0 s' ∧ sreg 0 3 s' = 0 ∧ sreg 0 3 s = 1 := by
  and_intros <;> first | decide +kernel | exact runs_of (by decide +kernel)
/-- A token that has come exactly, and one that lacks one; a wait whose time is just over. -/
theorem test_wait_hyp : let s := runAt 0 { s := [(1, 5), (2, 6)] } [(0x10008C, 5)]
    let w := runAt 0 { wait := some (.tok 3 6 1 2 0) } [(0x10008C, 5)]
    let w' := { w with time := { c := 62 } }
    WordRuns 0 s ∧ (token 0 3 s - (sreg 0 1 s).setWidth 16).toInt = 0 ∧ (token 0 3 s - (sreg 0 2 s).setWidth 16).toInt = -1 ∧
      (coreOf 0 w).wait = some (.tok 3 6 1 2 0) ∧ (token 0 3 w' - 6).toInt < 0 ∧ 1 * 100 * 5 / 8 ≤ (w'.time.c - 0).toNat ∧
      0 ≤ (token 0 3 w - 5).toInt := by
  and_intros <;> first | decide +kernel | exact runs_of (by decide +kernel)
/-- PWAIT on a peer that has reached the rows exactly, on one a row short, and on an index outside the list. -/
theorem test_pwait_hyp : let s := runAt 0 { list := [0, 1], s := [(1, 9), (2, 10), (3, 0), (4, 2)] } [(0x102940, 0x42000009)]
    let w := runAt 0 { wait := some (.prog 1 0 0x42 10 1 2 0) } [(0x102940, 0x42000009)]
    let w' := { w with time := { c := 62 } }
    WordRuns 0 s ∧ (sreg 0 3 s).toInt + ((0b100001#6).extractLsb' 0 5).toInt = 1 ∧ (1 : Int) < (sreg 0 4 s).toNat ∧ (coreOf 0 s).list[1]? = some 1 ∧ (coreOf 0 s).list.length = 2 ∧ coreOwner 1 s = coreOwner 0 s ∧ quarantined 1 s = false ∧
      (rd (coreBase 1 + 0x940) s).toNat / 2 ^ 24 = 0x42 ∧ (sreg 0 1 s).toNat ≤ (rd (coreBase 1 + 0x940) s).toNat % 2 ^ 24 ∧
      ¬ (sreg 0 2 s).toNat ≤ (rd (coreBase 1 + 0x940) s).toNat % 2 ^ 24 ∧
      (coreOf 0 w).wait = some (.prog 1 0 0x42 10 1 2 0) ∧ 1 * 100 * 5 / 8 ≤ (w'.time.c - 0).toNat := by
  and_intros <;> first | decide +kernel | exact runs_of (by decide +kernel)
/-- A fence and an advance that wait for nothing more; MARK with its job. -/
theorem test_signal_hyp : let f : Fence := { k := 15, items := [] }
    let p : PadvSt := { k := 7, tag := 1, rows := 2, items := [] }
    let j : Job := { part := 0, num := 7, stream := 0, win := [], model := 0 }
    let s := { runAt 0 { fences := [f], padvs := [p] } [] with jobs := [j] }
    WordRuns 0 s ∧ (coreOf 0 s).fences = [f] ∧ (coreOf 0 s).padvs = [p] ∧ (coreOf 0 s).job = some 7 ∧ findJob (coreOf 0 s).part 7 s = some j := by
  and_intros <;> first | decide +kernel | exact runs_of (by decide +kernel)
/-- A DMA descriptor of one 64-byte row. -/
def dmaBytes : List Byte := padTo 64 (natLE 6 0x1000 ++ [0, 0] ++ natLE 6 0x1100000000 ++ [0, 0] ++ natLE 4 64 ++ natLE 2 1 ++ natLE 2 1)
/-- A convolution descriptor: 1 x 1 kernel over a 64-column INT8 image of 4 channels; bit 0 of the first byte makes it a pooling one. -/
def convBytes (first : Byte) : List Byte :=
  padTo 64 ([first, 1, 1, 0, 1, 1, 1, 1, 1, 1, 0, 0] ++ natLE 2 8 ++ natLE 2 64 ++ natLE 2 8 ++ natLE 2 0 ++ natLE 2 64 ++ natLE 2 0 ++ natLE 2 64 ++
    [0, 0] ++ natLE 4 0 ++ [4])
/-- The unit words' checks are met: the DMA descriptor, the tile at the bank's end, the operations on vectors and on the image, the
configuration. -/
theorem test_units_hyp : let c : Core := {
      a := [(1, 0x1FFFC0), (2, 0x1FF000), (3, 0), (4, 0x1FFF80)], s := [(1, 64)], eng := { bufs := [(1, { valid := true })] },
      conv := { cfg := some (convBytes 0), starts := [(0, 0)] } }
    let s := withMem (actBank 0 + 0x1FFF80) (convBytes 0 ++ dmaBytes) (runAt 0 c [])
    let w : TStreamWord := { mode := .w8a8, wbuf := 1, conv := false, accOp := true, vLess1 := 1023, accBase := 0, ad := 3, rs := 1, ae := 3, tok := none }
    let v : TStreamWord := { mode := .w8a8, wbuf := 1, conv := true, accOp := false, vLess1 := 0, accBase := 1023, ad := 0, rs := 0, ae := 0, tok := some 15 }
    WordRuns 0 s ∧ s.poison = [] ∧ (areg 0 1 s).toNat % 64 = 0 ∧ (areg 0 1 s).toNat + 64 ≤ 0x200000 ∧ (Fam.get [] 3 (coreOf 0 s).dma).length < 16 ∧
      dmOk (memRead (actBank 0 + (areg 0 1 s).toNat) 64 s) ((coreOf 0 s).conv.cfg.map cvROWBYTES) = true ∧
      (areg 0 2 s).toNat < 0x200000 ∧ (areg 0 2 s).toNat % 64 = 0 ∧ (areg 0 2 s).toNat + 4096 ≤ 0x200000 ∧
      (coreOf 0 s).eng.ops.length < 3 ∧ tstreamOk 0 w 0 64 0 s = true ∧ tagsMatch 0 0 1024 (tagsAhead (coreOf 0 s)) = true ∧
      tstreamOk 0 v (areg 0 0 s).toNat (sreg 0 0 s).toNat (areg 0 0 s).toNat s = true ∧ cvAhead (coreOf 0 s) = some (convBytes 0) ∧
      (coreOf 0 s).conv.starts = [(0, 0)] ∧ cvSpanOk (convBytes 0) 0 0 1 = true ∧ cvPool (convBytes 0) = false ∧
      (areg 0 4 s).toNat % 64 = 0 ∧ cvOk (memRead (actBank 0 + (areg 0 4 s).toNat) 64 s) = true := by
  and_intros <;> first | decide +kernel | exact runs_of (by decide +kernel)
/-- The vector words' checks are met. -/
theorem test_vector_hyp : let d := padTo 32 (zeros 12 ++ [64])
    let s := withMem (actBank 0 + 0x1FFFE0) d
      (runAt 0 { s := [(1, 32), (2, 1)], a := [(1, 0x1FFFE0)], conv := { cfg := some (convBytes 3), starts := [(0, 0)] } } [])
    WordRuns 0 s ∧ (coreOf 0 s).vecs.length < 8 ∧ vecInBank (.param 0 0) = true ∧ (sreg 0 1 s).toNat + (sreg 0 2 s).toNat ≤ accRows 2 ∧
      tagsMatch 0 32 1 (tagsAhead (coreOf 0 s)) = true ∧ (areg 0 1 s).toNat + 32 ≤ 0x200000 ∧ memRead (actBank 0 + (areg 0 1 s).toNat) 32 s = d ∧
      odG d = 64 ∧ poisonedWords (actBank 0 + (areg 0 1 s).toNat) 32 s = [] ∧ vecInBank (.quant 0 0 0 0 32 1 d 0) = true ∧
      vecInBank (.rawst 0 32 1 0) = true ∧ vecInBank (.rawadd 0 32 1 0) = true ∧ cvAhead (coreOf 0 s) = some (convBytes 3) ∧
      (coreOf 0 s).conv.starts = [(0, 0)] ∧ cvPool (convBytes 3) = true ∧ cvSpanOk (convBytes 3) 0 0 1 = true ∧
      vecInBank (.cvt 0 1 32 0 0 0 0) = true ∧ vecInBank (.ew 0 false 32 0 0 0) = true ∧ cvOk (convBytes 3) = true := by
  and_intros <;> first | decide +kernel | exact runs_of (by decide +kernel)
/-- Heads of the DMA, load, configuration and vector queues that wait for nothing. -/
theorem test_items_hyp : let x : DmaItem := { item := 1, desc := dmaBytes, tok := 16 }
    let l : LoadItem := { item := 2, mode := 2, wbuf := 0, addr := 0, tok := 1 }
    let g : CfgItem := { item := 3, desc := convBytes 0, tok := 0 }
    let v : VecItem := { item := 5, op := .rawst 0 5 1 0x1000, tok := 3 }
    let s := runAt 0 { dma := [(3, [x])], eng := { loads := [l] }, conv := { pend := [g] } } []
    let u := runAt 0 { vecs := [v] } []
    (coreOf 0 s).ending = false ∧ (coreOf 0 s).flushing = false ∧ s.poison = [] ∧ Fam.get [] 3 (coreOf 0 s).dma = [x] ∧
      (coreOf 0 s).eng.ops = [] ∧ (coreOf 0 s).vecs = [] ∧ (coreOf 0 s).eng.loads = [l] ∧ loadWaits 0 l s = false ∧
      (coreOf 0 s).conv.pend = [g] ∧ cfgWaits 0 g s = false ∧ (coreOf 0 u).vecs = [v] ∧ vecWaits 0 v u = false ∧
      accBad (coreOf 0 u).eng (vecAccRows v.op) = none := by
  and_intros <;> decide +kernel
/-- A tile operation at the head of its queue whose checks pass. -/
theorem test_verdict_hyp : let o : TileOp := {
      item := 4, mode := 0, wbuf := 0, conv := false, accOp := false, v := 1, accBase := 0, aAddr := 0, aStride := 0, eAddr := 0, pix0 := 0, r := 0,
      desc := [], ep := 0, inj := none, retried := false, retryTick := 0, tok := 2 }
    let s := runAt 0 { eng := { ops := [o], bufs := [(0, { valid := true, bytes := [], loaded := [] })] } } []
    (coreOf 0 s).eng.ops = [o] ∧ opWaits 0 o s = false ∧ o.inj = none ∧ accBad (coreOf 0 s).eng (opRows o) = none ∧
      colCheck 0 (wbuf 0 0 s) none (opVectors 0 o s).1 = none ∧ rowCheck 0 (wbuf 0 0 s) none (opVectors 0 o s).1 = none :=
  ⟨by decide, by decide, rfl, by decide +kernel, Laws.colCheck_sound _ _ _ (by decide) (by decide), Laws.rowCheck_sound _ _ _⟩
/-- A fourth decision in the port and a job that has posted; the post of a job; a pre-empted core with nothing outstanding; END with items. -/
theorem test_post_hyp : let q : PostSt := { item := 1, mask := 1, hi := 0, part := 0, job := 7, gen := 3, stream := 0, obj := 0, model := 0 }
    let j : Job := { part := 0, num := 7, stream := 0, win := [], model := 0, gen := 3 }
    let s := { withImg (runAt 0 { s := [(1, 0xFFFFFFFF), (2, 0xFFFFFF)], posts := [q, q, q] } []) with jobs := [j] }
    let d := { s with jobs := [{ j with posted := true }] }
    let h := { runAt 0 { posts := [q] } [] with jobs := [j] }
    let y := runAt 0 { yielding := some 0x2000 } []
    WordRuns 0 s ∧ (findJob 0 7 s).any (·.posted) = false ∧ (sreg 0 2 s).toNat / 2 ^ 24 = 0 ∧ maskOwned 0 (sreg 0 1 s) s = true ∧
      (coreOf 0 s).posts.length < 4 ∧ WordRuns 0 d ∧ (findJob 0 7 d).any (·.posted) = true ∧
      (coreOf 0 h).posts = [q] ∧ (coreOf 0 h).ending = false ∧ (coreOf 0 h).flushing = false ∧ findJob q.part q.job h = some j ∧ j.gen = q.gen ∧
      (coreOf 0 y).yielding = some 0x2000 ∧ (coreOf 0 y).job = some 7 ∧ allItems (coreOf 0 y) = [] ∧ y.pwr.wiping = [] ∧
      WordRuns 0 h ∧ allItems (coreOf 0 h) ≠ [] ∧ (coreOf 0 (runAt 0 { yieldReq := true } [])).yieldReq = true := by
  and_intros <;> first | decide +kernel | exact runs_of (by decide +kernel)
/-- The trapping operands at their boundaries. -/
theorem test_trap_hyp : let l : LoopSt := { first := 0x1000, last := 0x1010, left := 2 }
    let s := withImg (runAt 0 { a := [(1, 0x400000), (2, 2), (3, 0x1FFFC1)], s := [(1, 1), (2, 0x1000000)], loops := [l, l, l, l] } [])
    let u := runAt 0 { s := [(1, 1)] } []
    let j : Job := { part := 0, num := 7, stream := 63, win := [], model := 0, live := [0] }
    let t := { u with jobs := [j] }
    let f := runAt 0 { flushing := true } []
    WordRuns 0 s ∧ WordRuns 0 u ∧ wordLegal 0 = false ∧ wordLegal 0xFFFFFFFFFFFFFFFF = false ∧ narrowOk (narrowAddr 0 1 0 s) = false ∧
      narrowOk (narrowAddr 0 2 0 s) = false ∧ (coreOf 0 s).loops.length = 4 ∧ sreg 0 1 s ≠ 0 ∧ (sreg 0 2 s).toNat / 2 ^ 24 ≠ 0 ∧
      maskOwned 0 (sreg 0 1 u) u = false ∧ descOk (areg 0 3 s).toNat 64 = false ∧ findJob 0 7 t = some j ∧ j.stream < 64 ∧ j.live = [0] ∧ t.ents = [] ∧
      (coreOf 0 f).flushing = true := by
  and_intros <;> first | decide +kernel | exact runs_of (by decide +kernel)
/-- A model that asks for all 32 cores, its job and its binding. -/
def bigModel : Model := {
  part := 0, addr := 0, len := 64, bg := false, cores := 32, batch := 1, cNs := 1000, yNs := 0, vMax := 0, markers := [], fOff := 0, f := 0, act := 0,
  weightOff := 0, bursts := [], progs := [], groups := [], key := [] }
def bigJob : Job := { part := 0, num := 7, stream := 0, win := [], model := 5, slot := some 0 }
def bigBinding : Binding := {
  models := [some 5], dusks := [some 6], speedMax := 1, duskMarginUs := 0, duskHoldMs := 1, skipLate := false, onIncomplete := false,
  onDegraded := false }
/-- Job 7 at the head of P0's queue, all cores idle. -/
def sched : State :=
  withImg { withRegs [(kCLK_EN0, 0xFFFFFFFF), (kSPEED 0, 1000)] State.reset with
    jobs := [bigJob], models := [(5, bigModel), (6, bigModel)], binds := [(0, bigBinding)], parts := [(0, { area := some 0x10000 })] }
theorem test_jobStart_hyp : placeHeld 0 sched = false ∧ headJob 0 sched = some bigJob ∧ findJob 0 7 sched = some bigJob ∧ bigJob.st = .queued ∧
    bindingOf 0 sched = some bigBinding ∧ bigBinding.skipLate = false ∧ model 5 sched = some bigModel ∧ (part 0 sched).area = some 0x10000 ∧
    bigJob.slot = some 0 ∧ bigJob.place = [] ∧ det sched = false ∧ bigModel.cores = (idleCores 0 sched).length ∧ bigModel.cores = 32 := by
  and_intros <;> decide +kernel
/-- An overrun predicted at the commit count; a stream in DUSK whose hold is just over; a switch and a re-plan that are due. -/
theorem test_monitor_hyp : let j := bigJob
    let d := { withRegs [(strBase 0, 1)] sched with jobs := [], time := { c := 625000 } }
    let w := updPart 3 (fun _ => { switching := some { fn := 0, old := [], repl := [] }, replan := [1] }) sched
    findJob 0 7 sched = some j ∧ j.bg = false ∧ streamPart 0 sched = some 0 ∧ overrun j (arbNs j sched) sched = true ∧ hasDusk 0 sched = true ∧
      rdF (strBase 0) 1 0 sched = 0 ∧ overrun j (arbNs j State.reset) State.reset = false ∧ rdF (strBase 0) 1 0 d = 1 ∧ d.jobs = [] ∧
      (bindingOf 0 d).map (fun b => b.duskHoldMs * 625000) = some (d.time.c - (strm 0 d).overrunTick).toNat ∧
      (part 3 w).switching = some { fn := 0, old := [], repl := [] } ∧ (∀ j ∈ w.jobs, j.part = 3 → j.st ≠ .running) ∧
      w.boot.restarting = false ∧ (part 3 w).replan ≠ [] ∧ auditRoom w = true := by
  and_intros <;> decide +kernel
/-- The module powered and held; released with the oscillator running; a reset by SYS_RST. -/
theorem test_reset_hyp : let h := { State.reset with boot := { powered := true, held := true, osc := true, refPresent := true } }
    let s := { State.reset with
      boot := { powered := true, osc := true, refPresent := true, linkUp := true }, svc := { expertUntil := some 1 } }
    State.reset.boot.powered = true ∧ h.boot.held = true ∧ h.boot.powered = true ∧ h.boot.osc = true ∧ h.boot.refPresent = true ∧
      { h with boot := { h.boot with osc := false } }.boot.osc = false ∧ hostReach 0 s = true ∧ expert s = true ∧ bitOf 0 0xA501 = true ∧
      fld 15 8 0xA501 = 0xA5 ∧ s.boot.osc = true ∧ s.boot.refPresent = true ∧ (1 : Fin 17).val ≠ 0 ∧ expert State.reset = false := by decide
/-- Each step of the start-up with its conditions; empty firmware slots are not accepted. -/
theorem test_startup_hyp : let s := { State.reset with boot := { powered := true, osc := true }, flash := {} }
    let d := withRegs [(kSYS_BOOT, 1)] { State.reset with boot := { powered := true, osc := true, fwRunning := true } }
    let r := { withRegs [(kSYS_BOOT, 3)] d with regs := [(kSYS_BOOT, 3)], img := [{ ty := 0x11, inst := 0, body := zeros 512 }] }
    s.boot.osc = true ∧ s.boot.held = false ∧ s.boot.fwRunning = false ∧ stage s = 0 ∧ s.flash.fwPending = none ∧ fwAccepted s.flash.fwActiveB s = false ∧
      State.reset.boot.osc = false ∧ State.reset.boot.powered = true ∧ State.reset.boot.held = false ∧ r.boot.fwRunning = true ∧
      r.boot.restarting = false ∧ (∀ p < 16, (part p r).replan = []) ∧ d.boot.fwRunning = true ∧ d.boot.restarting = false ∧ stage d = 1 ∧ stage r = 3 := by decide
/-- The shipped firmware is accepted where its signature and hash are good. -/
theorem test_fwAccepted_hyp (h : Config.fwSigOk (natLE 32 Config.rootKey.toNat) Config.fwShipped = true)
    (h' : Config.fwHashOk Config.fwShipped = true) :
    let s := { State.reset with boot := { powered := true, osc := true } }
    fwAccepted s.flash.fwActiveB s = true ∧ s.boot.fwRunning = false ∧ stage s = 0 ∧ s.flash.fwPending = none := by
  refine ⟨?_, by decide, by decide, by decide⟩
  show fwGood Config.fwShipped _ = true
  simp [fwGood, keyOf, h, h', State.reset]
/-- A weight bank's and a cluster bank's wipe; a pending slot just out of time and one just within; the watchdog; an unlock that ends. -/
theorem test_wipe_hyp : let s := { State.reset with pwr := { wiping := [34, 51, 113] } }
    let f := { State.reset with
      flash := { fwPending := some true }, boot := { fwRunning := true, slotB := true }, time := { c := 1250000000 } }
    let g := { f with time := { c := 1249999999 } }
    let u := { State.reset with svc := { expertUntil := some 5 }, time := { c := 5 } }
    34 ∈ s.pwr.wiping ∧ 51 ∈ s.pwr.wiping ∧ 113 ∈ s.pwr.wiping ∧ 52 ∉ s.pwr.wiping ∧ f.flash.fwPending = some true ∧ f.boot.fwRunning = true ∧
      f.boot.slotB = true ∧ isReady f = false ∧ 1250000000 ≤ ticksSince f.boot.bootTick f ∧ ticksSince g.boot.bootTick g < 1250000000 ∧ f.ents = [] ∧
      f.reqs = [] ∧ u.svc.expertUntil = some 5 ∧ (5 : BitVec 64).toNat ≤ (tick u).toNat ∧ (tick State.reset).toNat < (5 : BitVec 64).toNat := by decide
/-! ### Service commands: states in which a command passes every check before its own -/

/-- The key and the signature of the curve's neutral point: it verifies every message, which spares the tests a signer. -/
def idKey : List Byte := 1 :: zeros 31
def idSig : List Byte := idKey ++ zeros 32
theorem edAdd_neutral (y z : Nat) : ∃ w, edAdd (0, y, y, 0) (0, z, z, 0) = (0, w, w, 0) := by
  have h0 : ∀ x, edSub x x % edP = 0 := by intro x; simp only [edSub, edP]; omega
  have h2 : ∀ x, edSub x 0 % edP = x % edP := by intro x; simp only [edSub, edP]; omega
  have ha : edSub y 0 * edSub z 0 % edP = y * z % edP := by rw [Nat.mul_mod, h2, h2, ← Nat.mul_mod]
  refine ⟨(edAdd (0, y, y, 0) (0, z, z, 0)).2.1, ?_⟩
  simp only [edAdd, ha, Nat.add_zero, Nat.mul_zero, Nat.zero_mul, Nat.zero_mod]
  refine Prod.ext ?_ (Prod.ext rfl (Prod.ext ?_ ?_))
  · show edSub _ _ * _ % edP = 0; rw [Nat.mul_mod, h0]; simp
  · have h4 : (y * z % edP + y * z % edP) % edP = 2 * y * z % edP := by rw [← Nat.add_mod, mul_assoc, two_mul]
    simp only [h4, Nat.mod_mod]
    rw [Nat.mul_mod (edSub _ _), h2, Nat.mod_mod]
  · show edSub _ _ * _ % edP = 0; rw [Nat.mul_mod, h0]; simp
theorem edMul_neutral (y : Nat) : ∀ k n, ∃ w, edMul (0, y, y, 0) k n = (0, w, w, 0) := by
  intro k
  induction k with
  | zero => intro n; exact ⟨1, rfl⟩
  | succ k ih =>
    intro n
    obtain ⟨w, hw⟩ := ih (n / 2)
    obtain ⟨v, hv⟩ := edAdd_neutral w w
    simp only [edMul, hw, hv]
    split
    · exact edAdd_neutral v y
    · exact ⟨v, rfl⟩
theorem edMul_even (p : EdPt) : ∀ k, ∃ w, edMul p k 0 = (0, w, w, 0) := by
  intro k
  induction k with
  | zero => exact ⟨1, rfl⟩
  | succ k ih =>
    obtain ⟨w, hw⟩ := ih
    simpa [edMul, hw] using edAdd_neutral w w
theorem idSig_verifies (msg : List Byte) : ed25519Verify idKey msg idSig = true := by
  have hk : edDecode idKey = some (0, 1, 1, 0) := by decide +kernel
  have hs : leNat ((idSig.drop 32).take 32) = 0 := by decide +kernel
  have ht : idSig.take 32 = idKey := by decide +kernel
  have hl : idSig.length = 64 := by decide
  have hL : ¬ (0 ≥ edL) := by decide
  simp only [ed25519Verify, hs, ht, hk, hl, hL]
  obtain ⟨a, ha⟩ := edMul_even edBase 256
  obtain ⟨b, hb⟩ := edMul_neutral 1 256 (leNat (sha512 (idKey ++ idKey ++ msg)) % edL)
  obtain ⟨c, hc⟩ := edAdd_neutral 1 b
  rw [ha, hb, hc]
  simp [edEq, Nat.mul_comm]

/-- A ring takes a command, as a test. -/
def takesOk (fn : Nat) (d : SvcDesc) (s : State) : Bool :=
  decide ((ringEn fn s = true ∧ ringServed fn s = true ∧ (ring fn s).busMaster = true ∧ (ring fn s).flushing = false) ∧ fetchRoom fn s = true ∧
    ringSize fn oCPL_SIZE s = 16 ∧
    ((ring fn s).busy = none ∧ (ring fn s).fetched = [] ∧ (ring fn s).held = [] ∧ (ring fn s).cmdTail = rd (ringBase fn + oCMD_HEAD) s) ∧
    mustWait fn d s = false ∧ ∀ i, i < (fn + 17 - s.svc.turn) % 17 → ringWork ((s.svc.turn + i) % 17) s = false)
theorem takes_of_ok {fn : Nat} {d : SvcDesc} {s : State} (h : takesOk fn d s = true) : RingTakes fn d s :=
  have ⟨runs, room, size, idle, turn⟩ := of_decide_eq_true h
  ⟨runs, room, ⟨4, by decide, by decide, size⟩, idle, turn⟩
/-- The steward reads the authorisation block that the host placed. -/
theorem arrived_block {fn : Nat} {d : SvcDesc} {blk : List Byte} {data : Option (List Byte)} {s : State} (hl : blk.length = 96) (ha : dAUTH d ≠ 0)
    (hd : dDATA d + dLEN d ≤ dAUTH d ∨ dAUTH d + 96 ≤ dDATA d) :
    Memory.read (arrived fn d { auth := some blk, data := data } s).host (dAUTH d) 96 = blk := by
  have placed : Memory.read (Memory.write s.host (dAUTH d) blk) (dAUTH d) 96 = blk := hl ▸ Laws.read_write (dAUTH d) blk s.host
  have pad : padTo 96 blk = blk := by simp [padTo, hl, zeros]
  cases data with
  | none => simpa [arrived, hostPut, ha, pad, updRing, inc, wr, turnPast] using placed
  | some x =>
    have short : (x.take (dLEN d)).length ≤ dLEN d := List.length_take_le _ _
    have apart := Laws.read_write_out (b := dAUTH d) (k := 96) (x.take (dLEN d)) (Memory.write s.host (dAUTH d) blk) (a := dDATA d) (by omega)
    simpa [arrived, hostPut, ha, pad, updRing, inc, wr, turnPast] using apart.trans placed
/-- The checks before a command's own, as a test; the signature is the neutral one. -/
def startsOk (code fn : Nat) (d : SvcDesc) (h : HostIn) (s : State) : Bool :=
  let e := rowDesc code d
  match cmdRow code with
  | none => false
  | some c => decide (takesOk fn e s = true ∧ (fn ≠ 0 → partUsed (fn - 1) s = true) ∧
      (onFn fn code c s = true ∧ descBad fn code c e s = false ∧ (dataIn e c = true → h.data.isSome = true)) ∧ checkSteps e s ≤ 1 ∧
      (s.flash.audit.length < 649 ∧ s.flash.auditRO = false)) &&
    (decide (fn ≠ 0 ∨ c.slots = []) || match h.auth with
      | none => false
      | some b => decide ((dAUTH e ≠ 0 ∧ b.length = 96 ∧ (dDATA e + dLEN e ≤ dAUTH e ∨ dAUTH e + 96 ≤ dDATA e)) ∧
          (s.svc.nonce = some ((b.drop 8).take 16) ∧ ticksSince s.svc.nonceTick s < 37500000000) ∧
          (leAt b 2 2 = 0 ∧ leAt b 4 4 = 0 ∧ leAt b 24 8 = 0) ∧ keyOf (leAt b 0 2) s = some idKey ∧ (b.drop 32).take 64 = idSig ∧
          roleOk (dCMD e) c e (leAt b 0 2) = true))
theorem starts_of_ok {code fn : Nat} {d : SvcDesc} {h : HostIn} {s : State} (hs : startsOk code fn d h s = true) : SvcStarts code fn d h s := by
  unfold startsOk at hs
  cases hc : cmdRow code with
  | none => simp [hc] at hs
  | some c =>
    simp only [hc, Bool.and_eq_true] at hs
    obtain ⟨takes, tenant, own, steps, audit⟩ := of_decide_eq_true hs.1
    refine ⟨takes_of_ok takes, tenant, ⟨c, hc, own.1, own.2.1, own.2.2, ?_⟩, steps, audit⟩
    rcases Bool.or_eq_true_iff.1 hs.2 with h0 | h1
    · exact (of_decide_eq_true h0).elim .inl (fun h => .inr (.inl h))
    · obtain ⟨auth, data⟩ := h
      cases auth with
      | none => cases h1
      | some b =>
        obtain ⟨⟨g1, gl, gd⟩, ⟨gn, gt⟩, ⟨z1, z2, z3⟩, gk, gs, gr⟩ := of_decide_eq_true h1
        have hb := arrived_block (fn := fn) (data := data) (s := s) gl g1 gd
        have kept : (arrived fn (rowDesc code d) { auth := some b, data := data } s).svc.nonce = s.svc.nonce ∧
            (arrived fn (rowDesc code d) { auth := some b, data := data } s).svc.nonceTick = s.svc.nonceTick ∧
            (arrived fn (rowDesc code d) { auth := some b, data := data } s).time = s.time ∧
            (arrived fn (rowDesc code d) { auth := some b, data := data } s).flash = s.flash := by
          cases data <;> simp [arrived, hostPut, g1, updRing, inc, wr, turnPast]
        have hp : (presentNonce b (arrived fn (rowDesc code d) { auth := some b, data := data } s)).1 = true := by
          simp only [presentNonce, kept.1, gn, if_true, ticksSince, kept.2.1, kept.2.2.1]
          exact decide_eq_true (by simpa [ticksSince] using gt)
        have hk : keyOf (leAt b 0 2) (presentNonce b (arrived fn (rowDesc code d) { auth := some b, data := data } s)).2 = some idKey := by
          rw [← gk]
          unfold presentNonce
          split <;> simp [keyOf, kept.2.2.2]
        refine .inr (.inr ?_)
        simp only [authBytes, hb]
        refine ⟨g1, rfl, hp, leAt b 0 2, ?_⟩
        simp [authCheck, z1, z2, z3, hk, gs, gr, idSig_verifies]

/-- The module READY on its link with VFs, P0 in use, both rings of 16 entries running, keys in slots 1 to 7, a nonce outstanding. -/
def served : State :=
  { withImg State.reset with
    boot := { powered := true, osc := true, fwRunning := true, linkUp := true, vfOn := true, dawnDone := true },
    flash := { State.reset.flash with keys := (List.range' 1 7).map fun k => (k, idKey) },
    svc := { nonce := some (zeros 16) },
    rings := [(0, { busMaster := true }), (1, { busMaster := true })],
    regs := [(kSYS_BOOT, 4), (ringBase 0 + oCPL_BASE, 0x4000), (ringBase 0 + oRING_CTL, 0x101), (0x071000, 0), (0x071008, 0xFFFFF000),
      (0x07100C, 0x80070000), (kRGN 17 0, 0), (kRGN 17 0 + 8, 0xFFFFF000), (kRGN 17 0 + 0xC, 0x80070000), (ringBase 1 + oCPL_BASE, 0x6000),
      (ringBase 1 + oRING_CTL, 0x101)] }
/-- A descriptor: TAG 9, the authorisation block at `auth`, data of `len` bytes at `data`, the arguments from byte 36 on. -/
def desc (auth data len : Nat) (args : List Byte) : SvcDesc :=
  padTo 64 ([0, 0, 9, 0, 0, 0, 0, 0] ++ natLE 8 auth ++ zeros 8 ++ natLE 8 data ++ natLE 4 len ++ args)
/-- An authorisation block of a slot with the outstanding nonce. -/
def authBlock (slot : Nat) : List Byte := natLE 2 slot ++ zeros 30 ++ idSig
/-- What the host placed: the block of a slot, the data. -/
def placed (slot : Nat) (data : List Byte) : HostIn := { auth := some (authBlock slot), data := some data }
/-- A command of the PF, signed with a slot's key, without data. -/
def pfOk (code slot : Nat) (args : List Byte) (s : State) : Bool := startsOk code 0 (desc 0x8000 0 0 args) (placed slot []) s
/-- The same with data read or written. -/
def pfData (code slot : Nat) (data args : List Byte) (s : State) : Bool := startsOk code 0 (desc 0x8000 0x9000 data.length args) (placed slot data) s
/-- A command of VF 1. -/
def vfOk (code : Nat) (args : List Byte) (s : State) : Bool := startsOk code 1 (desc 0 0 0 args) (placed 0 []) s
def vfData (code : Nat) (data args : List Byte) (s : State) : Bool := startsOk code 1 (desc 0 0x9000 data.length args) (placed 0 data) s

/-- Bus events: reach of both functions, the link's domains on; a doorbell at the ring's size and one beyond. -/
theorem test_bus_hyp : let s := withRegs [(kPWR_DOM 0, 0xC000)] served
    hostReach 0 s = true ∧ hostReach 1 s = true ∧ hostReach 1 State.reset = false ∧ s.boot.linkUp = true ∧ domOn 14 s = true ∧ domOn 15 s = true ∧ stage s ≠ 0 ∧
      stage State.reset = 0 ∧ ((16 : Word) - rd (ringBase 0 + oCMD_HEAD) s).toNat = ringSize 0 oCMD_SIZE s ∧
      ringSize 0 oCMD_SIZE s < ((17 : Word) - rd (ringBase 0 + oCMD_HEAD) s).toNat ∧ ringEn 0 s = true ∧ ringServed 0 s = true ∧ (ring 0 s).busMaster = true ∧
      (ring 0 s).flushing = false ∧ fetchRoom 0 s = true ∧ (ring 0 s).held = [] ∧ ((0 : Word) - rd (ringBase 0 + oCPL_TAIL) s).toInt ≤ 0 ∧
      0 < ((1 : Word) - rd (ringBase 0 + oCPL_TAIL) s).toInt ∧ ringEn 2 s = false ∧ hostReach 2 s = true ∧ (ring 0 s).busy = none := by decide
/-- A ring in its flush, a transfer in progress, completions without an interrupt. -/
theorem test_ring_hyp : let d := rowDesc 0x0003 (desc 0 0x9000 8192 (natLE 8 0x20000))
    let s := { served with rings := [(1, { busMaster := true, busy := some (.copy d 4096), flushing := true, unsig := 1 })] }
    let t := { served with rings := [(1, { busMaster := true, busy := some (.copy d 4096) })] }
    let c := withRegs [(ringBase 1 + oRING_CTL, 0x00010101)] s
    (ring 1 s).busy = some (.copy d 4096) ∧ (ring 1 s).flushing = true ∧ (ring 0 s).flushing = false ∧ (ring 1 c).unsig ≠ 0 ∧
      rdF (ringBase 1 + oRING_CTL) 25 16 c ≠ 0 ∧ (ring 0 s).unsig = 0 ∧ ringServed 1 t = true ∧ (ring 1 t).busMaster = true ∧
      (ring 1 t).busy = some (.copy d 4096) ∧ dCMD d = 0x0003 ∧ (ring 1 t).fetched = [] ∧ (ring 1 t).held = [] ∧
      (ring 1 t).cmdTail = rd (ringBase 1 + oCMD_HEAD) t ∧ ringEn 1 t = true ∧ (ring 1 t).flushing = false ∧ cplRoom 1 t = true := by decide

/-- The checks of R400 in their order: an unused partition, a command unknown on the function, a bad descriptor, a missing block; and NOP. -/
theorem test_order_hyp : let s := { served with rings := [(0, { busMaster := true }), (2, { busMaster := true })] }
    let s := withRegs [(ringBase 2 + oRING_CTL, 0x101)] s
    let bad := desc 0 1 0 []
    takesOk 2 (rowDesc 0x0001 (desc 0 0 0 [])) s = true ∧ partUsed 1 s = false ∧ takesOk 1 (rowDesc 0x0002 (desc 0 0 0 [])) served = true ∧
      partUsed 0 served = true ∧ takesOk 0 (rowDesc 0x0401 (desc 0 0 0 [])) served = true ∧ takesOk 0 (rowDesc 0x0001 bad) served = true ∧
      (∃ c, cmdRow 0x0001 = some c ∧ descBad 0 0x0001 c (rowDesc 0x0001 bad) served = true) ∧
      takesOk 0 (rowDesc 0x0203 (desc 0 0 0 [])) served = true ∧ stage served ≠ 5 ∧ dAUTH (rowDesc 0x0203 (desc 0 0 0 [])) = 0 ∧
      (∃ c, cmdRow 0x0203 = some c ∧ descBad 0 0x0203 c (rowDesc 0x0203 (desc 0 0 0 [])) served = false) ∧
      startsOk 0x0001 0 (desc 0 0 0 []) (placed 0 []) served = true ∧ vfOk 0x0001 [] served = true := by
  and_intros <;> decide +kernel
/-- Authorisation, keys and fuses: every command with its slot. -/
theorem test_keys_start : pfOk 0x0002 0 [] served = false ∧ startsOk 0x0002 0 (padTo 64 (zeros 16 ++ natLE 8 0xA000)) (placed 0 []) served = true ∧
    pfOk 0x0101 2 (natLE 4 60) served = true ∧ pfOk 0x0101 3 (natLE 4 86400) served = true ∧ pfOk 0x0101 2 [] served = true ∧
    pfOk 0x0102 2 [] served = true ∧ pfData 0x0103 2 idKey [7] served = true ∧ pfOk 0x0104 1 [2] served = true ∧ pfOk 0x0106 1 [0, 63] served = true ∧
    pfData 0x0106 1 (zeros 16) [1, 0, 31] served = true ∧ pfOk 0x0101 4 [] served = false := by decide +kernel
/-- Transfers of one step and of several, within and outside the tag's regions, on both functions; the steward's next step. -/
theorem test_transfer_hyp : let h := placed 2 []
    let dIn := desc 0x8000 0x9000 4096 (natLE 8 0xFFFFF000)
    let out := desc 0x8000 0x9000 64 (natLE 8 0xFFFFFFC0)
    let off := desc 0x8000 0x9000 64 (natLE 8 0x100000000)
    let big := desc 0 0x9000 4160 (natLE 8 0)
    let s1 := svcState 0x0003 0 dIn h served
    startsOk 0x0003 0 dIn h served = true ∧ tagHolds 17 (dArg (rowDesc 3 dIn) 36 8) (dLEN (rowDesc 3 dIn)) rgtWrite s1 = true ∧
      dLEN (rowDesc 3 dIn) = 4096 ∧ startsOk 0x0003 0 off h served = true ∧ tagHolds 17 0x100000000 64 rgtWrite s1 = false ∧
      startsOk 0x0003 1 big (placed 0 []) served = true ∧ 4096 < dLEN (rowDesc 3 big) ∧
      tagHolds 0 0 4160 rgtWrite (svcState 0x0003 1 big (placed 0 []) served) = true ∧ startsOk 0x0004 0 out h served = true ∧
      tagHolds 17 0xFFFFFFC0 64 rgtRead (svcState 0x0004 0 out h served) = true ∧ startsOk 0x0004 0 off h served = true ∧
      tagHolds 17 0x100000000 64 rgtRead (svcState 0x0004 0 off h served) = false ∧ served.poison = [] ∧ served.pwr.wiping = [] := by decide +kernel
theorem test_transfer_apart : let out := desc 0x8000 0x9000 64 (natLE 8 0xFFFFFFC0)
    let s1 := svcState 0x0004 0 out (placed 2 []) served
    Apart 0 (dDATA (rowDesc 4 out)) (dLEN (rowDesc 4 out)) (rowDesc 4 out) s1 := by
  refine ⟨Or.inr ?_, Or.inl ?_⟩ <;> decide +kernel
theorem test_service_hyp : let d := rowDesc 0x0003 (desc 0 0x9000 8256 (natLE 8 0))
    let s := { served with rings := [(1, { busMaster := true, busy := some (.copy d 4096) })], svc := { turn := 1 } }
    let u := { withRegs [(ringBase 2 + oRING_CTL, 0x101), (ringBase 2 + oCMD_HEAD, 1)] served with
      rings := [(2, { busMaster := true, cmdTail := 1, fetched := [rowDesc 1 (desc 0 0 0 [])] })], svc := { turn := 2 } }
    served.boot.fwRunning = true ∧ (∀ g, g < 17 → (ring g s).held = [] ∧ (ring g s).cmdTail = rd (ringBase g + oCMD_HEAD) s) ∧
      (∀ g, g < 17 → (ring g u).held = [] ∧ (ring g u).cmdTail = rd (ringBase g + oCMD_HEAD) u) ∧ (∀ g, g < 17 → ringWork g served = false) ∧
      s.svc.turn = 1 ∧ ringServed 1 s = true ∧ (ring 1 s).busy = some (.copy d 4096) ∧ 4096 + 4096 < dLEN d ∧ u.svc.turn = 2 ∧ ringServed 2 u = true ∧
      (ring 2 u).busy = none ∧ (ring 2 u).fetched = [rowDesc 1 (desc 0 0 0 [])] ∧ (ring 2 u).flushing = false ∧
      mustWait 2 (rowDesc 1 (desc 0 0 0 [])) u = false ∧ partUsed 1 u = false ∧ ringEn 2 u = true ∧ (ring 2 u).busMaster = true ∧ cplRoom 2 u = true := by
  decide +kernel
/-- A section of an image with its header. -/
def imgSec (ty : Nat) (body : List Byte) : List Byte :=
  natLE 2 ty ++ natLE 2 0 ++ natLE 4 body.length ++ natLE 4 (crc32 body).toNat ++ zeros 4 ++ body
/-- The shortest image: GLOBAL, POWER, ARBITER, MOTION, FIELDIO and no partition, signed with slot 2. -/
@[irreducible] def shortImg : List Byte :=
  let secs := imgSec 0x01 ([0, 1, 2, 0] ++ zeros 60) ++
    imgSec 0x02 (natLE 2 700 ++ natLE 2 750 ++ natLE 2 600 ++ natLE 2 0x800 ++ [0, 70] ++ natLE 2 240 ++ natLE 2 120 ++ [0xFF, 0] ++ natLE 2 10 ++ zeros 46) ++
    imgSec 0x30 (zeros 256) ++ imgSec 0x40 (zeros 256) ++
    imgSec 0x41 ((List.range 32).flatMap (fun _ => natLE 2 100 ++ zeros 2) ++ natLE 2 1 ++ zeros 126)
  let a := natLE 4 0x5449524C ++ natLE 2 1 ++ natLE 2 128 ++ natLE 4 0x4B596416 ++ natLE 4 1168 ++ zeros 8 ++ natLE 2 5 ++ [2, 0] ++ zeros 4
  a ++ natLE 4 (crc32 (a ++ zeros 92)).toNat ++ zeros 92 ++ secs ++ idSig
/-- Its sections. -/
def shortSecs : List Sec := match imgSecs shortImg with | .inr l => l.map (·.sec) | .inl _ => []
set_option maxRecDepth 100000 in
theorem shortImg_checks : (match imgSecs shortImg with
    | .inr l => decide (firstOf [check2 shortImg, check4 l, check5 l, check6 shortImg l, check7 (l.map (·.sec)), check8 (l.map (·.sec)),
        check9 (l.map (·.sec))] = none)
    | .inl _ => false) = true ∧ check1 shortImg = none ∧ leAt shortImg 26 1 = 2 ∧ shortImg.drop (shortImg.length - 64) = idSig := by decide +kernel
theorem firstOf_none {l : List (Option ImgBad)} : firstOf l = none ↔ ∀ x ∈ l, x = none := by simp [firstOf]
/-- An image passes the checks of a load where its signature is good. -/
theorem img_loads {b : List Byte} {s : State} (h : (match imgSecs b with
      | .inr l => decide (firstOf [check2 b, check4 l, check5 l, check6 b l, check7 (l.map (·.sec)), check8 (l.map (·.sec)),
          check9 (l.map (·.sec))] = none)
      | .inl _ => false) = true) (h1 : check1 b = none) (h3 : check3 b s = none) :
    imgCheck 9 b s = .inr (match imgSecs b with | .inr l => l.map (·.sec) | .inl _ => []) := by
  unfold imgCheck
  rw [h1]
  cases hl : imgSecs b with
  | inl e => simp [hl] at h
  | inr l =>
    simp only [hl, decide_eq_true_eq] at h
    have g := firstOf_none.mp h
    have : firstOf [check2 b, check3 b s, check4 l, check5 l, check6 b l, check7 (l.map (·.sec)),
        if 8 ≤ 9 then check8 (l.map (·.sec)) else none, if 9 ≤ 9 then check9 (l.map (·.sec)) else none] = none := by
      rw [firstOf_none]; intro x hx
      simp only [List.mem_cons, List.not_mem_nil, or_false, Nat.le_refl, if_true] at hx
      rcases hx with rfl | rfl | rfl | rfl | rfl | rfl | rfl | rfl
      · exact g _ (by simp)
      · exact h3
      all_goals exact g _ (by simp)
    simp only [this]
theorem check3_good {b : List Byte} {s : State} (h : Fam.find 2 s.flash.keys = some idKey) (hs : leAt b 26 1 = 2)
    (hd : b.drop (b.length - 64) = idSig) : check3 b s = none := by simp [check3, hs, h, hd, idSig_verifies]
/-- The shortest image passes them wherever slot 2 holds the key. -/
theorem shortImg_loads (s : State) (h : Fam.find 2 s.flash.keys = some idKey) : imgCheck 9 shortImg s = .inr shortSecs := by
  unfold shortSecs
  exact img_loads shortImg_checks.1 shortImg_checks.2.1 (check3_good h shortImg_checks.2.2.1 shortImg_checks.2.2.2)
/-- The audit log, firmware and images: every command with its slot; a load of the shortest image; a commit of it, and of a stale number. -/
def staging : State := { served with flash := { served.flash with imgActive := some [], imgStaged := some shortImg, stageNo := 3, auditExported := true }, img := [] }
theorem test_audit_start : startsOk 0x0110 0 (desc 0x8000 0x9000 65472 (natLE 4 0 ++ natLE 4 682)) (placed 4 []) served = true ∧
    startsOk 0x0110 1 (desc 0 0x9000 96 (natLE 4 0 ++ natLE 4 1)) (placed 0 []) served = true ∧
    startsOk 0x0111 0 (desc 0x8000 0x20000 65536 []) (placed 2 []) served = true ∧ pfOk 0x0112 3 [] served = true ∧
    served.flash.auditExported = false ∧ pfOk 0x0112 3 [] staging = true ∧ staging.flash.auditExported = true ∧
    pfData 0x0105 1 [1, 2, 3, 4] [] served = true ∧ pfData 0x0201 2 [1, 2, 3, 4] [] served = true ∧ pfOk 0x0203 2 [] served = true ∧
    pfOk 0x0202 2 (natLE 4 3) staging = true ∧ pfOk 0x0202 2 (natLE 4 2) staging = true ∧
    startsOk 0x0204 0 (desc 0x8000 0x9000 0 [0]) (placed 2 []) staging = true := by
  and_intros <;> decide +kernel
theorem test_audit_apart : let e := desc 0x8000 0x20000 65536 []
    let r := desc 0x8000 0x9000 65472 (natLE 4 0 ++ natLE 4 682)
    let i := desc 0x8000 0x9000 0 [0]
    Apart 0 (dDATA (rowDesc 0x0111 e)) 65536 (rowDesc 0x0111 e) (svcState 0x0111 0 e (placed 2 []) served) ∧
      Apart 0 (dDATA (rowDesc 0x0110 r)) 0 (rowDesc 0x0110 r) (svcState 0x0110 0 r (placed 4 []) served) ∧
      Apart 0 (dDATA (rowDesc 0x0204 i)) 0 (rowDesc 0x0204 i) (svcState 0x0204 0 i (placed 2 []) staging) := by
  refine ⟨⟨Or.inr ?_, Or.inl ?_⟩, ⟨Or.inr ?_, Or.inl ?_⟩, ⟨Or.inr ?_, Or.inl ?_⟩⟩ <;> decide +kernel
set_option maxRecDepth 100000 in
theorem staged_passes : let s1 := svcState 0x0202 0 (desc 0x8000 0 0 (natLE 4 3)) (placed 2 []) staging
    s1.flash.imgStaged = some shortImg ∧ s1.flash.stageNo = 3 ∧ Fam.find 2 s1.flash.keys = some idKey ∧
      firstOf [check10 shortSecs s1, check11 shortSecs s1, check12 shortSecs s1] = none := by decide +kernel
set_option maxRecDepth 100000 in
theorem staged_other : let s1 := svcState 0x0202 0 (desc 0x8000 0 0 (natLE 4 2)) (placed 2 []) staging
    s1.flash.imgStaged = some shortImg ∧ s1.flash.stageNo ≠ 2 := by decide +kernel
theorem commit_passes {no : Word} {b : List Byte} {new : List Sec} {s : State} (h1 : s.flash.imgStaged = some b) (h2 : s.flash.stageNo = no)
    (h3 : imgCheck 9 b s = .inr new) (h4 : firstOf [check10 new s, check11 new s, check12 new s] = none) : commitCheck no s = .inr (b, new) := by
  simp [commitCheck, h1, h2, h3, h4]
theorem commit_stale {no : Word} {b : List Byte} {s : State} (h1 : s.flash.imgStaged = some b) (h2 : s.flash.stageNo ≠ no) :
    commitCheck no s = .inl (hdrBad 12 0) := by simp [commitCheck, h1, h2]
/-- The commit of the staged image passes every check; one that names another STAGE_NO does not. -/
theorem test_commit_hyp : commitCheck 3 (svcState 0x0202 0 (desc 0x8000 0 0 (natLE 4 3)) (placed 2 []) staging) = .inr (shortImg, shortSecs) ∧
    (∃ e, commitCheck 2 (svcState 0x0202 0 (desc 0x8000 0 0 (natLE 4 2)) (placed 2 []) staging) = .inl e) := by
  obtain ⟨h1, h2, h3, h4⟩ := staged_passes
  exact ⟨commit_passes h1 h2 (shortImg_loads _ h3) h4, _, commit_stale staged_other.1 staged_other.2⟩
/-- Firmware that verifies, where its signature and hash are good and its version high enough; and firmware of too low a version. -/
theorem test_fw_hyp (bs : List Byte) (h : Config.fwSigOk (natLE 32 Config.rootKey.toNat) bs = true) (h' : Config.fwHashOk bs = true) :
    fwGood bs served = true ∧ fwGood bs { served with fuses := { served.fuses with fwSvn := 2 ^ 32 } } = false := by
  constructor
  · simp [fwGood, keyOf, h, h', show served.fuses.fwSvn = 0 from rfl]
  · simp only [fwGood, Bool.and_eq_false_iff, decide_eq_false_iff_not]
    exact .inr (by have := (Config.fwSvn bs).isLt; omega)
/-- The service steps after a load, a firmware update and a commit. -/
theorem test_flashStep_hyp : let d := rowDesc 0x0202 (desc 0 0 0 [])
    let s := fun (b : Busy) => { served with
      rings := [(0, { busMaster := true, busy := some b })], flash := { served.flash with imgActive := some shortImg } }
    served.boot.fwRunning = true ∧ served.svc.turn = 0 ∧ ringServed 0 served = true ∧ served.boot.recovery = false ∧
      (∀ g, g < 17 → (ring g (s (.applying d))).held = [] ∧ (ring g (s (.applying d))).cmdTail = rd (ringBase g + oCMD_HEAD) served) ∧
      (ring 0 (s (.staging d [1] 4))).busy = some (.staging d [1] 4) ∧ (ring 0 (s (.fwWrite d [1]))).busy = some (.fwWrite d [1]) ∧
      (ring 0 (s (.applying d))).busy = some (.applying d) := by
  and_intros <;> decide +kernel
theorem test_applied_hyp : ∃ l, imgSecs shortImg = .inr l := by
  cases h : imgSecs shortImg with
  | inl e => have := shortImg_checks.1; simp [h] at this
  | inr l => exact ⟨l, rfl⟩
/-! ### Streams, models, cores, codec, ledger, field -/

/-- P0 with model slots and a tenant key; streams 0 and 2, a recipe that sets a slot-set's register, one out of range, one codec slot. -/
def ownImg : List Sec :=
  [{ ty := 0x10, inst := 0, body := natLE 4 0xFFFFFFFF ++ natLE 2 0xFFFF ++ [0xFE] ++ zeros 4 ++ [4] ++ zeros 20 ++ idKey ++ zeros 64 }, secStream 0 0,
    { ty := 0x20, inst := 2, body := [0, 2, 1] ++ zeros 61 }, { ty := 0x21, inst := 1, body := [0, 0, 1, 0] ++ zeros 4 ++ natLE 4 0x080418 ++ natLE 4 0xFFFFFFFF },
    { ty := 0x21, inst := 2, body := [0, 0, 1, 0] ++ zeros 4 ++ natLE 4 0x080468 ++ natLE 4 5 },
    { ty := 0x50, inst := 0, body := [0, 0] ++ zeros 14 ++ (List.replicate 240 0xFF) }]
/-- P0's streams can start: its scheduler area stands. -/
def owner : State := { served with img := ownImg, parts := [(0, { area := some 0x100000 })] }
/-- The same with further registers. -/
def ownerRegs (rs : Fam Word) : State := withRegs rs owner
/-- A binding to model 5 alone. -/
def bound : Binding :=
  { models := [some 5, none, none, none], dusks := [none, none, none, none], speedMax := 1, duskMarginUs := 0, duskHoldMs := 10, skipLate := false,
    onIncomplete := false, onDegraded := false }
/-- The state in which a PF command of a slot has its own checks. -/
def pfAt (code slot : Nat) (args : List Byte) (s : State) : State := svcState code 0 (desc 0x8000 0 0 args) (placed slot []) s
def vfAt (code : Nat) (args : List Byte) (s : State) : State := svcState code 1 (desc 0 0 0 args) (placed 0 []) s

/-- A model package of one program that ends at once, its signature the neutral one. -/
def shortPkg : List Byte :=
  natLE 4 0x4E52444D ++ natLE 2 1 ++ natLE 2 128 ++ natLE 4 0x4B596416 ++ natLE 4 256 ++ [0, 1] ++ natLE 2 1 ++ zeros 8 ++ natLE 2 1 ++ zeros 28 ++
    natLE 2 1 ++ natLE 4 128 ++ zeros 64 ++ natLE 4 136 ++ natLE 4 8 ++ natLE 8 (57 * 2 ^ 54) ++ zeros 48 ++ idSig
def unfitModel : Model :=
  { pkModel 0 0x200000 idKey shortPkg with
    unfit := some 0x0A }
/-- A stream that starts at once, one that waits for its cores' check, one that admission refuses; a stop. -/
theorem test_start_hyp : let l := { owner with time := { c := 1 } }
    let r := { owner with binds := [(0, bound)], models := [(5, unfitModel)] }
    let s1 := pfAt 0x0301 4 [0] owner
    let l1 := pfAt 0x0301 4 [0] l
    let r1 := pfAt 0x0301 4 [0] r
    pfOk 0x0301 4 [0] owner = true ∧ ownStream 0 0 s1 = some 0 ∧ (strm 0 s1).started = false ∧ startBad 0 0 s1 = none ∧ staleCores 0 s1 = [] ∧
      admitSet 0 (setWith 0 0 s1) s1 = none ∧ pfOk 0x0301 4 [0] l = true ∧ startBad 0 0 l1 = none ∧ staleCores 0 l1 ≠ [] ∧
      pfOk 0x0301 4 [0] r = true ∧ startBad 0 0 r1 = none ∧ staleCores 0 r1 = [] ∧ (admitSet 0 (setWith 0 0 r1) r1).isSome = true ∧
      pfOk 0x0302 4 [0] owner = true ∧ ownStream 0 0 (pfAt 0x0302 4 [0] owner) = some 0 := by decide +kernel
set_option maxRecDepth 10000 in
/-- Recipes: none of that number, one out of range, one in range. -/
theorem test_recipe_hyp : let a := fun n => pfAt 0x0303 4 (natLE 2 n) owner
    let x : Nat × Nat := (0x080418, 0xFFFFFFFF)
    pfOk 0x0303 4 [1] owner = true ∧ pfOk 0x0303 4 [2] owner = true ∧ pfOk 0x0303 4 [3] owner = true ∧ secOf (a 3).img 0x21 3 = none ∧
      (secOf (a 2).img 0x21 2).map (fun b => (recPairs b).findIdx? fun x => pairBad (recPairs b) x (a 2)) = some (some 0) ∧
      (secOf (a 1).img 0x21 1).map recPairs = some [x] ∧ pairBad [x] x (a 1) = false ∧ recReg 0x080418 = some (.fe 0) := by
  and_intros <;> decide +kernel
/-- A camera port that is down and one that is up; one in quarantine and one that is not, on the first and the third lane. -/
theorem test_port_hyp : let u := ownerRegs [(0xC0004, 0x11)]
    let q := ownerRegs [(0xC0804, 0x21)]
    let d := desc 0x8000 0x9000 4 [0, 0, 2, 0]
    let h := placed 2 [1, 2, 3, 4]
    startsOk 0x0304 0 d h owner = true ∧ startsOk 0x0304 0 d h u = true ∧ camUp 0 (svcState 0x0304 0 d h owner) = false ∧
      camUp 0 (svcState 0x0304 0 d h u) = true ∧ (cport 0 (svcState 0x0304 0 d h u)).outst = [] ∧ (cport 0 (svcState 0x0304 0 d h u)).waiting = [] ∧
      pfOk 0x0305 4 [2] owner = true ∧ pfOk 0x0305 4 [2] q = true ∧ inQuar 2 (pfAt 0x0305 4 [2] owner) = false ∧ inQuar 2 (pfAt 0x0305 4 [2] q) = true ∧
      laneFirst 2 (pfAt 0x0305 4 [2] q) < 64 ∧ vfOk 0x0306 [2] q = true ∧ ownStream 1 2 (vfAt 0x0306 [2] q) = some 0 ∧ laneFirst 2 (vfAt 0x0306 [2] q) < 64 := by
  decide +kernel

theorem shortPkg_good : badPackage shortPkg = none ∧ badPrograms shortPkg = none ∧ leAt shortPkg 18 2 = 1 ∧ shortPkg.drop (pkEnd shortPkg) = idSig ∧
    shortPkg.length = 256 := by decide +kernel
/-- It loads where the partition holds its key, a slot and a placed region. -/
theorem shortPkg_loads {p a : Nat} {s : State} (hk : (((secOf s.img 0x10 p).getD []).drop 32).take 32 = idKey) (hs : slotsFull p 1 s = false)
    (hp : packagePlaced p a 256 s = true) : loadBad p a shortPkg s = .inr idKey := by
  have h0 : idKey.any (· ≠ 0) = true := by decide
  simp only [loadBad, List.map_cons, hk, List.find?_cons, shortPkg_good.2.2.2.1, idSig_verifies, h0, Bool.and_true]
  simp [shortPkg_good.1, shortPkg_good.2.1, shortPkg_good.2.2.1, shortPkg_good.2.2.2.2, hs, hp]
/-- The load of that package. -/
theorem test_load_hyp : let d := desc 0 0x9000 256 (natLE 8 0x200000)
    let s1 := svcState 0x0401 1 d (placed 0 shortPkg) owner
    startsOk 0x0401 1 d (placed 0 shortPkg) owner = true ∧ dataOf (rowDesc 0x0401 d) s1 = shortPkg ∧
      (((secOf s1.img 0x10 0).getD []).drop 32).take 32 = idKey ∧ slotsFull 0 1 s1 = false ∧ packagePlaced 0 0x200000 256 s1 = true ∧
      dArg (rowDesc 0x0401 d) 36 8 = 0x200000 ∧ tagHolds 0 0x200000 256 rgtWrite s1 = true ∧ owner.pwr.wiping = [] := by decide +kernel
theorem test_loadBad_hyp : loadBad 0 0x200000 shortPkg (svcState 0x0401 1 (desc 0 0x9000 256 (natLE 8 0x200000)) (placed 0 shortPkg) owner) = .inr idKey :=
  have ⟨_, _, hk, hs, hp, _⟩ := test_load_hyp
  shortPkg_loads hk hs hp
/-- Models unloaded and bound; the scheduler area while stopped and while started. -/
theorem test_model_hyp : let m := { owner with models := [(5, pkModel 0 0x200000 idKey shortPkg)] }
    let b := [0, 0] ++ natLE 2 5 ++ (List.replicate 6 0xFF) ++ (List.replicate 8 0xFF) ++ natLE 4 1 ++ zeros 5
    let a := { owner with strms := [(0, { started := true })] }
    vfOk 0x0402 (natLE 2 5) m = true ∧ ownModel 0 5 (vfAt 0x0402 (natLE 2 5) m) = true ∧ modelBound 5 (vfAt 0x0402 (natLE 2 5) m) = false ∧
      (vfAt 0x0402 (natLE 2 5) m).jobs = [] ∧ vfOk 0x0403 b m = true ∧ ownStream 1 0 (vfAt 0x0403 b m) = some 0 ∧
      (bindModels (bindArgs (rowDesc 0x0403 (desc 0 0 0 b))) = [5]) ∧ bindDusks (bindArgs (rowDesc 0x0403 (desc 0 0 0 b))) = [] ∧
      ownModel 0 5 (vfAt 0x0403 b m) = true ∧ (strm 0 (vfAt 0x0403 b m)).started = false ∧ vfOk 0x0404 (natLE 8 0x100000) owner = true ∧
      partActive 0 (vfAt 0x0404 (natLE 8 0x100000) owner) = false ∧ vfOk 0x0404 (natLE 8 0x100000) a = true ∧
      partActive 0 (vfAt 0x0404 (natLE 8 0x100000) a) = true := by decide +kernel
/-- Cores in quarantine and live; no core to check and some; the Morning check at start-up and after a command. -/
theorem test_core_hyp : let q := { owner with flash := { owner.flash with quar := 0x80000000 } }
    let on := ownerRegs [(kCLK_EN0, 1), (kCLK_EN0, 1)]
    let s2 := withRegs [(kSYS_BOOT, 2)] { State.reset with boot := { powered := true, osc := true, fwRunning := true } }
    let c := { on with rings := [(0, { busMaster := true, busy := some (.morning (rowDesc 0x0406 (desc 0x8000 0 0 [])) [0, 31]) })] }
    pfOk 0x0405 2 [31] q = true ∧ quarantined 31 (pfAt 0x0405 2 [31] q) = true ∧ quarantined 30 (pfAt 0x0405 2 [30] q) = false ∧ pfOk 0x0405 2 [30] q = true ∧
      pfOk 0x0406 4 [] owner = true ∧ restCores (pfAt 0x0406 4 [] owner) = [] ∧ pfOk 0x0406 4 [] on = true ∧ restCores (pfAt 0x0406 4 [] on) ≠ [] ∧
      stage s2 = 2 ∧ s2.boot.fwRunning = true ∧ s2.boot.restarting = false ∧ c.boot.fwRunning = true ∧ stage c ≠ 2 ∧
      (ring 0 c).busy = some (.morning (rowDesc 0x0406 (desc 0x8000 0 0 [])) [0, 31]) ∧ (coreOf 0 c).job = none ∧ (coreOf 31 c).job = none ∧
      (ring 0 owner).busy = none := by decide +kernel
/-- The codec's slot idle, recording, held, replaying, calibrating. -/
theorem test_codec_hyp : let r := ownerRegs [(cdsBase 0, 1)]
    let h := { ownerRegs [(cdsBase 0, 2)] with cds := [(0, { bits := 0 })] }
    let p := ownerRegs [(cdsBase 0, 3)]
    let c := { ownerRegs [(cdsBase 0, 4), (kCAL, 0x100)] with rings := [(0, { busMaster := true, busy := some (.cal (rowDesc 0x0505 (desc 0x8000 0 0 []))) })] }
    let e := [(0 : Byte), 0, 16, 1, 1, 0, 0, 0, 0]
    vfOk 0x0501 [0, 0, 0, 1, 0] owner = true ∧ ownSlot 1 0 (vfAt 0x0501 [0, 0, 0, 1, 0] owner) = some 0 ∧
      streamPart 0 (vfAt 0x0501 [0, 0, 0, 1, 0] owner) = some 0 ∧ (strm 0 (vfAt 0x0501 [0, 0, 0, 1, 0] owner)).replay = none ∧
      cdsState 0 (vfAt 0x0501 [0, 0, 0, 1, 0] owner) = 0 ∧ vfOk 0x0501 [0, 0, 0, 1, 0] r = true ∧ cdsState 0 (vfAt 0x0501 [0, 0, 0, 1, 0] r) = 1 ∧
      vfOk 0x0502 [0] r = true ∧ feRuns (rdF (cdsBase 0) 13 8 r) r = false ∧ vfOk 0x0502 [0] h = true ∧ vfOk 0x0503 [0, 0, 0, 0, 0, 0] h = true ∧
      cdsState 0 (vfAt 0x0503 [0] h) = 2 ∧ cdsTarget 0 (vfAt 0x0503 [0] h) = some 0 ∧ replayFits 0 0 (vfAt 0x0503 [0] h) = true ∧
      startBad 0 0 (vfAt 0x0503 [0] h) = none ∧ vfOk 0x0504 [0] p = true ∧ cdsState 0 (vfAt 0x0504 [0] p) = 3 ∧ vfOk 0x0504 [0] h = true ∧
      pfOk 0x0505 2 e h = true ∧ rdB kCAL 8 (pfAt 0x0505 2 e h) = false ∧ rdB (cdsBase 0) 3 (pfAt 0x0505 2 e h) = false ∧ ownSlot 0 0 (pfAt 0x0505 2 e h) = some 0 ∧
      rdB kCAL 8 c = true ∧ cdsState (rdF kCAL 3 0 c) c = 4 ∧ (ring 0 c).busy = some (.cal (rowDesc 0x0505 (desc 0x8000 0 0 []))) ∧ (cds 0 c).held = [] ∧
      ringEn 0 c = true ∧ (ring 0 c).busMaster = true ∧ (ring 0 c).flushing = false ∧ (ring 0 c).held = [] ∧ cplRoom 0 c = true ∧
      c.flash.audit.length < 649 ∧ c.flash.auditRO = false := by decide +kernel
/-- Ledger settings, log, mirror, presets and comparators. -/
theorem test_ledger_cmd_hyp : let cfg := [(0 : Byte), 0, 0, 0, 0, 0, 0, 0] ++ zeros 6 ++ natLE 2 1 ++ natLE 4 10 ++ natLE 2 1
    let use := { owner with strms := [(0, { started := true })] }
    let cmp := [(3 : Byte), 0, 5, 3, 0, 0, 1, 0] ++ natLE 2 1000 ++ natLE 2 1
    vfOk 0x0601 cfg owner = true ∧ ownStream 1 0 (vfAt 0x0601 cfg owner) = some 0 ∧ bitOf 1 (wd (dArg (rowDesc 0x0601 (desc 0 0 0 cfg)) 40 4)) = false ∧
      vfOk 0x0602 (natLE 8 0x1000 ++ natLE 4 64) owner = true ∧ vfOk 0x0603 (natLE 8 0x1000 ++ natLE 4 10) owner = true ∧
      vfOk 0x0603 (natLE 8 0x1000 ++ natLE 4 0) owner = true ∧ pfOk 0x0604 2 ([5] ++ zeros 3 ++ natLE 4 7) owner = true ∧
      srcUsed 5 (pfAt 0x0604 2 ([5] ++ zeros 3 ++ natLE 4 7) owner) = false ∧ pfOk 0x0604 2 (zeros 8) use = true ∧
      srcUsed 0 (pfAt 0x0604 2 (zeros 8) use) = true ∧ pfOk 0x0605 2 cmp owner = true ∧ pfOk 0x0606 4 [3] owner = true := by decide +kernel
/-- The Nightfall state entered and left, an output tested, the mailbox, an acknowledgement. -/
theorem test_field_cmd_hyp : let n := ownerRegs [(kFIO_STAT, 0xA)]
    let m := ownerRegs [(kFIO_STAT, 2)]
    let o := ownerRegs [(kFIO_STAT, 0)]
    let f := { owner with faults := [{ code := 0x5003, unit := 2, part := 0, latch := false, fns := [0, 1] }] }
    let test := [(3 : Byte), 0] ++ natLE 2 1000
    let ack := natLE 2 0x5003 ++ [2, 0]
    pfOk 0x0701 4 [] n = true ∧ pfOk 0x0701 4 [] o = true ∧ n.ents = [] ∧ n.reqs = [] ∧ night o = false ∧ night n = true ∧ pfOk 0x0702 4 [] n = true ∧
      rdB kFIO_STAT 3 n = true ∧ pfOk 0x0702 4 [] m = true ∧ rdB kFIO_STAT 3 m = false ∧ night m = true ∧ pfOk 0x0703 2 test n = true ∧
      pfOk 0x0703 2 test o = true ∧ groupOwner (3 / 4) o = none ∧ pfData 0x0705 4 (zeros 16) (natLE 2 0x2020) owner = true ∧
      startsOk 0x0704 0 (desc 0x8000 0x9000 16 (natLE 2 0x3FF0)) (placed 4 []) owner = true ∧ owner.poison = [] ∧
      pfOk 0x0801 4 ack owner = true ∧ owner.faults = [] ∧ pfOk 0x0801 4 ack f = true ∧
      (f.faults.find? (ackedFault (rowDesc 0x0801 (desc 0x8000 0 0 ack)))).isSome = true := by decide +kernel
theorem test_mailbox_apart : let d := desc 0x8000 0x9000 16 (natLE 2 0x3FF0)
    Apart 0 (dDATA (rowDesc 0x0704 d)) (dLEN (rowDesc 0x0704 d)) (rowDesc 0x0704 d) (svcState 0x0704 0 d (placed 4 []) owner) := by
  refine ⟨Or.inr ?_, Or.inl ?_⟩ <;> decide +kernel

/-! ### Registers -/

/-- Every unit clocked, the expert unlock given. -/
def clocked (rs : Fam Word) : State :=
  { ownerRegs ([(kCLK_EN0, 0xFFFFFFFF), (kCLK_EN1, 0xFFFFFFFF), (kCLK_EN2, 0xFFFFFFFF)] ++ rs) with svc := { expertUntil := some 1 } }
/-- A write that reaches a slot-set, an event register, a read-only register; one that reaches nothing; reads that latch. -/
theorem test_register_hyp : let s := clocked []
    let locked := { s with svc := {} }
    hostReach 0 s = true ∧ regKey 0 (fes 63 + 0x1D0) = some (fes 63 + 0x1D0) ∧ (fes 63 + 0x1D0) % 4 = 0 ∧ writeReach 0 (fes 63 + 0x1D0) s = true ∧
      fesMask 0x1D0 ≠ 0 ∧ writeReach 0 kPWR_EVT s = true ∧ writeReach 0 kFAULT_EVT s = true ∧ writeReach 0 (strBase 63) s = true ∧ blkOf (strBase 63) = .str 63 ∧
      writeReach 0 kPWR_EVT locked = false ∧ regKey 3 0x9000 = none ∧ isLoCounter (coreBase 31 + 0xA10) = true ∧ blkOn (blkOf (coreBase 31 + 0xA10)) s = true ∧
      regKey 1 (0x40000 + 0x2000 * 31 + 0xA10) = some (coreBase 31 + 0xA10) ∧ vfOwns 0 (blkOf (coreBase 31 + 0xA10)) (coreBase 31 + 0xA10) s = true ∧
      readReach 0 (coreBase 31 + 0xA10) s = true ∧ readReach 0 kFIO_DI s = true ∧ readReach 0 kTIME_NOW_LO s = true ∧ readReach 0 kTIME_NOW_HI s = true ∧
      readReach 0 kTIME_NOW_FRAC s = true ∧ readReach 0 kTIME_TICK_LO s = true ∧ readReach 0 kTIME_TICK_HI s = true ∧ readReach 0 (fes 0) locked = false ∧
      regKey 0 (fes 0) = some (fes 0) ∧ timeReach 0 s = true ∧ timeReach 1 s = true ∧ timeReach 0 locked = false ∧
      gateEn 5 s = true ∧ expert s = true ∧ gateEn 5 State.reset = false ∧ expert locked = false := by decide +kernel
/-- Time and arbiter commits with and without effect; a slot-set's commit and table; the ledger settings. -/
theorem test_commits_hyp : let s := clocked [(kTIME_CTL, 1), (kTIME_STEP_LO, 5), (kTIME_STEP_HI, 1), (kARB_GLOBAL, 0x4001)]
    let r := { s with models := [] }
    let run := { s with strms := [(0, { started := true })] }
    let run := withRegs [(kPART_STATUS 0, 2)] run
    hostReach 0 s = true ∧ expert s = true ∧ gateEn 5 s = true ∧ rdB kTIME_CTL 0 s = true ∧ ptpUsed s = false ∧ rdB kTIME_CTL 0 (clocked []) = false ∧
      ((upTo 16).any fun p => partRuns p s) = false ∧ ((upTo 16).map fun t => fld 31 24 (rd (kARB_TAG t) s)).foldl (· + ·) 0 ≤ 240 ∧ arbInRange s = true ∧
      arbInRange (clocked [(kARB_GLOBAL, 0)]) = false ∧ ((upTo 16).any fun p => partRuns p run) = true ∧ r.models = [] ∧
      fesReach 0 63 s = true ∧ fesReach 1 63 s = true ∧ fesReach 2 0 s = false ∧ (fe 2 s).calLoad = false ∧ s.pwr.wiping = [] ∧ streamPart 0 s = some 0 ∧
      (∀ x ∈ linesOf 0 (tableLen 0 s), reaches mFe 0 (feTag 0 s) x.1 x.2 false s = true ∧ poisonedWords x.1 x.2 s = []) ∧
      ldsReach 0 0 s = true ∧ ldsReach 1 0 s = true ∧ ldsOk 0 0 s = true ∧ ldsOk 0 0 (clocked [(ldsBase 0 + 0x10, 0)]) = false := by decide +kernel
theorem test_table_hyp : let s := { clocked [] with fes := [(5, { loading := some [1, 2] }), (6, { loading := some [] })] }
    (fe 5 s).loading = some [1, 2] ∧ (fe 6 s).loading = some [] := by decide
/-- Latches and presets with their reach; the heartbeat. -/
theorem test_latch_hyp : let s := clocked []
    let use := { s with strms := [(0, { started := true })] }
    hostReach 1 s = true ∧ partUsed 0 s = true ∧ expert s = true ∧ gateEn 6 s = true ∧ srcUsed 3 s = false ∧ srcUsed 0 use = true ∧ srcUsed 5 s = false ∧
      s.boot.fwRunning = true := by decide +kernel

/-! ### The supervisor port, scrubbing, arbitration -/

theorem test_sup_hyp : let s := clocked [(kFIO_STAT, 6)]
    supUp s = true ∧ supUp { State.reset with boot := { powered := false } } = false ∧ poisonedIn (mailbox + 0x3FFC) 4 s = false ∧ s.ents = [] ∧ s.reqs = [] ∧ night s = true ∧
      rdB kFIO_STAT 2 s = true ∧ s.fio.fwUpdate = false ∧ rdB kFIO_STAT 2 served = false ∧ night served = false ∧ s.boot.fwRunning = true ∧
      poisonedIn (mailbox + 0x2000) 4 s = false := by decide +kernel
theorem test_scrub_hyp : let s := withRegs [(kPWR_DOM 0, 0xFFFFFFFF), (kPWR_DOM 1, 0xFFFFFFFF), (kPWR_DOM 3, 0xFFFFFFFF), (kPWR_DOM 4, 0xFFFFFFFF)] (withImg State.reset)
    scrubs 0 s = true ∧ inHbm 0x7FFFFFFF8 = true ∧ scrubs 0x1000000000 s = true ∧ inCluster 0x1000000000 = true ∧ scrubs 0x1100000000 s = true ∧
      inScratch 0x11003FFFF8 = true ∧ scrubs 0x1200000000 s = true ∧ inMailbox 0x1200000000 = true ∧ scrubs 0x1200004000 s = false ∧
      scrubs 0x1100000000 State.reset = false ∧ tableUp 0 s = true ∧ streamPart 0 s = some 0 := by
  and_intros <;> decide +kernel
/-- Bursts: one that its source cannot present; a bulk one that holds a port and a deadline-class one that takes it; one that goes on to its next
point; one out of turn; one in its round; a fixed slot; a bank. -/
theorem test_port_arb_hyp : let tab : Burst := { src := .table 0, tag := 0, write := false, addr := 0, len := 64 }
    let out : Burst := { src := .frontEnd 0, tag := 0, write := true, addr := 0, len := 1 }
    let unt : Burst := { src := .unit, tag := 0, write := true, addr := 0x1100000000, len := 64 }
    let held : BurstSt := { b := tab, deadline := false, path := [0] }
    let late : BurstSt := { b := out, deadline := true, path := [0] }
    let goes : BurstSt := { b := { unt with src := .cluster 0, addr := 0 }, deadline := false, path := [2, 0] }
    let inner : BurstSt := { b := unt, deadline := false, path := [6] }
    let s := { withImg State.reset with force := [(kARB_GLOBAL, 0x4003)], ports := [(0, { holder := some held, deficit := [(0, 5)] }), (2, { holder := some goes }), (6, { waiting := [inner] })] }
    let w := { s with ports := [(0, { waiting := [late], deficit := [(0, 1)] })] }
    let d := withRegs [(kSYS_CTL, 1)] s
    burstOk { tab with len := 0 } s = false ∧ burstOk { tab with len := 65 } s = false ∧ burstOk tab s = true ∧ burstOk unt s = true ∧
      (burstPath unt s).head? = some 6 ∧ (port 6 s).holder = none ∧ det s = false ∧ burstOk out s = true ∧ (burstPath out s).head? = some 0 ∧
      newBurst out s = late ∧ srcDeadline out s = true ∧ (port 0 s).holder = some held ∧ sealedBurst held s = false ∧ (port 0 s).waiting = [] ∧
      0 < Fam.get 0 0 (port 0 s).deficit ∧ hasRoom late (updArb 0 (fun p => { p with waiting := p.waiting ++ [late] }) s) = true ∧
      nextPoint held = none ∧ (port 2 s).holder = some goes ∧ nextPoint goes = some 0 ∧ (port 2 s).waiting = [] ∧ (port 0 w).holder = none ∧
      outOfTurn 0 (finishHolder 0 w) = some late ∧ (port 6 s).waiting = [inner] ∧ hasRoom inner s = true ∧ (port 6 s).deficit = [] ∧
      0 < quantum 6 0 s ∧ det d = true ∧ (port 6 d).holder = none ∧ slotOwner 6 d = some 0 ∧ readyBurst 0 6 d = some inner ∧
      (bank 3 31 s).waited ≤ dmaShare s - 1 ∧ (bank 3 31 s).cores = [] ∧ (bank 3 31 s).lines = [] := by
  and_intros <;> decide +kernel
/-! ### Camera lanes -/

/-- P0's stream 63 on lane 63: 4 columns of 8 bits, mono. -/
def laneImg : List Sec := [secPart 0 0xFFFFFFFF 0xFFFF 0xFF, { ty := 0x20, inst := 63, body := [0, 63, 1, 0] ++ natLE 2 4 ++ zeros 18 ++ [8] ++ zeros 39 }]
/-- The port of lane 63 with a status, its port state and its policing settings in force. -/
def cam (status : Word) (p : CPort) : State :=
  { withRegs [(laneBase 63 + 4, status), (kCLK_EN1, 0xFFFFFFFF)] served with
    img := laneImg, cports := [(63, p)], strms := [(63, { started := true })],
    force := [(laneBase 63 + 0x10C, 64), (laneBase 63 + 0x110, 5), (laneBase 63 + 0x114, 0x04000002), (laneBase 63 + 0x118, 0x00030000)] }
/-- What policing makes of a frame that arrives now. -/
def fateOf (f : List Byte) (s : State) : Verdict := police 63 (frameNow 63 f s) (drainFe 15 s)
/-- A line's first segment, a CTRL_ACK, an EVENT, a HELLO that fits and one that does not, a frame of no known type. -/
def fLine : List Byte := withCrc ([1, 1] ++ zeros 2 ++ natLE 4 7 ++ zeros 2 ++ natLE 2 4 ++ [0, 8] ++ natLE 2 4 ++ zeros 12 ++ [1, 2, 3, 4])
def fAck : List Byte := ctrlFrame 3 0 5 [0, 0] [] [9, 9, 9, 9]
def fEvent : List Byte := ctrlFrame 4 0 0 [1] [] []
def fHello (w : Byte) (flags : Nat) : List Byte := ctrlFrame 5 flags 0 [] [] ([1, 1, 1, 0, 7, 0, 0, 0, w, 0, 0, 8] ++ zeros 20)
def fOdd : List Byte := withCrc ([9] ++ zeros 15)

theorem test_lane_hyp : let l : LaneId := .cam 63
    let lit := cam 0x0A {}
    let dark := { cam 1 {} with cages := [(7, { enabled := false, classDw := 0 })] }
    rdB (laneBlk l + 4) clLOS lit = false ∧ rdB (laneBlk l + 4) clLOCK lit = true ∧ rdB (laneBlk l + 4) clLOS dark = true ∧
      rdB (laneBlk l + 4) clLOCK dark = false ∧ cageDark (laneCage l) dark = true ∧ cageDark (laneCage l) lit = false ∧ laneStream 63 lit = some 63 ∧
      (cport 63 lit).line = none ∧ (cport 63 lit).outst = [] ∧ (cport 63 lit).waiting = [] ∧
      rdB (laneBlk (.span 15) + 4) clLOS (withRegs [(laneBlk (.span 15) + 4, 2)] State.reset) = false ∧
      rdB (laneBlk (.span 15) + 4) clLOCK (withRegs [(laneBlk (.span 15) + 4, 2)] State.reset) = true := by decide +kernel
theorem test_marker_hyp : let m : Marker := { d1 := 0, d2 := 1, d3 := 9, skew := 32 }
    let s := cam 0x0A { okSets := 1 }
    let b := cam 0x0A { badSets := 2 }
    streamUsed 63 s = true ∧ setOk (bondWidth 63 s) [some m] = true ∧ (∀ n ∈ bondLanes 63 s, rdB (laneBase n + 4) clLOCK s = true) ∧
      1 ≤ (cport 63 s).okSets ∧ (cport 63 (cam 2 {})).okSets = 0 ∧ aligned 63 (cam 2 {}) = false ∧ setOk (bondWidth 63 b) [none] = false ∧ laneFirst 63 b < 64 ∧
      1 ≤ bondWidth 63 b ∧ aligned 63 b = true ∧ 2 ≤ (cport 63 b).badSets ∧ setOk (bondWidth 63 b) [some { m with skew := 33 }] = false := by decide +kernel
/-- The frames at a port in quarantine, down, up, and on its way up. -/
theorem test_frame_hyp : let up := cam 0x1A { outst := [{ fn := 1, op := 1, arg := [], data := [], seq := 5 }] }
    let link := cam 0x0A { seen := true }
    let fresh := cam 0x0A {}
    streamUsed 63 up = true ∧ (cport 63 up).rx = none ∧ 7 ≤ fAck.length ∧ 7 ≤ fOdd.length ∧ up.pwr.wiping = [] ∧ aligned 63 up = true ∧ laneFirst 63 up < 64 ∧ inQuar 63 (cam 0x2A {}) = true ∧ inQuar 63 up = false ∧ camUp 63 up = true ∧
      camUp 63 link = false ∧ leAt fLine 0 1 = 1 ∧ fateOf fLine link = .pass ∧ fateOf fLine up = .pass ∧ (cport 63 up).line = none ∧
      (leAt fLine 1 1).testBit 0 = true ∧ (leAt fLine 1 1).testBit 1 = false ∧ fateOf fAck up = .pass ∧ leAt fAck 0 1 = 3 ∧
      leAt fAck 2 2 = 5 ∧ (cport 63 up).waiting = [] ∧ (ring 1 up).busy = none ∧ fateOf fEvent up = .pass ∧ leAt fEvent 0 1 = 4 ∧
      BitVec.ofNat 16 (leAt fEvent 2 2) = nextRx 63 up ∧ (rd (ssBase 63 + 8) up - rd (ssBase 63 + 0xC) up).toNat < 4 ∧ linking 63 link = true ∧
      fateOf (fHello 4 1) link = .pass ∧ leAt (fHello 4 1) 0 1 = 5 ∧ (leAt (fHello 4 1) 1 1).testBit 0 = true ∧ (cport 63 link).seen = true ∧
      linking 63 fresh = true ∧ (cport 63 fresh).seen = false ∧ fateOf fOdd up = .unknown ∧
      (cport 63 up).fails + 1 < fld 15 0 (rdForce (primBase 63 up + 0x114) up) ∧ streamPart 63 up = some 0 := by decide +kernel
theorem test_hello_fits_hyp : let s := cam 0x0A {}
    let pl := fun (w : Byte) => (fHello w 1).drop 16
    leAt (pl 4) 2 1 = bondWidth 63 s ∧ leAt (pl 4) 3 1 = cfg 0x20 63 3 1 s ∧ leAt (pl 4) 8 2 = lineWidth 63 s ∧ leAt (pl 4) 10 1 = cfg 0x20 63 6 1 s ∧
      leAt (pl 4) 11 1 = fmtOf 63 s ∧ leAt (pl 5) 8 2 ≠ lineWidth 63 s := by decide +kernel
theorem test_ack_busy_hyp : let d := rowDesc 0x0304 (desc 0 0 0 [])
    let s := { cam 0x1A { outst := [{ fn := 1, op := 1, arg := [], data := [], seq := 5 }] } with rings := [(1, { busMaster := true, busy := some (.camCtrl d 63 5) })] }
    (ring 1 s).busy = some (.camCtrl d 63 5) ∧ ringServed 1 s = true ∧ (ring 1 s).busMaster = true ∧ (ring 1 s).flushing = false ∧ (ring 1 s).fetched = [] ∧
      (ring 1 s).held = [] ∧ (ring 1 s).cmdTail = rd (ringBase 1 + oCMD_HEAD) s ∧ ringEn 1 s = true ∧ cplRoom 1 s = true := by decide +kernel
/-- Port control from both functions, the quarantine's timers, HELLO, the retry timer. -/
theorem test_port_timer_hyp : let q := cam 0x2A {}
    let o := cam 0x1A { outst := [{ fn := 1, op := 1, arg := [], data := [], seq := 5 }], retries := 2 }
    hostReach 1 q = true ∧ portCtlOf 1 63 q = some 63 ∧ portCtlOf 0 63 q = none ∧ inQuar 63 q = true ∧ bitOf 0 (2 : Word) = false ∧ inQuar 63 o = false ∧
      (cport 63 q).fails = 0 ∧ fld 31 26 (rdForce (primBase 63 q + 0x114) q) ≠ 0 ∧ linking 63 q = false ∧ linking 63 (cam 0x0A {}) = true ∧
      (cport 63 o).outst ≠ [] ∧ (cport 63 o).retries < fld 23 16 (rdForce (primBase 63 o + 0x118) o) ∧ (cport 63 q).outst = [] := by decide +kernel

/-! ### Span links and global operations -/

/-- A torus of two modules, this one at (0, 0), link 0 used, P0 in the span; the link's status, its state, P0's global state. -/
def spanned (status : Word) (x : SpLink) (g : Gop) : State :=
  { withRegs [(spanLaneBase 0 + 4, 0x0A), (linkBase 0 + 0x100, status)] served with
    img := [secPart 0 0xFFFFFFFF 0xFFFF 0xFF, { ty := 0x60, inst := 0, body := [0, 0, 2, 1, 1, 10, 1, 0] ++ zeros 56 }], spans := [(0, x)], gops := [(0, g)] }
/-- A frame of the neighbour at position 1 for this module. -/
def spanIn (typ vc seq : Nat) (payload : List Byte) : List Byte :=
  withCrc (natLE 1 typ ++ natLE 1 vc ++ natLE 2 seq ++ natLE 2 0 ++ natLE 2 payload.length ++ [1, 0] ++ zeros 6 ++ payload)
/-- A frame is sound on link 0. -/
def soundFrame (f : List Byte) (s : State) : Bool :=
  decide (f.length = 20 + leAt f 6 2) && decide (leAt f 6 2 ≤ 4096) && decide (leAt f 6 2 % 8 = 0) &&
    decide (leAt f (f.length - 4) 4 = (crc32 (f.take (f.length - 4))).toNat) && (spLanes 0).all fun n => !rdB (spanLaneBase n + 4) clHIBER s
def spanHelloIn (dx : Byte) : List Byte := spanIn 0x43 1 0 ([1, 2, 0, 0, 7, 0, 0, 0, 0, 0, dx, 1] ++ zeros 20)

theorem test_span_frame_hyp : let up := spanned 1 { nextRx := 3, nextTx := 3 } {}
    let down := spanned 0 { seen := true } {}
    let lost := spanned 0 {} {}
    (sp 0 up).rx = none ∧ 7 ≤ (spanIn 0x42 0 0 []).length ∧ linkUsed 0 up = true ∧ linkUsed 1 up = false ∧ spAligned 0 up = true ∧ linkIsUp 0 up = true ∧ linkIsUp 0 down = false ∧
      soundFrame (spanIn 0x42 0 0 []) up = true ∧ soundFrame (0 :: spanIn 0x42 0 0 []) up = false ∧ soundFrame (spanIn 0x42 0 0 []) down = true ∧
      (sp 0 up).waiting = [] ∧ soundFrame (spanIn 0x41 1 3 (zeros 8)) up = true ∧ BitVec.ofNat 16 (leAt (spanIn 0x41 1 3 (zeros 8)) 2 2) = (sp 0 up).nextRx ∧
      leAt (spanIn 0x41 1 3 (zeros 8)) 1 1 % 4 = 1 ∧ leAt (spanIn 0x41 1 3 (zeros 8)) 9 1 % 16 = spSelf up ∧ soundFrame (spanHelloIn 2) down = true ∧
      leAt (spanHelloIn 2) 0 1 = 0x43 ∧ leAt (spanHelloIn 2) 6 2 = 32 ∧ leAt ((spanHelloIn 2).drop 16) 10 1 = spDX down ∧
      leAt ((spanHelloIn 2).drop 16) 11 1 = spDY down ∧ leAt ((spanHelloIn 2).drop 16) 24 8 = spCfg 8 8 down ∧
      leAt (spanHelloIn 2) 8 1 = neighbour 0 down ∧ (sp 0 down).seen = true ∧ (leAt (spanHelloIn 2) 1 1).testBit 0 = true ∧
      leAt ((spanHelloIn 3).drop 16) 10 1 ≠ spDX lost ∧ soundFrame (spanHelloIn 3) lost = true ∧ (sp 0 up).credits.length = 3 := by decide +kernel
theorem test_span_timer_hyp : let f : SpFrame := { vc := 0, src := 0, dst := 1, part := 0, payload := [] }
    let d := spanned 1 { ackDue := true } {}
    let u := withRegs [(linkBase 0 + 0x108, 2)] (spanned 1 { unacked := [f] } {})
    let e := withRegs [(linkBase 0 + 0x108, 1)] (spanned 1 { unacked := [f] } {})
    linkIsUp 0 d = true ∧ (sp 0 d).ackDue = true ∧ (sp 0 u).ackDue = false ∧ (sp 0 d).unacked = [] ∧ linkIsUp 0 u = true ∧ (sp 0 u).unacked ≠ [] ∧
      (sp 0 u).expiries + 1 < rdF (linkBase 0 + 0x108) 7 0 u ∧ rdF (linkBase 0 + 0x108) 7 0 e ≤ (sp 0 e).expiries + 1 := by decide +kernel
/-- The lanes of a span link gain and lose their alignment. -/
theorem test_span_marker_hyp : let s := { withRegs ((upTo 4).map fun n => (spanLaneBase n + 4, 0x0A)) (spanned 1 {} {}) with sbonds := [(0, (1, 2))] }
    let ms := (upTo 4).map fun i => some { d1 := BitVec.ofNat 8 i, d2 := 4, d3 := 0, skew := 32 }
    linkUsed 0 s = true ∧ setOk 4 ms = true ∧ (∀ n ∈ spLanes 0, rdB (spanLaneBase n + 4) clLOCK s = true) ∧ 1 ≤ (Fam.get (0, 0) 0 s.sbonds).1 ∧
      setOk 4 [none] = false ∧ spAligned 0 s = true ∧ 2 ≤ (Fam.get (0, 0) 0 s.sbonds).2 := by decide +kernel
/-- The request lines of the four operations, a bad link, no area. -/
theorem test_gop_request_hyp : let r := fun (op : Byte) => withMem 0 ([1, 0, 0, 0, op, 0, 0, 0] ++ zeros 24) (spanned 1 {} {})
    let d := withMem 0 [1, 0, 0, 0, 1] (spanned 0 {} {})
    spPart 0 (r 1) = true ∧ spanArea 0 (r 1) = some 0 ∧ spPart 1 (r 1) = false ∧ (∀ op ∈ [(1 : Byte), 2, 3, 4], leAt (spanRead 0 0 64 (r op)).1 4 1 = op.toNat ∧ wd (leAt (spanRead 0 0 64 (r op)).1 0 4) = (gop 0 (r op)).last + 1) ∧ (gop 0 (r 1)).needReset = false ∧
      (gop 0 (r 1)).cur = none ∧ linkIsUp 0 (r 1) = true ∧ linkUsed 1 (r 1) = false ∧ linkUsed 2 (r 1) = false ∧ linkUsed 3 (r 1) = false ∧
      torusAll (r 1) ≠ BitVec.ofNat 16 (2 ^ spSelf (r 1)) ∧ spSelf (r 1) = 0 ∧ linkUsed 0 d = true ∧ linkIsUp 0 d = false ∧
      wd (leAt (spanRead 0 0 64 d).1 0 4) = (gop 0 d).last + 1 ∧ leAt (spanRead 0 0 64 d).1 4 1 = 1 := by decide +kernel
/-- A barrier in progress that the neighbour's request completes, and one that is not the module's own; a capture that is due; a timeout. -/
theorem test_gop_progress_hyp : let c : GopCur := { seq := 1, op := 1, root := 0, addr := 0, len := 0, ts := 0, own := true, arrived := 1, since := 0 }
    let f := spanIn 0x41 2 0 ([1, 0, 0, 0, 1, 0, 0, 0, 2, 0] ++ zeros 22)
    let s := spanned 1 {} { cur := some c }
    let o := spanned 1 {} { cur := some { c with own := false } }
    let n := spanned 1 {} { cur := some { c with op := 3 } }
    let t := { s with time := { c := 625000 } }
    let pl := (f.drop 16).take (leAt f 6 2)
    (sp 0 s).rx = none ∧ 7 ≤ f.length ∧ linkUsed 0 s = true ∧ spAligned 0 s = true ∧ linkIsUp 0 s = true ∧ c.op = 1 ∧ s.pwr.wiping = [] ∧
      soundFrame f s = true ∧ leAt f 6 2 = 32 ∧ (sp 0 s).waiting = [] ∧ leAt f 0 1 = 0x41 ∧ leAt f 1 1 % 4 = 2 ∧
      BitVec.ofNat 16 (leAt f 2 2) = (sp 0 s).nextRx ∧ leAt f 9 1 % 16 = spSelf s ∧ leAt pl 0 1 = 1 ∧ leAt pl 1 1 = 0 ∧ spPart 0 s = true ∧
      wd (leAt pl 4 4) = (gop 0 s).last + 1 ∧ (gop 0 s).needReset = false ∧ (gop 0 s).cur = some c ∧
      c.arrived ||| BitVec.ofNat 16 (leAt pl 8 2) = torusAll s ∧ (gop 0 o).cur = some { c with own := false } ∧
      0 ≤ (nowNs n - c.ts).toInt ∧ spanArea 0 n = some 0 ∧ reaches mSpan 0 0 0x40 64 true n = true ∧ reaches mSpan 0 0 0x100 64 true n = true ∧
      spCfg 5 1 t * 62500 ≤ ticksSince c.since t ∧ ticksSince c.since s < spCfg 5 1 s * 62500 := by decide +kernel
/-- A transfer begun, one in progress, its end as the ring's last. -/
theorem test_span_transfer_hyp : let s := withMem 0x80 [1] (withMem 0x1000 ([1, 0, 0, 0] ++ natLE 4 64) (spanned 1 {} {}))
    let b := spanned 1 {} { busy := true, tail := 1 }
    (gop 0 s).busy = false ∧ (gop 0 s).head ≠ wd (leAt (spanRead 0 0x80 64 s).1 0 4) ∧ (gop 0 s).needReset = false ∧
      (let d := (spanRead 0 0x1000 32 s).1
       leAt d 0 1 < 16 ∧ leAt d 0 1 % 4 < spDX s ∧ leAt d 0 1 / 4 < spDY s ∧ 64 ≤ leAt d 4 4 ∧ leAt d 4 4 ≤ 1048576 ∧ leAt d 4 4 % 64 = 0 ∧ leAt d 0 1 ≠ spSelf s) ∧
      (gop 0 b).busy = true ∧ (gop 0 b).head + 1 = (gop 0 b).tail := by decide +kernel
/-- A read of an area in reach leaves the machine alone. -/
theorem spanRead_keeps {p o len a : Nat} {s : State} (h : spanArea p s = some a ∧ s.pwr.wiping = [] ∧ s.poison = [] ∧
    ((linesOf (a + o) len).all fun x => reaches mSpan 0 p x.1 x.2 false s) = true) : (spanRead p o len s).2 = s := by
  simp [spanRead, h.1, devRead, Laws.readPieces_reach h.2.1 h.2.2.1 (List.all_eq_true.mp h.2.2.2)]
/-- Reading these lines changes nothing. -/
theorem test_span_read_hyp : let r := withMem 0 [1, 0, 0, 0, 4] (spanned 1 {} {})
    let d := withMem 0 [1, 0, 0, 0, 1] (spanned 0 {} {})
    let b := spanned 1 {} { busy := true, tail := 1 }
    let s := withMem 0x80 [1] (withMem 0x1000 ([1, 0, 0, 0] ++ natLE 4 64) (spanned 1 {} {}))
    (spanRead 0 0 64 r).2 = r ∧ (spanRead 0 0 64 d).2 = d ∧ (spanRead 0 0x80 64 b).2 = b ∧ (spanRead 0 0x80 64 s).2 = s := by
  and_intros <;> exact spanRead_keeps (a := 0) (by decide +kernel)
/-! ### Motion, front ends, the field island -/

/-- P0 owns stream 0 (4 columns, 2 lines a frame), ten ledger entries, codec slot 0, every output and encoder. -/
def motionImg : List Sec :=
  [{ ty := 0x10, inst := 0, body := natLE 4 0xFFFFFFFF ++ natLE 2 0xFFFF ++ [0xFF, 0xFF, 0, 0, 0x3F, 0] ++ natLE 2 10 ++ zeros 50 },
    { ty := 0x20, inst := 0, body := [0, 0, 1, 0] ++ natLE 2 4 ++ zeros 4 ++ natLE 2 2 ++ zeros 12 ++ [8] ++ zeros 39 },
    { ty := 0x41, inst := 0, body := (List.replicate 32 (natLE 2 100 ++ zeros 2)).flatten },
    { ty := 0x50, inst := 0, body := [0, 0, 0, 0] ++ natLE 4 1 ++ natLE 4 1 ++ zeros 4 ++ (List.replicate 240 0xFF) }]
def moving (rs : Fam Word) : State := { withRegs rs served with img := motionImg }
/-- Encoder `i` enabled and decided. -/
def encoder (i : Nat) : State := moving [(srcBase i, 1), (srcBase i + 8, 1)]
/-- An entry of stream 0 on encoder 0 whose decision fires output 5 at count 1 and stands for 100 counts. -/
def dueEntry : LEntry :=
  { part := 0, stream := 0, src := 0, obj := 3, lead := 0, trail := 9, jobs := [], st := .decided, ctl := 0x801, leadT := 0, grace := 0, lenC := 100, lenT := 0,
    pmax := 0, target := 1, commit := 0, kRec := 0, p0 := 0, kSeen := true, mask := 0x20 }

theorem test_encoder_hyp : let e := encoder 0
    let b := { encoder 3 with srcs := [(3, { q := -1 })] }
    srcOn 3 State.reset = false ∧ srcOn 0 e = true ∧ e.ents = [] ∧ e.reqs = [] ∧ srcDecided 0 e = true ∧ (msrc 0 e).q = encPos 0 e ∧ srcOn 3 b = true ∧
      srcDecided 3 b = true ∧ (msrc 3 b).q = encPos 3 b - 1 := by
  (and_intros <;> decide +kernel)
theorem test_fire_hyp : let s := { encoder 0 with ents := [(4095, dueEntry)] }
    let x := dueEntry
    srcOn 0 s = true ∧ srcDecided 0 s = true ∧ (msrc 0 s).q = encPos 0 s ∧ s.ents = [(4095, x)] ∧ s.reqs = [] ∧ s.dos = [] ∧ x.src = 0 ∧ x.st = .decided ∧ x.kSeen = true ∧
      x.mask = BitVec.ofNat 32 (2 ^ 5) ∧ fld 1 0 x.ctl = 1 ∧ x.stream < 64 ∧ night s = false ∧ ((encPos 0 s + 1) - x.p0).toInt.natAbs < 2 ^ 31 - 2 ^ 24 ∧
      atFire x (encPos 0 s + 1) s = true := by
  (and_intros <;> decide +kernel)
theorem test_ssi_speed_hyp : let s := moving [(srcBase 5, 1), (srcBase 5 + 0xC, 2)]
    srcOn 5 s = true ∧ rdB (srcBase 5 + 0xC) 1 s = true ∧ s.ents = [] ∧ s.reqs = [] ∧ srcOn 4 s = false := by
  (and_intros <;> decide +kernel)
theorem test_emu_hyp : let s := { moving [(emuBase 3, 0), (srcBase 0, 1)] with emus := [(3, { backlog := [(2, true, 7)] })] }
    let p := moving [(emuBase 3, 2), (srcBase 0, 1)]
    (emu 0 s).backlog = [] ∧ (emu 3 s).backlog = [(2, true, 7)] ∧ emuMode 3 s ≠ 2 ∧ emuMode 3 p = 2 ∧ emuSrc 3 p < 4 ∧ srcOn (emuSrc 3 p) p = true := by
  (and_intros <;> decide +kernel)
theorem test_mirror_hyp : let m : Mirror := { addr := 0x2000, period := 10 }
    let s := { moving [] with mirrors := [(0, m)] }
    Fam.find 15 s.mirrors = none ∧ Fam.find 0 s.mirrors = some m ∧ (∀ x ∈ linesOf m.addr 64, reaches mMirror 0 0 x.1 x.2 true s = true) ∧
      poisonedIn m.addr 64 s = false ∧ s.pwr.wiping = [] := by
  (and_intros <;> decide +kernel)
theorem test_compare_hyp : let c : Cmpr := { en := true, x := 0, y := 1, k := 65536, tol := 1 }
    let err := fun (c : Cmpr) (s : State) => (encPos c.y s - c.y0).toInt * 65536 - c.k * (encPos c.x s - c.x0).toInt
    let s := fun (p : Word) => { moving [(kPOS 1, p)] with cmprs := [(3, c)] }
    (cmpr 0 (s 1)).en = false ∧ (cmpr 3 (s 1)).en = true ∧ (err c (s 1)).natAbs ≤ c.tol * 65536 ∧ c.tol * 65536 < (err c (s 2)).natAbs ∧ c.stop = false := by
  and_intros <;> decide +kernel
/-- An output at rest, pulled in, pulling in too short and long enough, its pulses over and not. -/
theorem test_output_hyp : let o : DoSt := { pull := some 0, who := [], ends := [] }
    let at0 := { moving [] with dos := [(31, o), (30, { o with pull := none }), (29, { o with pull := none, night := true })] }
    let late := { at0 with time := { c := 62500 } }
    doSt 0 at0 = none ∧ doSt 31 at0 = some o ∧ o.pull = some 0 ∧ doSt 30 at0 = some { o with pull := none } ∧ passed 0 (usTicks (pullinUs 31 at0)) at0 = false ∧
      passed 0 (usTicks (pullinUs 31 late)) late = true ∧ at0.reqs = [] ∧ at0.ents = [] ∧ o.night = false ∧ (∀ x ∈ o.ends, 0 ≤ (tick at0 - x.due).toInt) ∧
      doSt 29 at0 = some { o with pull := none, night := true } := by
  (and_intros <;> decide +kernel)

/-- Stream 0 started on output 0 of the ledger, its window 100 ns wide; two triggers logged, the run begins with the first. -/
def slotsAt (c : BitVec 64) (f : FeSt) : State :=
  { moving [(fes 0 + 4, 2), (kTRIG 0 0 + 4, 50)] with
    time := { c := c }, emus := [(0, { trigs := 2 })], fes := [(0, { f with j0 := some 0 })], force := [(fes 0 + 0x14, 0x00010000)] }
theorem test_slot_hyp : let s := slotsAt 100 {}
    let soon := slotsAt 0 {}
    let f := fe 0 s
    let j := f.j0.getD 0 + wd f.next
    feRuns 63 s = false ∧ feRuns 0 s = true ∧ f.replaying = false ∧ (f.j0.isSome = true ∧ f.src = trigSrc 0 s) ∧ f.src < 4 ∧ trigAt f.src j s = some (50, 0) ∧
      (0 : BitVec 64).toNat + winMax 0 s < (nowNs s).toNat ∧ lineComing 0 (0 + winMin 0 s) (0 + winMax 0 s) s = false ∧ (emu f.src s).trigs ≠ 0 ∧
      (wd (emu f.src s).trigs - 1 - j).toNat < 2 ^ 31 ∧ (nowNs soon).toNat ≤ (0 : BitVec 64).toNat + winMax 0 soon := by
  (and_intros <;> decide +kernel)
theorem test_frame_start_hyp : let s := slotsAt 0 {}
    let begun := slotsAt 0 { frames := 1 }
    let p := withRegs [(fes 0 + 4, rd (fes 0 + 4) s ||| BitVec.ofNat 32 (2 ^ fsPEND))] s
    feRuns 63 s = false ∧ feRuns 0 s = true ∧ (fe 0 s).frames ≤ (fe 0 s).next / frameLines 0 s ∧ (fe 0 begun).next / frameLines 0 begun < (fe 0 begun).frames ∧
      rdB (fes 0 + 4) fsPEND p = true ∧ rdB (fes 0 + 4) fsPEND s = false ∧ feRuns 0 p = true ∧ shadowsBad 0 p = none := by
  (and_intros <;> decide +kernel)
/-- Lines of 4 columns for output 3 in signed bytes, its ring of 8 lines at 0x10000. -/
def ringOut (o : FeOut) : State :=
  let l : FeLine := { k := 0, slot := 0, count := 0, bad := false, ovr := false, resync := false, cfg := { regs := [(0x1C4, 0x00040000)] }, ch := [[1, 2, 3, 4]] }
  { moving [] with
    fes := [(0, { next := 1, outs := [(3, o)], lines := [l] })],
    force := [(fesOut 0 3, 0x00001003), (fesOut 0 3 + 8, 0x10000), (fesOut 0 3 + 0x10, 8)] }
theorem test_output_line_hyp : let s := ringOut {}
    let l : FeLine := { k := 0, slot := 0, count := 0, bad := false, ovr := false, resync := false, cfg := { regs := [(0x1C4, 0x00040000)] }, ch := [[1, 2, 3, 4]] }
    let c := outCtl 0 3 s
    let bytes := outLine (fld 3 1 c) (fld 31 27 c + fld 19 18 c + fld 21 20 c) (bitOf 8 c) ((outChs 0 3 s).map fun i => chanSums 0 3 i l.cfg [l] s)
    let a := outRing 0 3 s + (wd 0).toNat % max 1 (outRingN 0 3 s) * outStride (fld 3 1 c) (bitOf 8 c) (outChs 0 3 s).length (outCols 0 3 l.cfg s)
    nextGroup 0 0 s = none ∧ nextGroup 0 3 s = some [l] ∧ outOf 0 3 s = some {} ∧ [l].head? = some l ∧ l.k / frameLines 0 s ∉ (fe 0 s).dropped ∧ (fe 0 s).dropping = none ∧
      ({} : FeOut).fly < 4 ∧ outUsed 0 3 s < outRingN 0 3 s ∧ bitOf 8 (l.cfg.reg 0) = false ∧ 0 < bytes.length ∧
      (∀ x ∈ linesOf a bytes.length, reaches mFe (0 / 4) (feTag 0 s) x.1 x.2 true s = true) ∧ s.poison = [] ∧ s.pwr.wiping = [] := by
  (and_intros <;> decide +kernel)
theorem test_record_window_hyp : let r : FrameRec := { run := 0, fi := 0, no := 0, cfg := {}, slotFirst := 0, countFirst := 0, countLast := 0, done := true }
    let w : FeWin := { run := 0, obj := 1, k0 := 0, kEnd := 1, frame := 0, outLines := [], words := List.replicate 16 5 }
    let s := { moving [] with fes := [(0, { recs := [r], wins := [w] })], force := [(fes 0 + 0x68, 4)] }
    let full := withRegs [(fes 0 + 0x6C, 4)] s
    let det := { withRegs [(kSYS_CTL, 1), (fes 0 + 4, 2)] s with fes := [(0, { wins := [w], src := 7 })] }
    ((fe 63 s).recs.find? fun r => r.done) = none ∧ ((fe 0 s).recs.find? fun r => r.done) = some r ∧ fld 16 0 (rdForce (fes 0 + 0x68) s) = 4 ∧
      (rd (fes 0 + 0x6C) s - rd (fes 0 + 0x70) s).toNat < 4 ∧ 4 ≤ (rd (fes 0 + 0x6C) full - rd (fes 0 + 0x70) full).toNat ∧ (fe 63 s).wins = [] ∧
      (fe 0 s).wins = w :: [] ∧ winHeld 0 w det = true ∧ streamPart 0 det = some 0 ∧ winHeld 0 w s = false ∧ streamPart 0 s = some 0 ∧ w.rep = none ∧ w.words.length = 16 ∧
      bindingOf 0 s = none ∧ srcDecided (cfg 0x20 0 7 1 s) s = false ∧ (s.ents.filter fun e => e.2.part = 0).length < cfg 0x10 0 12 2 s ∧ s.ents.length < 4096 ∧
      s.pwr.wiping = [] := by
  (and_intros <;> decide +kernel)
/-- A recording of two gap lines replayed at a free pace. -/
theorem test_feed_hyp : let x : RecLine := { no := 0, slot := 0, count := 0, time := 0, flags := 1, has := false }
    let s := { moving [(cdsBase 0, 0x83)] with cds := [(0, { held := [x, { x with no := 1 }] })] }
    cdsState 15 s ≠ 3 ∧ cdsOwner 0 s = some 0 ∧ cdsTarget 0 s = some 0 ∧ (cds 0 s).held[(cds 0 s).pos]? = some x ∧ cdsState 0 s = 3 ∧ feedReady 0 0 s = true ∧ feQuiet 0 s = true ∧
      (feedLine 0 0 (cds 0 s).pos x { s with decTurn := 0 }).1.isSome = true ∧ (cds 0 s).pos + 1 < (cds 0 s).held.length ∧
      (∀ m, m < 16 → cdsState m s ≠ 1 ∧ (m ≠ 0 → cdsState m s ≠ 3)) := by
  (and_intros <;> decide +kernel)
theorem test_field_hyp : let low := { served with fio := { supplyLow := true } }
    let lost := { withRegs [(0x050010, 1)] served with time := { c := 625000 } }
    let due := fun (s : State) => passed s.fio.hbTick (usTicks (1000 * rdF 0x050010 9 0 s)) s
    low.fio.supplyLow = true ∧ served.fio.supplyLow = false ∧ due (withRegs [(0x050010, 1)] served) = false ∧ due lost = true ∧ lost.ents = [] ∧ lost.reqs = [] ∧ night lost = false := by
  (and_intros <;> decide +kernel)
/-! ### Clocks, the governor, Ethernet -/

/-- P0 owns every launch queue and stream 0 on lane 0; both ports with PTP, addresses and a rail setting; stream 0's port gives the SOF marks. -/
def netImg : List Sec :=
  [{ ty := 0x02, inst := 0, body := natLE 2 750 ++ natLE 2 800 ++ natLE 2 700 ++ zeros 2 ++ natLE 2 1 ++ natLE 2 150 ++ natLE 2 100 ++ zeros 50 },
    { ty := 0x10, inst := 0, body := natLE 4 0xFFFFFFFF ++ natLE 2 0xFFFF ++ [0xFF] ++ zeros 9 ++ [0xFF, 0xFF] ++ zeros 46 }, { ty := 0x20, inst := 0, body := [0, 0, 1] ++ zeros 61 },
    { ty := 0x42, inst := 0, body := ([1, 3] ++ zeros 14 ++ [10, 0, 0, 1] ++ zeros 44 ++ [1, 3] ++ zeros 62 : List Byte) }]
def wired (rs : Fam Word) : State :=
  { withRegs (rs ++ [(kCLK_EN2, 0xFFFFFFFF), (ethBase 0, 1), (ethBase 1, 1), (kTIME_STAT, 4)]) served with img := netImg, svc := { expertUntil := some 1 } }
/-- No line or request in progress at any camera port. -/
theorem ports_idle {s : State} (h : s.cports = []) (st : Nat) : (cport st s).line = none ∧ (cport st s).outst = [] ∧ (cport st s).waiting = [] := by
  simp [cport, Fam.get, h]

theorem test_clock_hyp : let s := wired []
    let h := { wired [(kCLK_STAT, 4)] with clk := { backRun := 99 } }
    let o := { s with clk := { outRun := 9 } }
    State.reset.boot.osc = false ∧ s.boot.osc = true ∧ holdover s = false ∧ holdover h = true ∧ rdB kCLK_STAT csOOR s = false ∧ s.clk.outRun < 9 ∧ 9 ≤ o.clk.outRun ∧ o.boot.osc = true ∧
      holdover o = false ∧ h.boot.osc = true ∧ h.clk.glitch = false ∧ 99 ≤ h.clk.backRun ∧ s.cports = [] ∧ h.cports = [] ∧ o.cports = [] := by
  and_intros <;> decide +kernel
theorem test_sof_hyp : let s := fun (k : Clk) => { wired [(kCLK_STAT, 4), (laneBase 0 + 4, 0x1A)] with cports := [(0, { sof := true })], clk := k }
    let last := s { mark := some 0xFFFFFF, marks := 15 }
    holdover (wired []) = false ∧ holdover last = true ∧ sofSource last = some (0 : Fin 64).val ∧ last.clk.mark = some ((0 : BitVec 24) - 1) ∧ last.clk.marks = 15 ∧
      holdover (s {}) = true ∧ sofSource (s {}) = some 0 ∧ (s {}).clk.marks < 15 := by
  and_intros <;> decide +kernel
theorem test_power_hyp : let s := wired []
    State.reset.boot.osc = false ∧ s.boot.osc = true ∧ s.boot.dawnDone = true ∧ State.reset.boot.dawnDone = false ∧ railSet s < 1024 ∧ s.jobs = [] ∧
      (let limit := 10 * (if rdB kPWR_STAT 1 s then pwrCfg 10 2 s else pwrCfg 12 2 s)
       limit < 1001 ∧ 900 + 50 < limit ∧ (990 ≤ limit ∧ limit ≤ 990 + 50)) ∧ rdB kCLK_EN0 31 s = false ∧ rdB kCLK_EN0 31 (withRegs [(kCLK_EN0, 0xFFFFFFFF)] s) = true ∧
      rdB kCLK_EN1 19 (withRegs [(kCLK_EN1, 0xFFFFFFFF)] s) = true ∧ cageLimit (.sfp 1) = 15 ∧ s.cports = [] := by
  and_intros <;> decide +kernel
/-- An Announce and a Sync of the domain, and what the ports of the tests make of them. -/
theorem test_ptp_hyp : let s := wired []
    let a : PtpMsg := { kind := .announce, domain := 0, offset := none, delay := 0, state := 3 }
    let y : PtpMsg := { kind := .sync, domain := 0, offset := some (-50), delay := 7, state := 3 }
    let master := wired [(ethBase 1 + 4, 8)]
    let slave := { wired [(ethBase 1 + 4, 12)] with ptp := { slave := some 1 } }
    portUp 0 served = false ∧ portUp 0 s = true ∧ ptpRole 0 s = 3 ∧ ptpRole 0 { s with img := [] } = 0 ∧ portUp 1 s = true ∧ a.domain = ethCfg 1 5 1 s ∧
      (1 : Nat) ≠ ethCfg 1 5 1 s ∧ s.ptp.slave = none ∧ rdF (ethBase 1) 4 2 s ≠ 3 ∧ qual s ≠ 0 ∧ qual s ≠ 3 ∧ y.offset = some (-50) ∧
      s.boot.fwRunning = true ∧ s.boot.restarting = false ∧ slave.ptp.slave = some 1 ∧ s.ptp.slave ≠ some 1 ∧ master.boot.osc = true := by
  and_intros <;> decide +kernel
theorem test_ptp_role_hyp : let master := wired [(ethBase 1, 9)]
    let slave := { wired [(ethBase 1, 13)] with ptp := { slave := some 1 } }
    portUp 1 master = true ∧ ptpRole 1 master ≠ 0 ∧ rdF (ethBase 1) 4 2 master = 2 ∧ txWait 1 master = [] ∧ txReady 1 (ptpLen 1 0 master) master = true ∧
      txReady 1 (ptpLen 1 0 master) { master with wire := [(1, 5)] } = false ∧ portUp 1 slave = true ∧ ptpRole 1 slave ≠ 0 ∧ rdF (ethBase 1) 4 2 slave = 3 ∧
      rdF (ethBase 1) 4 2 slave ≠ 1 := by
  and_intros <;> decide +kernel
theorem test_arp_link_hyp : let s := wired []
    ethCfg 0 16 4 s ≠ 0 ∧ leNat (natBE 4 (0x0A000001 : Word).toNat) = ethCfg 0 16 4 s ∧ leNat (natBE 4 (0x0A000002 : Word).toNat) ≠ ethCfg 0 16 4 s ∧
      ethCfg 1 16 4 s = 0 ∧ txWait 0 s = [] ∧ txReady 0 64 s = true ∧ rdB (ethBase 0) 0 s = true ∧ rdB (ethBase 0) 0 served = false ∧ cageDark 12 s = false ∧
      ethOn 0 s = true ∧ rdB kCLK_EN2 1 s = true ∧ cageDark 13 { s with cages := [(13, { classDw := 20, enabled := false })] } = true := by
  and_intros <;> decide +kernel
/-- Queue 7 of port 1 disabled, a ring of 16 descriptors at 0x1000 with one of 60 bytes at 0x2000, and one entry of the ledger that is due, late and not yet due. -/
theorem test_launch_queue_hyp : let off := wired [(ethqBase 1 7, 0)]
    let r := withMem 0x1000 (natLE 8 0 ++ natLE 8 0x2000 ++ natLE 2 60) (wired [(ethqBase 1 7, 0x000A0003), (ethqBase 1 7 + 0x18, 0x1000)])
    hostReach 1 r = true ∧ hostReach 0 r = true ∧ lqReach 2 1 7 r = false ∧ lqReach 1 1 7 r = true ∧ lqReach 0 1 7 r = true ∧ lqEn 1 7 off = false ∧ (lq 1 7 off).ents = [] ∧
      lqEn 1 7 r = true ∧ lqRing 1 7 r = true ∧ lqOwner 1 7 r = some 0 ∧ (lq 1 7 r).ents = [] ∧ (lq 1 7 r).read + 1 = 1 ∧ lqDesc 1 7 0 r = 0x1000 ∧
      (∀ x ∈ linesOf 0x1000 32, reaches mLaunch 1 0 x.1 x.2 false r = true) ∧ r.poison = [] ∧ r.pwr.wiping = [] ∧ Memory.le r.mem 0x1010 2 = 60 ∧ Memory.le r.mem 0x1000 8 = 0 ∧
      bitOf 0 (4 : Word) = false ∧ bitOf 0 (1 : Word) = true ∧ bitOf 1 (1 : Word) = false ∧ fld 25 16 (0x03E80001 : Word) ≤ 1000 ∧
      1000 < fld 25 16 (0x03E90001 : Word) := by
  and_intros <;> decide +kernel
theorem test_launch_hyp : let e : LaunchEnt := { launch := 100, frame := zeros 60, desc := none }
    let s := fun (c : BitVec 64) => { wired [(ethqBase 1 7, 0x000A0001)] with lqs := [(15, { ents := [e] })], time := { c := c } }
    (lq 1 7 (s 63)).ents = [e] ∧ e.desc = none ∧ e.bad = false ∧ lqRing 1 7 (s 63) = false ∧ lqEn 1 7 (s 63) = true ∧ portUp 1 (s 63) = true ∧ wireFree 1 (s 63) = true ∧
      launchCome e.launch (s 63) = true ∧ lqYields 1 7 e.launch (s 63) = false ∧ lateness e.launch (s 63) ≤ lateMaxNs 1 7 (s 63) ∧
      launchCome e.launch (s 62) = false ∧ (lateMaxNs 1 7 (s 10000) : Int) < lateness e.launch (s 10000) := by
  and_intros <;> decide +kernel
/-! ### The block as a whole -/

/-- A queue with two commands; an empty one whose time base stands, and one whose time base runs. -/
theorem test_queue_hyp : let q := { State.reset with pending := [.dawnSequence, .powerOn] }
    q.pending ≠ [] ∧ State.reset.pending = [] ∧ State.reset.time.running = false ∧ ({ served with time := { running := true } } : State).time.running = true := by decide
/-- Units without a clock, with a PF that reads module time and one that does not. -/
theorem test_disabled_hyp : let s := served
    hostReach 0 s = true ∧ hostReach 1 s = true ∧ regKey 0 (fes 63) = some (fes 63) ∧ blkOn (blkOf (fes 63)) s = false ∧ gateEn 5 s = false ∧ gateEn 6 s = false ∧
      rdB kCLK_EN1 15 s = false ∧ rdB kCLK_EN1 27 s = false ∧ rdB kCLK_EN2 2 s = false := by
  and_intros <;> decide +kernel
theorem test_module_time_hyp : let s := { served with regs := [(kCLK_EN2, 0xFFFFFFFF)], svc := { expertUntil := some 1 } }
    hostReach 16 s = true ∧ hostReach 0 s = true ∧ timeReach 0 s = true ∧ timeReach 1 { s with regs := (kCLK_EN2, 0xFFFFFFFF) :: s.regs } = true := by
  and_intros <;> decide +kernel
/-- A fault new and again, a ring with room, one full and one held. -/
theorem test_fault_hyp : let f : FaultRec := { code := 0x5003, unit := 2, part := 0, latch := false, fns := [0] }
    let on := { served with faults := [f] }
    let ev : Evt := { code := 0x5003, unit := 2, part := 0, time := 0 }
    let full := { served with rings := [(0, { held := List.replicate 64 ev })] }
    faultClass 0x5003 ≠ .info ∧ faultClass 0x1006 = .info ∧ f ∈ on.faults ∧ served.faults = [] ∧
      64 ≤ (ring 0 full).held.length ∧ (ring 0 served).held = [] ∧ ringEn 0 served = true ∧ ringServed 0 served = true ∧ (ring 0 served).busMaster = true ∧
      evtRoom 0 served = true ∧ ringEn 16 served = false := by
  and_intros <;> decide +kernel
theorem test_reset_bounded : memoriesCanonical State.reset ∧ ((State.reset.faults.map fun f => (f.code, f.unit, f.part)).Nodup ∧ State.reset.flash.audit.length ≤ 682) := by
  and_intros <;> decide
/-- A word whose target the manual does not list, at a core whose vector queue has room. -/
theorem test_word_hyp : WordRuns 0 (runAt 0 {} []) ∧ (coreOf 0 (runAt 0 {} [])).vecs.length < 8 ∧ (0 : Nat) % 2 ^ 27 = 0 :=
  ⟨test_run.1, by decide, rfl⟩

/-! ### Ill-formed commands are refused -/

theorem test_wf_service : (Instr.svcNop 0 (zeros 64) { auth := none, data := none }).wellFormed = true ∧
    (Instr.svcNop 0 (zeros 63) { auth := none, data := none }).wellFormed = false ∧
    (Instr.svcNop 0 (zeros 64) { auth := some (zeros 95), data := none }).wellFormed = false := by decide
theorem test_wf_offset : (Instr.registerWrite 0 0xFFFFFC 0 0xF).wellFormed = true ∧ (Instr.registerWrite 1 0x100000 0 0xF).wellFormed = false ∧
    (Instr.counterLoRead 0 0x3002).wellFormed = false := by decide
theorem test_wf_lists : (Instr.qspiRead 0x4000 0 none).wellFormed = false ∧ (Instr.qspiWrite 0x4008 [] none).wellFormed = false ∧ (Instr.diSense []).wellFormed = false ∧
    (Instr.energyInterval []).wellFormed = false ∧ (Instr.paceSample [] []).wellFormed = false ∧ (Instr.lineSeg 0 []).wellFormed = false ∧
    (Instr.alignmentMarker (.span 0) [none]).wellFormed = false ∧ (Instr.bankSlot 0 0 [1, 1] []).wellFormed = false := by decide
theorem test_wf_places : (Instr.scrubPass (.mem 0x1100000004) .clean).wellFormed = false ∧ (Instr.scrubPass (.mem 0x1200000004) .clean).wellFormed = true ∧
    (Instr.burstRequest (.hbm 0) { src := .unit, tag := 0, write := false, addr := 0xFC0, len := 2 }).wellFormed = false ∧
    (Instr.ptpMessage 0 { kind := .sync, domain := 0, offset := none, delay := 0, state := 6 }).wellFormed = false := by decide
/-! ### Figures that the manual works out -/

/-- The two blocks of the KB8 column and their sum (spec/08_numerics.md, one column in three modes). -/
theorem test_kb8_addends : kb8Addend 4660 (-13) = 0x91A000000000 ∧ kb8Addend (-1440) (-12) = -0x5A0000000000 ∧
    kb8Addend 4660 (-13) + kb8Addend (-1440) (-12) = 0x37A000000000 := by decide
/-- The table of requantised values (spec/08_numerics.md): INT8 at SH 33, also with ZP −10; binary16. -/
theorem test_requantise : let p := fun (zp : Nat) => natLE 4 0x40000000 ++ zeros 764 ++ [33] ++ zeros 63 ++ natLE 2 zp ++ zeros 130
    let int8 := fun (acc : Int) (zp : Nat) => (vqInt 8 0 (p zp) 0 (requantX acc 0 0x40000000 33 0) fun _ => 0).1
    int8 215 0 = 27 ∧ int8 20 0 = 2 ∧ int8 28 0 = 4 ∧ int8 (-20) 0 = -2 ∧ int8 2048 0 = 127 ∧ int8 (-16129) 0 = -128 ∧ int8 215 0xFFF6 = 17 ∧
      (fmtB16.encode (requantX 215 0 0x40000000 33 0)).1 = 0x4EB8 := by decide +kernel
/-- The binary16 block that becomes KB8 (spec/08_numerics.md). -/
theorem test_kb8_block : let xs := [0x4500, 0xB800, 0x3555, 0x0001, 0x8000].map fun b => match fmtB16.decode b with | .fin x => x | _ => ⟨1, 9⟩
    (toKb8 xs).1 = -4 ∧ (toKb8 xs).2.1 = [80, -8, 5, 0, 0] := by decide +kernel
/-- The grant bounds of the three tenants (spec/12_arbitration.md): ΣQ = 352, five tags, 64 lines. -/
theorem test_grant_bounds : grantBound 128 352 5 64 = 1046 ∧ grantBound 64 352 5 64 = 1046 ∧ grantBound 48 352 5 64 = 2028 := by decide
/-- Lead in counts at 3.0 m/s and at 1.0 m/s (spec/14_motion_and_ejection.md). -/
theorem test_lead_counts : let x : LEntry := { dueEntry with leadT := 1500 }
    leadCounts x (moving [(kSPEED 0, 60000)]) = 90 ∧ leadCounts x (moving [(kSPEED 0, 20000)]) = 30 := by decide +kernel
/-- A 64-byte frame holds the wire for 67.2 ns, 42 ticks (spec/16_time_and_network.md). -/
theorem test_wire_time : wireTicks 64 = 42 := by decide
end Sys2Proof.Tests
end

section
/-! Every command answers a next state (00_scope.md, R8). -/

namespace Sys2Proof.Proofs

open Sys2Proof Sys2Proof.Machine

/-- Whether a vector word's codes name a combination or not (R226), the word ends in a next state when the combination does. -/
theorem vecField_or_answers {c : Prop} [Decidable c] (n : Fin 32) (w : Nat) {o : Host.Outcome State Fault Refusal} (s : State)
    (h : ∃ t, o = .next t) : ∃ t, (if c then execVecField n w s else o) = .next t := by
  split
  · exact ⟨_, rfl⟩
  · exact h

/-- The class and operation of a dispatch word pick a word's own meaning or nothing; VQ, VRAWST and VRAWADD may trap instead. -/
theorem execWord_answers (n : Fin 32) (w : BitVec 64) (s : State) : ∃ t, execWord n w s = .next t := by
  unfold execWord
  extract_lets
  split
  case h_33 | h_34 | h_35 => exact vecField_or_answers n _ s ⟨_, rfl⟩
  all_goals exact ⟨_, rfl⟩

theorem execIllegalWord_answers (n : Fin 32) (w : BitVec 64) (s : State) : ∃ t, execIllegalWord n w s = .next t := by
  unfold execIllegalWord
  split
  · exact execWord_answers n w s
  · exact ⟨_, rfl⟩

/-- Settles O50: every row's meaning is a next state by its definition, but for a 64-bit word, whose bits pick its meaning. -/
theorem everyCommandAnswersANextState : Obligations.EveryCommandAnswersANextState := by
  intro c s
  cases c with
  | illegalWord n w => exact execIllegalWord_answers n w s
  | _ => exact ⟨_, rfl⟩

end Sys2Proof.Proofs
end

section
/-! Register accesses of the host (00_scope.md, R6 to R9): what reaches a register, what a write does to it, what a read answers. -/

namespace Sys2Proof.Proofs

open Sys2Proof Sys2Proof.Machine Sys2Proof.Laws

/-! ### From an offset of a function's BAR0 to its register (R7, R17, R20, R389, R390) -/

section Access

variable {fn off k : Nat} {s : State}

theorem viaHost_of_reach (f : State → State) (h : hostReach fn s = true) : viaHost fn f s = f s := if_pos h

/-- A row whose meaning changes nothing where it reaches the module ends in the state it began in (R8, R390). -/
theorem next_viaHost_of_unchanged {f : State → State} (h : hostReach fn s = true → f s = s) :
    (Host.Outcome.next (viaHost fn f s) : Host.Outcome State Fault Refusal) = .next s := by
  unfold viaHost
  split
  next hr => rw [h hr]
  next => rfl

theorem viaHostRead_of_reach (f : State → State) (h : hostReach fn s = true) : viaHostRead fn f s = f s := if_pos h

theorem hostWrite_of_reach (v : Word) (ha : off % 4 = 0) (hk : regKey fn off = some k) (hw : writeReach fn k s = true) :
    hostWrite fn off v 15 s = wrBlk fn k v s := by
  simp [hostWrite, ha, hk, hw]

theorem hostWrite_of_not_word (v : Word) {be : BitVec 4} (h : be ≠ 15 ∨ off % 4 ≠ 0) : hostWrite fn off v be s = s := if_pos h

theorem hostWrite_of_no_register (v : Word) (be : BitVec 4) (hk : regKey fn off = none) : hostWrite fn off v be s = s := by
  simp [hostWrite, hk]

theorem hostWrite_of_no_reach (v : Word) (be : BitVec 4) (hk : regKey fn off = some k) (hw : writeReach fn k s = false) :
    hostWrite fn off v be s = s := by
  simp [hostWrite, hk, hw]

theorem hostRead_of_reach (ha : off % 4 = 0) (hk : regKey fn off = some k) (hr : readReach fn k s = true) :
    hostRead fn off s = readReg fn k s := by
  simp [hostRead, ha, hk, hr]

theorem hostRead_of_unaligned (ha : off % 4 ≠ 0) : hostRead fn off s = answer 0 s := by
  unfold hostRead
  split <;> simp [ha]

theorem hostRead_of_no_register (hk : regKey fn off = none) : hostRead fn off s = answer 0 s := by
  simp [hostRead, hk]

theorem hostRead_of_no_reach (hk : regKey fn off = some k) (hr : readReach fn k s = false) : hostRead fn off s = answer 0 s := by
  simp [hostRead, hk, hr]

/-- A unit without a clock takes no write (R9). -/
theorem writeReach_of_off (fn : Nat) (h : blkOn (blkOf k) s = false) : writeReach fn k s = false := by
  simp [writeReach, h]

/-- A unit without a clock answers no read (R9). -/
theorem readReach_of_off (fn : Nat) (h : blkOn (blkOf k) s = false) : readReach fn k s = false := by
  simp [readReach, h]

end Access

section Commands

variable {fn : Fin 17} {off k : Nat} {s : State}

theorem exec_registerWrite_reaches (v : Word) (h : hostReach fn.val s = true) (ha : off % 4 = 0)
    (hk : regKey fn.val off = some k) (hw : writeReach fn.val k s = true) :
    exec (.registerWrite fn off v 15) s = .next (wrBlk fn.val k v s) :=
  congrArg _ ((viaHost_of_reach _ h).trans (hostWrite_of_reach v ha hk hw))

theorem exec_counterLoRead (h : hostReach fn.val s = true) :
    exec (.counterLoRead fn off) s = .next (hostRead fn.val off s) :=
  congrArg _ (viaHostRead_of_reach _ h)

theorem exec_counterLoRead_reaches (h : hostReach fn.val s = true) (ha : off % 4 = 0) (hk : regKey fn.val off = some k)
    (hr : readReach fn.val k s = true) : exec (.counterLoRead fn off) s = .next (readReg fn.val k s) :=
  (exec_counterLoRead h).trans (congrArg _ (hostRead_of_reach ha hk hr))

theorem exec_timeNowLoRead (h : hostReach fn.val s = true) : exec (.timeNowLoRead fn) s = .next (nowLoRead fn.val s) :=
  congrArg _ (viaHostRead_of_reach _ h)

theorem exec_timeTickLoRead (h : hostReach fn.val s = true) : exec (.timeTickLoRead fn) s = .next (tickLoRead fn.val s) :=
  congrArg _ (viaHostRead_of_reach _ h)

end Commands

/-! ### What a write that gets through does to its register (R7, R120) -/

section Writes

variable (k m : Nat) (v : Word) (s : State)

theorem regsSameBut_wr : RegsSameBut (fun j => j == k) s (wr k v s) := fun _ hj => rd_wr_ne s v (by simpa using hj)

theorem rd_wrMask_same : rd k (wrMask k m v s) = ((rd k s &&& ~~~ wd m) ||| (v &&& wd m)) := rd_wr_same s k _

theorem rd_wrClear_same : rd k (wrClear k m v s) = rd k s &&& ~~~ (v &&& wd m) := rd_wr_same s k _

variable (fn : Nat) {st o : Nat}

theorem fes_eq (st : Nat) : fes st = 0x080000 + st / 4 * 0x2000 + 0x400 + st % 4 * 0x400 := by
  simp only [fes, feBase]
  omega

theorem blkOf_fes (hst : st < 64) (ho : o < 0x200) : blkOf (fes st + o) = .fe (st / 4) := by
  have hlo : 0x080000 ≤ fes st + o := by rw [fes_eq]; omega
  have hhi : fes st + o < 0x0A0000 := by rw [fes_eq]; omega
  have hq : (fes st + o - 0x080000) / 0x2000 = st / 4 := by rw [fes_eq]; omega
  simp (disch := omega) only [blkOf, if_neg, if_pos, hq]

/-- An offset with writable shadow bits is none of the slot-set's event, commit, address and table registers, which a front end's write
treats by themselves. -/
theorem wrFe_of_mask (ho : o < 0x200) (hm : fesMask o ≠ 0) :
    wrFe fn (st / 4) (fes st + o) v s = wrMask (fes st + o) (fesMask o) v s := by
  have hx : fes st + o - feBase (st / 4) = 0x400 + st % 4 * 0x400 + o := by rw [fes_eq, feBase]; omega
  have hst : 4 * (st / 4) + (0x400 + st % 4 * 0x400 + o - 0x400) / 0x400 = st := by omega
  have hin : ¬ (0x400 + st % 4 * 0x400 + o < 0x400 ∨ 0x1400 ≤ 0x400 + st % 4 * 0x400 + o) := by omega
  have hne : ∀ x, fesMask x = 0 → o ≠ x := fun x h0 hox => hm (hox ▸ h0)
  simp only [wrFe, hx, hst, Nat.add_sub_cancel_left, if_neg hin, if_neg (hne 0x008 rfl), if_neg (hne 0x00C rfl),
    if_neg (hne 0x070 rfl), if_neg (hne 0x07C rfl), if_pos hm]

theorem wrBlk_slotSet (hst : st < 64) (ho : o < 0x200) (hm : fesMask o ≠ 0) :
    wrBlk fn (fes st + o) v s = wrMask (fes st + o) (fesMask o) v s := by
  simp only [wrBlk, blkOf_fes hst ho, wrFe_of_mask v s fn ho hm]

theorem wrBlk_event (h : (k, m) ∈ [(kFAULT_EVT, 0x3), (kCLK_EVT, 0xF), (kPWR_EVT, 0x3F), (kFIO_EVT, 0x7), (kTIME_EVT, 0x7)]) :
    wrBlk fn k v s = wrClear k m v s := by
  simp only [List.mem_cons, Prod.mk.injEq, List.not_mem_nil, or_false] at h
  obtain ⟨rfl, rfl⟩ | ⟨rfl, rfl⟩ | ⟨rfl, rfl⟩ | ⟨rfl, rfl⟩ | ⟨rfl, rfl⟩ := h <;> rfl

theorem wrBlk_readOnly (h : (∃ x, blkOf k = .str x) ∨ blkOf k = .sup) : wrBlk fn k v s = s := by
  obtain ⟨x, hx⟩ | hx := h <;> simp only [wrBlk, hx]

end Writes

/-! ### What a read that gets through answers (R167, R371, R393) -/

section Reads

variable (fn : Nat) {k : Nat} {s : State}

theorem readReg_counter (h : isLoCounter k = true) : readReg fn k s = readCounter k s := if_pos h

theorem readReg_plain (hc : isLoCounter k = false)
    (hk : k ∉ [kTIME_NOW_FRAC, kTIME_NOW_LO, kTIME_NOW_HI, kTIME_TICK_LO, kTIME_TICK_HI, kFIO_DI]) :
    readReg fn k s = { s with readData := [rd k s] } := by
  simp only [List.mem_cons, List.not_mem_nil, or_false, not_or] at hk
  obtain ⟨hfrac, hlo, hhi, htlo, hthi, hdi⟩ := hk
  simp only [readReg, hc, hfrac, hlo, hhi, htlo, hthi, hdi, false_and, Bool.false_eq_true, if_false, answer]

/-- A VF sees the inputs of its DI_READ alone (R393). -/
theorem readReg_di : readReg fn kFIO_DI s =
    { s with readData := [if fn = 0 then rd kFIO_DI s else rd kFIO_DI s &&& wd (cfg 0x10 (fn - 1) 8 2 s)] } := by
  have hdi : readReg fn kFIO_DI s = if kFIO_DI = kFIO_DI ∧ fn ≠ 0 then answer (rd kFIO_DI s &&& wd (cfg 0x10 (fn - 1) 8 2 s)) s
    else answer (rd kFIO_DI s) s := rfl
  rw [hdi]
  by_cases hf : fn = 0 <;> simp [hf, answer]

theorem nowLoRead_of_reach (h : timeReach fn s = true) : nowLoRead fn s =
    { s with time := { s.time with nowLatch := s.time.nowLatch.set fn (nowFrac s) }, readData := [(nowNs s).setWidth 32] } := by
  have hw : ((nowFrac s >>> 16).setWidth 64).setWidth 32 = (nowFrac s >>> 16).setWidth 32 :=
    BitVec.setWidth_setWidth_of_le _ (by decide)
  simp [nowLoRead, h, nowNs, hw]

theorem nowLoRead_of_no_reach (h : timeReach fn s = false) : nowLoRead fn s = { s with readData := [0] } := by
  simp [nowLoRead, h]

theorem tickLoRead_of_reach (hg : gateEn 5 s = true) (hx : expert s = true) : tickLoRead 0 s =
    { s with time := { s.time with tickLatch := s.time.tickLatch.set 0 s.time.c }, readData := [s.time.c.setWidth 32] } := by
  simp [tickLoRead, hg, hx]

theorem tickLoRead_of_no_reach (h : gateEn 5 s = false ∨ fn ≠ 0 ∨ expert s = false) :
    tickLoRead fn s = { s with readData := [0] } := by
  obtain h | h | h := h <;> simp [tickLoRead, h]

end Reads

/-! ### The access as a command -/

section Accesses

variable {fn : Fin 17} {off k : Nat} {s : State}

theorem exec_registerWrite_ignored (v : Word) {be : BitVec 4}
    (h : hostReach fn.val s = false ∨ be ≠ 15 ∨ off % 4 ≠ 0 ∨ regKey fn.val off = none ∨
      ∃ k, regKey fn.val off = some k ∧ writeReach fn.val k s = false) :
    exec (.registerWrite fn off v be) s = .next s := by
  refine next_viaHost_of_unchanged fun hr => ?_
  obtain h | h | h | h | ⟨k, hk, hw⟩ := h
  · simp [h] at hr
  · exact hostWrite_of_not_word v (.inl h)
  · exact hostWrite_of_not_word v (.inr h)
  · exact hostWrite_of_no_register v be h
  · exact hostWrite_of_no_reach v be hk hw

theorem exec_counterLoRead_ignored (h : hostReach fn.val s = true)
    (hi : off % 4 ≠ 0 ∨ regKey fn.val off = none ∨ ∃ k, regKey fn.val off = some k ∧ readReach fn.val k s = false) :
    exec (.counterLoRead fn off) s = .next { s with readData := [0] } := by
  refine (exec_counterLoRead h).trans (congrArg _ ?_)
  obtain ha | hk | ⟨k, hk, hr⟩ := hi
  · exact hostRead_of_unaligned ha
  · exact hostRead_of_no_register hk
  · exact hostRead_of_no_reach hk hr

/-- A read of a counter's low half latches its high half beside it and changes no other register (R167). -/
theorem readCounter_latches (k : Nat) (s : State) :
    let t := readCounter k s
    t = { s with regs := t.regs, readData := [(cntGet k s).setWidth 32] } ∧
      rd (k + 4) t = (cntGet k s >>> 32).setWidth 32 ∧ RegsSameBut (fun j => j == k + 4) s t :=
  ⟨rfl, rd_wr_same s (k + 4) _, regsSameBut_wr (k + 4) _ s⟩

theorem nowLatch_nowLoRead (g : Nat) (h : timeReach fn.val s = true) :
    Fam.get 0 g (nowLoRead fn.val s).time.nowLatch = if g = fn.val then nowFrac s else Fam.get 0 g s.time.nowLatch := by
  rw [nowLoRead_of_reach _ h]
  split
  next hg => exact hg ▸ Fam.get_set_self 0 _ g _
  next hg => exact Fam.get_set_ne 0 _ hg _

end Accesses

/-- Settles O30: an access is a chain of tests, of the bus, the offset and the register's reach, and then its block's own write or read. -/
theorem registerAccessesFollowTheRegister : Obligations.RegisterAccessesFollowTheRegister := by
  refine ⟨fun fn off v be s h => exec_registerWrite_ignored v h, ?writes, ?reads,
    fun fn off s h hi => exec_counterLoRead_ignored h hi, ?times⟩
  case writes =>
    rintro fn off k v s ⟨h, ha, hk, hw⟩
    rw [exec_registerWrite_reaches v h ha hk hw]
    refine ⟨?_, fun m hm => ?_, fun hro => congrArg _ (wrBlk_readOnly k v s fn.val hro)⟩
    · rintro st o rfl ho hm
      rw [wrBlk_slotSet v s fn.val st.isLt ho hm]
      exact ⟨_, rfl, rfl, regsSameBut_wr _ _ s, rd_wrMask_same _ _ v s⟩
    · rw [wrBlk_event k m v s fn.val hm]
      exact ⟨_, rfl, rfl, regsSameBut_wr k _ s, rd_wrClear_same k m v s⟩
  case reads =>
    intro fn off k s h ha hk hr
    rw [exec_counterLoRead_reaches h ha hk hr]
    refine ⟨fun hc => ?_, fun hc hne => congrArg _ (readReg_plain fn.val hc hne), ?_, ?_, ?_, ?_, ?_, ?_⟩
    · rw [readReg_counter fn.val hc]
      exact ⟨_, rfl, readCounter_latches k s⟩
    · rintro rfl; rfl
    · rintro rfl; rfl
    · rintro rfl; rfl
    · rintro rfl; exact (exec_timeNowLoRead h).symm
    · rintro rfl; exact (exec_timeTickLoRead h).symm
    · rintro rfl; exact congrArg _ (readReg_di fn.val)
  case times =>
    intro fn s h
    rw [exec_timeNowLoRead h, exec_timeTickLoRead h]
    refine ⟨fun hr => ?_, fun hg hf hx => ?_, fun hr => congrArg _ (nowLoRead_of_no_reach fn.val hr),
      fun hn => congrArg _ (tickLoRead_of_no_reach fn.val hn)⟩
    · exact ⟨_, rfl, by rw [nowLoRead_of_reach fn.val hr], fun g => nowLatch_nowLoRead g hr⟩
    · rw [hf, tickLoRead_of_reach hg hx]
      exact ⟨_, rfl, rfl, Fam.get_set_self 0 _ 0 _⟩

end Sys2Proof.Proofs
end

section
/-! Units without a clock (00_scope.md, R9): the rows that name a register of their own. -/

namespace Sys2Proof.Proofs

open Sys2Proof Sys2Proof.Machine

section NamedRegisters

variable {fn st n p q : Nat} {s : State}

theorem timeReach_of_off (fn : Nat) (h : gateEn 5 s = false) : timeReach fn s = false := by simp [timeReach, h]

theorem timeCommitBody_of_off (fn : Nat) (v : Word) (h : gateEn 5 s = false) : timeCommitBody fn v s = s := by
  simp [timeCommitBody, h]

theorem snapBody_of_off (fn : Nat) (v : Word) (h : gateEn 6 s = false) : snapBody fn v s = s := by simp [snapBody, h]

theorem ldsReach_of_off (fn st : Nat) (h : gateEn 6 s = false) : ldsReach fn st s = false := by simp [ldsReach, h]

theorem fesReach_of_off (fn : Nat) (h : rdB kCLK_EN1 (st / 4) s = false) : fesReach fn st s = false := by
  simp [fesReach, h]

theorem fesCommit_of_no_reach (v : Word) (h : fesReach fn st s = false) : fesCommit fn st v s = s := by simp [fesCommit, h]

theorem tblStart_of_no_reach (v : Word) (h : fesReach fn st s = false) : tblStart fn st v s = s := by simp [tblStart, h]

/-- A lane without a clock has no port that a write of CHK_PORT_CTL governs. -/
theorem portCtlOf_of_off (fn : Nat) (h : rdB kCLK_EN1 (20 + n / 8) s = false) : portCtlOf fn n s = none := by
  unfold portCtlOf
  split <;> simp [h]

theorem portCtl_of_off (fn : Nat) (v : Word) (h : rdB kCLK_EN1 (20 + n / 8) s = false) : portCtl fn n v s = s := by
  simp [portCtl, portCtlOf_of_off fn h]

theorem lqReach_of_off (fn q : Nat) (h : rdB kCLK_EN2 (1 + p) s = false) : lqReach fn p q s = false := by
  simp [lqReach, h]

theorem tailBody_of_no_reach (v : Word) (h : lqReach fn p q s = false) : tailBody fn p q v s = s := by simp [tailBody, h]

theorem ctlBody_of_no_reach (v : Word) (h : lqReach fn p q s = false) : ctlBody fn p q v s = s := by simp [ctlBody, h]

end NamedRegisters

/-- Settles O56: every access tests its unit's enable bit before it does anything. -/
theorem disabledUnitsReadZeroAndIgnoreWrites : Obligations.DisabledUnitsReadZeroAndIgnoreWrites := by
  intro fn v s h
  refine ⟨?registers, ?time, ?motion, ?frontEnds, ?lanes, ?queues⟩
  case registers =>
    intro off k be hk hoff
    exact ⟨exec_registerWrite_ignored v (.inr (.inr (.inr (.inr ⟨k, hk, writeReach_of_off fn.val hoff⟩)))),
      exec_counterLoRead_ignored h (.inr (.inr ⟨k, hk, readReach_of_off fn.val hoff⟩))⟩
  case time =>
    intro hoff
    exact ⟨(exec_timeNowLoRead h).trans (congrArg _ (nowLoRead_of_no_reach fn.val (timeReach_of_off fn.val hoff))),
      (exec_timeTickLoRead h).trans (congrArg _ (tickLoRead_of_no_reach fn.val (.inl hoff))),
      next_viaHost_of_unchanged fun _ => timeCommitBody_of_off fn.val v hoff⟩
  case motion =>
    intro hoff
    exact ⟨next_viaHost_of_unchanged fun _ => snapBody_of_off fn.val v hoff,
      fun i => next_viaHost_of_unchanged fun _ => by simp [hoff],
      fun j => next_viaHost_of_unchanged fun _ => by simp [hoff],
      fun st => next_viaHost_of_unchanged fun _ => by simp [ldsReach_of_off fn.val st.val hoff]⟩
  case frontEnds =>
    intro st hoff
    have hr := fesReach_of_off fn.val hoff
    exact ⟨next_viaHost_of_unchanged fun _ => fesCommit_of_no_reach v hr,
      next_viaHost_of_unchanged fun _ => fesCommit_of_no_reach (v ||| 2) hr,
      next_viaHost_of_unchanged fun _ => tblStart_of_no_reach v hr⟩
  case lanes =>
    intro n hoff
    exact ⟨next_viaHost_of_unchanged fun _ => portCtl_of_off fn.val (v ||| 1) hoff,
      next_viaHost_of_unchanged fun _ => portCtl_of_off fn.val (v ||| 2) hoff⟩
  case queues =>
    intro p q hoff
    have hr := lqReach_of_off fn.val q.val hoff
    exact ⟨next_viaHost_of_unchanged fun _ => tailBody_of_no_reach v hr,
      next_viaHost_of_unchanged fun _ => ctlBody_of_no_reach v hr⟩

end Sys2Proof.Proofs
end

section
/-! Every step keeps both memories in canonical form (01_module_architecture.md, R15; 17_host_interface.md,
  R401): the operations that every unit uses, time, ports. -/

namespace Sys2Proof.Proofs

open Sys2Proof Sys2Proof.Machine Sys2Proof.Laws

/-- The state function leaves canonical memories canonical. One lemma `keeps_f` follows for each function `f` of the model that gives a
state; a function that gives a pair is stated by its state component. -/
def Keeps (f : State → State) : Prop := ∀ ⦃s⦄, memoriesCanonical s → memoriesCanonical (f s)

theorem keeps_id : Keeps id := fun _ h => h

theorem canon_ite {p : Prop} [Decidable p] {a b : State} (ha : memoriesCanonical a) (hb : memoriesCanonical b) :
    memoriesCanonical (if p then a else b) := by split <;> assumption

theorem canon_ite_snd {α : Type} {p : Prop} [Decidable p] {a b : α × State} (ha : memoriesCanonical a.2) (hb : memoriesCanonical b.2) :
    memoriesCanonical (if p then a else b).2 := by split <;> assumption

theorem canon_ite_fourth {α β γ : Type} {p : Prop} [Decidable p] {a b : α × β × γ × State} (ha : memoriesCanonical a.2.2.2)
    (hb : memoriesCanonical b.2.2.2) : memoriesCanonical (if p then a else b).2.2.2 := by split <;> assumption

theorem keeps_run_ite {p : Prop} [Decidable p] {a b : Plan} (ha : Keeps a.run) (hb : Keeps b.run) :
    Keeps (if p then a else b).run := by split <;> assumption

theorem keeps_eachDo {α : Type} {f : α → State → State} {l : List α} {s : State} (hf : ∀ x, Keeps (f x))
    (h : memoriesCanonical s) : memoriesCanonical (eachDo f l s) := by
  induction l generalizing s with
  | nil => exact h
  | cons x l ih => exact ih (hf x h)

theorem canon_foldl {α β : Type} {f : β × State → α → β × State} {l : List α} {a : β × State}
    (hf : ∀ a x, memoriesCanonical a.2 → memoriesCanonical (f a x).2) (h : memoriesCanonical a.2) :
    memoriesCanonical (l.foldl f a).2 := by
  induction l generalizing a with
  | nil => exact h
  | cons x l ih => exact ih (hf a x h)

theorem canon_of_pair {α : Type} {x : α × State} {a : α} {t : State} (e : x = (a, t)) (h : memoriesCanonical x.2) :
    memoriesCanonical t := by subst e; exact h

/-- A record update of any fields but the two memories. All fields stand as arguments so that the unifier finds `s` in the update of a
computed state without evaluating that state. -/
theorem canon_with {s : State} {pending regs force cnt poison time flash fuses boot img rings svc faults accRaised out readData fresh parts
    models binds strms jobs cores ports banks eccHour srcs emus ents dos reqs cmprs mirrors fio lqs wire ethWait ptp cports drains sbonds
    fes cds decTurn loads cages spans gops clk pwr} (h : memoriesCanonical s) :
    memoriesCanonical (State.mk pending regs force cnt s.mem s.host poison time flash fuses boot img rings svc faults accRaised out
      readData fresh parts models binds strms jobs cores ports banks eccHour srcs emus ents dos reqs cmprs mirrors fio lqs wire ethWait
      ptp cports drains sbonds fes cds decTurn loads cages spans gops clk pwr) := ⟨h.1, h.2⟩

/-! ### Named operations -/

theorem keeps_wr {k v} : Keeps (wr k v) := fun _ h => ⟨h.1, h.2⟩

theorem keeps_wrF {k hi lo v} : Keeps (wrF k hi lo v) := fun _ h => keeps_wr h

theorem keeps_wrB {k i b} : Keeps (wrB k i b) := fun _ h => keeps_wr h

theorem keeps_inc {k n} : Keeps (inc k n) := fun _ h => keeps_wr h

theorem keeps_takeShadow {k} : Keeps (takeShadow k) := fun _ h => ⟨h.1, h.2⟩

theorem keeps_cntAdd {k n} : Keeps (cntAdd k n) := fun _ h => ⟨h.1, h.2⟩

theorem keeps_regsReset {lo hi} : Keeps (regsReset lo hi) := fun _ h => ⟨h.1, h.2⟩

theorem keeps_draw {n} : Keeps (draw n) := fun _ h => ⟨h.1, h.2⟩

theorem keeps_updRing {fn f} : Keeps (updRing fn f) := fun _ h => ⟨h.1, h.2⟩

theorem keeps_fireInt {fn k} : Keeps (fireInt fn k) := fun _ h => canon_ite ⟨h.1, h.2⟩ h

theorem keeps_viaHost {fn f} {s : State} (hf : Keeps f) (h : memoriesCanonical s) : memoriesCanonical (viaHost fn f s) := canon_ite (hf h) h

theorem keeps_viaHostRead {fn f} {s : State} (hf : Keeps f) (h : memoriesCanonical s) : memoriesCanonical (viaHostRead fn f s) :=
  canon_ite (hf h) ⟨h.1, h.2⟩

theorem keeps_putCpl {fn bs} : Keeps (putCpl fn bs) := fun _ h => keeps_wrB (keeps_inc ⟨h.1, write_wf _ _ h.2⟩)

theorem keeps_showHeld {fn} : Keeps (showHeld fn) := fun _ h => keeps_wrF h

theorem keeps_pumpEvents {fn : Nat} : ∀ {n}, Keeps (pumpEvents fn n)
  | 0, _, h => h
  | n + 1, s, h => by
    dsimp only [pumpEvents]
    split
    · exact h
    · exact canon_ite (keeps_pumpEvents (keeps_fireInt (keeps_showHeld (keeps_updRing (keeps_putCpl h))))) h

theorem keeps_raiseTo {fn e} : Keeps (raiseTo fn e) := fun _ h =>
  canon_ite (keeps_pumpEvents (keeps_showHeld (keeps_updRing h))) (keeps_inc (keeps_wrB h))

theorem keeps_showFaults : Keeps showFaults := fun _ h => keeps_wrF (keeps_wrB (keeps_wr h))

theorem keeps_logFault {code unit a2 arg} : Keeps (logFault code unit a2 arg) := fun _ h => keeps_inc (keeps_wr (keeps_wr (keeps_wr (keeps_wr h))))

theorem keeps_relogFault {code unit a2} : Keeps (relogFault code unit a2) := fun s h => by
  unfold relogFault
  split
  · exact keeps_wr (keeps_wr h)
  · exact h

theorem keeps_raiseFault {code unit a2 arg fns} : Keeps (raiseFault code unit a2 arg fns) := fun _ h =>
  canon_ite (keeps_relogFault (keeps_inc h)) (keeps_showFaults
    (keeps_eachDo (fun _ => keeps_raiseTo) (keeps_wrB (keeps_logFault (canon_ite h ⟨h.1, h.2⟩)))))

theorem keeps_refuseAccess {master unit t a write} : Keeps (refuseAccess master unit t a write) := fun s h => by
  unfold refuseAccess
  refine canon_ite (keeps_inc h) ?_
  extract_lets +onlyGivenNames s1
  have h1 : memoriesCanonical s1 := canon_with (keeps_inc h)
  exact keeps_raiseFault (canon_ite h1 (keeps_wrB (keeps_wr (keeps_wr (keeps_wr h1)))))

theorem keeps_spoil {a} : Keeps (spoil a) := fun _ h => ⟨h.1, h.2⟩

theorem keeps_reportUnc {a} : Keeps (reportUnc a) := fun s h => by
  dsimp only [reportUnc]
  refine canon_ite ?_ ?_
  · split <;> exact keeps_raiseFault (keeps_wr (keeps_inc (keeps_wrB h)))
  · refine canon_ite ?_ ?_
    · split <;> exact keeps_raiseFault (keeps_wr (keeps_inc (keeps_wrB h)))
    · refine canon_ite ?_ (keeps_raiseFault h)
      split <;> exact keeps_raiseFault (keeps_wr (keeps_wr (keeps_inc (keeps_wrB h))))

theorem keeps_memWrite {a bs} : Keeps (memWrite a bs) := fun _ h => ⟨write_wf a bs h.1, h.2⟩

theorem foldl_write_wf {ws : List (Nat × List Byte)} {m : Memory} (h : m.wf = true) :
    Memory.wf (ws.foldl (fun m x => Memory.write m x.1 x.2) m) = true := by
  induction ws generalizing m with
  | nil => exact h
  | cons w ws ih => exact ih (write_wf w.1 w.2 h)

theorem keeps_memStore {ws} : Keeps (memStore ws) := fun _ h =>
  have ⟨hmem, hhost⟩ := keeps_eachDo (fun _ => keeps_reportUnc) (l := partWords ws _) h
  ⟨foldl_write_wf hmem, hhost⟩

theorem keeps_memClear {a len} : Keeps (memClear a len) := fun _ h => ⟨clear_wf a len h.1, h.2⟩

theorem keeps_showWiping : Keeps showWiping := fun _ h => keeps_eachDo (fun _ => keeps_wr) (keeps_eachDo (fun _ => keeps_wrF) h)

theorem keeps_wipeSram {d} : Keeps (wipeSram d) := fun _ h => keeps_showWiping ⟨filter_wf _ h.1, h.2⟩

theorem keeps_awaitWipe {a} : Keeps (awaitWipe a) := fun s h => by
  unfold awaitWipe
  split
  · exact canon_ite (keeps_wipeSram h) h
  · exact h

theorem keeps_readPieces {master unit t : Nat} : ∀ {ls}, Keeps fun s => (readPieces master unit t ls s).2.2.2
  | [], _, h => h
  | (a, n) :: r, s, h => by
    dsimp only [readPieces]
    split
    · exact keeps_readPieces (keeps_eachDo (fun _ => keeps_reportUnc) (keeps_awaitWipe h))
    · exact keeps_readPieces (keeps_refuseAccess h)

theorem keeps_devRead {master unit t a len} : Keeps fun s => (devRead master unit t a len s).2.2.2 := fun _ h => keeps_readPieces h

theorem keeps_awaitRange {a len} : Keeps (awaitRange a len) := fun _ h => keeps_eachDo (fun _ => keeps_awaitWipe) h

theorem keeps_writePieces {master unit t : Nat} : ∀ {ls bs}, Keeps fun s => (writePieces master unit t ls bs s).2.2
  | [], _, _, h => h
  | (a, n) :: r, _, s, h => by
    dsimp only [writePieces]
    split
    · exact keeps_writePieces (keeps_memStore (keeps_awaitWipe h))
    · exact keeps_writePieces (keeps_refuseAccess h)

theorem keeps_devWrite {master unit t a bs} : Keeps fun s => (devWrite master unit t a bs s).2.2 := fun _ h => keeps_writePieces h

theorem keeps_updPart {p f} : Keeps (updPart p f) := fun _ h => ⟨h.1, h.2⟩

theorem keeps_updStrm {st f} : Keeps (updStrm st f) := fun _ h => ⟨h.1, h.2⟩

theorem keeps_updCore {n f} : Keeps (updCore n f) := fun _ h => ⟨h.1, h.2⟩

theorem keeps_emit {o} : Keeps (emit o) := fun _ h => ⟨h.1, h.2⟩

/-! ### The time unit -/

theorem keeps_timeEvt {bit} : Keeps (timeEvt bit) := fun _ h => keeps_eachDo (fun _ => keeps_fireInt) (keeps_wrB h)

theorem keeps_showErr : Keeps showErr := fun _ h => canon_ite (keeps_wr h) (keeps_wr h)

theorem keeps_setQual {q ppb} : Keeps (setQual q ppb) := fun _ h =>
  canon_ite (keeps_showErr h) (keeps_timeEvt (keeps_showErr (keeps_wrF (canon_with (canon_ite (keeps_draw h) h)))))

theorem keeps_timeCommit : Keeps timeCommit := fun _ h =>
  canon_ite (keeps_wr (keeps_wr (keeps_takeShadow ⟨h.1, h.2⟩)))
    (keeps_raiseFault (keeps_inc (keeps_timeEvt (keeps_wr (keeps_wr (keeps_takeShadow ⟨h.1, h.2⟩))))))

theorem keeps_timeCommitBody {fn v} : Keeps (timeCommitBody fn v) := fun _ h => canon_ite (keeps_timeCommit h) h

theorem keeps_nowLoRead {fn} : Keeps (nowLoRead fn) := fun _ h => canon_ite ⟨h.1, h.2⟩ ⟨h.1, h.2⟩

theorem keeps_tickLoRead {fn} : Keeps (tickLoRead fn) := fun _ h => canon_ite ⟨h.1, h.2⟩ ⟨h.1, h.2⟩

theorem keeps_servo {a0 offset delay} : Keeps (servo a0 offset delay) := fun s h => by
  dsimp only [servo]
  refine canon_ite ?_ (canon_ite (canon_ite (keeps_setQual ?_) (keeps_showErr ?_))
    (canon_ite (keeps_setQual (canon_with ?_)) (keeps_setQual ?_))) <;>
  exact keeps_timeCommit (keeps_wr (keeps_wr (keeps_wr (keeps_draw (keeps_wr ⟨h.1, h.2⟩)))))

theorem keeps_setPtpState {a0 st} : Keeps (setPtpState a0 st) := fun s h => by
  unfold setPtpState
  refine canon_ite h ?_
  extract_lets +onlyGivenNames s0
  have h0 : memoriesCanonical s0 := keeps_wrB (keeps_wrF h)
  exact keeps_wrF (canon_ite ⟨h0.1, h0.2⟩ (canon_ite ⟨h0.1, h0.2⟩ h0))

/-! ### The Ethernet ports -/

theorem keeps_takeWire {p n} : Keeps (takeWire p n) := fun _ h => ⟨h.1, h.2⟩

theorem keeps_sendFrame {p f} : Keeps (sendFrame p f) := fun _ h => keeps_inc (keeps_takeWire (keeps_emit h))

theorem keeps_showLq {p q} : Keeps (showLq p q) := fun _ h => keeps_wr h

theorem keeps_setLq {p q a2} : Keeps (setLq p q a2) := fun _ h => keeps_showLq ⟨h.1, h.2⟩

theorem keeps_lqFinish {p q i status sent} : Keeps (lqFinish p q i status sent) := fun _ h => keeps_inc (keeps_devWrite (keeps_devWrite h))

theorem keeps_lqDrop {p q status cnt} : Keeps (lqDrop p q status cnt) := fun s h => by
  dsimp only [lqDrop]
  split
  · exact h
  · split
    · exact keeps_lqFinish (keeps_setLq (canon_ite h (keeps_inc h)))
    · exact keeps_setLq (canon_ite h (keeps_inc h))

theorem keeps_lqReadOne {p q} : Keeps (lqReadOne p q) := by
  delta lqReadOne
  refine id fun s h => ?_
  beta_reduce
  extract_lets x i t
  have hread : memoriesCanonical (devRead mLaunch p t (lqDesc p q i s) 32 s).2.2.2 := keeps_devRead h
  split
  next heq =>
    rw [heq] at hread
    exact keeps_setLq hread

theorem keeps_lqFill {p q : Nat} : ∀ {k}, Keeps (lqFill p q k)
  | 0, _, h => h
  | _ + 1, _, h => canon_ite (keeps_lqFill (keeps_lqDrop h)) (canon_ite (keeps_lqFill (keeps_lqReadOne h)) h)

theorem keeps_lqHand {p q launch payload} : Keeps fun s => (lqHand p q launch payload s).2 := fun _ h =>
  canon_ite_snd h (canon_ite_snd (keeps_inc h) (keeps_setLq h))

theorem keeps_lqSent {p q f launch desc} : Keeps (lqSent p q f launch desc) := fun s h => by
  unfold lqSent
  extract_lets +onlyGivenNames late now b s0 _ s2 x _ s4
  have h0 : memoriesCanonical s0 := keeps_sendFrame h
  have h2 : memoriesCanonical s2 := by
    unfold s2
    split
    · exact keeps_cntAdd (keeps_inc (canon_ite (keeps_inc h0) h0))
    · exact keeps_inc (canon_ite (keeps_inc h0) h0)
  have h4 : memoriesCanonical s4 := by
    unfold s4
    split
    · exact keeps_lqFinish (keeps_setLq h2)
    · exact keeps_setLq h2
  exact keeps_lqFill h4

theorem keeps_launchBody {p q} : Keeps (launchBody p q) := fun s h => by
  unfold launchBody
  extract_lets +onlyGivenNames s0
  have h0 : memoriesCanonical s0 := keeps_lqFill h
  split
  · exact h0
  · refine canon_ite (keeps_showLq h0) ?_
    refine canon_ite (keeps_lqFill (keeps_lqDrop h0)) ?_
    split
    · exact keeps_lqSent h0
    · refine canon_ite h0 ?_
      dsimp only
      exact canon_ite (keeps_lqFill (keeps_lqDrop (keeps_devRead h0))) (keeps_lqSent (keeps_devRead h0))

theorem keeps_lateDropBody {p q} : Keeps (lateDropBody p q) := fun s h => by
  unfold lateDropBody
  split
  · exact h
  · exact canon_ite (keeps_lqFill (keeps_lqDrop h)) h

theorem keeps_lqDiscard {p q : Nat} : ∀ {k}, Keeps (lqDiscard p q k)
  | 0, _, h => h
  | _ + 1, _, h => canon_ite h (keeps_lqDiscard (keeps_lqDrop h))

theorem keeps_tailBody {fn p q v} : Keeps (tailBody fn p q v) := fun _ h => canon_ite h (keeps_lqFill (keeps_wr h))

theorem keeps_ctlBody {fn p q v} : Keeps (ctlBody fn p q v) := fun s h => by
  unfold ctlBody
  refine canon_ite h ?_
  extract_lets +onlyGivenNames b en _ s1
  have h1 : memoriesCanonical s1 := canon_ite (canon_ite (keeps_lqDiscard h) h) (keeps_wrB (canon_ite (keeps_lqDiscard h) h))
  exact keeps_lqFill (canon_ite (keeps_setLq (keeps_wrB (canon_ite (keeps_wrF h1) h1))) (keeps_wrB (canon_ite (keeps_wrF h1) h1)))

theorem keeps_sendPtp {p c} : Keeps (sendPtp p c) := fun _ h => keeps_inc (keeps_inc (canon_with (keeps_takeWire (keeps_emit h))))

theorem keeps_sendTx {p a1} : Keeps (sendTx p a1) := fun s h => by
  unfold sendTx
  split
  · exact keeps_sendFrame h
  · exact keeps_sendPtp h

theorem keeps_netSend {p a1} : Keeps (netSend p a1) := fun _ h => canon_ite (keeps_sendTx h) ⟨h.1, h.2⟩

theorem keeps_netFlush {p} : Keeps (netFlush p) := fun s h => by
  unfold netFlush
  split
  · exact canon_ite (keeps_sendTx ⟨h.1, h.2⟩) h
  · exact h

theorem keeps_slaveGone {p} : Keeps (slaveGone p) := fun _ h => canon_ite (keeps_setQual h) h

theorem keeps_ptpMsgBody {p m} : Keeps (ptpMsgBody p m) := fun s h => by
  unfold ptpMsgBody
  refine canon_ite h ?_
  extract_lets +onlyGivenNames s0
  have h0 : memoriesCanonical s0 := keeps_inc (keeps_inc h)
  refine canon_ite h0 ?_
  extract_lets +onlyGivenNames st _ s1 s2 s3
  have h1 : memoriesCanonical s1 := canon_ite (keeps_slaveGone (keeps_setPtpState h0)) h0
  have h2 : memoriesCanonical s2 := canon_ite (keeps_setQual h1) h1
  have h3 : memoriesCanonical s3 := by
    unfold s3
    split
    · exact canon_ite (keeps_servo h2) h2
    · exact h2
  exact canon_ite (keeps_netSend h3) (canon_ite (canon_ite (keeps_netSend (keeps_netSend h3)) (keeps_netSend h3)) h3)

theorem keeps_ptpTxBody {p k} : Keeps (ptpTxBody p k) := fun _ h => canon_ite (keeps_netSend h) h

theorem keeps_ptpLostBody {p} : Keeps (ptpLostBody p) := fun _ h =>
  canon_ite h (keeps_raiseFault (keeps_timeEvt (canon_ite (keeps_setQual (keeps_setPtpState h)) (keeps_setPtpState h))))

theorem keeps_arpBody {p mac ip tgt} : Keeps (arpBody p mac ip tgt) := fun _ h =>
  canon_ite h (canon_ite (keeps_inc h) (keeps_netSend (keeps_inc h)))

theorem keeps_frameDropBody {p badFcs} : Keeps (frameDropBody p badFcs) := fun _ h =>
  canon_ite h (canon_ite (keeps_inc (keeps_wrB h)) (keeps_inc h))

theorem keeps_linkDownBody {p} : Keeps (linkDownBody p) := fun _ h => canon_ite h (keeps_raiseFault (keeps_wrB (keeps_wrF ⟨h.1, h.2⟩)))

theorem keeps_linkUpBody {p} : Keeps (linkUpBody p) := fun _ h => canon_ite (keeps_wrF h) h

end Sys2Proof.Proofs
end

section
/-! The front ends, the codec and the motion unit keep the memories canonical. -/

namespace Sys2Proof.Proofs

open Sys2Proof Sys2Proof.Machine Sys2Proof.Laws

/-! ### The strip codec -/

theorem keeps_setCdsState {n v} : Keeps (setCdsState n v) := fun _ h => keeps_wrF h

theorem keeps_updCds {n f} : Keeps (updCds n f) := fun _ h => ⟨h.1, h.2⟩

theorem keeps_addLoad {u n} : Keeps (addLoad u n) := fun _ h => ⟨h.1, h.2⟩

theorem keeps_showCodec : Keeps showCodec := fun _ h => keeps_wr h

theorem keeps_showFeLoad {f} : Keeps (showFeLoad f) := fun _ h => keeps_wr h

theorem keeps_ageLoads : Keeps ageLoads := fun s h => by
  unfold ageLoads
  extract_lets +onlyGivenNames held s' s'1
  have h1 : memoriesCanonical s'1 :=
    keeps_eachDo (fun _ _ h => canon_ite (keeps_showFeLoad h) h) (keeps_eachDo (fun _ _ h => canon_ite (keeps_addLoad h) h) h)
  exact canon_ite (keeps_showCodec h1) h1

theorem keeps_codecLoad {n u samples} : Keeps (codecLoad n u samples) := fun s h => by
  unfold codecLoad
  extract_lets +onlyGivenNames s0
  have h0 : memoriesCanonical s0 := by
    unfold s0
    split
    · exact keeps_updPart h
    · exact h
  exact keeps_showCodec (keeps_addLoad h0)

theorem keeps_recEnd {n} : Keeps (recEnd n) := fun _ h => keeps_setCdsState (keeps_updCds h)

theorem keeps_recPut {n a1 blocks q} : Keeps (recPut n a1 blocks q) := fun s h => by
  unfold recPut
  split
  · exact h
  · exact canon_ite (keeps_recEnd h) (canon_ite (keeps_recEnd (keeps_wr (keeps_wrF (keeps_updCds (keeps_devWrite h)))))
      (keeps_wr (keeps_wrF (keeps_updCds (keeps_devWrite h)))))

theorem keeps_recLine {n slot count time kind ovr frameStart planes} : Keeps (recLine n slot count time kind ovr frameStart planes) := fun _ h =>
  canon_ite (keeps_recPut h) (canon_ite (keeps_recPut (keeps_inc h)) (keeps_recPut (keeps_codecLoad h)))

theorem keeps_tapLine {tap st fl k slot count time kind ovr planes} : Keeps (tapLine tap st fl k slot count time kind ovr planes) := fun _ h =>
  keeps_eachDo (fun _ _ h => canon_ite h (canon_ite (keeps_recEnd (keeps_recLine h)) (keeps_recLine h))) h

theorem keeps_recStreamStop {st} : Keeps (recStreamStop st) := fun _ h => keeps_eachDo (by
    intro _ s h
    beta_reduce
    extract_lets +onlyGivenNames c s1
    have h1 : memoriesCanonical s1 := by
      unfold s1
      split
      · exact keeps_updCds (keeps_devWrite h)
      · exact h
    exact keeps_recEnd h1) h

/-! ### The motion unit -/

theorem keeps_updSrc {i f} : Keeps (updSrc i f) := fun _ h => ⟨h.1, h.2⟩

theorem keeps_setEmu {m e} : Keeps (setEmu m e) := fun _ h => keeps_wrF (keeps_wr ⟨h.1, h.2⟩)

theorem keeps_emuMove {m i dp} : Keeps (emuMove m i dp) := fun s h => by
  dsimp only [emuMove]
  refine canon_ite h ?_
  refine canon_ite (keeps_setEmu h) ?_
  split <;> exact keeps_raiseFault (keeps_inc (keeps_wrB (keeps_setEmu h)))

theorem keeps_emuPins {m fwd} : Keeps (emuPins m fwd) := fun _ h => canon_ite ⟨h.1, h.2⟩ (canon_ite (keeps_emit ⟨h.1, h.2⟩) ⟨h.1, h.2⟩)

theorem keeps_emuEdgeOut {m fwd pos decided} : Keeps (emuEdgeOut m fwd pos decided) := fun _ h =>
  canon_ite (keeps_setEmu (keeps_wr (keeps_wr (keeps_wr (keeps_wr (keeps_wr (keeps_wrB h))))))) (keeps_setEmu (keeps_wrB h))

theorem keeps_emuEdgeBody {m} : Keeps (emuEdgeBody m) := fun s h => by
  dsimp only [emuEdgeBody]
  split
  · exact h
  · exact keeps_emuEdgeOut (keeps_emuPins (keeps_setEmu h))

theorem keeps_emuResync {m} : Keeps (emuResync m) := fun _ h => keeps_setEmu h

theorem keeps_passBody {m pins} : Keeps (passBody m pins) := fun s h => by
  dsimp only [passBody]
  refine canon_ite h ?_
  split
  · exact keeps_setEmu h
  · exact keeps_emuEdgeOut (keeps_setEmu h)

theorem keeps_windowEnd {i} : Keeps (windowEnd i) := fun _ h => keeps_wr (canon_ite (keeps_wr (keeps_updSrc h)) (keeps_updSrc h))

theorem keeps_snapGo : Keeps snapGo := fun _ h => keeps_eachDo (fun _ _ h => keeps_wr (keeps_wr h)) (keeps_wr (keeps_wr h))

theorem keeps_snapBody {fn v} : Keeps (snapBody fn v) := fun _ h => canon_ite (keeps_snapGo h) h

theorem keeps_zEdge {i} : Keeps (zEdge i) := fun _ h => canon_ite h (keeps_wrB (keeps_wrB (keeps_inc (keeps_wr h))))

theorem keeps_ssiStart {j} : Keeps (ssiStart j) := fun _ h => canon_ite (keeps_wrB h) h

theorem keeps_ssiWord {j raw} : Keeps (ssiWord j raw) := fun _ h => keeps_wrB (keeps_wr (keeps_inc (keeps_wrB (keeps_wr (keeps_updSrc h)))))

/-! ### The image front ends -/

theorem keeps_updFe {st f} : Keeps (updFe st f) := fun _ h => ⟨h.1, h.2⟩

theorem keeps_feStat {st b v} : Keeps (feStat st b v) := fun _ h => keeps_wrB h

theorem keeps_streamInt {st} : Keeps (streamInt st) := fun s h => by
  unfold streamInt
  split
  · exact keeps_fireInt (keeps_fireInt h)
  · exact h

theorem keeps_feEvt {st b} : Keeps (feEvt st b) := fun _ h => keeps_streamInt (keeps_wrB h)

theorem keeps_showOuts {st} : Keeps (showOuts st) := fun _ h => keeps_eachDo (by
    intro _ s h
    dsimp only
    split
    · exact keeps_wr (keeps_wr h)
    · exact h) h

theorem keeps_showStride {st n} : Keeps (showStride st n) := fun _ h => keeps_wr h

theorem keeps_openOuts {st k} : Keeps (openOuts st k) := fun _ h =>
  keeps_showOuts (keeps_eachDo (fun _ _ h => canon_ite (keeps_showStride (keeps_updFe h)) (canon_ite (keeps_showStride h) h)) h)

theorem keeps_wipeTables {d} : Keeps (wipeTables d) := fun _ h => keeps_eachDo (fun _ _ h => keeps_feStat (keeps_wrF (keeps_updFe h))) ⟨h.1, h.2⟩

theorem keeps_awaitTables {st} : Keeps (awaitTables st) := fun _ h => canon_ite (keeps_wipeTables h) h

theorem keeps_swapTable {st} : Keeps (swapTable st) := fun _ h =>
  canon_ite (keeps_feEvt (keeps_feStat (keeps_feStat (keeps_wrB (keeps_updFe (keeps_awaitTables h)))))) (keeps_awaitTables h)

theorem keeps_updPort {st f} : Keeps (updPort st f) := fun _ h => ⟨h.1, h.2⟩

theorem keeps_settleBucket {st} : Keeps (settleBucket st) := fun _ h => keeps_updPort h

theorem keeps_fillBucket {st} : Keeps (fillBucket st) := fun _ h => keeps_updPort h

theorem keeps_takePort {st} : Keeps (takePort st) := fun _ h => keeps_eachDo (fun _ _ h => keeps_takeShadow h) (keeps_settleBucket h)

theorem keeps_startFrame {st fi slot count} : Keeps (startFrame st fi slot count) := fun _ h =>
  keeps_openOuts (keeps_updFe (keeps_wr (keeps_updFe (keeps_takePort
    (keeps_swapTable (canon_ite h (canon_ite (keeps_feEvt (keeps_feStat h)) (keeps_eachDo (fun _ => keeps_takeShadow) (keeps_feStat h)))))))))

theorem keeps_updRec {st fi f} : Keeps (updRec st fi f) := fun _ h => keeps_updFe h

theorem keeps_measure {st k a2 rows} : Keeps (Machine.measure st k a2 rows) := fun _ h => keeps_updRec h

theorem keeps_measureSat {st k a2 a3} : Keeps (measureSat st k a2 a3) := fun _ h => keeps_updRec h

theorem keeps_slotPassed {st k} : Keeps (slotPassed st k) := fun _ h => keeps_updFe (keeps_updRec h)

theorem keeps_statBody {st} : Keeps (statBody st) := fun s h => by
  dsimp only [statBody]
  split
  · exact h
  · exact canon_ite (keeps_feEvt (keeps_inc (keeps_updFe h))) (keeps_inc (keeps_devWrite (keeps_updFe h)))

theorem keeps_stage2 {st a1 a2} : Keeps fun s => (stage2 st a1 a2 s).2 := fun s h => by
  dsimp only [stage2]
  split
  · exact canon_ite_snd h (keeps_inc h)
  · exact h

theorem keeps_stage34 {st c} : Keeps (stage34 st c) := fun s h => by
  unfold stage34
  extract_lets +onlyGivenNames f x r w d v sat _ s1 pt s2
  have h1 : memoriesCanonical s1 := keeps_tapLine (keeps_updFe h)
  have h2 : memoriesCanonical s2 := canon_ite (keeps_measureSat (canon_ite (keeps_measure h1) h1)) h1
  exact canon_ite (keeps_slotPassed h2) h2

theorem keeps_run4 {st : Nat} {final : Bool} : ∀ {fuel}, Keeps (run4 st final fuel)
  | 0, _, h => h
  | fuel + 1, s, h => by
    dsimp only [run4]
    split
    · exact h
    · exact canon_ite (keeps_run4 (keeps_stage34 h)) h

theorem keeps_stage56 {st c} : Keeps (stage56 st c) := fun s h => by
  unfold stage56
  extract_lets +onlyGivenNames f w _ _ _ _ line l s0
  have h0 : memoriesCanonical s0 := keeps_updFe h
  exact canon_ite h0 (keeps_slotPassed (canon_ite h0 (keeps_measure h0)))

theorem keeps_run6 {st : Nat} {final : Bool} : ∀ {fuel}, Keeps (run6 st final fuel)
  | 0, _, h => h
  | fuel + 1, s, h => by
    dsimp only [run6]
    split
    · exact h
    · exact canon_ite (keeps_run6 (keeps_stage56 h)) h

theorem keeps_pruneFe {st} : Keeps (pruneFe st) := fun _ h => keeps_updFe h

theorem keeps_runPipe {st final} : Keeps (runPipe st final) := fun _ h => keeps_pruneFe (keeps_run6 (keeps_run4 h))

theorem keeps_pushSlot {st slot count time kind planes ovr resync replayTap} :
    Keeps (pushSlot st slot count time kind planes ovr resync replayTap) := fun s h => by
  unfold pushSlot
  extract_lets +onlyGivenNames k fl _ hit _ kind _ s3 f w cfg zero raw _ live _ _ s7
  have h3 : memoriesCanonical s3 :=
    keeps_updRec (keeps_inc (canon_ite (keeps_updFe (canon_ite (keeps_startFrame h) h)) (canon_ite (keeps_startFrame h) h)))
  have h7 : memoriesCanonical s7 :=
    keeps_showFeLoad (keeps_addLoad (canon_ite (keeps_tapLine (canon_ite (keeps_updFe h3) h3)) (canon_ite (keeps_updFe h3) h3)))
  refine canon_ite ?_ (keeps_runPipe (keeps_updFe (keeps_stage2 (canon_ite (keeps_measure h7) h7))))
  extract_lets +onlyGivenNames v x s9
  have h9 : memoriesCanonical s9 := keeps_updFe (canon_ite (keeps_measure h7) h7)
  exact keeps_runPipe (canon_ite (keeps_slotPassed (canon_ite (keeps_measure h9) h9)) (canon_ite (keeps_measure h9) h9))

theorem keeps_anchor {st} : Keeps (anchor st) := fun _ h => canon_ite h (keeps_draw (keeps_updFe h))

theorem keeps_fillMissing {st resync} : Keeps (fillMissing st resync) := fun s h => by
  dsimp only [fillMissing]
  split
  · exact keeps_pushSlot h
  · exact keeps_pushSlot (keeps_draw h)

theorem keeps_fillTo {st k : Nat} {resync : Bool} : ∀ {n}, Keeps (fillTo st k resync n)
  | 0, _, h => h
  | _ + 1, _, h => canon_ite (keeps_fillTo (keeps_fillMissing h)) h

theorem keeps_pairWith {st j resync good ovr planes} : Keeps (pairWith st j resync good ovr planes) := fun s h => by
  unfold pairWith
  split
  · exact keeps_pushSlot (keeps_feStat (keeps_wr (keeps_updFe (keeps_fillTo h))))
  · exact h

theorem keeps_lineIn {st line good ovr samples t0 pos} : Keeps (lineIn st line good ovr samples t0 pos) := fun s h => by
  unfold lineIn
  refine canon_ite h ?_
  extract_lets +onlyGivenNames planes s0
  have h0 : memoriesCanonical s0 := keeps_anchor h
  refine canon_ite (keeps_pushSlot (keeps_feStat (keeps_wr h0))) ?_
  refine canon_ite h0 ?_
  refine canon_ite (keeps_pairWith h0) ?_
  split
  · exact canon_ite (keeps_pairWith (keeps_updFe (canon_ite (keeps_feEvt (keeps_inc h0)) h0))) (keeps_feEvt (keeps_inc h0))
  · exact keeps_feEvt (keeps_inc h0)

theorem keeps_missingBody {st} : Keeps (missingBody st) := fun s h => by
  unfold missingBody
  refine canon_ite h ?_
  extract_lets +onlyGivenNames s0
  have h0 : memoriesCanonical s0 := keeps_anchor h
  refine canon_ite h0 ?_
  refine canon_ite h0 ?_
  split
  · exact canon_ite (keeps_fillMissing h0) h0
  · exact keeps_fillMissing h0

theorem keeps_frameBody {st} : Keeps (frameBody st) := fun s h => by
  unfold frameBody
  refine canon_ite h ?_
  extract_lets +onlyGivenNames s0
  have h0 : memoriesCanonical s0 := canon_ite h (keeps_anchor h)
  refine canon_ite h0 ?_
  extract_lets +onlyGivenNames j
  split
  · exact keeps_startFrame h0
  · exact keeps_startFrame (keeps_draw h0)

theorem keeps_closeObj {st a1 extra kEnd} : Keeps (closeObj st a1 extra kEnd) := fun _ h =>
  canon_ite (keeps_feEvt (keeps_inc (keeps_updFe h))) (keeps_inc (keeps_updFe h))

theorem keeps_gateRun {st margin deg re snap kEnd r acc} (h : memoriesCanonical acc.2) :
    memoriesCanonical (gateRun st margin deg re snap kEnd r acc).2 := by
  dsimp only [gateRun]
  split
  · refine canon_ite_snd h ?_
    split
    · exact keeps_closeObj h
    · exact h
  · exact h

theorem keeps_gateLine {st n a2 group bad vals} : Keeps (gateLine st n a2 group bad vals) := fun s h => by
  dsimp only [gateLine]
  split
  · exact keeps_feStat (keeps_eachDo (fun _ _ h => canon_ite (keeps_closeObj h) (canon_ite (keeps_closeObj h) h))
      (keeps_updFe (canon_foldl (fun _ _ => keeps_gateRun) h)))
  · exact h

theorem keeps_dropLines {st ks} : Keeps (dropLines st ks) := fun _ h =>
  keeps_eachDo (fun _ _ h => canon_ite h (keeps_updRec (keeps_inc (keeps_updFe h)))) h

theorem keeps_dropFrame {st fi} : Keeps (dropFrame st fi) := fun s h => by
  dsimp only [dropFrame]
  split
  · exact keeps_raiseFault (keeps_feEvt (keeps_feStat (keeps_inc (keeps_updFe h))))
  · exact keeps_feEvt (keeps_feStat (keeps_inc (keeps_updFe h)))

theorem keeps_landed {st n} : Keeps (landed st n) := fun s h => by
  unfold landed
  split
  · exact canon_ite h (keeps_draw (keeps_updFe h))
  · exact h

theorem keeps_lineFate {st n fi} : Keeps fun s => (lineFate st n fi s).2 := fun s h => by
  dsimp only [lineFate]
  refine canon_ite_snd h ?_
  split
  · exact canon_ite_snd (canon_ite_snd (keeps_feStat (keeps_updFe h)) (keeps_dropFrame h)) (canon_ite_snd (keeps_dropFrame h) h)
  · exact canon_ite_snd (keeps_dropFrame h) h

theorem keeps_outputBody {st n} : Keeps (outputBody st n) := fun s h => by
  unfold outputBody
  split
  · extract_lets +onlyGivenNames _ cfg ctl k fi bad bytes stride fate s2
    have h2 : memoriesCanonical s2 :=
      canon_ite (keeps_dropLines (keeps_inc (keeps_lineFate (keeps_eachDo (fun _ => keeps_landed) h))))
        (keeps_devWrite (keeps_lineFate (keeps_eachDo (fun _ => keeps_landed) h)))
    exact keeps_showOuts (keeps_pruneFe (canon_ite (keeps_gateLine (keeps_updFe h2)) (keeps_updFe h2)))
  · exact h

theorem keeps_writeAll {st : Nat} : ∀ {k}, Keeps (writeAll st k)
  | 0, _, h => h
  | k + 1, s, h => by
    dsimp only [writeAll]
    split
    · exact keeps_writeAll (keeps_outputBody h)
    · exact h

theorem keeps_takeWin {st} : Keeps fun s => (takeWin st s).2 := fun s h => by
  unfold takeWin
  beta_reduce
  extract_lets +onlyGivenNames f
  split
  · exact h
  · refine canon_ite_snd h ?_
    extract_lets +onlyGivenNames words fl _ s1
    have h1 : memoriesCanonical s1 := keeps_inc (keeps_updFe h)
    exact keeps_inc (keeps_eachDo (fun _ => keeps_wr) (canon_ite (keeps_inc (canon_ite (keeps_inc h1) h1)) (canon_ite (keeps_inc h1) h1)))

theorem keeps_windowDone {st obj} : Keeps (windowDone st obj) := fun _ h => keeps_showOuts (keeps_updFe h)

theorem keeps_feStart {st replay} : Keeps (feStart st replay) := fun s h => by
  unfold feStart
  extract_lets +onlyGivenNames _ _ _ _ s4
  have h4 : memoriesCanonical s4 :=
    keeps_eachDo (fun _ _ h => keeps_wr (keeps_wr h)) (keeps_wrB
      (keeps_feStat (keeps_feStat (keeps_feStat (keeps_updFe (keeps_feStat (keeps_swapTable (keeps_eachDo (fun _ => keeps_takeShadow) h))))))))
  exact canon_ite (keeps_openOuts (keeps_updFe h4)) (keeps_anchor (keeps_takePort (keeps_openOuts (keeps_updFe h4))))

theorem keeps_feStop {st} : Keeps (feStop st) := fun _ h =>
  canon_ite h (keeps_showOuts (keeps_wrB (keeps_feStat (keeps_feStat
    (keeps_feStat (keeps_recStreamStop (keeps_updFe (keeps_eachDo (fun _ => keeps_closeObj) (keeps_updFe (keeps_writeAll (keeps_runPipe h)))))))))))

end Sys2Proof.Proofs
end

section
/-! Rings, lanes, span links and the clock keep the memories canonical. -/

namespace Sys2Proof.Proofs

open Sys2Proof Sys2Proof.Machine Sys2Proof.Laws

/-! ### The service rings -/

theorem keeps_fetchDescs {fn : Nat} : ∀ {k}, Keeps (fetchDescs fn k)
  | 0, _, h => h
  | _ + 1, _, h => canon_ite (keeps_fetchDescs (keeps_inc (keeps_updRing h))) h

theorem keeps_pumpRing {fn} : Keeps (pumpRing fn) := fun _ h => keeps_fetchDescs (keeps_pumpEvents h)

theorem keeps_coalesce {fn} : Keeps (coalesce fn) := fun _ h => canon_ite (keeps_fireInt (keeps_updRing h)) (keeps_updRing h)

theorem keeps_flushEnd {fn} : Keeps (flushEnd fn) := fun _ h => keeps_wrB (keeps_wrB (keeps_wrB (keeps_updRing h)))

theorem keeps_finish {fn d status flags res} : Keeps (finish fn d status flags res) := fun s h => by
  unfold finish
  extract_lets +onlyGivenNames s0 withRes _ _ s3
  have h0 : memoriesCanonical s0 := keeps_updRing h
  have h3 : memoriesCanonical s3 :=
    canon_ite (keeps_coalesce (keeps_putCpl (keeps_inc (canon_ite ⟨h0.1, write_wf _ _ h0.2⟩ h0))))
      (keeps_inc (canon_ite ⟨h0.1, write_wf _ _ h0.2⟩ h0))
  exact canon_ite (keeps_flushEnd (keeps_wr h3)) (keeps_pumpRing h3)

theorem keeps_camDone {fn status result ackStatus sent} : Keeps (camDone fn status result ackStatus sent) := fun s h => by
  unfold camDone
  split
  · exact keeps_finish h
  · exact h

theorem keeps_camData {fn bs} : Keeps (camData fn bs) := fun s h => by
  unfold camData
  split
  · exact ⟨h.1, write_wf _ _ h.2⟩
  · exact h

theorem keeps_calAbort : Keeps calAbort := fun _ h => canon_ite (keeps_wrF (keeps_wrF h)) h

theorem keeps_flushRing {fn} : Keeps (flushRing fn) := fun s h => by
  unfold flushRing
  refine canon_ite h ?_
  extract_lets +onlyGivenNames s0
  have h0 : memoriesCanonical s0 := keeps_wrB (keeps_updRing h)
  split
  · exact keeps_flushEnd h0
  · exact keeps_finish h0
  · exact keeps_finish (keeps_calAbort h0)
  · exact keeps_finish (keeps_wrB h0)
  · exact h0

theorem keeps_ringReset {fn} : Keeps (ringReset fn) := fun _ h => keeps_showHeld (canon_with (keeps_wrB (keeps_updRing (keeps_regsReset h))))

/-! ### Camera lanes and the link protocol -/

theorem keeps_setPortBit {st b v} : Keeps (setPortBit st b v) := fun _ h => keeps_wrB h

theorem keeps_clEvt {n b} : Keeps (clEvt n b) := fun s h => by
  dsimp only [clEvt]
  split
  · exact keeps_streamInt (keeps_wrB h)
  · exact keeps_wrB h

theorem keeps_laneFault {code unit st} : Keeps (laneFault code unit st) := fun s h => by
  unfold laneFault
  split
  · exact keeps_raiseFault h
  · exact h

theorem keeps_showSs {st} : Keeps (showSs st) := fun _ h => keeps_wr h

theorem keeps_chk {st o} : Keeps (chk st o) := fun _ h => keeps_inc h

theorem keeps_txFrame {st f} : Keeps (txFrame st f) := fun _ h => canon_ite h (keeps_emit h)

theorem keeps_deliver {st} : Keeps (deliver st) := fun s h => by
  unfold deliver
  split
  · exact h
  · exact keeps_lineIn (keeps_chk (keeps_updFe (keeps_updPort h)))

theorem keeps_lineBad {st} : Keeps (lineBad st) := fun _ h => keeps_updPort h

theorem keeps_segment {st a1 ok} : Keeps (Machine.segment st a1 ok) := fun s h => by
  unfold Machine.segment
  extract_lets +onlyGivenNames f flags seg line off cnt plane first s0
  have h0 : memoriesCanonical s0 := by
    unfold s0
    split
    · exact canon_ite (keeps_deliver (keeps_lineBad h)) h
    · exact h
  exact canon_ite (keeps_deliver (keeps_updPort h0)) (keeps_updPort h0)

theorem keeps_dropReqs {p} : Keeps (dropReqs p) := fun _ h => keeps_eachDo (fun _ => keeps_camDone) (keeps_eachDo (fun _ => keeps_camDone) h)

theorem keeps_portDown {st} : Keeps (portDown st) := fun _ h =>
  keeps_dropReqs (keeps_showSs (canon_ite (keeps_clEvt (keeps_feStat
    (keeps_wr (keeps_setPortBit (keeps_updPort (keeps_deliver (keeps_lineBad h)))))))
      (keeps_wr (keeps_setPortBit (keeps_updPort (keeps_deliver (keeps_lineBad h)))))))

theorem keeps_quarPort {st} : Keeps (quarPort st) := fun _ h =>
  canon_ite h (keeps_laneFault (keeps_portDown (keeps_clEvt (keeps_wrB (keeps_setPortBit h)))))

theorem keeps_releasePort {st} : Keeps (releasePort st) := fun _ h => keeps_wrB (keeps_setPortBit (keeps_updPort h))

theorem keeps_quarFail {st} : Keeps (quarFail st) := fun _ h => canon_ite (keeps_quarPort (keeps_updPort h)) (keeps_updPort h)

theorem keeps_alignLost {st} : Keeps (alignLost st) := fun _ h =>
  canon_ite (keeps_portDown (keeps_updPort h)) (keeps_portDown
    (keeps_eachDo (fun _ _ h => keeps_clEvt (keeps_wrF (keeps_wrB h))) (keeps_updPort h)))

theorem keeps_camUnlock {n} : Keeps (camUnlock n) := fun s h => by
  unfold camUnlock
  refine canon_ite h ?_
  extract_lets +onlyGivenNames s0
  have h0 : memoriesCanonical s0 := keeps_clEvt (keeps_inc (keeps_wrB (keeps_wrB h)))
  split
  · exact keeps_alignLost h0
  · exact h0

theorem keeps_camLosEnter {n} : Keeps (camLosEnter n) := fun s h => by
  unfold camLosEnter
  extract_lets +onlyGivenNames _ s1
  have h1 : memoriesCanonical s1 := by
    unfold s1
    split
    · exact keeps_laneFault (keeps_clEvt (keeps_wrB h))
    · exact keeps_clEvt (keeps_wrB h)
  exact keeps_camUnlock h1

theorem keeps_camLockLost {n bad} : Keeps (camLockLost n bad) := fun s h => by
  unfold camLockLost
  refine canon_ite h ?_
  extract_lets +onlyGivenNames _ s1
  have h1 : memoriesCanonical s1 := by
    unfold s1
    split
    · exact keeps_laneFault (keeps_inc h)
    · exact keeps_inc h
  exact keeps_camUnlock h1

theorem keeps_camMarkers {st ms} : Keeps (camMarkers st ms) := fun _ h =>
  canon_ite h (canon_ite (canon_ite (keeps_eachDo (fun _ _ h => keeps_wrF (keeps_wrB h)) (keeps_updPort h)) (keeps_updPort h))
    (canon_ite (keeps_alignLost (keeps_updPort h)) (keeps_updPort h)))

theorem keeps_showSeq {st rx tx} : Keeps (showSeq st rx tx) := fun _ h => keeps_wr h

theorem keeps_comeUp {st peer} : Keeps (comeUp st peer) := fun _ h =>
  keeps_showSs (keeps_feStat (keeps_feStat (keeps_updFe (keeps_showSeq (keeps_fillBucket (keeps_setPortBit (keeps_updPort h)))))))

theorem keeps_helloIn {st f} : Keeps (helloIn st f) := fun _ h =>
  canon_ite h (canon_ite (canon_ite (keeps_comeUp (keeps_updPort (keeps_setPortBit h))) (keeps_updPort (keeps_setPortBit h)))
    (keeps_laneFault (keeps_setPortBit (keeps_updPort h))))

theorem keeps_camHelloTimer {st} : Keeps (camHelloTimer st) := fun _ h => canon_ite (keeps_txFrame h) h

theorem keeps_sendReqs {st : Nat} : ∀ {k}, Keeps (sendReqs st k)
  | 0, _, h => h
  | k + 1, s, h => by
    dsimp only [sendReqs]
    split
    · exact h
    · exact canon_ite h (keeps_sendReqs (keeps_txFrame (keeps_showSeq (keeps_updPort h))))

theorem keeps_camSend {st r} : Keeps (camSend st r) := fun _ h => keeps_sendReqs (keeps_updPort h)

theorem keeps_ackIn {st f} : Keeps (ackIn st f) := fun s h => by
  dsimp only [ackIn]
  split
  · exact h
  · exact keeps_sendReqs (keeps_camDone (canon_ite (keeps_camData (keeps_eachDo (fun _ => keeps_camDone) (keeps_updPort h)))
      (keeps_eachDo (fun _ => keeps_camDone) (keeps_updPort h))))

theorem keeps_retryBody {st} : Keeps (retryBody st) := fun _ h =>
  canon_ite h (canon_ite (keeps_portDown (keeps_laneFault (keeps_clEvt h)))
    (keeps_eachDo (fun _ _ h => keeps_txFrame (keeps_chk h)) (keeps_updPort h)))

theorem keeps_eventIn {st f} : Keeps (eventIn st f) := fun s h => by
  unfold eventIn
  refine canon_ite ?_ (canon_ite (keeps_txFrame (keeps_chk h)) (keeps_quarFail (keeps_chk h)))
  refine canon_ite (keeps_chk h) ?_
  extract_lets +onlyGivenNames bs _ _ s2
  have h2 : memoriesCanonical s2 := by
    unfold s2
    split
    · exact keeps_fireInt (keeps_inc (keeps_eachDo (fun _ => keeps_wr) h))
    · exact keeps_inc (keeps_eachDo (fun _ => keeps_wr) h)
  exact keeps_txFrame (keeps_showSeq h2)

theorem keeps_drainFe {f} : Keeps (drainFe f) := fun _ h => keeps_eachDo (fun _ _ h => canon_ite h (keeps_updPort h)) ⟨h.1, h.2⟩

theorem keeps_wipeBuffers {d} : Keeps (wipeBuffers d) := fun _ h => keeps_eachDo (fun _ _ h => canon_ite (keeps_updPort h) h) ⟨h.1, h.2⟩

theorem keeps_bufTake {st bytes samples} : Keeps (bufTake st bytes samples) := fun _ h => keeps_updPort (canon_ite (keeps_wipeBuffers h) h)

theorem keeps_admitFrame {st len} : Keeps (admitFrame st len) := fun s h => by
  dsimp only [admitFrame]
  split
  · exact keeps_cntAdd (keeps_updPort (keeps_settleBucket h))
  · exact keeps_updPort (keeps_settleBucket h)

theorem keeps_rxFrame {st f} : Keeps (rxFrame st f) := fun s h => by
  unfold rxFrame
  extract_lets +onlyGivenNames drained typ v cut
  have hdrained : memoriesCanonical drained := keeps_drainFe h
  have hcut : Keeps cut := fun _ h => canon_ite (keeps_lineBad h) h
  refine canon_ite (keeps_chk hdrained) (canon_ite (keeps_chk hdrained) ?_)
  clear_value v
  split
  · have hpassed : memoriesCanonical (admitFrame st f.bytes.length drained) := keeps_admitFrame hdrained
    exact canon_ite (keeps_helloIn hpassed) (canon_ite (keeps_segment (keeps_bufTake hpassed))
      (canon_ite (keeps_ackIn hpassed) (keeps_eventIn (keeps_updPort hpassed))))
  · exact keeps_quarFail (hcut (keeps_chk hdrained))
  · exact keeps_quarFail (hcut (keeps_chk hdrained))
  · exact keeps_quarFail (keeps_chk hdrained)
  · exact keeps_quarFail (canon_ite (keeps_segment (keeps_chk hdrained)) (keeps_chk hdrained))
  · exact canon_ite (keeps_segment (keeps_chk hdrained)) (keeps_chk hdrained)

theorem keeps_rxBlock {st b ago} : Keeps (rxBlock st b ago) := fun s h => by
  dsimp only [rxBlock]
  split
  · exact keeps_updPort h
  · exact keeps_rxFrame (keeps_updPort h)
  · refine keeps_updPort ?_
    split
    · exact keeps_rxFrame (keeps_updPort h)
    · exact h
  · split
    · exact keeps_rxFrame (keeps_updPort h)
    · exact h
  · exact h

theorem keeps_countBlocks {base l} : Keeps (countBlocks base l) := fun s h => by
  unfold countBlocks
  refine canon_ite h ?_
  extract_lets +onlyGivenNames up
  have h0 : ∀ {x0 x1}, Keeps (up x0 x1) := fun h => canon_ite h (keeps_inc h)
  exact h0 (h0 h)

theorem keeps_rxStretch {st a1} : Keeps (rxStretch st a1) := fun _ h =>
  canon_ite h (canon_ite (keeps_eachDo (fun _ => keeps_countBlocks) h)
    (keeps_eachDo (fun _ => keeps_rxBlock) (keeps_eachDo (fun _ => keeps_countBlocks) h)))

theorem keeps_quarWindow {st} : Keeps (quarWindow st) := fun _ h => canon_ite (keeps_quarPort (keeps_updPort h)) (keeps_updPort h)

theorem keeps_holdExpiry {st} : Keeps (holdExpiry st) := fun _ h => canon_ite (keeps_releasePort h) h

theorem keeps_portCtl {fn n v} : Keeps (portCtl fn n v) := fun s h => by
  unfold portCtl
  split
  · exact canon_ite (keeps_quarPort h) (canon_ite (keeps_releasePort h) h)
  · exact h

/-! ### Span links and global operations -/

theorem keeps_updSp {m f} : Keeps (updSp m f) := fun _ h => ⟨h.1, h.2⟩

theorem keeps_showSpan : Keeps showSpan := fun _ h => keeps_wrB (keeps_wrF h)

theorem keeps_sendRaw {m bs} : Keeps (sendRaw m bs) := fun _ h => keeps_updSp (keeps_emit h)

theorem keeps_sendData {m f} : Keeps (sendData m f) := fun _ h => keeps_sendRaw h

theorem keeps_pumpLink {m : Nat} : ∀ {k}, Keeps (pumpLink m k)
  | 0, _, h => h
  | k + 1, s, h => by
    dsimp only [pumpLink]
    refine canon_ite h ?_
    split
    · exact h
    · exact keeps_pumpLink (keeps_sendData (keeps_updSp h))

theorem keeps_queueFrame {m f} : Keeps (queueFrame m f) := fun _ h => keeps_pumpLink (keeps_updSp h)

theorem keeps_spanDown {m} : Keeps (spanDown m) := fun _ h => keeps_showSpan (keeps_wrF (keeps_wrB (keeps_updSp h)))

theorem keeps_slEvt {n b} : Keeps (slEvt n b) := fun _ h => keeps_wrB h

theorem keeps_spanAlignLost {m} : Keeps (spanAlignLost m) := fun _ h =>
  canon_ite (keeps_spanDown (keeps_updSp ⟨h.1, h.2⟩)) (keeps_spanDown
    (keeps_eachDo (fun _ _ h => keeps_slEvt (keeps_wrF (keeps_wrB h))) (keeps_updSp ⟨h.1, h.2⟩)))

theorem keeps_spanUnlock {n} : Keeps (spanUnlock n) := fun _ h =>
  canon_ite h (keeps_spanAlignLost (keeps_slEvt (keeps_inc (keeps_wrB (keeps_wrB h)))))

theorem keeps_spanLaneFault {code n} : Keeps (spanLaneFault code n) := fun _ h => canon_ite (keeps_raiseFault h) h

theorem keeps_spanLosEnter {n} : Keeps (spanLosEnter n) := fun _ h => keeps_spanUnlock (keeps_spanLaneFault (keeps_slEvt (keeps_wrB h)))

theorem keeps_spanLockLost {n bad} : Keeps (spanLockLost n bad) := fun _ h => canon_ite h (keeps_spanUnlock (keeps_spanLaneFault (keeps_inc h)))

theorem keeps_spanMarkers {m ms} : Keeps (spanMarkers m ms) := fun _ h =>
  canon_ite h (canon_ite (canon_ite (keeps_eachDo (fun _ _ h => keeps_wrF (keeps_wrB h)) ⟨h.1, h.2⟩) ⟨h.1, h.2⟩)
    (canon_ite (keeps_spanAlignLost ⟨h.1, h.2⟩) ⟨h.1, h.2⟩))

theorem keeps_spanRead {p o len} : Keeps fun s => (spanRead p o len s).2 := fun s h => by
  dsimp only [spanRead]
  split
  · exact keeps_devRead h
  · exact h

theorem keeps_spanWrite {p o bs} : Keeps (spanWrite p o bs) := fun s h => by
  unfold spanWrite
  split
  · exact keeps_devWrite h
  · exact h

theorem keeps_updGop {p f} : Keeps (updGop p f) := fun _ h => ⟨h.1, h.2⟩

theorem keeps_gopDone {p seq status} : Keeps (gopDone p seq status) := fun _ h => keeps_spanWrite (keeps_updGop h)

theorem keeps_gopFlood {p c off data skip} : Keeps (gopFlood p c off data skip) := fun _ h => keeps_eachDo (fun _ _ h => keeps_queueFrame h) h

theorem keeps_sendBroadcast {p c} : Keeps (sendBroadcast p c) := fun _ h => keeps_eachDo (fun _ _ h => keeps_gopFlood (keeps_devRead h)) h

theorem keeps_gopCheck {p} : Keeps (gopCheck p) := fun s h => by
  unfold gopCheck
  split
  · exact h
  · exact canon_ite (keeps_gopDone h) (canon_ite (canon_ite (keeps_gopDone (keeps_sendBroadcast h)) (canon_ite (keeps_gopDone h) h))
      (canon_ite (keeps_gopDone h) h))

theorem keeps_gopReset {p} : Keeps (gopReset p) := fun _ h => keeps_updGop ⟨h.1, h.2⟩

theorem keeps_gopRequest {p l} : Keeps (gopRequest p l) := fun s h => by
  dsimp only [gopRequest]
  refine canon_ite h ?_
  refine canon_ite h ?_
  refine canon_ite (keeps_gopDone h) ?_
  refine canon_ite (keeps_gopCheck (keeps_gopFlood (keeps_updGop (keeps_gopReset h)))) ?_
  refine canon_ite (keeps_gopFlood (keeps_updGop h)) ?_
  split
  · exact canon_ite (keeps_gopDone h) (keeps_gopCheck (keeps_gopFlood (keeps_updGop h)))
  · exact keeps_gopCheck (keeps_gopFlood (keeps_updGop h))

theorem keeps_requestLine {p op} : Keeps (requestLine p op) := fun s h => by
  dsimp only [requestLine]
  refine canon_ite h ?_
  split
  · exact canon_ite (keeps_gopRequest (keeps_spanRead h)) (keeps_spanRead h)
  · exact keeps_gopRequest (keeps_spanRead h)

theorem keeps_gopFrame {m pl} : Keeps (gopFrame m pl) := fun s h => by
  dsimp only [gopFrame]
  refine canon_ite (keeps_inc h) ?_
  refine canon_ite ?_ ?_
  · split
    · exact canon_ite (canon_ite h (keeps_gopCheck (keeps_gopFlood (keeps_updGop h)))) (keeps_gopDone (keeps_gopFlood (keeps_gopReset h)))
    · exact canon_ite (keeps_gopFlood h) (keeps_gopDone (keeps_gopFlood (keeps_gopReset h)))
  · refine canon_ite h ?_
    split
    · exact canon_ite (keeps_gopFlood (keeps_updGop h)) (canon_ite (keeps_gopFlood (keeps_updGop h)) h)
    · exact canon_ite (canon_ite (keeps_gopDone h) h) (canon_ite h
        (canon_ite (keeps_gopCheck (canon_ite (keeps_gopFlood (keeps_updGop h)) (keeps_updGop h)))
          (canon_ite (keeps_updGop h) (canon_ite (keeps_gopDone h) (keeps_gopCheck (keeps_gopFlood (keeps_updGop (keeps_devWrite h))))))))

theorem keeps_snapCapture {p} : Keeps (snapCapture p) := fun s h => by
  unfold snapCapture
  split
  · exact canon_ite (keeps_gopDone (keeps_spanWrite h)) h
  · exact h

theorem keeps_gopTimeout {p} : Keeps (gopTimeout p) := fun s h => by
  unfold gopTimeout
  split
  · exact canon_ite (keeps_raiseFault (keeps_gopDone h)) h
  · exact h

theorem keeps_transferStatus {p} : Keeps (transferStatus p) := fun _ h => keeps_spanWrite h

theorem keeps_transferDone {p refused} : Keeps (transferDone p refused) := fun _ h => keeps_transferStatus (keeps_updGop h)

theorem keeps_transferIn {m src pl} : Keeps (transferIn m src pl) := fun s h => by
  unfold transferIn
  refine canon_ite (keeps_inc h) ?_
  extract_lets +onlyGivenNames r s1
  have h1 : memoriesCanonical s1 := keeps_devWrite h
  refine canon_ite (canon_ite (keeps_updGop h1) h1) ?_
  extract_lets +onlyGivenNames bad s3 s5
  have h3 : memoriesCanonical s3 := keeps_updGop (canon_ite (keeps_updGop h1) h1)
  have h5 : memoriesCanonical s5 := by
    unfold s5
    refine canon_ite (keeps_raiseFault h3) ?_
    split
    · exact keeps_devWrite (keeps_devRead h3)
    · exact h3
  exact keeps_queueFrame h5

theorem keeps_transferStart {p : Nat} : ∀ {k}, Keeps (transferStart p k)
  | 0, _, h => h
  | _ + 1, _, h =>
    canon_ite h (canon_ite (keeps_transferStart (keeps_transferDone (keeps_spanRead h)))
      (keeps_eachDo (fun _ _ h => canon_ite (keeps_transferIn (keeps_devRead h)) (keeps_queueFrame (keeps_devRead h)))
        (keeps_updGop (keeps_spanRead h))))

theorem keeps_doorbellBody {p} : Keeps (doorbellBody p) := fun _ h => canon_ite h (keeps_transferStart (keeps_updGop (keeps_spanRead h)))

theorem keeps_transferComplete {p refused} : Keeps (transferComplete p refused) := fun _ h =>
  canon_ite h (keeps_transferStart (canon_ite (keeps_raiseFault (keeps_transferDone h)) (keeps_transferDone h)))

theorem keeps_sendHello {m} : Keeps (sendHello m) := fun _ h => keeps_emit h

theorem keeps_spanHelloTimer {m} : Keeps (spanHelloTimer m) := fun _ h => canon_ite (keeps_sendHello h) h

theorem keeps_helloSpan {m f} : Keeps (helloSpan m f) := fun _ h =>
  canon_ite h (canon_ite (keeps_raiseFault (keeps_updSp h)) (canon_ite (keeps_updSp h)
    (canon_ite (keeps_sendHello (keeps_updSp h)) (keeps_showSpan (keeps_wrF (keeps_wrB (keeps_updSp (keeps_sendHello (keeps_updSp h)))))))))

theorem keeps_takeAck {m f} : Keeps (takeAck m f) := fun _ h => keeps_pumpLink (keeps_updSp h)

theorem keeps_deliverSpan {m f} : Keeps (deliverSpan m f) := fun s h => by
  unfold deliverSpan
  extract_lets +onlyGivenNames vc dst pl s0
  have h0 : memoriesCanonical s0 := keeps_updSp h
  exact canon_ite (keeps_queueFrame h0) (canon_ite (keeps_transferIn h0) (canon_ite (keeps_gopFrame h0) h0))

theorem keeps_spanRx {m fr} : Keeps (spanRx m fr) := fun _ h =>
  canon_ite (keeps_inc h) (canon_ite (canon_ite (keeps_helloSpan h) (keeps_inc h))
    (canon_ite (keeps_inc h) (canon_ite (keeps_takeAck h) (canon_ite (keeps_deliverSpan (keeps_takeAck h)) (keeps_inc h)))))

theorem keeps_spanBlock {m b} : Keeps (spanBlock m b) := fun s h => by
  dsimp only [spanBlock]
  split
  · exact keeps_updSp h
  · exact keeps_spanRx (keeps_updSp h)
  · refine keeps_updSp ?_
    split
    · exact keeps_spanRx (keeps_updSp h)
    · exact h
  · split
    · exact keeps_spanRx (keeps_updSp h)
    · exact h
  · exact h

theorem keeps_spanStretch {m a1} : Keeps (spanStretch m a1) := fun _ h =>
  canon_ite h (canon_ite (keeps_eachDo (fun _ => keeps_countBlocks) h)
    (keeps_eachDo (fun _ => keeps_spanBlock) (keeps_eachDo (fun _ => keeps_countBlocks) h)))

theorem keeps_ackTimer {m} : Keeps (ackTimer m) := fun _ h => canon_ite h (keeps_sendRaw (keeps_updSp h))

theorem keeps_rtoBody {m} : Keeps (rtoBody m) := fun _ h =>
  canon_ite h (canon_ite (keeps_raiseFault (keeps_spanDown h)) (keeps_eachDo (fun _ _ h => keeps_inc (keeps_sendData h)) (keeps_updSp h)))

/-! ### Lane detectors and cages -/

theorem keeps_losEnter : ∀ {l}, Keeps (losEnter l)
  | .cam _ => keeps_camLosEnter
  | .span _ => keeps_spanLosEnter

theorem keeps_losEnterBody {l} : Keeps (losEnterBody l) := fun _ h => canon_ite h (keeps_losEnter h)

theorem keeps_losExitBody {l} : Keeps (losExitBody l) := fun _ h => canon_ite h (keeps_wrB h)

theorem keeps_blockLockBody {l} : Keeps (blockLockBody l) := fun _ h => canon_ite h (keeps_wrB h)

theorem keeps_lockLostBody : ∀ {l b}, Keeps (lockLostBody l b)
  | .cam _, _ => keeps_camLockLost
  | .span _, _ => keeps_spanLockLost

theorem keeps_hiBerBody {l bad} : Keeps (hiBerBody l bad) := fun _ h => canon_ite h (canon_ite (keeps_inc h) (keeps_inc (keeps_wrB (keeps_inc h))))

theorem keeps_hiBerEndBody {l bad} : Keeps (hiBerEndBody l bad) := fun _ h => canon_ite h (canon_ite (keeps_wrB (keeps_inc h)) (keeps_inc h))

theorem keeps_markersBody : ∀ {b ms}, Keeps (markersBody b ms)
  | .cam _, _ => keeps_camMarkers
  | .span _, _ => keeps_spanMarkers

theorem keeps_insertBody {c dw} : Keeps (insertBody c dw) := fun s h => by
  unfold insertBody
  extract_lets +onlyGivenNames ok s0
  have h0 : memoriesCanonical s0 := ⟨h.1, h.2⟩
  refine canon_ite h0 ?_
  extract_lets +onlyGivenNames s1
  have h1 : memoriesCanonical s1 := keeps_eachDo (fun _ => keeps_losEnterBody) h0
  split
  · exact keeps_linkDownBody h1
  · exact h1

/-! ### REFCLK and the oscillator -/

theorem keeps_updClk {f} : Keeps (updClk f) := fun _ h => ⟨h.1, h.2⟩

theorem keeps_clkEvt {b} : Keeps (clkEvt b) := fun _ h => keeps_wrB h

theorem keeps_showRef : Keeps showRef := fun _ h => canon_ite (keeps_wrB (keeps_wrB h)) (keeps_wrF (keeps_wrB (keeps_wrB h)))

theorem keeps_trimOsc : Keeps trimOsc := fun _ h => keeps_updClk (keeps_wrB (keeps_wr (keeps_draw h)))

theorem keeps_showTrim : Keeps showTrim := fun _ h => canon_ite (keeps_wrF h) h

theorem keeps_allUnlock : Keeps allUnlock := fun _ h =>
  keeps_eachDo (fun _ => keeps_linkDownBody) (keeps_eachDo (fun _ => keeps_spanLockLost) (keeps_eachDo (fun _ => keeps_camLockLost) h))

theorem keeps_enterHoldover {cause} : Keeps (enterHoldover cause) := fun _ h =>
  canon_ite (keeps_raiseFault (keeps_wrF (keeps_allUnlock (keeps_showRef
    (keeps_setQual (keeps_inc (keeps_clkEvt (keeps_updClk (keeps_wrF (keeps_wrB h))))))))))
      (keeps_raiseFault (keeps_raiseFault (keeps_wrF (keeps_allUnlock
        (keeps_showRef (keeps_setQual (keeps_inc (keeps_clkEvt (keeps_updClk (keeps_wrF (keeps_wrB h)))))))))))

theorem keeps_leaveHoldover : Keeps leaveHoldover := fun _ h =>
  keeps_raiseFault (keeps_allUnlock (keeps_setQual (keeps_showRef (keeps_updClk (keeps_clkEvt (keeps_wrB h))))))

theorem keeps_setOor : Keeps setOor := fun _ h => keeps_raiseFault (keeps_showRef (keeps_wrB (keeps_updClk h)))

theorem keeps_glitchBody : Keeps glitchBody := fun _ h => canon_ite h (keeps_setOor (keeps_inc (keeps_clkEvt (keeps_clkEvt (keeps_updClk h)))))

theorem keeps_windowBody {ppm10} : Keeps (windowBody ppm10) := fun s h => by
  unfold windowBody
  refine canon_ite h ?_
  extract_lets +onlyGivenNames _ _ _ s2 s3
  have h2 : memoriesCanonical s2 :=
    canon_ite (keeps_setOor (keeps_inc (keeps_clkEvt (keeps_updClk (keeps_wr ⟨h.1, h.2⟩))))) (keeps_updClk (keeps_wr ⟨h.1, h.2⟩))
  have h3 : memoriesCanonical s3 := canon_ite (keeps_showRef (keeps_wrB h2)) h2
  exact canon_ite (canon_ite (keeps_trimOsc (keeps_leaveHoldover h3)) h3) (canon_ite (keeps_enterHoldover h3) (canon_ite h3 (keeps_trimOsc h3)))

theorem keeps_lossBody : Keeps lossBody := fun _ h =>
  canon_ite h (canon_ite (keeps_showRef (keeps_updClk ⟨h.1, h.2⟩)) (keeps_enterHoldover (keeps_updClk ⟨h.1, h.2⟩)))

theorem keeps_sofBody {st count} : Keeps (sofBody st count) := fun _ h =>
  canon_ite h (canon_ite (keeps_updClk (keeps_wrF h)) (keeps_updClk (keeps_trimOsc (keeps_updClk (keeps_wrF h)))))

theorem keeps_oscStart {refclk} : Keeps (oscStart refclk) := fun _ h =>
  canon_ite (keeps_showRef (keeps_wrB ⟨h.1, h.2⟩)) (keeps_enterHoldover (keeps_wrB ⟨h.1, h.2⟩))

end Sys2Proof.Proofs
end

section
/-! Operands, the convolution path, DMA and arbitration keep the memories canonical. -/

namespace Sys2Proof.Proofs

open Sys2Proof Sys2Proof.Machine Sys2Proof.Laws

/-! ### A core's registers and words -/

theorem keeps_setS {n r v} : Keeps (setS n r v) := fun _ h => canon_ite h (keeps_updCore h)

theorem keeps_setA {n r v} : Keeps (setA n r v) := fun _ h => keeps_updCore h

theorem keeps_tokInc {n k} : Keeps (tokInc n k) := fun _ h => keeps_wr h

theorem keeps_tokSignal {n code} : Keeps (tokSignal n code) := fun _ h => canon_ite h (keeps_tokInc h)

theorem keeps_showPc {n} : Keeps (showPc n) := fun _ h => keeps_wrF (keeps_wr (keeps_wr h))

theorem keeps_setPc {n pc ls} : Keeps (setPc n pc ls) := fun _ h => keeps_showPc (keeps_updCore h)

theorem keeps_countWord {n} : Keeps (countWord n) := fun _ h => keeps_cntAdd (keeps_wrB h)

theorem keeps_advance {n} : Keeps (advance n) := fun _ h => keeps_setPc (keeps_countWord h)

theorem keeps_branchTo {n t} : Keeps (branchTo n t) := fun _ h => keeps_setPc h

theorem keeps_showUnits {n} : Keeps (showUnits n) := fun s h => by
  unfold showUnits
  extract_lets +onlyGivenNames c b _ _ _ _ s4
  have h4 : memoriesCanonical s4 := by
    unfold s4
    split
    · exact keeps_wrF (keeps_wrB (keeps_wrB (keeps_wrF (keeps_wr h))))
    · exact keeps_wrB (keeps_wrB (keeps_wrF (keeps_wr h)))
  exact keeps_wrB (keeps_wrB (keeps_wrB h4))

theorem keeps_itemDone {n item} : Keeps (itemDone n item) := fun _ h => keeps_showUnits (keeps_updCore h)

theorem keeps_newItem {n} : Keeps fun s => (newItem n s).2 := fun _ h => keeps_updCore h

theorem keeps_stall {n} : Keeps (stall n) := fun _ h => keeps_wrB h

theorem keeps_seqEvt {n bit} : Keeps (seqEvt n bit) := fun _ h => keeps_wrB h

/-! ### The convolution path -/

theorem keeps_showConv {n} : Keeps (showConv n) := fun s h => by
  dsimp only [showConv]
  split
  · exact keeps_wrF (keeps_wrB (keeps_wrB (keeps_wrB (keeps_wrB h))))
  · exact keeps_wr (keeps_wrF (keeps_wrB (keeps_wrB (keeps_wrB (keeps_wrB h)))))

theorem keeps_stallTick {n} : Keeps (stallTick n) := fun _ h => canon_ite h (keeps_inc (keeps_updCore h))

/-! ### DMA -/

theorem keeps_dmMove {n tag : Nat} {t : DmaItem} : ∀ {rows}, Keeps fun s => (dmMove n tag t rows s).2.2.2
  | [], _, h => h
  | (z, y) :: r, s, h => by
    dsimp only [dmMove]
    exact canon_ite_fourth h (keeps_dmMove (canon_ite (keeps_wr (keeps_devWrite (keeps_cntAdd (keeps_devRead h))))
      (keeps_devWrite (keeps_cntAdd (keeps_devRead h)))))

/-! ### Arbitration -/

theorem keeps_updArb {k f} : Keeps (updArb k f) := fun _ h => ⟨h.1, h.2⟩

theorem keeps_countRevoke {k} : Keeps (countRevoke k) := fun _ h => canon_ite (keeps_inc h) (canon_ite (keeps_inc h) (keeps_inc h))

theorem keeps_countSealed {k} : Keeps (countSealed k) := fun _ h => canon_ite (keeps_inc h) (keeps_inc h)

theorem keeps_countWaste {k n} : Keeps (countWaste k n) := fun _ h => canon_ite (keeps_cntAdd h) (keeps_inc h)

theorem keeps_setBank {c b a2} : Keeps (setBank c b a2) := fun _ h => ⟨h.1, h.2⟩

theorem keeps_linesToBanks {c a1} : Keeps (linesToBanks c a1) := fun _ h => canon_ite h (keeps_eachDo (fun _ _ h => keeps_setBank h) h)

theorem keeps_withdrawLines {c a1} : Keeps (withdrawLines c a1) := fun _ h => keeps_eachDo (fun _ _ h => canon_ite (keeps_setBank h) h) h

theorem keeps_grantBurst {k a1} : Keeps (grantBurst k a1) := fun _ h => canon_ite (keeps_updArb h) (keeps_linesToBanks (keeps_updArb h))

theorem keeps_revokeHolder {k} : Keeps (revokeHolder k) := fun s h => by
  unfold revokeHolder
  split
  · exact h
  · extract_lets +onlyGivenNames moved now y _ s1
    have h1 : memoriesCanonical s1 := keeps_updArb (canon_ite (keeps_updArb (keeps_draw h)) (keeps_withdrawLines (keeps_updArb (keeps_draw h))))
    exact canon_ite (keeps_countSealed (keeps_countWaste (keeps_countRevoke h1))) (keeps_countWaste (keeps_countRevoke h1))

theorem keeps_grantOut {k a1} : Keeps (grantOut k a1) := fun _ h => keeps_updArb (keeps_grantBurst h)

theorem keeps_arrive {k a1} : Keeps (arrive k a1) := fun s h => by
  unfold arrive
  extract_lets +onlyGivenNames s0
  have h0 : memoriesCanonical s0 := keeps_updArb h
  split
  · exact canon_ite (keeps_grantOut (keeps_revokeHolder h0)) h0
  · exact h0

theorem keeps_finishHolder {k} : Keeps (finishHolder k) := fun s h => by
  unfold finishHolder
  split
  · exact h
  · extract_lets +onlyGivenNames s0 _ s2
    have h0 : memoriesCanonical s0 := keeps_updArb h
    have h2 : memoriesCanonical s2 := canon_ite h0 (canon_ite (keeps_cntAdd (keeps_cntAdd h0)) (keeps_cntAdd h0))
    split
    · exact keeps_arrive h2
    · exact h2

theorem keeps_creditTurn {k t i} : Keeps (creditTurn k t i) := fun _ h => keeps_updArb h

theorem keeps_roundGrant {k : Nat} : ∀ {fuel}, Keeps (roundGrant k fuel)
  | 0, _, h => h
  | fuel + 1, s, h => by
    dsimp only [roundGrant]
    split
    · exact keeps_grantBurst h
    · split
      · exact keeps_grantOut h
      · refine canon_ite (keeps_roundGrant (keeps_updArb h)) ?_
        split
        · exact keeps_roundGrant (keeps_updArb h)
        · exact canon_ite (keeps_roundGrant (keeps_creditTurn h))
            (canon_ite (keeps_updArb (keeps_grantBurst h)) (keeps_roundGrant (keeps_updArb h)))

theorem keeps_requestBody {k b} : Keeps (requestBody k b) := fun _ h => canon_ite (keeps_arrive h) h

theorem keeps_grantBody {k} : Keeps (grantBody k) := fun s h => by
  unfold grantBody
  refine canon_ite h ?_
  extract_lets +onlyGivenNames s0
  have h0 : memoriesCanonical s0 := keeps_finishHolder h
  split
  · exact keeps_grantOut h0
  · exact canon_ite (keeps_roundGrant h0) h0

theorem keeps_slotBody {k} : Keeps (slotBody k) := fun s h => by
  unfold slotBody
  refine canon_ite h ?_
  extract_lets +onlyGivenNames s0
  have h0 : memoriesCanonical s0 := keeps_finishHolder h
  split
  · exact keeps_grantBurst h0
  · split
    · exact keeps_grantBurst h0
    · exact h0

theorem keeps_showGap : Keeps showGap := fun _ h => keeps_eachDo (fun _ => keeps_wr) h

theorem keeps_clearTick : Keeps clearTick := fun _ h => canon_ite (keeps_showGap (keeps_wrB h)) h

theorem keeps_bankBody {c b cores tags} : Keeps (bankBody c b cores tags) := fun _ h =>
  canon_ite (keeps_setBank h) (canon_ite (keeps_setBank (canon_ite (keeps_inc (canon_ite (keeps_inc h) h)) (canon_ite (keeps_inc h) h)))
    (keeps_setBank h))

theorem keeps_arbTake : Keeps arbTake := fun _ h =>
  keeps_showGap (keeps_wrB (keeps_wrB (keeps_wrB (keeps_eachDo (fun _ _ h => keeps_updArb h) (keeps_eachDo (fun _ => keeps_takeShadow) h)))))

theorem keeps_arbGo {fn v} : Keeps (arbGo fn v) := fun _ h => canon_ite h (canon_ite (keeps_wrB h) (keeps_arbTake h))

end Sys2Proof.Proofs
end

section
/-! The audit log and the ledger keep the memories canonical. -/

namespace Sys2Proof.Proofs

open Sys2Proof Sys2Proof.Machine Sys2Proof.Laws

/-! ### The audit log -/

theorem keeps_auditPut {cmd status slot func a4 nonceTag digest} : Keeps (auditPut cmd status slot func a4 nonceTag digest) := fun _ h =>
  canon_ite (keeps_raiseFault ⟨h.1, h.2⟩) ⟨h.1, h.2⟩

theorem keeps_auditLose : Keeps auditLose := fun _ h => ⟨h.1, h.2⟩

theorem keeps_auditEvent {code status a2 digest} : Keeps (auditEvent code status a2 digest) := fun _ h =>
  canon_ite (keeps_auditPut h) (keeps_auditLose h)

theorem keeps_stewardMet {ws} : Keeps (stewardMet ws) := fun _ h => keeps_eachDo (fun _ _ h => keeps_auditEvent (keeps_reportUnc h)) h

theorem keeps_auditCheck : Keeps auditCheck := fun s h => by
  dsimp only [auditCheck]
  refine canon_ite (keeps_auditEvent (canon_with ?_)) ?_ <;>
    refine canon_ite ?_ (keeps_raiseFault (canon_with ?_)) <;>
      exact canon_ite (keeps_raiseFault (keeps_auditEvent ⟨h.1, h.2⟩)) h

/-! ### The ejection ledger and its outputs -/

theorem keeps_setEnt {e a1} : Keeps (setEnt e a1) := fun _ h => ⟨h.1, h.2⟩

theorem keeps_updEnt {e f} : Keeps (updEnt e f) := fun s h => by
  unfold updEnt
  split
  · exact keeps_setEnt h
  · exact h

theorem keeps_showView {st} : Keeps (showView st) := fun _ h => keeps_eachDo (fun _ => keeps_wr) (keeps_wrB h)

theorem keeps_showLedger {st p} : Keeps (showLedger st p) := fun _ h => keeps_showView (keeps_wrF (keeps_wrF (keeps_wr h)))

theorem keeps_logRecord {p bs} : Keeps (logRecord p bs) := fun s h => by
  unfold logRecord
  refine canon_ite (keeps_inc (keeps_wrB h)) ?_
  extract_lets +onlyGivenNames a _ _ step
  have h2 : ∀ {x0 x1}, Keeps (step x0 x1) := fun h => canon_ite (keeps_fireInt (keeps_updRing h)) (keeps_updRing h)
  exact h2 (h2 (keeps_inc (keeps_devWrite h)))

theorem keeps_freeEnt {e} : Keeps (freeEnt e) := fun s h => by
  unfold freeEnt
  split
  · exact h
  · exact keeps_showLedger (keeps_logRecord ⟨h.1, h.2⟩)

theorem keeps_drainEnt {e} : Keeps (drainEnt e) := fun s h => by
  unfold drainEnt
  split
  · exact canon_ite (keeps_freeEnt h) (keeps_showLedger h)
  · exact h

theorem keeps_showGrp {g} : Keeps (showGrp g) := fun _ h => keeps_wr (keeps_wrF (keeps_wr h))

theorem keeps_askerFires {delayed d a} : Keeps (askerFires delayed d a) := fun s h => by
  dsimp only [askerFires]
  split
  · split
    · exact h
    · exact canon_with (keeps_setEnt (canon_ite h (keeps_inc h)))
  · exact ⟨h.1, h.2⟩
  · exact ⟨h.1, h.2⟩

theorem keeps_admitReq {delayed r} : Keeps (admitReq delayed r) := fun _ h =>
  keeps_eachDo (fun _ => keeps_askerFires) (canon_ite (keeps_inc ⟨h.1, h.2⟩) ⟨h.1, h.2⟩)

theorem keeps_admitGrp {delayed : Bool} {g : Nat} : ∀ {k}, Keeps (admitGrp delayed g k)
  | 0, _, h => h
  | k + 1, s, h => by
    dsimp only [admitGrp]
    split
    · exact h
    · exact canon_ite (keeps_admitGrp (keeps_admitReq ⟨h.1, h.2⟩)) h

theorem keeps_request {r} : Keeps (request r) := fun s h => by
  dsimp only [request]
  split
  · exact keeps_eachDo (fun _ => keeps_askerFires) (keeps_inc h)
  · exact canon_ite (keeps_inc ⟨h.1, h.2⟩) (canon_ite (keeps_admitReq h) ⟨h.1, h.2⟩)

theorem keeps_firedEnt {e} : Keeps (firedEnt e) := fun s h => by
  unfold firedEnt
  split
  · exact h
  · exact canon_ite (keeps_drainEnt (keeps_setEnt h)) h

theorem keeps_doOff {d} : Keeps (doOff d) := fun s h => by
  unfold doOff
  split
  · exact h
  · exact keeps_showGrp (keeps_eachDo (fun _ => keeps_firedEnt) ⟨h.1, h.2⟩)

theorem keeps_dropMissed {src} : Keeps (dropMissed src) := fun _ h => keeps_eachDo (fun _ _ h => keeps_showGrp (keeps_eachDo (by
    intro _ s h
    dsimp only
    split
    · split
      · exact keeps_firedEnt (keeps_raiseFault (keeps_inc (keeps_wrB (keeps_setEnt h))))
      · exact h
    · exact h) (keeps_inc ⟨h.1, h.2⟩))) h

theorem keeps_reachEnds {src} : Keeps (reachEnds src) := fun _ h => ⟨h.1, h.2⟩

theorem keeps_pullinEndBody {d} : Keeps (pullinEndBody d) := fun s h => by
  unfold pullinEndBody
  split
  · split
    · exact canon_ite (keeps_showGrp (keeps_admitGrp ⟨h.1, h.2⟩)) h
    · exact h
  · exact h

theorem keeps_pulseEndBody {d} : Keeps (pulseEndBody d) := fun s h => by
  unfold pulseEndBody
  split
  · exact h
  · exact canon_ite h (keeps_showGrp (keeps_admitGrp (keeps_doOff h)))

theorem keeps_takeDefault {a0 pos} : Keeps fun s => (takeDefault a0 pos s).2 := fun _ h => keeps_inc h

theorem keeps_extFire {e pos} : Keeps (extFire e pos) := fun s h => by
  dsimp only [extFire]
  split
  · exact h
  · refine canon_ite h ?_
    exact canon_ite (keeps_setEnt (keeps_lqHand h)) (keeps_inc (keeps_wrB (keeps_setEnt (keeps_lqHand h))))

theorem keeps_evalEnt {e} : Keeps fun s => (evalEnt e s).2 := fun s h => by
  beta_reduce
  unfold evalEnt
  split
  · exact h
  next x _ =>
    extract_lets +onlyGivenNames pos
    refine canon_ite_snd (keeps_freeEnt (canon_with (keeps_setEnt (keeps_inc (keeps_wrB h))))) ?_
    split
    next y t heq =>
    have ht : memoriesCanonical t := canon_of_pair heq (canon_ite_snd h (canon_ite_snd (canon_ite_snd h (keeps_takeDefault h)) h))
    refine canon_ite_snd (keeps_setEnt ht) ?_
    split
    next z u heq =>
    have hu : memoriesCanonical u := canon_of_pair heq (canon_ite_snd (keeps_takeDefault (pos := pos) ht) ht)
    exact canon_ite_snd (keeps_drainEnt (keeps_setEnt hu)) (keeps_extFire (keeps_setEnt hu))

theorem keeps_evalSrc {src} : Keeps (evalSrc src) := fun _ h =>
  canon_ite h (keeps_eachDo (fun _ => keeps_showGrp) (keeps_eachDo (fun _ => keeps_firedEnt)
    (keeps_dropMissed (keeps_eachDo (fun _ => keeps_request)
      (canon_foldl (fun _ _ h => keeps_evalEnt h) (keeps_reachEnds h))))))

theorem keeps_posMoved {src dp} : Keeps (posMoved src dp) := fun _ h => keeps_evalSrc (keeps_eachDo (fun _ => keeps_emuMove) (keeps_updSrc h))

theorem keeps_openEntry {st win jobs} : Keeps fun s => (openEntry st win jobs s).2 := fun s h => by
  unfold openEntry
  beta_reduce
  split
  · exact h
  · refine canon_ite_snd (keeps_raiseFault (keeps_inc (keeps_wrB h))) ?_
    extract_lets +onlyGivenNames g lead trail src k e x _ pos s0
    have h0 : memoriesCanonical s0 := keeps_setEnt h
    exact canon_ite_snd (keeps_showLedger h0) (canon_ite_snd (keeps_drainEnt
      (keeps_raiseFault (keeps_inc (keeps_wrB (keeps_setEnt (keeps_takeDefault h0)))))) (keeps_showLedger (keeps_evalEnt h0)))

theorem keeps_staleAt {st} : Keeps (staleAt st) := fun _ h => keeps_inc (keeps_wrB h)

theorem keeps_ledgerPost {p num gen live mask score cls} : Keeps fun s => (ledgerPost p num gen live mask score cls s).2 := fun s h => by
  unfold ledgerPost
  beta_reduce
  extract_lets +onlyGivenNames s0
  have h0 : memoriesCanonical s0 := keeps_inc h
  split
  · exact h0
  · split
    · exact h0
    · exact canon_ite_snd (keeps_staleAt h0) (keeps_showLedger (keeps_setEnt h0))

theorem keeps_ledgerJobEnded {p num} : Keeps (ledgerJobEnded p num) := fun s h => by
  unfold ledgerJobEnded
  split
  · exact h
  · exact keeps_drainEnt (keeps_updEnt h)

theorem keeps_showSup : Keeps showSup := fun _ h => keeps_wrB (keeps_wr (keeps_wr h))

theorem keeps_showFio : Keeps showFio := fun _ h => keeps_showSup (keeps_wrB h)

theorem keeps_nightStop : Keeps nightStop := fun _ h =>
  keeps_eachDo (fun _ => keeps_firedEnt) (canon_with (keeps_eachDo (fun _ => keeps_updEnt) ⟨h.1, h.2⟩))

theorem keeps_nightSafe : Keeps nightSafe := fun _ h => keeps_eachDo (fun _ _ h => canon_ite (keeps_request h) h) ⟨h.1, h.2⟩

theorem keeps_nightfall {cause atStart} : Keeps (nightfall cause atStart) := fun s h => by
  unfold nightfall
  extract_lets +onlyGivenNames first s0
  have h0 : memoriesCanonical s0 := keeps_wrB h
  exact canon_ite (keeps_showFio h0) (keeps_eachDo (fun _ => keeps_fireInt)
    (keeps_raiseFault (keeps_showFio (keeps_eachDo (fun _ => keeps_showGrp)
      (canon_ite (canon_with (keeps_nightStop (keeps_inc (canon_with (keeps_wrB (keeps_wrB (canon_ite (keeps_wrF h0) h0)))))))
        (keeps_nightSafe (keeps_nightStop (keeps_inc (canon_with (keeps_wrB (keeps_wrB (canon_ite (keeps_wrF h0) h0))))))))))))

theorem keeps_nightClear : Keeps fun s => (nightClear s).2 := fun _ h =>
  canon_ite_snd h (canon_ite_snd h (keeps_eachDo (fun _ => keeps_fireInt)
    (keeps_showFio (keeps_eachDo (fun _ => keeps_showGrp) (canon_with (keeps_wr (keeps_wrB (keeps_wrB h))))))))

end Sys2Proof.Proofs
end

section
/-! Units' completions, jobs, stored errors, sequencer and scheduler keep the memories canonical. -/

namespace Sys2Proof.Proofs

open Sys2Proof Sys2Proof.Machine Sys2Proof.Laws

/-! ### Completions of the units' items -/

theorem keeps_accessFlag {n count} : Keeps (accessFlag n count) := fun _ h => canon_ite h (keeps_inc (keeps_seqEvt (keeps_updCore h)))

theorem keeps_mixWrite {a new} : Keeps (mixWrite a new) := fun _ h => keeps_draw (keeps_memStore (keeps_awaitRange h))

theorem keeps_dropDma {n q} : Keeps (dropDma n q) := fun _ h => keeps_updCore h

theorem keeps_dmaComplete {n q t} : Keeps fun s => (dmaComplete n q t s).2 := fun s h => by
  dsimp only [dmaComplete]
  exact keeps_showConv (canon_ite (keeps_itemDone (keeps_tokSignal (keeps_dropDma (keeps_accessFlag (keeps_dmMove h)))))
    (keeps_updCore (keeps_accessFlag (keeps_dmMove h))))

theorem keeps_dmaVoid {n t} : Keeps (dmaVoid n t) := fun _ h =>
  keeps_eachDo (fun _ _ h => keeps_eachDo (fun _ _ h => canon_ite (keeps_mixWrite h) h) h) h

theorem keeps_updEng {n f} : Keeps (updEng n f) := fun _ h => keeps_updCore h

theorem keeps_setBuf {n b w} : Keeps (setBuf n b w) := fun _ h => keeps_updEng h

theorem keeps_beginLoad {n} : Keeps (beginLoad n) := fun s h => by
  unfold beginLoad
  split
  · exact canon_ite h (keeps_showUnits (keeps_setBuf h))
  · exact h

theorem keeps_loadComplete {n l} : Keeps fun s => (loadComplete n l s).2 := fun _ h =>
  keeps_beginLoad (keeps_itemDone (keeps_tokSignal (keeps_updEng (keeps_setBuf (keeps_eachDo (fun _ => keeps_reportUnc) h)))))

theorem keeps_countBeats {n o xs w} : Keeps (countBeats n o xs w) := fun s h => by
  unfold countBeats
  extract_lets +onlyGivenNames b s0
  have h0 : memoriesCanonical s0 := keeps_cntAdd h
  exact canon_ite (keeps_cntAdd (canon_ite (keeps_cntAdd h0) h0)) (canon_ite (keeps_cntAdd h0) h0)

theorem keeps_opPass {n o xs ex} : Keeps (opPass n o xs ex) := fun s h => by
  unfold opPass
  extract_lets +onlyGivenNames w b r _ e s0
  have h0 : memoriesCanonical s0 := keeps_updEng h
  exact keeps_showConv (keeps_beginLoad (keeps_itemDone (keeps_tokSignal
    (keeps_inc (canon_ite (keeps_wrB (canon_ite (keeps_wrB h0) h0)) (canon_ite (keeps_wrB h0) h0))))))

theorem keeps_cfgComplete {n a1} : Keeps (cfgComplete n a1) := fun _ h =>
  keeps_showConv (keeps_itemDone (keeps_tokSignal (keeps_wr (keeps_wr (keeps_updCore h)))))

theorem keeps_vecFlags {n f} : Keeps (vecFlags n f) := fun s h => by
  unfold vecFlags
  extract_lets +onlyGivenNames b _ s1
  have h1 : memoriesCanonical s1 := canon_ite (keeps_wrB (keeps_updCore h)) (keeps_updCore h)
  exact keeps_cntAdd (keeps_inc (keeps_inc (canon_ite (keeps_wrB (canon_ite (keeps_wrB h1) h1)) (canon_ite (keeps_wrB h1) h1))))

theorem keeps_vecComplete {n a1} : Keeps fun s => (vecComplete n a1 s).2 := fun s h => by
  unfold vecComplete
  beta_reduce
  extract_lets +onlyGivenNames ws r _ put part _ _ s3 s4
  have h3 : memoriesCanonical s3 := by
    unfold s3
    split
    · exact keeps_wrB (keeps_updCore (keeps_updEng (keeps_memStore (keeps_eachDo (fun _ => keeps_reportUnc) h))))
    · exact keeps_updEng (keeps_memStore (keeps_eachDo (fun _ => keeps_reportUnc) h))
  have h4 : memoriesCanonical s4 := by
    unfold s4
    split
    · exact keeps_cntAdd h3
    · exact h3
  exact keeps_showConv (keeps_itemDone (keeps_tokSignal (keeps_updCore (keeps_vecFlags (canon_ite (keeps_wrB h4) h4)))))

theorem keeps_vecVoid {n a1} : Keeps (vecVoid n a1) := fun s h => by
  unfold vecVoid
  extract_lets +onlyGivenNames r s0 f old keys e
  have h0 : memoriesCanonical s0 := keeps_eachDo (fun _ => keeps_mixWrite) h
  split
  · exact keeps_draw (keeps_updEng h0)
  · exact keeps_draw (keeps_updEng h0)
  · exact h0

theorem keeps_voidCount {n k} : Keeps (voidCount n k) := fun _ h => canon_ite h (keeps_inc (keeps_seqEvt h))

theorem keeps_voidAll {n} : Keeps (voidAll n) := fun _ h =>
  keeps_showConv (keeps_showUnits (keeps_voidCount (keeps_wrB
    (keeps_wrF (keeps_wrB (keeps_updCore (keeps_eachDo (fun _ => keeps_vecVoid)
      (keeps_eachDo (fun _ _ h => keeps_setBuf h) (keeps_eachDo (fun _ => keeps_dmaVoid) h)))))))))

theorem keeps_discardWaiting {n} : Keeps (discardWaiting n) := fun _ h =>
  keeps_showConv (keeps_showUnits (keeps_wrB (keeps_wrF (keeps_draw (keeps_updCore h)))))

theorem keeps_flushSettle {n} : Keeps (flushSettle n) := fun _ h => canon_ite (keeps_wrB (keeps_updCore h)) h

theorem keeps_flushCore {n grace} : Keeps (flushCore n grace) := fun _ h =>
  canon_ite (keeps_flushSettle (keeps_wrB (keeps_updCore (keeps_discardWaiting h)))) (keeps_updCore (keeps_voidAll h))

/-! ### Jobs and queues -/

theorem keeps_acct {p o n} : Keeps (acct p o n) := fun _ h => keeps_cntAdd h

theorem keeps_updJob {p num f} : Keeps (updJob p num f) := fun _ h => ⟨h.1, h.2⟩

theorem keeps_dropJob {p num} : Keeps (dropJob p num) := fun _ h => ⟨h.1, h.2⟩

theorem keeps_showSched {p} : Keeps (showSched p) := fun _ h => keeps_eachDo (fun _ _ h => keeps_wrF h) (keeps_wrF (keeps_wr h))

theorem keeps_schedEvt {p bit} : Keeps (schedEvt p bit) := fun _ h => keeps_fireInt (keeps_fireInt (keeps_wrB h))

theorem keeps_freeCore {n} : Keeps (freeCore n) := fun _ h => canon_ite h (keeps_showPc (keeps_wrF (keeps_updCore (keeps_acct ⟨h.1, h.2⟩))))

theorem keeps_resultLog {slot epoch j mask hi} : Keeps (resultLog slot epoch j mask hi) := fun _ h =>
  canon_ite (keeps_inc h) (keeps_inc (keeps_devWrite h))

theorem keeps_countPost {j late} : Keeps (countPost j late) := fun s h => by
  unfold countPost
  extract_lets +onlyGivenNames b left s0
  have h0 : memoriesCanonical s0 := keeps_wr h
  exact canon_ite (keeps_inc (keeps_acct (canon_ite (keeps_wr h0) h0))) (canon_ite (keeps_wr h0) h0)

theorem keeps_keepRunning {j} : Keeps (keepRunning j) := fun _ h => canon_ite (keeps_eachDo (fun _ => keeps_updCore) h) h

theorem keeps_handOver {n q} : Keeps (handOver n q) := fun s h => by
  unfold handOver
  extract_lets +onlyGivenNames left j r posted kept
  have hleft : memoriesCanonical left := keeps_updCore h
  have hr : memoriesCanonical r.2 := keeps_ledgerPost hleft
  have hposted : memoriesCanonical posted := by
    unfold posted
    clear_value j r left
    split
    · split
      · exact canon_ite (keeps_resultLog hleft) hleft
      · exact hleft
    · split
      · exact canon_ite (keeps_countPost hr) hr
      · exact hr
  have hkept : memoriesCanonical kept := by
    unfold kept
    clear_value posted j
    split
    · exact canon_ite (keeps_keepRunning (keeps_updJob hposted)) hposted
    · exact hposted
  exact keeps_itemDone hkept

theorem keeps_handOverAll {j} : Keeps (handOverAll j) := fun _ h =>
  keeps_eachDo (fun _ _ h => keeps_eachDo (fun _ _ h => canon_ite (keeps_handOver h) h) h) h

theorem keeps_stopCores {ns} : Keeps (stopCores ns) := fun _ h => keeps_eachDo (fun _ _ h => keeps_flushCore (keeps_freeCore h)) h

theorem keeps_showLate {st} : Keeps (showLate st) := fun _ h => keeps_wrB h

theorem keeps_lastPreDusk {j} : Keeps (lastPreDusk j) := fun _ h => canon_ite (keeps_updStrm h) h

theorem keeps_jobEnd {p num o} : Keeps (jobEnd p num o) := fun s h => by
  unfold jobEnd
  split
  · exact h
  · extract_lets +onlyGivenNames s0 s1 _ s3
    have h0 : memoriesCanonical s0 := by
      unfold s0
      refine keeps_stopCores ?_
      split
      · exact keeps_handOverAll h
      · exact h
    have h1 : memoriesCanonical s1 := by
      unfold s1
      split
      · exact keeps_acct h0
      · exact keeps_acct h0
      · exact keeps_acct h0
      · exact keeps_inc (keeps_acct h0)
    have h3 : memoriesCanonical s3 := keeps_showLate (keeps_lastPreDusk (keeps_ledgerJobEnded (keeps_dropJob (canon_ite (keeps_acct h1) h1))))
    exact keeps_showSched (canon_ite h3 (keeps_windowDone h3))

theorem keeps_coreEnded {n} : Keeps (coreEnded n) := fun s h => by
  unfold coreEnded
  extract_lets +onlyGivenNames c
  split
  · exact h
  · extract_lets +onlyGivenNames p _ s1
    have h1 : memoriesCanonical s1 := keeps_updJob (keeps_freeCore (keeps_updCore h))
    split
    · exact canon_ite (keeps_jobEnd h1) (keeps_showSched h1)
    · exact h1

theorem keeps_coreFails {n o} : Keeps (coreFails n o) := fun s h => by
  dsimp only [coreFails]
  split
  · exact keeps_flushCore h
  · exact keeps_jobEnd (keeps_flushCore (keeps_freeCore h))

theorem keeps_retargetDusk {st} : Keeps (retargetDusk st) := fun _ h => ⟨h.1, h.2⟩

theorem keeps_duskIn {st} : Keeps (duskIn st) := fun s h => by
  unfold duskIn
  split
  · exact h
  · exact keeps_retargetDusk (keeps_updStrm (canon_with (keeps_inc (keeps_schedEvt (keeps_wrF h)))))

theorem keeps_predicts {p num st overRate} : Keeps (predicts p num st overRate) := fun s h => by
  unfold predicts
  refine canon_ite (keeps_showLate (keeps_updJob h)) ?_
  extract_lets +onlyGivenNames s1
  have h1 : memoriesCanonical s1 := keeps_updStrm (keeps_updJob h)
  exact canon_ite (canon_ite (keeps_duskIn h1) h1) (keeps_showLate (canon_ite h1 (keeps_schedEvt h1)))

theorem keeps_monitorJob {p num aNs} : Keeps (monitorJob p num aNs) := fun s h => by
  unfold monitorJob
  split
  · exact h
  · exact canon_ite h (keeps_predicts h)

theorem keeps_monitorTimeout {n} : Keeps (monitorTimeout n) := fun s h => by
  dsimp only [monitorTimeout]
  split
  · exact h
  · split
    · exact canon_ite h (keeps_predicts h)
    · exact h

theorem keeps_startCore {p j m slotAddr idx n} : Keeps (startCore p j m slotAddr idx n) := fun _ h =>
  keeps_showPc (keeps_wrB (keeps_wrF (keeps_wr (keeps_wr (keeps_eachDo (fun _ => keeps_wr) (keeps_updCore h))))))

theorem keeps_restoreCore {n bs} : Keeps (restoreCore n bs) := fun _ h => keeps_showPc (keeps_eachDo (fun _ => keeps_wr) (keeps_updCore h))

theorem keeps_resumeCores {p a : Nat} : ∀ {ns}, Keeps (resumeCores p a ns)
  | [], _, h => h
  | _ :: _, _, h => canon_ite (keeps_coreFails (keeps_devRead h)) (keeps_resumeCores (keeps_restoreCore (keeps_devRead h)))

theorem keeps_startJob {p j place} : Keeps (startJob p j place) := fun s h => by
  unfold startJob
  split
  · split
    · exact h
    · extract_lets +onlyGivenNames a resumed j' _ _ s2
      have h2 : memoriesCanonical s2 :=
        keeps_eachDo (fun _ _ h => keeps_eachDo (fun _ => keeps_wr) h) (keeps_devWrite (keeps_updJob (canon_ite h (keeps_draw h))))
      exact keeps_showSched (canon_ite (keeps_resumeCores (keeps_eachDo (fun _ => keeps_startCore) h2))
        (keeps_eachDo (fun _ => keeps_startCore) h2))
  · exact h

theorem keeps_askYield {f p} : Keeps (askYield f p) := fun _ h =>
  keeps_eachDo (fun _ _ h => canon_ite (keeps_eachDo (fun _ => keeps_updCore) h) h) h

/-! ### Admission -/

theorem keeps_showPace {p} : Keeps (showPace p) := fun _ h => keeps_wr h

/-! ### Errors in stored words -/

theorem keeps_countHour {m unit} : Keeps (countHour m unit) := fun _ h => canon_ite (keeps_raiseFault ⟨h.1, h.2⟩) ⟨h.1, h.2⟩

theorem keeps_eccCorrected {a} : Keeps (eccCorrected a) := fun _ h =>
  canon_ite (keeps_countHour (keeps_inc (keeps_wrB h))) (canon_ite (keeps_countHour (keeps_inc (keeps_wrB h)))
    (canon_ite (keeps_countHour (keeps_inc (keeps_wrB h))) (canon_ite (keeps_countHour h) h)))

theorem keeps_eccStack {a} : Keeps (eccStack a) := fun _ h => canon_ite (keeps_inc (keeps_wrB h)) h

theorem keeps_poisonWord {a} : Keeps (poisonWord a) := fun _ h => keeps_reportUnc (keeps_spoil h)

theorem keeps_showScrub {a} : Keeps (showScrub a) := fun _ h => canon_ite (keeps_wr (keeps_wrB h)) (canon_ite (keeps_wrB h) h)

theorem keeps_scrubMem {a e} : Keeps (scrubMem a e) := fun s h => by
  unfold scrubMem
  refine canon_ite h ?_
  extract_lets +onlyGivenNames s0
  have h0 : memoriesCanonical s0 := keeps_showScrub h
  split
  · exact h0
  · exact keeps_eccCorrected h0
  · exact keeps_eccStack h0
  · exact keeps_poisonWord h0

theorem keeps_scrubTable {st e} : Keeps (scrubTable st e) := fun s h => by
  dsimp only [scrubTable]
  split
  · exact h
  · exact h
  · exact keeps_inc h
  · split
    · exact keeps_raiseFault (keeps_feEvt (keeps_updFe h))
    · exact keeps_feEvt (keeps_updFe h)

theorem keeps_scrubBody {w e} : Keeps (scrubBody w e) := fun s h => by
  unfold scrubBody
  split
  · exact keeps_scrubMem h
  · exact canon_ite (keeps_scrubTable h) h

/-! ### The core sequencer -/

theorem keeps_trapCore {n cause arg w} : Keeps (trapCore n cause arg w) := fun _ h =>
  keeps_raiseFault (keeps_wrB (keeps_coreFails (keeps_inc (keeps_seqEvt (keeps_wr (keeps_wr (keeps_wr (keeps_wr (keeps_wr h)))))))))

theorem keeps_memErrCore {n} : Keeps (memErrCore n) := fun _ h => keeps_coreFails h

theorem keeps_issue {n body} {s : State} (hbody : Keeps body) (h : memoriesCanonical s) : memoriesCanonical (issue n body s) :=
  canon_ite h (canon_ite (keeps_trapCore (keeps_refuseAccess h)) (canon_ite (keeps_memErrCore (keeps_reportUnc h)) (hbody h)))

theorem keeps_aluBody {f n a2 rs rt useImm imm} : Keeps (aluBody f n a2 rs rt useImm imm) := fun _ h => keeps_advance (keeps_setS h)

theorem keeps_ldBody {n a1 ab imm w} : Keeps (ldBody n a1 ab imm w) := fun _ h =>
  canon_ite (keeps_trapCore h) (canon_ite (keeps_memErrCore (keeps_eachDo (fun _ => keeps_reportUnc) h)) (keeps_advance (keeps_setS h)))

theorem keeps_stBody {n rs ab imm w} : Keeps (stBody n rs ab imm w) := fun _ h =>
  canon_ite (keeps_trapCore h) (canon_ite (keeps_stall h) (canon_ite (keeps_memErrCore (keeps_eachDo (fun _ => keeps_reportUnc) h))
    (keeps_advance (keeps_memWrite h))))

theorem keeps_brBody {n rs rt c useImm imm off} : Keeps (brBody n rs rt c useImm imm off) := fun _ h =>
  canon_ite (keeps_branchTo (keeps_countWord h)) (keeps_advance h)

theorem keeps_loopBody {n rs off w} : Keeps (loopBody n rs off w) := fun _ h =>
  canon_ite (keeps_trapCore h) (canon_ite (keeps_setPc (keeps_countWord h)) (canon_ite (keeps_trapCore h) (keeps_setPc (keeps_countWord h))))

theorem keeps_waitBody {n k rs tmo off} : Keeps (waitBody n k rs tmo off) := fun _ h =>
  canon_ite (keeps_advance h) (keeps_updCore (keeps_wrF (keeps_wrB h)))

theorem keeps_waitDone {n} : Keeps (waitDone n) := fun _ h => keeps_advance (keeps_updCore (keeps_wrB (keeps_wrF (keeps_wrB (keeps_wrB h)))))

theorem keeps_waitExpire {n off} : Keeps (waitExpire n off) := fun _ h =>
  keeps_branchTo (keeps_countWord (keeps_updCore (keeps_wrB (keeps_wrF (keeps_wrB (keeps_wrB h))))))

theorem keeps_waitCompleteBody {n} : Keeps (waitCompleteBody n) := fun s h => by
  unfold waitCompleteBody
  split
  · exact canon_ite (keeps_waitDone h) h
  · exact h

theorem keeps_tokTimeoutBody {n} : Keeps (tokTimeoutBody n) := fun s h => by
  unfold tokTimeoutBody
  split
  · exact canon_ite h (keeps_monitorTimeout (keeps_waitExpire (keeps_inc (keeps_seqEvt h))))
  · exact h

theorem keeps_pwaitBody {n peer k tag rs tmo off} : Keeps (pwaitBody n peer k tag rs tmo off) := fun s h => by
  unfold pwaitBody
  split
  · exact keeps_advance h
  · exact canon_ite (keeps_advance h) (keeps_updCore (keeps_inc (keeps_wrB (keeps_wrB h))))

theorem keeps_progCompleteBody {n} : Keeps (progCompleteBody n) := fun s h => by
  unfold progCompleteBody
  split
  · exact canon_ite (keeps_waitDone h) h
  · exact h

theorem keeps_progTimeoutBody {n} : Keeps (progTimeoutBody n) := fun s h => by
  unfold progTimeoutBody
  split
  · exact canon_ite h (keeps_monitorTimeout (keeps_waitExpire (keeps_inc (keeps_wrB h))))
  · exact h

theorem keeps_endSettle {n} : Keeps (endSettle n) := fun _ h => canon_ite (keeps_coreEnded h) h

theorem keeps_settle {n} : Keeps (settle n) := fun _ h => keeps_flushSettle (keeps_endSettle h)

theorem keeps_signalBody {n k units} : Keeps (signalBody n k units) := fun _ h =>
  canon_ite (keeps_advance (keeps_tokInc h)) (keeps_advance (keeps_updCore h))

theorem keeps_signalFireBody {n} : Keeps (signalFireBody n) := fun s h => by
  unfold signalFireBody
  split
  · exact h
  · exact keeps_settle (keeps_tokInc (keeps_updCore h))

theorem keeps_padvBody {n k tag rs} : Keeps (padvBody n k tag rs) := fun _ h => keeps_advance (keeps_updCore h)

theorem keeps_publishBody {n} : Keeps (publishBody n) := fun s h => by
  unfold publishBody
  split
  · exact canon_ite (keeps_settle (keeps_wr (keeps_updCore h))) h
  · exact h

theorem keeps_markBody {aNs n m} : Keeps (markBody aNs n m) := fun s h => by
  unfold markBody
  extract_lets +onlyGivenNames s0 c
  have h0 : memoriesCanonical s0 := keeps_advance h
  split
  · exact h0
  · extract_lets +onlyGivenNames _
    split
    · exact keeps_monitorJob (keeps_updJob h0)
    · exact keeps_updJob h0

theorem keeps_yieldBody {n off} : Keeps (yieldBody n off) := fun _ h => canon_ite (keeps_updCore (keeps_countWord h)) (keeps_advance h)

theorem keeps_yieldSaveBody {n} : Keeps (yieldSaveBody n) := fun s h => by
  dsimp only [yieldSaveBody]
  split
  · exact canon_ite h (keeps_showSched (keeps_updJob (keeps_wrB
      (keeps_freeCore (keeps_updCore (keeps_acct (keeps_inc (keeps_seqEvt (keeps_devWrite h)))))))))
  · exact h

theorem keeps_endBody {n} : Keeps (endBody n) := fun _ h => keeps_endSettle (keeps_updCore (keeps_countWord h))

theorem keeps_testfBody {n a1} : Keeps (testfBody n a1) := fun _ h => keeps_advance (keeps_setS (keeps_updCore h))

theorem keeps_copyBody {n q ad tok w} : Keeps (copyBody n q ad tok w) := fun s h => by
  dsimp only [copyBody]
  refine canon_ite (keeps_trapCore h) ?_
  refine canon_ite (keeps_stall h) ?_
  refine canon_ite (keeps_memErrCore (keeps_eachDo (fun _ => keeps_reportUnc) h)) ?_
  refine canon_ite (keeps_trapCore h) ?_
  exact keeps_advance (keeps_showUnits (keeps_updCore (keeps_newItem h)))

theorem keeps_eccHits {hit es s} (hhit : ∀ a, Keeps (hit a)) (h : memoriesCanonical s) : memoriesCanonical (eccHits hit es s) :=
  keeps_eachDo (fun _ _ h => canon_ite (keeps_spoil h) (hhit _ h)) h

theorem keeps_dmaCompleteBody {corr n q ecc s} (hcorr : ∀ a, Keeps (corr a)) (h : memoriesCanonical s) :
    memoriesCanonical (dmaCompleteBody corr n q ecc s) := by
  dsimp only [dmaCompleteBody]
  split
  · exact h
  · exact canon_ite h (canon_ite (keeps_memErrCore (keeps_dmaComplete (keeps_eccHits hcorr h)))
      (keeps_settle (keeps_dmaComplete (keeps_eccHits hcorr h))))

theorem keeps_tloadBody {n mode b ad off tok w} : Keeps (tloadBody n mode b ad off tok w) := fun s h => by
  dsimp only [tloadBody]
  refine canon_ite (keeps_trapCore h) ?_
  exact keeps_advance (keeps_showUnits (keeps_beginLoad (keeps_updEng (keeps_newItem h))))

theorem keeps_loadCompleteBody {n} : Keeps (loadCompleteBody n) := fun s h => by
  dsimp only [loadCompleteBody]
  split
  · exact h
  · refine canon_ite h ?_
    exact canon_ite (keeps_memErrCore (keeps_loadComplete h)) (keeps_settle (keeps_loadComplete h))

theorem keeps_takeInjection {n} : Keeps fun s => (takeInjection n s).2 := fun _ h => canon_ite_snd (keeps_wrB (keeps_wrB h)) h

theorem keeps_tstreamBody {n t w} : Keeps (tstreamBody n t w) := fun s h => by
  dsimp only [tstreamBody]
  refine canon_ite (keeps_trapCore h) ?_
  refine canon_ite (keeps_stall h) ?_
  refine canon_ite (keeps_trapCore h) ?_
  refine canon_ite (keeps_trapCore (keeps_wrB h)) ?_
  refine canon_ite (keeps_trapCore (keeps_wrB h)) ?_
  exact keeps_advance (keeps_showConv (keeps_showUnits (keeps_updCore (keeps_takeInjection (keeps_newItem h)))))

theorem keeps_quarantine {n} : Keeps (quarantine n) := fun s h => by
  dsimp only [quarantine]
  split
  · exact keeps_updPart (keeps_wrF (keeps_auditEvent (keeps_raiseFault (canon_with (keeps_wrB (keeps_wrB (keeps_flushCore (keeps_freeCore h))))))))
  · exact keeps_auditEvent (keeps_raiseFault (canon_with (keeps_wrB (keeps_wrB (keeps_flushCore (keeps_freeCore h))))))

theorem keeps_lastFail {n kind col vec} : Keeps (lastFail n kind col vec) := fun _ h => keeps_wr h

theorem keeps_residueFail {n lane row} : Keeps (residueFail n lane row) := fun _ h =>
  keeps_quarantine (keeps_raiseFault (keeps_lastFail (keeps_wrB h)))

theorem keeps_opFail {n o col row} : Keeps (opFail n o col row) := fun s h => by
  unfold opFail
  extract_lets +onlyGivenNames b _ s1 s2
  have h1 : memoriesCanonical s1 := canon_ite (keeps_wrB (canon_ite (keeps_wrB h) h)) (canon_ite (keeps_wrB h) h)
  have h2 : memoriesCanonical s2 := by
    unfold s2
    split
    · exact keeps_lastFail h1
    · exact keeps_lastFail h1
    · exact h1
  exact canon_ite (keeps_quarantine h2) (keeps_raiseFault (keeps_showUnits (keeps_updEng (keeps_inc h2))))

theorem keeps_verdictBody {n e} : Keeps (verdictBody n e) := fun s h => by
  unfold verdictBody
  split
  · exact h
  next o _ _ =>
    refine canon_ite h (canon_ite (keeps_memErrCore (keeps_eachDo (fun _ => keeps_reportUnc) h)) ?_)
    extract_lets +onlyGivenNames injected
    have hinjected : memoriesCanonical injected := by
      unfold injected
      split
      · exact canon_ite (keeps_setBuf h) h
      · exact h
    clear_value injected
    dsimp only
    split
    · refine keeps_residueFail ?_
      split
      · exact keeps_updEng (keeps_countBeats hinjected)
      · exact keeps_countBeats hinjected
    · refine canon_ite (keeps_settle (keeps_opPass ?_)) (keeps_opFail ?_) <;> split
      · exact keeps_updEng (keeps_countBeats hinjected)
      · exact keeps_countBeats hinjected
      · exact keeps_updEng (keeps_countBeats hinjected)
      · exact keeps_countBeats hinjected

theorem keeps_ccfgBody {n ad tok w} : Keeps (ccfgBody n ad tok w) := fun s h => by
  dsimp only [ccfgBody]
  refine canon_ite (keeps_trapCore (keeps_wrB h)) ?_
  refine canon_ite (keeps_memErrCore (keeps_eachDo (fun _ => keeps_reportUnc) h)) ?_
  refine canon_ite (keeps_trapCore (keeps_wrB h)) ?_
  exact keeps_advance (keeps_updCore (keeps_newItem h))

theorem keeps_ccfgCompleteBody {n} : Keeps (ccfgCompleteBody n) := fun s h => by
  unfold ccfgCompleteBody
  split
  · exact h
  · exact canon_ite h (keeps_settle (keeps_cfgComplete h))

theorem keeps_cstartBody {n rs rt} : Keeps (cstartBody n rs rt) := fun _ h => canon_ite (keeps_stall h) (keeps_advance (keeps_updCore h))

theorem keeps_vecIssue {n op tok} : Keeps (vecIssue n op tok) := fun s h => by
  dsimp only [vecIssue]
  exact keeps_advance (keeps_showConv (keeps_showUnits (keeps_updCore (keeps_newItem h))))

theorem keeps_vecWord {n op tok bad mix w} : Keeps (vecWord n op tok bad mix w) := fun _ h =>
  canon_ite (keeps_stall h) (canon_ite (keeps_trapCore h) (canon_ite (keeps_trapCore h) (keeps_vecIssue h)))

theorem keeps_vparamBody {n ps ad tok w} : Keeps (vparamBody n ps ad tok w) := fun _ h => keeps_vecWord h

theorem keeps_vqBody {n a1 w} : Keeps (vqBody n a1 w) := fun _ h =>
  canon_ite (keeps_memErrCore (keeps_eachDo (fun _ => keeps_reportUnc) h)) (keeps_vecWord h)

theorem keeps_vrawstBody {n mode rs rt ad tok w} : Keeps (vrawstBody n mode rs rt ad tok w) := fun _ h => keeps_vecWord h

theorem keeps_vrawaddBody {n mode rs rt a4 tok w} : Keeps (vrawaddBody n mode rs rt a4 tok w) := fun _ h => keeps_vecWord h

theorem keeps_vpoolBody {n sum init rs rt tok w} : Keeps (vpoolBody n sum init rs rt tok w) := fun _ h =>
  canon_ite (keeps_stall h) (canon_ite (keeps_trapCore h) (canon_ite (keeps_trapCore (keeps_wrB h))
    (canon_ite (keeps_trapCore h) (keeps_vecIssue (keeps_updCore h)))))

theorem keeps_vcvtBody {n a1 w} : Keeps (vcvtBody n a1 w) := fun _ h => keeps_vecWord h

theorem keeps_vewBody {n a1 w} : Keeps (vewBody n a1 w) := fun _ h => keeps_vecWord h

theorem keeps_vecCompleteBody {n} : Keeps (vecCompleteBody n) := fun s h => by
  dsimp only [vecCompleteBody]
  split
  · exact h
  · refine canon_ite h ?_
    split
    · exact keeps_residueFail h
    · exact canon_ite (keeps_memErrCore (keeps_vecComplete h)) (keeps_settle (keeps_vecComplete h))

theorem keeps_postBody {n rs rt w} : Keeps (postBody n rs rt w) := fun s h => by
  dsimp only [postBody]
  split
  · exact h
  · refine canon_ite (keeps_advance (keeps_inc (keeps_seqEvt h))) ?_
    refine canon_ite (keeps_trapCore h) ?_
    refine canon_ite (keeps_stall h) ?_
    exact keeps_advance (keeps_updCore (keeps_updJob (keeps_newItem h)))

theorem keeps_sysTrapBody {n imm w} : Keeps (sysTrapBody n imm w) := fun _ h => keeps_trapCore h

theorem keeps_graceBody {n} : Keeps (graceBody n) := fun _ h => canon_ite (keeps_voidAll h) h

/-! ### The scheduler's commands -/

theorem keeps_fillWindows {st} : Keeps (fillWindows st) := fun _ h => keeps_updStrm h

theorem keeps_takeWindow {st} : Keeps fun s => (takeWindow st s).2 := fun _ h => canon_ite_snd (keeps_updStrm h) (keeps_updStrm h)

theorem keeps_addJob {j} : Keeps fun s => (addJob j s).2 := fun _ h =>
  canon_ite_snd (keeps_schedEvt (keeps_inc h)) (canon_with (canon_ite (keeps_inc (keeps_acct (keeps_updPart h))) (keeps_updPart h)))

theorem keeps_addJobs {js} : Keeps fun s => (addJobs js s).2 := fun _ h => canon_foldl (fun _ _ h => keeps_addJob h) h

theorem keeps_windowIssue {st} : Keeps (windowIssue st) := fun s h => by
  have hwin : memoriesCanonical (takeWin st s).2 := keeps_takeWin h
  dsimp only [windowIssue]
  split
  next w t p heq _ =>
    have ht : memoriesCanonical t := canon_of_pair heq hwin
    split
    · exact keeps_showSched (canon_ite (keeps_windowDone (keeps_addJobs ht)) (keeps_addJobs ht))
    · refine keeps_showSched (canon_ite (keeps_windowDone (canon_with (keeps_openEntry (keeps_addJobs ?_))))
        (canon_with (keeps_openEntry (keeps_addJobs ?_)))) <;>
      exact canon_ite (keeps_schedEvt (canon_ite_snd (keeps_takeWindow ht) ht)) (canon_ite_snd (keeps_takeWindow ht) ht)
  next heq _ => exact canon_of_pair heq hwin

theorem keeps_skipLate {p : Nat} : ∀ {k}, Keeps (skipLate p k)
  | 0, _, h => h
  | k + 1, s, h => by
    dsimp only [skipLate]
    split
    · exact h
    · exact canon_ite (keeps_skipLate (keeps_jobEnd h)) h

theorem keeps_jobStartBody {p} : Keeps (jobStartBody p) := fun s h => by
  unfold jobStartBody
  refine canon_ite h ?_
  extract_lets +onlyGivenNames s0
  have h0 : memoriesCanonical s0 := keeps_skipLate h
  split
  · exact h0
  · split
    · exact h0
    · split
      · exact keeps_monitorJob (keeps_startJob h0)
      · exact canon_ite (keeps_askYield h0) h0

theorem keeps_monitorEval {p num} : Keeps (monitorEval p num) := fun s h => by
  unfold monitorEval
  split
  · exact keeps_monitorJob h
  · exact h

theorem keeps_duskExitBody {st} : Keeps (duskExitBody st) := fun _ h => canon_ite (keeps_wrF h) h

theorem keeps_loadWeights {p n m} : Keeps (loadWeights p n m) := fun _ h => keeps_devWrite (keeps_devRead h)

theorem keeps_loadEntering {p hs} : Keeps (loadEntering p hs) := fun _ h => keeps_eachDo (by
    intro _ s h
    dsimp only
    split
    · exact keeps_eachDo (fun _ => keeps_loadWeights) h
    · exact h) h

theorem keeps_switchStart {p w} : Keeps (switchStart p w) := fun _ h => keeps_askYield (keeps_wrB (keeps_updPart h))

theorem keeps_switchJob {w leaving j} : Keeps (switchJob w leaving j) := fun s h => by
  unfold switchJob
  refine canon_ite h ?_
  split
  · exact keeps_updJob (canon_ite (keeps_acct h) h)
  · exact keeps_jobEnd h

theorem keeps_switchBody {p} : Keeps (switchBody p) := fun s h => by
  unfold switchBody
  split
  · exact h
  · refine canon_ite h ?_
    extract_lets +onlyGivenNames now leaving _ _ _ s3
    have h3 : memoriesCanonical s3 := keeps_showSched (keeps_wrB (keeps_updPart (keeps_loadEntering (keeps_eachDo (fun _ => keeps_switchJob) h))))
    split
    · exact canon_ite (keeps_finish h3) h3
    · exact h3

theorem keeps_showRun {p} : Keeps (showRun p) := fun _ h => canon_ite h (keeps_wrF h)

theorem keeps_haltPart {p} : Keeps (haltPart p) := fun _ h =>
  keeps_showSched (keeps_schedEvt (keeps_raiseFault (keeps_updPart (keeps_eachDo (fun _ => keeps_jobEnd) (keeps_wrF h)))))

theorem keeps_migrateJob {n j} : Keeps (migrateJob n j) := fun _ h => canon_ite (keeps_updJob (keeps_acct (keeps_freeCore (keeps_stopCores h)))) h

theorem keeps_holdDusk {p} : Keeps (holdDusk p) := fun _ h => keeps_wrB (keeps_eachDo (fun _ _ h => keeps_retargetDusk (keeps_wrF h)) h)

theorem keeps_unholdDusk {p} : Keeps (unholdDusk p) := fun _ h => keeps_wrB (keeps_eachDo (fun _ _ h => canon_ite (keeps_wrF h) h) h)

theorem keeps_applyPlan {p} : Keeps (applyPlan p) := fun s h => by
  unfold applyPlan
  extract_lets +onlyGivenNames a s0
  have h0 : memoriesCanonical s0 := keeps_showPace h
  exact canon_ite (keeps_showRun (keeps_unholdDusk h0)) (canon_ite (keeps_showRun (keeps_holdDusk h0)) (keeps_haltPart h0))

theorem keeps_showFixed {p} : Keeps (showFixed p) := fun _ h => keeps_wrB h

theorem keeps_replanBody {p} : Keeps (replanBody p) := fun s h => by
  unfold replanBody
  split
  · exact h
  · extract_lets +onlyGivenNames back _ _ _ s3 s4
    have h3 : memoriesCanonical s3 :=
      keeps_eachDo (fun _ _ h => keeps_eachDo (fun _ => keeps_migrateJob) h)
        (keeps_inc (canon_ite (keeps_updPart h) (keeps_loadEntering (keeps_wrF (keeps_updPart h)))))
    have h4 : memoriesCanonical s4 := canon_ite (keeps_showPace h3) (keeps_applyPlan h3)
    exact keeps_auditEvent (keeps_schedEvt (keeps_showSched (keeps_showFixed (canon_ite (keeps_raiseFault h4) h4))))

theorem keeps_handOverBody {n} : Keeps (handOverBody n) := fun s h => by
  unfold handOverBody
  split
  · exact h
  · exact keeps_settle (keeps_handOver h)

end Sys2Proof.Proofs
end

section
/-! Power, accounting and the commands of front ends and field island keep the memories canonical. -/

namespace Sys2Proof.Proofs

open Sys2Proof Sys2Proof.Machine Sys2Proof.Laws

/-! ### Power, temperature, pace and the Morning check -/

theorem keeps_showEn : Keeps showEn := fun _ h => keeps_wr (keeps_wr (keeps_wr h))

theorem keeps_showWipe : Keeps showWipe := fun _ h => keeps_eachDo (fun _ => keeps_wrB) (keeps_showWiping h)

theorem keeps_switchDom {on d} : Keeps (switchDom on d) := fun s h => by
  unfold switchDom
  refine canon_ite h ?_
  extract_lets +onlyGivenNames s0
  have h0 : memoriesCanonical s0 := keeps_wrB h
  exact canon_ite (canon_with (canon_ite (keeps_wrB h0) h0)) (canon_ite ⟨h0.1, h0.2⟩ h0)

theorem keeps_wipeDom {d} : Keeps (wipeDom d) := fun s h => by
  unfold wipeDom
  refine canon_ite h ?_
  extract_lets +onlyGivenNames s0
  have h0 : memoriesCanonical s0 := keeps_wipeSram h
  exact canon_ite h0 (canon_ite (canon_ite h0 (keeps_updCore h0)) (canon_ite (keeps_wipeTables h0) (keeps_wipeBuffers h0)))

theorem keeps_wipeAll : Keeps wipeAll := fun _ h => keeps_showWipe (keeps_eachDo (fun _ => keeps_wipeDom) h)

theorem keeps_setDomains : Keeps setDomains := fun _ h =>
  keeps_showWipe (keeps_showEn (keeps_eachDo (fun _ => keeps_switchDom) (keeps_eachDo (fun _ => keeps_switchDom) h)))

theorem keeps_setRail {k mv} : Keeps (setRail k mv) := fun _ h => keeps_wr h

theorem keeps_railsUp : Keeps railsUp := fun _ h => keeps_eachDo (fun _ _ h => keeps_setRail h) h

theorem keeps_showAge : Keeps showAge := fun _ h => keeps_wr (keeps_wr h)

theorem keeps_showBudget : Keeps showBudget := fun _ h => keeps_wr (keeps_wrB h)

theorem keeps_fillNoon : Keeps fillNoon := fun _ h => keeps_showBudget ⟨h.1, h.2⟩

theorem keeps_noonStep {p10} : Keeps (noonStep p10) := fun _ h =>
  canon_ite (keeps_raiseFault (keeps_inc (keeps_wrB (keeps_showBudget ⟨h.1, h.2⟩)))) (keeps_showBudget ⟨h.1, h.2⟩)

theorem keeps_showFloor : Keeps showFloor := fun _ h => canon_ite (keeps_raiseFault (keeps_inc (keeps_wrB (keeps_wrB h)))) (keeps_wrB h)

theorem keeps_detSlip : Keeps detSlip := fun _ h => canon_ite h (keeps_raiseFault (keeps_wrB (keeps_wrB h)))

theorem keeps_showLimit {g} : Keeps (showLimit g) := fun _ h =>
  canon_ite (keeps_raiseFault (keeps_wrB (keeps_wrB (keeps_wrB h)))) (keeps_wrB (keeps_wrB h))

theorem keeps_hbmHeat {a0 t} : Keeps (hbmHeat a0 t) := fun _ h => canon_ite h (keeps_wrF (keeps_wrF (keeps_draw h)))

theorem keeps_governorBody {g} : Keeps (governorBody g) := fun s h => by
  unfold governorBody
  refine canon_ite h ?_
  extract_lets powered tj heated sampled l lowered paced
  have hsampled : memoriesCanonical sampled := keeps_wr (keeps_hbmHeat (keeps_hbmHeat (keeps_wr (keeps_wr h))))
  have hlowered : memoriesCanonical lowered := keeps_eachDo (fun _ _ h => keeps_setRail h) hsampled
  have hpaced : memoriesCanonical paced :=
    canon_ite (canon_ite (keeps_detSlip hlowered) hlowered)
      (canon_ite (keeps_eachDo (fun _ _ h => keeps_setRail h) hsampled) hsampled)
  exact canon_ite hsampled (keeps_noonStep (keeps_showLimit (keeps_showFloor hpaced)))

theorem keeps_paceBody {live clu} : Keeps (paceBody live clu) := fun _ h =>
  canon_ite h (keeps_showFloor (keeps_eachDo (fun _ _ h => canon_ite (keeps_wr h) h)
    (keeps_eachDo (fun _ _ h => canon_ite (keeps_wr (keeps_wrF h)) h) h)))

theorem keeps_coresOff : Keeps coresOff := fun _ h => keeps_showEn (keeps_eachDo (fun _ => keeps_switchDom) ⟨h.1, h.2⟩)

theorem keeps_tripBody : Keeps tripBody := fun _ h =>
  canon_ite h (keeps_raiseFault (keeps_inc (keeps_wrB (keeps_wrB
    (keeps_coresOff (keeps_eachDo (fun _ => keeps_haltPart) (keeps_eachDo (fun _ => keeps_flushCore) h)))))))

theorem keeps_tripAck : Keeps fun s => (tripAck s).2 := fun _ h =>
  canon_ite_snd h (keeps_wrB (keeps_showEn (keeps_wipeAll (keeps_eachDo (fun _ => keeps_switchDom) h))))

theorem keeps_logAge {ns r} : Keeps (logAge ns r) := fun _ h => keeps_wr ⟨h.1, h.2⟩

theorem keeps_raiseDelta {ns} : Keeps (raiseDelta ns) := fun _ h => canon_ite h (canon_ite ⟨h.1, h.2⟩ (keeps_raiseFault ⟨h.1, h.2⟩))

theorem keeps_markUnfit : Keeps markUnfit := fun _ h => keeps_eachDo (fun _ _ h => canon_ite (keeps_raiseFault ⟨h.1, h.2⟩) ⟨h.1, h.2⟩) h

theorem keeps_replanPace {p} : Keeps (replanPace p) := fun _ h => canon_ite (keeps_applyPlan h) (keeps_showPace h)

theorem keeps_morningCheckOf {ns rs} : Keeps (morningCheckOf ns rs) := fun _ h =>
  keeps_wrB (keeps_wrB (keeps_auditEvent (keeps_markUnfit (keeps_eachDo (fun _ => keeps_replanPace)
    (keeps_eachDo (fun _ _ h => keeps_setRail h) (keeps_showAge
      (canon_with (keeps_eachDo (fun _ _ h => keeps_wrF ⟨h.1, h.2⟩) (keeps_raiseDelta (keeps_eachDo (fun _ => keeps_logAge) h))))))))))

theorem keeps_showAgeing : Keeps showAgeing := fun _ h => keeps_eachDo (fun _ _ h => keeps_wr (keeps_wr h)) (keeps_showAge h)

/-! ### Accounting -/

theorem keeps_wrPair {k v} : Keeps (wrPair k v) := fun _ h => keeps_wr (keeps_wr h)

theorem keeps_latchPart {p} : Keeps (latchPart p) := fun _ h => keeps_wrB (keeps_wrPair (keeps_eachDo (fun _ _ h => keeps_wrPair h) h))

theorem keeps_latchBody {fn p v} : Keeps (latchBody fn p v) := fun _ h => canon_ite (keeps_latchPart h) h

theorem keeps_modLatch {fn v} : Keeps (modLatch fn v) := fun _ h =>
  canon_ite (keeps_wrPair (keeps_wrPair (keeps_eachDo (fun _ => keeps_latchPart) h))) h

theorem keeps_chargeDomain {d e} : Keeps (chargeDomain d e) := fun _ h =>
  keeps_cntAdd (keeps_cntAdd (keeps_eachDo (fun _ _ h => canon_ite h (keeps_acct h)) h))

theorem keeps_energyBody {uj} : Keeps (energyBody uj) := fun _ h => canon_with (keeps_eachDo (fun _ => keeps_chargeDomain) h)

/-! ### Commands of the front ends -/

theorem keeps_fesCommit {fn st v} : Keeps (fesCommit fn st v) := fun _ h =>
  canon_ite h (canon_ite (keeps_feStat (keeps_updFe (keeps_feStat h))) (keeps_feStat h))

theorem keeps_startLoad {st addr cal} : Keeps (startLoad st addr cal) := fun _ h =>
  keeps_updFe (keeps_devRead (keeps_feStat (keeps_wrB (keeps_wrB (keeps_wrB (keeps_awaitTables h))))))

theorem keeps_tblStart {fn st v} : Keeps (tblStart fn st v) := fun _ h => canon_ite h (keeps_startLoad h)

theorem keeps_loadDone {st} : Keeps (loadDone st) := fun s h => by
  unfold loadDone
  extract_lets +onlyGivenNames f
  split
  · exact h
  · extract_lets +onlyGivenNames s0
    have h0 : memoriesCanonical s0 := keeps_wrB h
    exact canon_ite (keeps_wrB (keeps_updFe h0)) (canon_ite (keeps_feStat (keeps_updFe (keeps_feStat (keeps_wrB h0))))
      (keeps_updFe (keeps_feStat (keeps_wrB h0))))

/-! ### Commands of the motion unit and the field island -/

theorem keeps_countBody {i fwd} : Keeps (countBody i fwd) := fun _ h =>
  canon_ite h (canon_ite (keeps_wrF (keeps_wrB (keeps_updSrc h))) (keeps_posMoved (keeps_wrB (keeps_wr (keeps_wrF (keeps_wrB (keeps_updSrc h)))))))

theorem keeps_ssiEndBody {j raw} : Keeps (ssiEndBody j raw) := fun _ h =>
  canon_ite h (keeps_evalSrc (canon_ite (keeps_ssiWord h) (keeps_eachDo (fun _ => keeps_emuMove) (keeps_ssiWord h))))

theorem keeps_preset {i v} : Keeps fun s => (preset i v s).2 := fun _ h =>
  canon_ite_snd (canon_ite (keeps_wrB h) h) (keeps_wr (canon_ite (keeps_wrB (canon_with (keeps_updSrc h))) (canon_with (keeps_updSrc h))))

theorem keeps_ldsGo {st} : Keeps (ldsGo st) := fun s h => by
  unfold ldsGo
  split
  · exact h
  · exact canon_ite (keeps_wrF (keeps_eachDo (fun _ => keeps_takeShadow) h)) (keeps_wrB h)

theorem keeps_mirrorBody {p} : Keeps (mirrorBody p) := fun s h => by
  unfold mirrorBody
  split
  · exact h
  · exact canon_with (keeps_devWrite h)

theorem keeps_senseOne {i v} : Keeps (senseOne i v) := fun _ h => canon_with (canon_ite (keeps_inc (keeps_wrB h)) (canon_ite (keeps_wrB h) h))

theorem keeps_senseBody {smp} : Keeps (senseBody smp) := fun _ h => keeps_wr (keeps_eachDo (fun _ => keeps_senseOne) h)

theorem keeps_fioFault {groups} : Keeps (fioFault groups) := fun _ h =>
  keeps_raiseFault (keeps_showFio (keeps_inc (keeps_wrB (keeps_wrB ⟨h.1, h.2⟩))))

theorem keeps_groupTrip {g} : Keeps (groupTrip g) := fun _ h => keeps_fioFault ⟨h.1, h.2⟩

theorem keeps_supplyBack : Keeps supplyBack := fun _ h => canon_ite h (keeps_wr (keeps_wr ⟨h.1, h.2⟩))

theorem keeps_fioAck : Keeps fun s => (fioAck s).2 := fun _ h =>
  canon_ite_snd (canon_ite (keeps_draw h) h) (keeps_showFio (keeps_wrB
    (keeps_eachDo (fun _ _ h => keeps_showGrp (keeps_admitGrp (keeps_eachDo (fun _ => keeps_doOff) h))) (canon_with (canon_ite (keeps_draw h) h)))))

theorem keeps_heartbeat : Keeps heartbeat := fun _ h => keeps_showFio (keeps_inc (keeps_wrB ⟨h.1, h.2⟩))

theorem keeps_hbTimeout : Keeps hbTimeout := fun _ h => canon_ite (keeps_nightfall (keeps_wrB h)) h

theorem keeps_collide {coll bWrites} : Keeps (collide coll bWrites) := fun s h => by
  unfold collide
  split
  · exact ⟨h.1, h.2⟩
  · refine canon_ite ⟨h.1, h.2⟩ ?_
    extract_lets +onlyGivenNames _ s1
    have h1 : memoriesCanonical s1 := canon_ite (keeps_inc (keeps_wrB (canon_ite h (keeps_wr h)))) h
    exact keeps_showSup (canon_with (canon_ite (keeps_inc ⟨h1.1, h1.2⟩) h1))

theorem keeps_supCtl {v} : Keeps (supCtl v) := fun s h => by
  unfold supCtl
  extract_lets +onlyGivenNames s0
  have h0 : memoriesCanonical s0 := keeps_showFio (keeps_wr h)
  exact canon_ite (keeps_nightClear (canon_ite (keeps_nightfall h0) h0)) (canon_ite (keeps_nightfall h0) h0)

theorem keeps_supWrite {coll a v} : Keeps (supWrite coll a v) := fun _ h =>
  canon_ite (canon_ite (keeps_draw (keeps_memWrite h)) (keeps_memWrite h)) (canon_ite (keeps_supCtl h) h)

theorem keeps_supReadBody {addr words coll} : Keeps (supReadBody addr words coll) := fun s h => by
  unfold supReadBody
  refine canon_ite h ?_
  extract_lets +onlyGivenNames _ _ bad vs s1
  have h1 : memoriesCanonical s1 := keeps_eachDo (fun _ => keeps_reportUnc) (keeps_collide (canon_with (keeps_inc h)))
  exact canon_ite (keeps_draw h1) h1

theorem keeps_supWriteBody {addr data coll} : Keeps (supWriteBody addr data coll) := fun _ h =>
  canon_ite h (canon_ite (keeps_collide (keeps_eachDo (fun _ => keeps_supWrite) (keeps_inc h)))
    (keeps_showSup (keeps_inc (keeps_wrB (keeps_collide (keeps_eachDo (fun _ => keeps_supWrite) (keeps_inc h)))))))

theorem keeps_readStatus : Keeps readStatus := fun _ h => canon_ite h (keeps_wr (keeps_wr (keeps_inc ⟨h.1, h.2⟩)))

theorem keeps_mbxStatus : Keeps mbxStatus := fun s h => by
  unfold mbxStatus
  extract_lets +onlyGivenNames _ seq put
  have h1 : ∀ {x0 x1}, Keeps (put x0 x1) := fun h => keeps_memWrite h
  exact h1 (h1 (h1 (h1 (h1 (h1 (keeps_stewardMet h))))))

end Sys2Proof.Proofs
end

section
/-! Packages, replay, stream starts and the image in force keep the memories canonical. -/

namespace Sys2Proof.Proofs

open Sys2Proof Sys2Proof.Machine Sys2Proof.Laws

/-! ### Model packages -/

theorem keeps_showModels {p} : Keeps (showModels p) := fun _ h => keeps_wrF h

theorem keeps_loadModel {p addr key b} : Keeps fun s => (loadModel p addr key b s).2 := fun _ h =>
  keeps_showModels (canon_with (keeps_memStore (keeps_awaitRange h)))

theorem keeps_unloadModel {a0} : Keeps (unloadModel a0) := fun s h => by
  unfold unloadModel
  split
  · exact keeps_showModels ⟨h.1, h.2⟩
  · exact h

/-! ### Writes of stream settings -/

theorem keeps_wrMask {k m v} : Keeps (wrMask k m v) := fun _ h => keeps_wr h

theorem keeps_wrClear {k m v} : Keeps (wrClear k m v) := fun _ h => keeps_wr h

theorem keeps_wrLds {st o v} : Keeps (wrLds st o v) := fun _ h => keeps_wrB (keeps_wrMask h)

/-! ### Replay and calibration -/

theorem keeps_readCoded {n p a2} : Keeps fun s => (readCoded n p a2 s).2.2 := fun _ h => (keeps_devRead h)

theorem keeps_codedLine {n p a2} : Keeps fun s => (codedLine n p a2 s).2.2 := fun s h => by
  dsimp only [codedLine]
  split
  · exact keeps_readCoded h
  · exact keeps_inc (keeps_readCoded h)

theorem keeps_readCached {n p i} : Keeps fun s => (readCached n p i s).2 := fun _ h => canon_ite_snd (keeps_devRead h) (keeps_devRead h)

theorem keeps_cacheLine {n p k a3 planes} : Keeps (cacheLine n p k a3 planes) := fun _ h => canon_ite h (keeps_wr (keeps_updCds (keeps_devWrite h)))

theorem keeps_epochStart {n st} : Keeps (epochStart n st) := fun s h => by
  unfold epochStart
  extract_lets rewound
  have hrewound : memoriesCanonical rewound := keeps_updCds h
  exact keeps_updFe (keeps_feStart hrewound)

theorem keeps_replayStart {n st pace period epochs} : Keeps (replayStart n st pace period epochs) := fun s h => by
  dsimp only [replayStart]
  split
  · exact keeps_showRun (keeps_showSs (keeps_epochStart (keeps_updStrm (keeps_wr (keeps_wrB (keeps_setCdsState (keeps_draw (keeps_updCds h))))))))
  · exact keeps_epochStart (keeps_updStrm (keeps_wr (keeps_wrB (keeps_setCdsState (keeps_draw (keeps_updCds h))))))

theorem keeps_replayEnd {n st} : Keeps (replayEnd n st) := fun s h => by
  unfold replayEnd
  extract_lets +onlyGivenNames s0
  have h0 : memoriesCanonical s0 := keeps_setCdsState (keeps_updStrm (keeps_feStop h))
  split
  · exact keeps_showRun (keeps_showSs h0)
  · exact h0

theorem keeps_feedLine {n p k a3} : Keeps fun s => (feedLine n p k a3 s).2 := fun s h => by
  beta_reduce
  unfold feedLine
  extract_lets samples decode
  have hdecode {t : State} (ht : memoriesCanonical t) : memoriesCanonical (decode t).2 := by
    dsimp only [decode]
    refine canon_ite_snd h ?_
    dsimp only
    split
    · exact keeps_cacheLine (keeps_codedLine (keeps_codecLoad ht))
    · exact keeps_codedLine (keeps_codecLoad ht)
  clear_value decode
  split
  · dsimp only
    split
    · exact keeps_readCached h
    · exact hdecode (keeps_inc (keeps_readCached h))
  · exact hdecode h

theorem keeps_epochEnd {n st} : Keeps (epochEnd n st) := fun _ h =>
  canon_ite (keeps_replayEnd (keeps_inc h)) (keeps_epochStart (keeps_feStop (keeps_inc h)))

theorem keeps_feedBody {n} : Keeps (feedBody n) := fun s h => by
  unfold feedBody
  split
  · refine canon_ite h ?_
    extract_lets +onlyGivenNames s0
    have h0 : memoriesCanonical s0 := canon_ite h (keeps_drainFe h)
    refine canon_ite h0 ?_
    extract_lets +onlyGivenNames r
    split
    · exact keeps_feedLine ⟨h0.1, h0.2⟩
    · exact canon_ite (keeps_epochEnd (keeps_pushSlot (keeps_updCds (keeps_feedLine ⟨h0.1, h0.2⟩))))
        (keeps_pushSlot (keeps_updCds (keeps_feedLine ⟨h0.1, h0.2⟩)))
  · exact h

theorem keeps_goodLines {n p xs} : Keeps fun s => (goodLines n p xs s).2 := fun _ h =>
  canon_foldl (fun _ _ h => canon_ite_snd h (keeps_codedLine h)) h

theorem keeps_calStart {n args} : Keeps (calStart n args) := fun _ h => keeps_wr (keeps_wr (keeps_wr (keeps_setCdsState (keeps_updCds h))))

theorem keeps_showCal : Keeps showCal := fun _ h => canon_ite h (keeps_wrF h)

theorem keeps_calWrite {n stats} : Keeps (calWrite n stats) := fun _ h => canon_ite (keeps_startLoad (keeps_devWrite h)) (keeps_devWrite h)

/-! ### Stream starts and stops -/

theorem keeps_changeSet {fn d p was old repl} : Keeps (changeSet fn d p was old repl) := fun _ h =>
  canon_ite (keeps_switchBody (keeps_switchStart (keeps_updRing h))) (keeps_finish (keeps_loadEntering h))

theorem keeps_showMode {st} : Keeps (showMode st) := fun _ h => canon_ite h (keeps_wrF h)

theorem keeps_startGo {fn d p st} : Keeps (startGo fn d p st) := fun s h => by
  unfold startGo
  extract_lets +onlyGivenNames was old fresh s0 m _ s2
  have h0 : memoriesCanonical s0 := keeps_updStrm h
  have h2 : memoriesCanonical s2 :=
    canon_ite (keeps_fillWindows (keeps_fillBucket (keeps_showMode (keeps_wr (keeps_feStart (canon_ite (keeps_emuResync h0) h0))))))
      (canon_ite (keeps_emuResync h0) h0)
  exact keeps_changeSet (keeps_showFixed (keeps_showRun (keeps_showSs (canon_ite (keeps_wrF h2) h2))))

theorem keeps_stopStream {p st} : Keeps (stopStream p st) := fun _ h =>
  canon_ite (canon_ite (keeps_askYield h) h) (keeps_showSched
    (keeps_showRun (keeps_showSs (keeps_portDown (keeps_updStrm (keeps_feStop (canon_ite (keeps_askYield h) h)))))))

theorem keeps_disagree {k c} : Keeps (disagree k c) := fun _ h => canon_ite (keeps_raiseFault (keeps_auditEvent (keeps_draw h))) (keeps_eachDo (by
    intro _ s h
    dsimp only
    split
    · exact keeps_stopStream h
    · exact h) (keeps_raiseFault (keeps_auditEvent (keeps_draw h))))

theorem keeps_compareBody {k} : Keeps (compareBody k) := fun _ h =>
  canon_ite h (canon_ite (keeps_disagree (keeps_draw ⟨h.1, h.2⟩)) (keeps_draw ⟨h.1, h.2⟩))

/-! ### The image in force -/

theorem keeps_showStatus {p} : Keeps (showStatus p) := fun _ h => keeps_showModels (keeps_wrB (keeps_wrB (keeps_wrF h)))

theorem keeps_showPart {p} : Keeps (showPart p) := fun s h => by
  unfold showPart
  extract_lets +onlyGivenNames s0
  have h0 : memoriesCanonical s0 := keeps_showStatus h
  exact keeps_wrF (keeps_wr (keeps_wr (keeps_wr (canon_ite (keeps_wrF h0) (canon_ite h0 (keeps_wrF h0))))))

theorem keeps_showRegion {t r b} : Keeps (showRegion t r b) := fun _ h => keeps_wr (keeps_wr (keeps_wr (keeps_wr h)))

theorem keeps_showRegions : Keeps showRegions := fun _ h =>
  keeps_eachDo (fun _ _ h => keeps_eachDo (fun _ => keeps_showRegion) h) (keeps_regsReset h)

theorem keeps_showArbiter : Keeps showArbiter := fun _ h =>
  keeps_eachDo (fun _ _ h => keeps_wr h) (keeps_wr (keeps_eachDo (fun _ _ h => keeps_wr h) h))

theorem keeps_showMotion : Keeps showMotion := fun _ h =>
  keeps_eachDo (fun _ _ h => keeps_wr (keeps_wr h)) (keeps_eachDo (fun _ _ h => keeps_wr (keeps_wr (keeps_wr h)))
    (keeps_eachDo (fun _ _ h => keeps_wr (keeps_wr h)) h))

theorem keeps_showFieldio : Keeps showFieldio := fun _ h => keeps_wr (keeps_wr (keeps_wr (keeps_eachDo (fun _ => keeps_wr) h)))

theorem keeps_showLanes : Keeps showLanes := fun _ h => keeps_eachDo (fun _ _ h => keeps_wr h) h

theorem keeps_showTorus : Keeps showTorus := fun _ h => keeps_showSpan (keeps_wrF h)

theorem keeps_showImage : Keeps showImage := fun _ h =>
  keeps_showTorus (keeps_showLanes (keeps_showFieldio (keeps_showMotion
    (keeps_arbTake (keeps_showArbiter (keeps_eachDo (fun _ => keeps_showPart) (keeps_showRegions (keeps_wrB h))))))))

theorem keeps_clearMemory {old new} : Keeps (clearMemory old new) := fun _ h => keeps_eachDo (fun _ => keeps_memClear) h

theorem keeps_resetAll {rs} : Keeps (resetAll rs) := fun _ h => keeps_eachDo (fun _ => keeps_regsReset) h

theorem keeps_clearCore {n} : Keeps (clearCore n) := fun _ h => keeps_showUnits (keeps_updCore (keeps_memClear h))

theorem keeps_freshCore {n} : Keeps (freshCore n) := fun _ h => keeps_wrB (keeps_resetAll (keeps_memClear ⟨h.1, h.2⟩))

theorem keeps_clearCores {old new} : Keeps (clearCores old new) := fun _ h => keeps_eachDo (fun _ => keeps_freshCore) h

theorem keeps_clearQueues {new} : Keeps (clearQueues new) := fun _ h => keeps_eachDo (fun _ _ h => canon_ite h (canon_with (keeps_lqDiscard h))) h

theorem keeps_clearGroups {old new} : Keeps (clearGroups old new) := fun _ h =>
  keeps_eachDo (fun _ _ h => canon_ite h (keeps_showGrp (keeps_eachDo (fun _ => keeps_doOff) ⟨h.1, h.2⟩))) h

theorem keeps_clearSlots {old new} : Keeps (clearSlots old new) := fun s h => by
  unfold clearSlots
  extract_lets +onlyGivenNames e who wipe
  have h0 : ∀ {x0 x1}, Keeps (wipe x0 x1) := fun h => canon_ite h (keeps_memClear h)
  exact keeps_eachDo (fun _ _ h => canon_ite h (canon_with (keeps_regsReset (h0 (h0 h))))) h

theorem keeps_stillStream {st} : Keeps (stillStream st) := fun _ h => keeps_wrF (keeps_feStat (keeps_feStat (keeps_feStat (keeps_wr ⟨h.1, h.2⟩))))

theorem keeps_looseLanes {ns} : Keeps (looseLanes ns) := fun _ h =>
  keeps_eachDo (fun _ _ h => keeps_eachDo (fun _ _ h => keeps_takeShadow (keeps_wr h)) (keeps_wrF (keeps_wrF h))) h

theorem keeps_freshPort {moved st} : Keeps (freshPort moved st) := fun _ h =>
  keeps_setPortBit (keeps_setPortBit (keeps_wr (keeps_eachDo (fun _ _ h => keeps_takeShadow (keeps_wr h)) (canon_ite (keeps_looseLanes h) h))))

theorem keeps_keepBinds : Keeps keepBinds := fun _ h => ⟨h.1, h.2⟩

theorem keeps_freshSources {old} : Keeps (freshSources old) := fun _ h => keeps_eachDo (fun _ _ h => canon_ite h (keeps_wr (keeps_updSrc h))) h

theorem keeps_freshEmus {old} : Keeps (freshEmus old) := fun _ h => keeps_eachDo (fun _ _ h => canon_ite h (keeps_emuResync h)) h

theorem keeps_freshPorts : Keeps freshPorts := fun _ h => keeps_eachDo (by
    intro _ s h
    beta_reduce
    extract_lets +onlyGivenNames s0
    have h0 : memoriesCanonical s0 := canon_ite h (keeps_wrF h)
    exact canon_ite (keeps_setPtpState h0) (canon_ite (keeps_setPtpState h0) h0)) h

theorem keeps_freshLinks {old} : Keeps (freshLinks old) := fun _ h => canon_ite h (keeps_eachDo (fun _ => keeps_spanDown) h)

theorem keeps_freshPower {old} : Keeps (freshPower old) := fun _ h =>
  canon_ite (keeps_wrB h) (keeps_showBudget (canon_with (keeps_railsUp (keeps_wrB h))))

theorem keeps_restPart {gen p} : Keeps (restPart gen p) := fun _ h =>
  keeps_showSched (keeps_wrF (keeps_wrF (canon_ite (keeps_inc (canon_with (keeps_updPart h))) (canon_with (keeps_updPart h)))))

theorem keeps_endJobs {p} : Keeps (endJobs p) := fun _ h => keeps_eachDo (fun _ => keeps_jobEnd) h

theorem keeps_freshAcct {old} : Keeps (freshAcct old) := fun _ h => keeps_eachDo (fun _ _ h => canon_ite h (keeps_regsReset h)) h

theorem keeps_applyImage {gen new} : Keeps (applyImage gen new) := fun s h => by
  unfold applyImage
  extract_lets +onlyGivenNames old ps _ _ s2 sts _ _ s5 _ _ _ s9
  have h2 : memoriesCanonical s2 :=
    keeps_eachDo (fun _ _ h => canon_ite (keeps_ptpLostBody h) h) (keeps_clearGroups (keeps_clearQueues (keeps_eachDo (fun _ => keeps_endJobs) h)))
  have h5 : memoriesCanonical s5 :=
    keeps_keepBinds (keeps_clearSlots (keeps_clearCores (keeps_clearMemory (keeps_showImage (canon_with (keeps_resetAll h2))))))
  have h9 : memoriesCanonical s9 :=
    keeps_freshPower (keeps_freshLinks (keeps_freshPorts (keeps_freshEmus
      (keeps_freshSources (keeps_freshAcct (keeps_eachDo (fun _ => keeps_freshPort)
        (keeps_looseLanes (keeps_eachDo (fun _ => keeps_stillStream) h5))))))))
  exact keeps_showFio (keeps_eachDo (fun _ => keeps_showSs) (keeps_eachDo
    (fun _ _ h => keeps_showFixed (keeps_showPace (canon_ite h (canon_ite (keeps_unholdDusk h) h))))
      (keeps_eachDo (fun _ => keeps_restPart) (canon_ite (keeps_setDomains h9) h9))))

theorem keeps_commitRecord {b} : Keeps (commitRecord b) := fun _ h => ⟨h.1, h.2⟩

theorem keeps_commitApply : Keeps commitApply := fun s h => by
  unfold commitApply
  extract_lets +onlyGivenNames s0
  have h0 : memoriesCanonical s0 := by
    unfold s0
    split
    · exact keeps_applyImage h
    · exact h
  exact canon_with h0

end Sys2Proof.Proofs
end

section
/-! Resets and the service commands' plans keep the memories canonical. -/

namespace Sys2Proof.Proofs

open Sys2Proof Sys2Proof.Machine Sys2Proof.Laws

/-! ### Resets and start-up -/

theorem keeps_setStage {n} : Keeps (setStage n) := fun _ h => keeps_wrB (keeps_wrF h)

theorem keeps_updBoot {f} : Keeps (updBoot f) := fun _ h => ⟨h.1, h.2⟩

theorem keeps_endExpert {status} : Keeps (endExpert status) := fun _ h => canon_ite h (keeps_auditEvent ⟨h.1, h.2⟩)

theorem keeps_startNight : Keeps startNight := fun _ h => keeps_showFio (canon_with (keeps_inc (keeps_wrB (keeps_wrB (keeps_wrF (keeps_wrB h))))))

theorem keeps_resetState {power cause held} : Keeps (resetState power cause held) := fun s h => by
  unfold resetState
  extract_lets keep z emptied marked quarantines
  have hemptied : memoriesCanonical emptied := ⟨filter_wf _ h.1, h.2⟩
  have hmarked : memoriesCanonical marked := canon_ite hemptied (keeps_wrB hemptied)
  exact keeps_startNight (keeps_showAgeing (keeps_wrF (keeps_eachDo (fun _ _ h => canon_ite (keeps_wrB h) h) hmarked)))

theorem keeps_bootRom {refclk} : Keeps (bootRom refclk) := fun _ h => keeps_showEn (keeps_eachDo (fun _ => keeps_switchDom) (keeps_oscStart h))

theorem keeps_moduleReset {cause} : Keeps (moduleReset cause) := fun _ h => canon_ite (keeps_bootRom (keeps_resetState h)) (keeps_resetState h)

theorem keeps_auditTear : Keeps auditTear := fun _ h => canon_ite (canon_ite (canon_with (keeps_draw h)) (keeps_draw h)) h

theorem keeps_modResetBody {width} : Keeps (modResetBody width) := fun s h => by
  unfold modResetBody
  refine canon_ite h ?_
  extract_lets +onlyGivenNames s'0
  have h0 : memoriesCanonical s'0 := canon_ite (keeps_draw h) h
  exact canon_ite (canon_ite (keeps_resetState h0) (keeps_updBoot h0)) h0

theorem keeps_releaseBody : Keeps releaseBody := fun _ h =>
  canon_ite h (canon_ite (keeps_updBoot h) (canon_ite (keeps_moduleReset h) (keeps_updBoot h)))

theorem keeps_sysRst {fn v} : Keeps (sysRst fn v) := fun _ h => canon_ite (keeps_moduleReset h) h

theorem keeps_oscBody {refclk} : Keeps (oscBody refclk) := fun _ h => canon_ite h (canon_ite (keeps_updBoot h) (keeps_bootRom h))

theorem keeps_showFw : Keeps showFw := fun _ h => keeps_wr h

theorem keeps_enterRecovery : Keeps enterRecovery := fun _ h =>
  keeps_pumpRing (keeps_setStage (keeps_raiseFault (keeps_showEn
    (keeps_eachDo (fun _ => keeps_switchDom) (keeps_eachDo (fun _ => keeps_switchDom) (keeps_updBoot h))))))

theorem keeps_bootImage : Keeps bootImage := fun s h => by
  unfold bootImage
  extract_lets +onlyGivenNames bad
  have h0 : Keeps bad := fun _ h => keeps_applyImage (keeps_raiseFault h)
  split
  · exact h0 h
  · split
    · exact h0 h
    · exact canon_ite h (keeps_applyImage h)

theorem keeps_bootChecks : Keeps bootChecks := fun s h => by
  unfold bootChecks
  extract_lets +onlyGivenNames on _ s0
  have h0 : memoriesCanonical s0 := keeps_auditCheck (canon_ite ⟨h.1, h.2⟩ h)
  exact keeps_bootImage (canon_ite (keeps_raiseFault (canon_with (canon_ite ⟨h0.1, h0.2⟩ h0))) (canon_ite ⟨h0.1, h0.2⟩ h0))

theorem keeps_runFw {b} : Keeps (runFw b) := fun _ h => keeps_bootChecks (keeps_setStage (keeps_showFw (keeps_wrB (keeps_updBoot h))))

theorem keeps_fallBack {pend} : Keeps (fallBack pend) := fun _ h =>
  canon_ite (keeps_runFw (keeps_raiseFault (keeps_wrB ⟨h.1, h.2⟩))) (keeps_enterRecovery (keeps_raiseFault (keeps_wrB ⟨h.1, h.2⟩)))

theorem keeps_bootFw : Keeps bootFw := fun s h => by
  unfold bootFw
  split
  · exact canon_ite (keeps_runFw h) (keeps_fallBack h)
  · exact canon_ite (keeps_runFw h) (keeps_enterRecovery h)

theorem keeps_bootFwBody : Keeps bootFwBody := fun _ h => canon_ite (keeps_bootFw h) h

theorem keeps_pendingTimeout : Keeps pendingTimeout := fun s h => by
  unfold pendingTimeout
  split
  · exact canon_ite (keeps_fallBack h) h
  · exact h

theorem keeps_dawnBody : Keeps dawnBody := fun _ h =>
  canon_ite h (keeps_setStage (keeps_wrB (keeps_wrB (keeps_showAgeing (keeps_fillNoon (keeps_railsUp (keeps_setDomains (keeps_updBoot h))))))))

theorem keeps_clearRegions : Keeps clearRegions := fun _ h => keeps_eachDo (fun _ => keeps_memClear) h

theorem keeps_fwReady : Keeps fwReady := fun s h => by
  unfold fwReady
  split
  · exact canon_ite ⟨h.1, h.2⟩ h
  · exact h

theorem keeps_lateLoss : Keeps lateLoss := fun _ h => canon_ite h (keeps_eachDo (fun _ => keeps_raiseTo) ⟨h.1, h.2⟩)

theorem keeps_startFaults : Keeps startFaults := fun _ h =>
  canon_ite (keeps_lateLoss (canon_ite (keeps_raiseFault h) h))
    (keeps_raiseFault (keeps_wr (keeps_wr (keeps_lateLoss (canon_ite (keeps_raiseFault h) h)))))

theorem keeps_readyBody : Keeps readyBody := fun _ h =>
  canon_ite h (canon_ite (keeps_eachDo (fun _ => keeps_replanBody)
    (keeps_eachDo (fun _ => keeps_pumpRing) (keeps_fwReady (keeps_setStage (keeps_updBoot (keeps_showFio ⟨h.1, h.2⟩))))))
      (canon_ite h (keeps_eachDo (fun _ => keeps_pumpRing) (keeps_startFaults
        (keeps_fwReady (keeps_setStage (keeps_clearRegions (keeps_wipeAll h))))))))

theorem keeps_stewardRestart : Keeps stewardRestart := fun _ h =>
  keeps_raiseFault (keeps_setStage (keeps_updBoot (keeps_eachDo (fun _ => keeps_flushRing) (keeps_nightfall h))))

theorem keeps_expertTimeout : Keeps expertTimeout := fun s h => by
  unfold expertTimeout
  split
  · exact canon_ite (keeps_endExpert h) h
  · exact h

/-! ### What every service command passes -/

theorem keeps_recordCmd {fn d data status} : Keeps (recordCmd fn d data status) := fun _ h => canon_ite (keeps_auditPut h) (keeps_auditLose h)

theorem keeps_refuse {fn d status res} : Keeps (refuse fn d status res).run := keeps_finish

theorem keeps_completes {fn d res f} (hf : Keeps f) : Keeps (completes fn d res f).run := fun _ h => keeps_finish (hf h)

theorem keeps_begins {f} (hf : Keeps f) : Keeps (begins f).run := hf

theorem keeps_recordPlan {fn d data pl} : Keeps (recordPlan fn d data pl) := fun _ h => canon_ite h (canon_ite h (keeps_recordCmd h))

theorem keeps_carryOut {fn d data pl s} (hrun : Keeps pl.run) (h : memoriesCanonical s) :
    memoriesCanonical (carryOut fn d data pl s) :=
  canon_ite (keeps_finish h) (hrun (keeps_recordPlan h))

theorem keeps_recordLate {fn d data status eff s} (heff : Keeps eff) (h : memoriesCanonical s) :
    memoriesCanonical (recordLate fn d data status eff s) := keeps_carryOut heff h

/-! ### Service commands of the module -/

theorem keeps_planNop {fn d a2} : Keeps (planNop fn d a2).run := keeps_completes keeps_id

theorem keeps_planNonce {fn d a2} : Keeps (planNonce fn d a2).run := keeps_completes (fun _ h => keeps_draw ⟨h.1, h.2⟩)

theorem keeps_copyEnd {fn d} : Keeps (copyEnd fn d) := fun _ h =>
  canon_ite (keeps_recordLate (fun _ h => keeps_finish (keeps_devWrite h)) h)
    (keeps_recordLate (fun _ h => keeps_finish ⟨h.1, write_wf _ _ h.2⟩) (keeps_devRead h))

theorem keeps_copyStep {fn d done} : Keeps (copyStep fn d done) := fun _ h => canon_ite (keeps_copyEnd h) (keeps_updRing h)

theorem keeps_planCopy {fn d a2} : Keeps (planCopy fn d a2).run := keeps_run_ite keeps_refuse keeps_copyStep

theorem keeps_copyVoid {fn d} : Keeps (copyVoid fn d) := fun s h => by
  unfold copyVoid
  extract_lets +onlyGivenNames a s0
  have h0 : memoriesCanonical s0 := keeps_awaitRange h
  exact keeps_finish (keeps_draw (canon_ite (keeps_memStore h0) ⟨h0.1, write_wf _ _ h0.2⟩))

theorem keeps_planUnlock {fn d} : Keeps (planUnlock fn d).run := keeps_completes (fun _ h => ⟨h.1, h.2⟩)

theorem keeps_planLock {fn d} : Keeps (planLock fn d).run := keeps_completes (fun _ h => ⟨h.1, h.2⟩)

theorem keeps_planKeyInstall {fn d data} : Keeps (planKeyInstall fn d data).run := keeps_completes (fun _ h => ⟨h.1, h.2⟩)

theorem keeps_planKeyRevoke {fn d} : Keeps (planKeyRevoke fn d).run := keeps_completes (fun _ h => ⟨h.1, h.2⟩)

theorem keeps_putFw {bs pend} : Keeps (putFw bs pend) := fun _ h => ⟨h.1, h.2⟩

theorem keeps_planFwUpdate {fn d data a3} : Keeps (planFwUpdate fn d data a3).run :=
  keeps_run_ite (keeps_begins (fun _ h => keeps_updRing (keeps_putFw h))) (fun _ h => keeps_finish (keeps_draw (keeps_putFw h)))

theorem keeps_fwWritten {fn d data} : Keeps (fwWritten fn d data) := fun _ h =>
  canon_ite (keeps_finish (keeps_putFw h)) (keeps_stewardRestart (keeps_showFio (canon_with (keeps_finish (keeps_putFw h)))))

theorem keeps_planFuseBurn {fn d data} : Keeps (planFuseBurn fn d data).run :=
  keeps_completes (fun _ h => canon_ite (keeps_showFw ⟨h.1, h.2⟩)
    (keeps_showAgeing (keeps_eachDo (fun _ _ h => keeps_setRail h) (keeps_draw ⟨h.1, h.2⟩))))

theorem keeps_planAuditRead {fn d} : Keeps (planAuditRead fn d).run := keeps_begins (fun _ h => keeps_finish ⟨h.1, write_wf _ _ h.2⟩)

theorem keeps_planAuditExport {fn d} : Keeps (planAuditExport fn d).run := keeps_begins (fun _ h => keeps_finish ⟨h.1, write_wf _ _ h.2⟩)

theorem keeps_sealLog {fn d} : Keeps (sealLog fn d) := fun _ h =>
  canon_ite (keeps_recordCmd ⟨h.1, h.2⟩) (keeps_auditPut (canon_with (keeps_recordCmd ⟨h.1, h.2⟩)))

theorem keeps_planAuditSeal {fn d a2} : Keeps (planAuditSeal fn d a2).run := keeps_run_ite keeps_refuse (fun _ h => keeps_finish (keeps_sealLog h))

theorem keeps_planImageLoad {fn d data a3} : Keeps (planImageLoad fn d data a3).run := by
  unfold planImageLoad
  split
  · exact keeps_refuse
  · exact keeps_begins (fun _ h => keeps_draw (keeps_updRing ⟨h.1, h.2⟩))

theorem keeps_staged {fn d data no} : Keeps (staged fn d data no) := fun _ h => keeps_finish ⟨h.1, h.2⟩

theorem keeps_planImageCommit {fn d a2} : Keeps (planImageCommit fn d a2).run := by
  unfold planImageCommit
  split
  · exact keeps_refuse
  · exact keeps_begins (fun _ h => keeps_updRing (keeps_commitRecord h))

theorem keeps_applied {fn d} : Keeps (applied fn d) := fun _ h => keeps_finish (keeps_commitApply h)

theorem keeps_planImageDiscard {fn d} : Keeps (planImageDiscard fn d).run := keeps_completes (fun _ h => ⟨h.1, h.2⟩)

theorem keeps_planImageRead {fn d a2} : Keeps (planImageRead fn d a2).run := keeps_completes (fun _ h => ⟨h.1, write_wf _ _ h.2⟩)

/-! ### Service commands of streams, models and cores -/

theorem keeps_planStart {fn d checked a3} : Keeps (planStart fn d checked a3).run := by
  dsimp only [planStart]
  split
  · exact keeps_refuse
  · refine keeps_run_ite (keeps_completes keeps_id) ?_
    split
    · exact keeps_refuse
    · refine keeps_run_ite (fun _ h => keeps_wrB (keeps_updRing h)) ?_
      split
      · exact keeps_refuse
      · exact keeps_begins keeps_startGo

theorem keeps_planStop {fn d a2} : Keeps (planStop fn d a2).run := by
  dsimp only [planStop]
  split
  · exact keeps_refuse
  · exact keeps_completes keeps_stopStream

theorem keeps_writePair {a0} : Keeps (writePair a0) := fun s h => by
  dsimp only [writePair]
  split
  · exact keeps_wrMask h
  · exact keeps_wrMask h
  · exact keeps_wrLds h
  · exact h

theorem keeps_planRecipe {fn d a2} : Keeps (planRecipe fn d a2).run := by
  dsimp only [planRecipe]
  split
  · exact keeps_refuse
  · split
    · exact keeps_refuse
    · exact keeps_completes (fun _ h => keeps_eachDo (fun _ => keeps_ldsGo)
        (keeps_eachDo (fun _ => keeps_feStat) (keeps_eachDo (fun _ => keeps_writePair) h)))

theorem keeps_planCamCtrl {fn d data a3} : Keeps (planCamCtrl fn d data a3).run := by
  dsimp only [planCamCtrl]
  split
  · exact keeps_refuse
  · exact keeps_run_ite keeps_refuse (keeps_begins (fun _ h => keeps_camSend (keeps_updRing h)))

theorem keeps_planLane {fn d a2} : Keeps (planLane fn d a2).run := by
  dsimp only [planLane]
  split
  · exact keeps_refuse
  · split
    · exact keeps_completes keeps_quarPort
    · exact keeps_completes fun _ h => canon_ite (keeps_releasePort h) h

theorem keeps_planLoad {fn d data a3} : Keeps (planLoad fn d data a3).run := by
  dsimp only [planLoad]
  split
  · exact keeps_refuse
  · exact keeps_refuse
  · exact keeps_run_ite keeps_refuse (keeps_begins (fun _ h => keeps_finish (keeps_loadModel h)))

theorem keeps_planUnload {fn d a2} : Keeps (planUnload fn d a2).run :=
  keeps_run_ite keeps_refuse (keeps_run_ite keeps_refuse (keeps_completes keeps_unloadModel))

theorem keeps_setBind {st b} : Keeps (setBind st b) := fun _ h => keeps_wrB ⟨h.1, h.2⟩

theorem keeps_planBind {fn d a2} : Keeps (planBind fn d a2).run := by
  dsimp only [planBind]
  split
  · exact keeps_refuse
  · refine keeps_run_ite keeps_refuse ?_
    split
    · exact keeps_refuse
    · exact keeps_begins (fun _ h => keeps_changeSet (keeps_setBind h))

theorem keeps_planArea {fn d a2} : Keeps (planArea fn d a2).run := keeps_run_ite keeps_refuse (keeps_completes keeps_updPart)

theorem keeps_planRelease {fn d a2} : Keeps (planRelease fn d a2).run :=
  keeps_run_ite (keeps_completes keeps_id) (keeps_run_ite (fun _ h => keeps_finish (keeps_draw h)) (keeps_begins (by
    intro s h
    beta_reduce
    extract_lets +onlyGivenNames _ _ s1
    have h1 : memoriesCanonical s1 := by
      unfold s1
      split
      · exact keeps_updPart (keeps_draw ⟨h.1, h.2⟩)
      · exact keeps_draw ⟨h.1, h.2⟩
    exact keeps_wrB (keeps_updRing (keeps_clearCore h1)))))

theorem keeps_planMorning {fn d a2} : Keeps (planMorning fn d a2).run :=
  keeps_run_ite (keeps_completes keeps_id) (keeps_begins (fun _ h => keeps_wrB (keeps_updRing h)))

/-! ### Service commands of the units -/

theorem keeps_recStart {n st tap ratio loop} : Keeps (recStart n st tap ratio loop) := fun _ h => keeps_updCds (keeps_wr (keeps_wr (keeps_wr h)))

theorem keeps_planRecStart {fn d a2} : Keeps (planRecStart fn d a2).run := by
  dsimp only [planRecStart]
  split
  · exact keeps_refuse
  · exact keeps_run_ite keeps_refuse (keeps_run_ite keeps_refuse (keeps_completes keeps_recStart))

theorem keeps_recStop {n} : Keeps (recStop n) := fun _ h => canon_ite (keeps_recEnd h) (keeps_updCds h)

theorem keeps_planRecStop {fn d a2} : Keeps (planRecStop fn d a2).run := by
  dsimp only [planRecStop]
  split
  · exact keeps_refuse
  · exact keeps_run_ite keeps_refuse (keeps_completes keeps_recStop)

theorem keeps_replayGo {fn d n p st} : Keeps (replayGo fn d n p st) := fun _ h => keeps_changeSet (keeps_replayStart h)

theorem keeps_planReplayStart {fn d a2} : Keeps (planReplayStart fn d a2).run := by
  dsimp only [planReplayStart]
  split
  · exact keeps_refuse
  · refine keeps_run_ite keeps_refuse ?_
    split
    · exact keeps_refuse
    · refine keeps_run_ite keeps_refuse ?_
      refine keeps_run_ite keeps_refuse ?_
      split
      · exact keeps_refuse
      · exact keeps_begins keeps_replayGo

theorem keeps_planReplayStop {fn d a2} : Keeps (planReplayStop fn d a2).run := by
  dsimp only [planReplayStop]
  split
  · exact keeps_refuse
  · split
    · exact keeps_refuse
    · exact keeps_completes keeps_replayEnd

theorem keeps_planCal {fn d a2} : Keeps (planCal fn d a2).run := by
  dsimp only [planCal]
  split
  · exact keeps_refuse
  · exact keeps_run_ite keeps_refuse (keeps_run_ite keeps_refuse (fun _ h => keeps_calStart (keeps_updRing h)))

theorem keeps_calJudge {n} : Keeps fun s => (calJudge n s).reads := fun _ h => keeps_goodLines h

theorem keeps_calDoneBody : Keeps calDoneBody := fun s h => by
  dsimp only [calDoneBody]
  refine canon_ite h ?_
  split
  · exact keeps_recordLate (fun _ h => keeps_finish (canon_ite (keeps_calWrite h) h))
      (keeps_wr (keeps_wr (keeps_wrF (keeps_setCdsState (keeps_calJudge h)))))
  · exact keeps_wr (keeps_wr (keeps_wrF (keeps_setCdsState (keeps_calJudge h))))

theorem keeps_planLedgerCfg {fn d a2} : Keeps (planLedgerCfg fn d a2).run := by
  dsimp only [planLedgerCfg]
  split
  · exact keeps_refuse
  · exact keeps_run_ite keeps_refuse (keeps_completes (fun _ h => keeps_ldsGo (keeps_eachDo (fun _ => keeps_wrLds) h)))

theorem keeps_planLedgerLog {fn d a2} : Keeps (planLedgerLog fn d a2).run := by
  dsimp only [planLedgerLog]
  split
  · exact keeps_refuse
  · exact keeps_run_ite keeps_refuse (keeps_completes (fun _ h => keeps_wr (keeps_wr (keeps_wr h))))

theorem keeps_planMirror {fn d} : Keeps (planMirror fn d).run := keeps_completes (fun _ h => ⟨h.1, h.2⟩)

theorem keeps_planPreset {fn d a2} : Keeps (planPreset fn d a2).run :=
  keeps_run_ite (keeps_completes (fun _ h => keeps_preset h)) (fun _ h => keeps_finish (keeps_preset h))

theorem keeps_planCompare {fn d} : Keeps (planCompare fn d).run := keeps_completes (fun _ h => ⟨h.1, h.2⟩)

theorem keeps_planCompareRead {fn d a2} : Keeps (planCompareRead fn d a2).run := keeps_completes keeps_id

theorem keeps_planNightIn {fn d} : Keeps (planNightIn fn d).run := keeps_completes keeps_nightfall

theorem keeps_planNightOut {fn d a2} : Keeps (planNightOut fn d a2).run :=
  keeps_run_ite (keeps_completes (fun _ h => keeps_nightClear h)) keeps_refuse

theorem keeps_planDoTest {fn d a2} : Keeps (planDoTest fn d a2).run :=
  keeps_run_ite keeps_refuse (keeps_run_ite keeps_refuse (keeps_run_ite keeps_refuse (keeps_completes keeps_request)))

theorem keeps_planMbxRead {fn d} : Keeps (planMbxRead fn d).run :=
  keeps_begins (fun _ h => canon_ite (keeps_finish (keeps_stewardMet ⟨h.1, write_wf _ _ h.2⟩))
    (keeps_finish (keeps_stewardMet ⟨h.1, write_wf _ _ h.2⟩)))

theorem keeps_planMbxWrite {fn d data} : Keeps (planMbxWrite fn d data).run := keeps_completes keeps_memStore

theorem keeps_latchAck {code} : Keeps fun s => (latchAck code s).2 := fun _ h =>
  canon_ite_snd (keeps_fioAck h) (canon_ite_snd (keeps_tripAck h) (canon_ite_snd h (canon_ite_snd h (canon_ite_snd h h))))

theorem keeps_rearm {t} : Keeps (rearm t) := fun _ h => canon_ite (keeps_wr (keeps_wr (keeps_wr ⟨h.1, h.2⟩))) ⟨h.1, h.2⟩

theorem keeps_clearFault {d} : Keeps (clearFault d) := fun _ h =>
  canon_ite (keeps_rearm (keeps_showFaults ⟨h.1, h.2⟩)) (keeps_showFaults ⟨h.1, h.2⟩)

theorem keeps_planAck {fn d a2} : Keeps (planAck fn d a2).run := by
  unfold planAck
  refine keeps_run_ite keeps_refuse ?_
  split
  · exact keeps_completes keeps_id
  · exact keeps_run_ite keeps_refuse (keeps_run_ite (keeps_completes (fun _ h => keeps_clearFault (keeps_latchAck h)))
      (fun _ h => keeps_finish (keeps_latchAck h)))

end Sys2Proof.Proofs
end

section
/-! The service of a ring, the host bridge, register accesses and the tick keep the memories canonical. -/

namespace Sys2Proof.Proofs

open Sys2Proof Sys2Proof.Machine Sys2Proof.Laws

/-! ### The steward serves a ring -/

theorem keeps_planLow {fn d data a3} : Keeps (planLow fn d data a3).run :=
  keeps_run_ite keeps_planNonce (keeps_run_ite keeps_planCopy
    (keeps_run_ite keeps_planUnlock (keeps_run_ite keeps_planLock
      (keeps_run_ite keeps_planKeyInstall (keeps_run_ite keeps_planKeyRevoke
        (keeps_run_ite keeps_planFwUpdate (keeps_run_ite keeps_planFuseBurn
          (keeps_run_ite keeps_planAuditRead (keeps_run_ite keeps_planAuditExport
            (keeps_run_ite keeps_planAuditSeal (keeps_run_ite keeps_planImageLoad
              (keeps_run_ite keeps_planImageCommit (keeps_run_ite keeps_planImageDiscard
                (keeps_run_ite keeps_planImageRead keeps_planNop))))))))))))))

theorem keeps_planMid {fn d data a3} : Keeps (planMid fn d data a3).run :=
  keeps_run_ite keeps_planStart (keeps_run_ite keeps_planStop
    (keeps_run_ite keeps_planRecipe (keeps_run_ite keeps_planCamCtrl
      (keeps_run_ite keeps_planLane (keeps_run_ite keeps_planLoad
        (keeps_run_ite keeps_planUnload (keeps_run_ite keeps_planBind
          (keeps_run_ite keeps_planArea (keeps_run_ite keeps_planRelease keeps_planMorning)))))))))

theorem keeps_planHigh {fn d data a3} : Keeps (planHigh fn d data a3).run :=
  keeps_run_ite keeps_planRecStart (keeps_run_ite keeps_planRecStop
    (keeps_run_ite keeps_planReplayStart (keeps_run_ite keeps_planReplayStop
      (keeps_run_ite keeps_planCal (keeps_run_ite keeps_planLedgerCfg
        (keeps_run_ite keeps_planLedgerLog (keeps_run_ite keeps_planMirror
          (keeps_run_ite keeps_planPreset (keeps_run_ite keeps_planCompare
            (keeps_run_ite keeps_planCompareRead (keeps_run_ite keeps_planNightIn
              (keeps_run_ite keeps_planNightOut (keeps_run_ite keeps_planDoTest
                (keeps_run_ite keeps_planMbxRead (keeps_run_ite keeps_planMbxWrite keeps_planAck)))))))))))))))

theorem keeps_planOf {fn d data a3} : Keeps (planOf fn d data a3).run := keeps_run_ite keeps_planLow (keeps_run_ite keeps_planMid keeps_planHigh)

theorem keeps_presentNonce {b} : Keeps fun s => (presentNonce b s).2 := fun _ h => canon_ite_snd ⟨h.1, h.2⟩ h

theorem keeps_serveNow {fn d c dataOk} : Keeps (serveNow fn d c dataOk) := fun _ h =>
  keeps_carryOut (keeps_run_ite keeps_refuse keeps_planOf) h

theorem keeps_serveOwn {fn d c dataOk} : Keeps (serveOwn fn d c dataOk) := fun _ h => canon_ite (keeps_updRing h) (keeps_serveNow h)

theorem keeps_workStep {fn d dataOk left} : Keeps (workStep fn d dataOk left) := fun s h => by
  unfold workStep
  refine canon_ite (keeps_updRing h) ?_
  split
  · exact keeps_serveNow h
  · exact h

theorem keeps_serveAuth {fn d c authOk dataOk} : Keeps (serveAuth fn d c authOk dataOk) := fun s h => by
  unfold serveAuth
  refine canon_ite (keeps_serveOwn h) ?_
  refine canon_ite (keeps_finish h) ?_
  refine canon_ite (keeps_finish h) ?_
  extract_lets +onlyGivenNames b r s1 tag
  have h1 : memoriesCanonical s1 := (keeps_presentNonce h)
  have h2 : ∀ {x0}, Keeps (tag x0) := fun h => keeps_updRing h
  split
  · exact keeps_finish (canon_ite (keeps_recordCmd (h2 h1)) h1)
  · exact keeps_serveOwn (h2 h1)

theorem keeps_serve {fn d authOk dataOk} : Keeps (serve fn d authOk dataOk) := fun s h => by
  unfold serve
  extract_lets +onlyGivenNames s0
  have h0 : memoriesCanonical s0 := keeps_updRing h
  refine canon_ite (keeps_finish h0) ?_
  split
  · exact keeps_finish h0
  · exact canon_ite (keeps_finish h0) (canon_ite (keeps_finish h0) (keeps_serveAuth h0))

theorem keeps_ringStep {fn} : Keeps (ringStep fn) := fun s h => by
  unfold ringStep
  split
  · exact keeps_copyStep h
  · exact keeps_workStep h
  · exact keeps_staged h
  · exact keeps_fwWritten h
  · exact keeps_applied h
  · exact h
  · split
    · exact keeps_serve (keeps_updRing h)
    · exact h

theorem keeps_turnPast {fn} : Keeps (turnPast fn) := fun _ h => ⟨h.1, h.2⟩

theorem keeps_serviceBody : Keeps serviceBody := fun s h => by
  dsimp only [serviceBody]
  split
  · exact keeps_eachDo (fun _ => keeps_pumpRing) h
  · exact keeps_ringStep (keeps_turnPast (keeps_eachDo (fun _ => keeps_pumpRing) h))

theorem keeps_ringsBefore {fn} : Keeps (ringsBefore fn) := fun _ h => keeps_eachDo (fun _ _ h => canon_ite (keeps_ringStep h) h) h

theorem keeps_hostPut {a bs} : Keeps (hostPut a bs) := fun s h => by
  unfold hostPut
  split
  · exact ⟨h.1, write_wf _ _ h.2⟩
  · exact h

theorem keeps_svcRow {code fn d a3} : Keeps (svcRow code fn d a3) := fun s h => by
  unfold svcRow
  refine canon_ite h ?_
  extract_lets +onlyGivenNames _ _ _ s3
  have h3 : memoriesCanonical s3 := keeps_turnPast (keeps_ringsBefore (keeps_inc (keeps_updRing (keeps_hostPut (keeps_hostPut h)))))
  exact canon_ite h3 (canon_ite (keeps_serve (keeps_updRing h3)) (keeps_ringStep h3))

theorem keeps_checkDone {rs} : Keeps (checkDone rs) := fun s h => by
  dsimp only [checkDone]
  refine canon_ite h ?_
  split
  · exact keeps_finish (keeps_morningCheckOf h)
  · exact keeps_finish (keeps_morningCheckOf h)
  · exact keeps_carryOut keeps_planStart (keeps_updRing (keeps_morningCheckOf h))
  · exact h

theorem keeps_morningBody {rs} : Keeps (morningBody rs) := fun _ h =>
  canon_ite h (canon_ite (keeps_setStage (keeps_morningCheckOf h)) (keeps_checkDone h))

/-! ### The host bridge -/

theorem keeps_setMaster {fn on} : Keeps (setMaster fn on) := fun _ h => canon_ite (keeps_updRing h) (keeps_wrB (keeps_updRing h))

theorem keeps_fnReset {fn} : Keeps (fnReset fn) := fun s h => by
  unfold fnReset
  extract_lets +onlyGivenNames s0
  have h0 : memoriesCanonical s0 := keeps_ringReset (keeps_setMaster (keeps_flushRing h))
  exact canon_ite (keeps_endExpert h0) h0

theorem keeps_perstBody : Keeps perstBody := fun _ h => canon_with (keeps_eachDo (fun _ => keeps_fnReset) h)

theorem keeps_vfBody {on} : Keeps (vfBody on) := fun _ h => canon_ite h (canon_with (canon_ite h (keeps_eachDo (fun _ => keeps_fnReset) h)))

theorem keeps_dbBad {fn} : Keeps (dbBad fn) := fun _ h => keeps_wrB h

theorem keeps_dbCmd {fn v} : Keeps (dbCmd fn v) := fun _ h => canon_ite (keeps_dbBad h) (keeps_pumpRing (keeps_updRing h))

theorem keeps_dbCpl {fn v} : Keeps (dbCpl fn v) := fun _ h => canon_ite (keeps_dbBad h) (keeps_pumpRing (keeps_wrB (keeps_updRing h)))

theorem keeps_ringEnable {fn} : Keeps (ringEnable fn) := fun _ h =>
  keeps_pumpRing (keeps_wrB (keeps_wrB (keeps_wr (keeps_wr (keeps_wrB (keeps_updRing h))))))

theorem keeps_ringCtl {fn v} : Keeps (ringCtl fn v) := fun s h => by
  unfold ringCtl
  extract_lets +onlyGivenNames b s0
  have h0 : memoriesCanonical s0 := keeps_wrF h
  exact canon_ite (canon_ite (keeps_flushRing h0) h0) (canon_ite (keeps_ringEnable h0) h0)

theorem keeps_flushGrace {fn} : Keeps (flushGrace fn) := fun s h => by
  unfold flushGrace
  split
  · exact canon_ite (keeps_copyVoid h) h
  · exact h

theorem keeps_coalBody {fn} : Keeps (coalBody fn) := fun _ h => canon_ite h (keeps_fireInt (keeps_updRing h))

theorem keeps_timeoutBody {fn} : Keeps (timeoutBody fn) := fun s h => by
  unfold timeoutBody
  refine canon_ite h ?_
  split
  · exact canon_ite (keeps_recordLate keeps_finish h) h
  · exact canon_ite (keeps_recordLate keeps_finish h) h
  · exact h
  · exact canon_ite (keeps_serve (keeps_updRing h)) h
  · exact canon_ite (keeps_flushRing (keeps_wrB h)) h

/-! ### Register accesses -/

theorem keeps_wrRing {fn k v} : Keeps (wrRing fn k v) := fun _ h =>
  canon_ite (keeps_dbCmd h) (canon_ite (keeps_dbCpl h) (canon_ite (canon_ite (keeps_wrMask h) h)
    (canon_ite (canon_ite (keeps_wr h) h) (canon_ite (canon_ite (keeps_wrMask h) h)
      (canon_ite (keeps_ringCtl h) (canon_ite (keeps_wrClear h) (canon_ite (keeps_wrMask h) (canon_ite (keeps_wrMask h) h))))))))

theorem keeps_wrTime {fn k v} : Keeps (wrTime fn k v) := fun _ h =>
  canon_ite (keeps_wrMask h) (canon_ite (keeps_wrClear h) (canon_ite (keeps_timeCommitBody h) (canon_ite (canon_ite (keeps_wr h) h) h)))

theorem keeps_wrMotion {fn k v} : Keeps (wrMotion fn k v) := fun s h => by
  unfold wrMotion
  extract_lets o st i j
  refine canon_ite (keeps_snapBody h) ?_
  refine canon_ite (keeps_wrClear h) ?_
  refine canon_ite (canon_ite (keeps_wrClear h) (canon_ite (keeps_preset h) h)) ?_
  refine canon_ite (canon_ite (keeps_preset h) h) ?_
  refine canon_ite (canon_ite (keeps_wrClear h) h) ?_
  refine canon_ite ?_ (canon_ite ?_ h)
  · refine canon_ite (canon_ite (keeps_ldsGo h) h) ?_
    refine canon_ite (keeps_showView (keeps_wr h)) ?_
    exact canon_ite (keeps_wrLds h) h
  · refine canon_ite (keeps_wrMask h) (canon_ite (keeps_wrMask h) ?_)
    exact canon_ite (canon_ite (keeps_wrMask h) h) (canon_ite (keeps_wr h) h)

theorem keeps_wrArb {fn k v} : Keeps (wrArb fn k v) := fun _ h =>
  canon_ite (keeps_arbGo h) (canon_ite (keeps_wrB (keeps_wrMask h)) (canon_ite (keeps_wrB (keeps_wrMask h)) h))

theorem keeps_wrFe {fn f k v} : Keeps (wrFe fn f k v) := fun _ h =>
  canon_ite h (canon_ite (keeps_wrClear h) (canon_ite (keeps_fesCommit h)
    (canon_ite (keeps_wr h) (canon_ite (keeps_tblStart h) (canon_ite (keeps_wrMask h) h)))))

theorem keeps_wrLane {fn n k v} : Keeps (wrLane fn n k v) := fun _ h =>
  canon_ite (keeps_wrClear h) (canon_ite (keeps_portCtl h) (canon_ite (keeps_wrMask h) h))

theorem keeps_wrSpan {n k v} : Keeps (wrSpan n k v) := fun _ h =>
  canon_ite (keeps_wrClear h) (canon_ite (keeps_wrMask h) (canon_ite (keeps_wrMask h) h))

theorem keeps_wrLq {fn p q k v} : Keeps (wrLq fn p q k v) := fun _ h =>
  canon_ite (keeps_ctlBody h) (canon_ite (keeps_tailBody h) (canon_ite (keeps_wr h)
    (canon_ite (keeps_wrMask h) (canon_ite (keeps_wrMask h) (canon_ite (canon_ite h (keeps_wrMask h))
      (canon_ite (canon_ite (keeps_wrMask h) h) (canon_ite (canon_ite (keeps_wrMask h) h) (canon_ite (canon_ite (keeps_wrMask h) h) h))))))))

theorem keeps_wrEth {fn p k v} : Keeps (wrEth fn p k v) := fun _ h => canon_ite (keeps_wrClear h) (canon_ite (keeps_wrLq h) h)

theorem keeps_wrCore {fn n k v} : Keeps (wrCore fn n k v) := fun _ h =>
  canon_ite (keeps_wrClear h) (canon_ite (keeps_wrClear h) (canon_ite (keeps_wrMask h)
    (canon_ite (keeps_wrClear h) (canon_ite (keeps_wrClear h) (canon_ite (keeps_wrClear h) h)))))

theorem keeps_wrBlk {fn k v} : Keeps (wrBlk fn k v) := fun s h => by
  unfold wrBlk
  split
  · exact canon_ite (keeps_sysRst h) h
  · exact canon_ite (keeps_wrClear h) (canon_ite (keeps_wrClear h) h)
  · exact keeps_wrTime h
  · exact keeps_wrMotion h
  · exact canon_ite (keeps_wrClear h) h
  · exact keeps_wrArb h
  · exact canon_ite (keeps_wr h) h
  · exact h
  · exact h
  · exact h
  · exact canon_ite (keeps_wrClear h) h
  · exact h
  · exact canon_ite (keeps_modLatch h) h
  · exact canon_ite (keeps_wrRing h) h
  · exact canon_ite (keeps_latchBody h) (canon_ite (keeps_wrClear h) h)
  · exact h
  · exact canon_ite (keeps_wr h) h
  · exact keeps_wrFe h
  · exact keeps_wrLane h
  · exact keeps_wrSpan h
  · exact keeps_wrEth h
  · exact keeps_wrCore h
  · exact canon_ite (keeps_wrClear h) h
  · exact canon_ite (keeps_wrClear h) h

theorem keeps_hostWrite {fn off v be} : Keeps (hostWrite fn off v be) := fun s h => by
  unfold hostWrite
  refine canon_ite h ?_
  split
  · exact canon_ite (keeps_wrBlk h) h
  · exact h

theorem keeps_answer {v} : Keeps (answer v) := fun _ h => ⟨h.1, h.2⟩

theorem keeps_readCounter {k} : Keeps (readCounter k) := fun _ h => keeps_answer (keeps_wr h)

theorem keeps_readReg {fn k} : Keeps (readReg fn k) := fun _ h =>
  canon_ite (keeps_readCounter h) (canon_ite (keeps_nowLoRead h)
    (canon_ite (keeps_answer h) (canon_ite (keeps_answer h) (canon_ite (keeps_tickLoRead h)
      (canon_ite (keeps_answer h) (canon_ite (keeps_answer h) (keeps_answer h)))))))

theorem keeps_hostRead {fn off} : Keeps (hostRead fn off) := fun s h => by
  unfold hostRead
  split
  · exact canon_ite (keeps_readReg h) (keeps_answer h)
  · exact keeps_answer h

/-! ### The tick -/

theorem keeps_sendMarkers {c} : Keeps (sendMarkers c) := fun s h => by
  dsimp only [sendMarkers]
  refine canon_ite h (keeps_eachDo (fun _ s h => ?_) (keeps_eachDo (fun _ s h => ?_) h)) <;> split
  · exact canon_ite (keeps_emit h) h
  · exact h
  · exact canon_ite (keeps_emit h) h
  · exact h

theorem keeps_conflictTick {n} : Keeps (conflictTick n) := fun _ h => canon_ite h (keeps_inc (keeps_draw h))

theorem keeps_netTick : Keeps netTick := fun _ h =>
  keeps_eachDo (fun _ _ h => canon_ite h (keeps_showLq h)) (keeps_eachDo (fun _ => keeps_netFlush) h)

theorem keeps_tickOnce : Keeps tickOnce := fun s h => by
  unfold tickOnce
  refine canon_ite ?_ h
  extract_lets +onlyGivenNames _ s0 s1
  have h0 : memoriesCanonical s0 := ⟨h.1, h.2⟩
  have h1 : memoriesCanonical s1 :=
    keeps_eachDo (fun _ _ h => keeps_conflictTick (keeps_stallTick h))
      (keeps_showTrim (keeps_showCal (keeps_netTick (keeps_ageLoads (keeps_clearTick (keeps_sendMarkers h0))))))
  exact canon_ite (keeps_showErr h1) h1

end Sys2Proof.Proofs
end

section
/-! The commands and the queue: no step leaves the canonical form (O52). -/

namespace Sys2Proof.Proofs

open Sys2Proof Sys2Proof.Machine

/-- A command that answers a next state answers one with canonical memories. -/
def Leads (o : Host.Outcome State Fault Refusal) : Prop := ∀ t, o = .next t → memoriesCanonical t

theorem leads_next {s : State} (h : memoriesCanonical s) : Leads (.next s) := by
  rintro _ ⟨⟩; exact h

theorem leads_ite {c : Prop} [Decidable c] {a b : Host.Outcome State Fault Refusal} (ha : Leads a) (hb : Leads b) :
    Leads (if c then a else b) := by split <;> assumption

theorem execVecField_leads {n x} {s : State} (h : memoriesCanonical s) : Leads (execVecField n x s) :=
  leads_next (keeps_issue (fun _ h => canon_ite (keeps_stall h) (keeps_trapCore h)) h)

theorem execIllegalWord_leads {n w} {s : State} (h : memoriesCanonical s) : Leads (execIllegalWord n w s) := by
  refine leads_ite ?_ (leads_next (keeps_issue keeps_trapCore h))
  dsimp only [execWord]
  -- one case for each CLASS and OP of R210, in the order of the table
  split
  · exact leads_next (keeps_issue keeps_advance h)
  · exact leads_next (keeps_issue (fun _ h => keeps_advance (keeps_setS h)) h)
  iterate 10 exact leads_next (keeps_issue keeps_aluBody h)
  · exact leads_next (keeps_issue keeps_ldBody h)
  · exact leads_next (keeps_issue keeps_stBody h)
  · exact leads_next (keeps_issue (fun _ h => keeps_advance (keeps_setA h)) h)
  · exact leads_next (keeps_issue (fun _ h => keeps_advance (keeps_setA h)) h)
  · exact leads_next (keeps_issue (fun _ h => keeps_advance (keeps_setA h)) h)
  · exact leads_next (keeps_issue (fun _ h => keeps_advance (keeps_setS h)) h)
  · exact leads_next (keeps_issue keeps_brBody h)
  · exact leads_next (keeps_issue keeps_loopBody h)
  · exact leads_next (keeps_issue keeps_waitBody h)
  · exact leads_next (keeps_issue keeps_signalBody h)
  · exact leads_next (keeps_issue keeps_markBody h)
  · exact leads_next (keeps_issue keeps_yieldBody h)
  · exact leads_next (keeps_issue keeps_endBody h)
  · exact leads_next (keeps_issue keeps_testfBody h)
  · exact leads_next (keeps_issue keeps_copyBody h)
  · exact leads_next (keeps_issue keeps_tloadBody h)
  · exact leads_next (keeps_issue keeps_tstreamBody h)
  · exact leads_next (keeps_issue keeps_ccfgBody h)
  · exact leads_next (keeps_issue keeps_cstartBody h)
  · exact leads_next (keeps_issue keeps_vparamBody h)
  · exact leads_ite (execVecField_leads h) (leads_next (keeps_issue keeps_vqBody h))
  · exact leads_ite (execVecField_leads h) (leads_next (keeps_issue keeps_vrawstBody h))
  · exact leads_ite (execVecField_leads h) (leads_next (keeps_issue keeps_vrawaddBody h))
  · exact leads_next (keeps_issue keeps_vpoolBody h)
  · exact leads_next (keeps_issue keeps_vcvtBody h)
  · exact leads_next (keeps_issue keeps_vewBody h)
  · exact leads_next (keeps_issue keeps_padvBody h)
  · exact leads_next (keeps_issue keeps_pwaitBody h)
  · exact leads_next (keeps_issue keeps_postBody h)
  · exact leads_next (keeps_issue keeps_sysTrapBody h)
  · exact leads_next h

theorem exec_leads {s : State} (h : memoriesCanonical s) : ∀ c, Leads (exec c s)
  | .powerOn => leads_next (keeps_resetState (keeps_auditTear h))
  | .modResetN .. => leads_next (keeps_modResetBody h)
  | .brownout => leads_next (keeps_updBoot (keeps_resetState h))
  | .oscStable .. => leads_next (keeps_oscBody h)
  | .bootFwVerified => leads_next (keeps_bootFwBody h)
  | .fwPendingTimeout => leads_next (keeps_pendingTimeout h)
  | .dawnSequence => leads_next (keeps_dawnBody h)
  | .midnightWipe .. => leads_next (keeps_showWipe (keeps_wipeDom h))
  | .ready => leads_next (keeps_readyBody h)
  | .stewardWatchdog => leads_next (canon_ite (keeps_stewardRestart h) h)
  | .stewardServiceStep => leads_next (canon_ite (keeps_serviceBody h) h)
  | .expertUnlockTimeout => leads_next (keeps_expertTimeout h)
  | .perst => leads_next (keeps_perstBody h)
  | .functionLevelReset .. => leads_next (keeps_viaHost keeps_fnReset h)
  | .busMasterDisable .. => leads_next (keeps_viaHost (fun _ h => keeps_setMaster (keeps_flushRing h)) h)
  | .svcDbCmd .. => leads_next (keeps_viaHost keeps_dbCmd h)
  | .svcDbCpl .. => leads_next (keeps_viaHost keeps_dbCpl h)
  | .svcRingCtlEn .. | .svcRingCtlFlush .. => leads_next (keeps_viaHost keeps_ringCtl h)
  | .ringFlushGraceExpiry .. => leads_next (keeps_flushGrace h)
  | .cplCoalesceTimeout .. => leads_next (keeps_coalBody h)
  | .svcNop .. | .svcGetNonce .. | .svcCopyIn .. | .svcCopyOut .. | .svcExpertUnlock .. | .svcExpertLock .. | .svcKeyInstall ..
  | .svcKeyRevoke .. | .svcFwUpdate .. | .svcFuseBurn .. | .svcAuditRead .. | .svcAuditExport .. | .svcAuditSeal .. | .svcImageLoad ..
  | .svcImageCommit .. | .svcImageDiscard .. | .svcImageRead .. | .svcStartStream .. | .svcStopStream .. | .svcRecipeSelect ..
  | .svcCamCtrl .. | .svcLaneQuarantine .. | .svcLaneRelease .. | .svcLoadModel .. | .svcUnloadModel .. | .svcBindStream .. | .svcSchedArea ..
  | .svcCoreRelease .. | .svcMorningCheck .. | .svcRecStart .. | .svcRecStop .. | .svcReplayStart .. | .svcReplayStop .. | .svcCalRun ..
  | .svcLedgerCfg .. | .svcLedgerLog .. | .svcEncMirror .. | .svcEncPreset .. | .svcEncCompare .. | .svcEncCompareRead ..
  | .svcNightfallEnter .. | .svcNightfallClear .. | .svcDoTest .. | .svcMbxRead .. | .svcMbxWrite .. | .svcFaultAck .. => leads_next
    (keeps_svcRow h)
  | .morningCheck .. => leads_next (keeps_morningBody h)
  | .calRunDone => leads_next (keeps_calDoneBody h)
  | .registerWrite .. => leads_next (keeps_viaHost keeps_hostWrite h)
  | .counterLoRead .. => leads_next (keeps_viaHostRead keeps_hostRead h)
  | .timeNowLoRead .. => leads_next (keeps_viaHostRead keeps_nowLoRead h)
  | .timeTickLoRead .. => leads_next (keeps_viaHostRead keeps_tickLoRead h)
  | .timeCommitGo .. => leads_next (keeps_viaHost keeps_timeCommitBody h)
  | .arbCommitGo .. => leads_next (keeps_viaHost keeps_arbGo h)
  | .fesCommitGo .. | .fesCommitTbl .. => leads_next (keeps_viaHost keeps_fesCommit h)
  | .fesTblCtlStart .. => leads_next (keeps_viaHost keeps_tblStart h)
  | .tableLoadDone .. => leads_next (keeps_loadDone h)
  | .ldsCommitGo .. => leads_next (keeps_viaHost (fun _ h => canon_ite (keeps_ldsGo h) h) h)
  | .acctLatchGo .. => leads_next (keeps_viaHost keeps_latchBody h)
  | .acctModLatch .. => leads_next (keeps_viaHost keeps_modLatch h)
  | .motSnapGo .. => leads_next (keeps_viaHost keeps_snapBody h)
  | .encPreset .. | .ssiPreset .. => leads_next (keeps_viaHost (fun _ h => canon_ite (keeps_preset h) h) h)
  | .chkPortCtlQuar .. | .chkPortCtlRelease .. => leads_next (keeps_viaHost keeps_portCtl h)
  | .fioHb .. => leads_next (canon_ite (keeps_heartbeat h) h)
  | .sysRstModule .. => leads_next (keeps_viaHost keeps_sysRst h)
  | .ethqTail .. => leads_next (keeps_viaHost keeps_tailBody h)
  | .ethqCtlWrite .. => leads_next (keeps_viaHost keeps_ctlBody h)
  | .qspiRead .. | .qspiQuadRead .. => leads_next (keeps_supReadBody h)
  | .qspiWrite .. | .qspiQuadWrite .. => leads_next (keeps_supWriteBody h)
  | .qspiReadStatus => leads_next (keeps_readStatus h)
  | .supCtlNightReq .. | .supCtlClear .. => leads_next (canon_ite (keeps_supCtl h) h)
  | .mbxStatusUpdate => leads_next (canon_ite (keeps_mbxStatus h) h)
  | .nop .. => leads_next (keeps_issue keeps_advance h)
  | .li .. | .movas .. => leads_next (keeps_issue (fun _ h => keeps_advance (keeps_setS h)) h)
  | .add .. | .sub .. | .mul .. | .and .. | .or .. | .xor .. | .shl .. | .shr .. | .sra .. | .slt .. => leads_next (keeps_issue keeps_aluBody h)
  | .ld .. => leads_next (keeps_issue keeps_ldBody h)
  | .st .. => leads_next (keeps_issue keeps_stBody h)
  | .lia .. | .liah .. | .adda .. => leads_next (keeps_issue (fun _ h => keeps_advance (keeps_setA h)) h)
  | .br .. => leads_next (keeps_issue keeps_brBody h)
  | .loop .. => leads_next (keeps_issue keeps_loopBody h)
  | .wait .. => leads_next (keeps_issue keeps_waitBody h)
  | .waitComplete .. => leads_next (keeps_waitCompleteBody h)
  | .tokenWaitTimeout .. => leads_next (keeps_tokTimeoutBody h)
  | .signal .. => leads_next (keeps_issue keeps_signalBody h)
  | .signalFire .. => leads_next (keeps_signalFireBody h)
  | .mark .. => leads_next (keeps_issue keeps_markBody h)
  | .yield_ .. => leads_next (keeps_issue keeps_yieldBody h)
  | .yieldSave .. => leads_next (keeps_yieldSaveBody h)
  | .end_ .. => leads_next (keeps_issue keeps_endBody h)
  | .testf .. => leads_next (keeps_issue keeps_testfBody h)
  | .copy .. => leads_next (keeps_issue keeps_copyBody h)
  | .dmaTransferComplete .. => leads_next (keeps_dmaCompleteBody (fun _ => keeps_eccCorrected) h)
  | .tload .. => leads_next (keeps_issue keeps_tloadBody h)
  | .tloadComplete .. => leads_next (keeps_loadCompleteBody h)
  | .tstream .. => leads_next (keeps_issue keeps_tstreamBody h)
  | .tileVerdict .. => leads_next (keeps_verdictBody h)
  | .replan .. => leads_next (canon_ite h (keeps_replanBody h))
  | .ccfg .. => leads_next (keeps_issue keeps_ccfgBody h)
  | .ccfgComplete .. => leads_next (keeps_ccfgCompleteBody h)
  | .cstart .. => leads_next (keeps_issue keeps_cstartBody h)
  | .vparam .. => leads_next (keeps_issue keeps_vparamBody h)
  | .vq .. => leads_next (keeps_issue keeps_vqBody h)
  | .vrawst .. => leads_next (keeps_issue keeps_vrawstBody h)
  | .vrawadd .. => leads_next (keeps_issue keeps_vrawaddBody h)
  | .vpool .. => leads_next (keeps_issue keeps_vpoolBody h)
  | .vcvt .. => leads_next (keeps_issue keeps_vcvtBody h)
  | .vew .. => leads_next (keeps_issue keeps_vewBody h)
  | .vectorOpComplete .. => leads_next (keeps_vecCompleteBody h)
  | .padv .. => leads_next (keeps_issue keeps_padvBody h)
  | .progressPublish .. => leads_next (keeps_publishBody h)
  | .pwait .. => leads_next (keeps_issue keeps_pwaitBody h)
  | .progressWaitComplete .. => leads_next (keeps_progCompleteBody h)
  | .progressWaitTimeout .. => leads_next (keeps_progTimeoutBody h)
  | .post .. => leads_next (keeps_issue keeps_postBody h)
  | .postHandover .. => leads_next (keeps_handOverBody h)
  | .sysTrap .. => leads_next (keeps_issue keeps_sysTrapBody h)
  | .flushGraceExpiry .. => leads_next (keeps_graceBody h)
  | .scrubPass .. => leads_next (keeps_scrubBody h)
  | .burstRequest .. => leads_next (keeps_requestBody h)
  | .burstGrant .. => leads_next (keeps_grantBody h)
  | .fixedSlotStart .. => leads_next (keeps_slotBody h)
  | .bankSlot .. => leads_next (keeps_bankBody h)
  | .losEnter .. => leads_next (keeps_losEnterBody h)
  | .losExit .. => leads_next (keeps_losExitBody h)
  | .blockLock .. => leads_next (keeps_blockLockBody h)
  | .lockLost .. => leads_next (keeps_lockLostBody h)
  | .hiBerEnter .. => leads_next (keeps_hiBerBody h)
  | .hiBerWindowEnd .. => leads_next (keeps_hiBerEndBody h)
  | .alignmentMarker .. => leads_next (keeps_markersBody h)
  | .lineSeg .. | .ctrlAck .. | .event .. | .hello .. | .unknownFrame .. => leads_next (keeps_rxStretch h)
  | .helloTimer .. => by
    refine leads_next ?_
    split
    · exact keeps_camHelloTimer h
    · exact keeps_spanHelloTimer h
  | .ctrlRetryTimeout .. => leads_next (keeps_retryBody h)
  | .quarWindowEnd .. => leads_next (keeps_quarWindow h)
  | .eventRateWindowEnd .. => leads_next (keeps_updPort h)
  | .quarHoldExpiry .. => leads_next (keeps_holdExpiry h)
  | .sofMark .. => leads_next (keeps_sofBody h)
  | .spanData .. | .spanAck .. | .spanHello .. | .gopFrame .. => leads_next (keeps_spanStretch h)
  | .spanAckTimer .. => leads_next (keeps_ackTimer h)
  | .spanRto .. => leads_next (keeps_rtoBody h)
  | .spanRequestLine .. | .barrier .. | .broadcast .. | .snapshot .. | .reset .. => leads_next (keeps_requestLine h)
  | .snapshotCapture .. => leads_next (keeps_snapCapture h)
  | .spanGopTimeout .. => leads_next (keeps_gopTimeout h)
  | .spanTransferDoorbell .. => leads_next (keeps_doorbellBody h)
  | .spanTransferComplete .. => leads_next (keeps_transferComplete h)
  | .encCount .. => leads_next (keeps_countBody h)
  | .encZEdge .. => leads_next (keeps_zEdge h)
  | .passthroughEdge .. => leads_next (keeps_passBody h)
  | .emuEdge .. => leads_next (keeps_emuEdgeBody h)
  | .speedWindowEnd .. => leads_next (canon_ite (keeps_evalSrc (keeps_windowEnd h)) h)
  | .ssiFrame .. => leads_next (keeps_ssiStart h)
  | .ssiFrameEnd .. => leads_next (keeps_ssiEndBody h)
  | .compareWindowEnd .. => leads_next (keeps_compareBody h)
  | .mirrorRecord .. => leads_next (keeps_mirrorBody h)
  | .pullinEnd .. => leads_next (keeps_pullinEndBody h)
  | .pulseEnd .. => leads_next (keeps_pulseEndBody h)
  | .triggerSlotMissing .. => leads_next (keeps_missingBody h)
  | .frameStart .. => leads_next (keeps_frameBody h)
  | .outputLineWrite .. => leads_next (keeps_outputBody h)
  | .objectWindowIssue .. => leads_next (keeps_windowIssue h)
  | .statRecordWrite .. => leads_next (keeps_statBody h)
  | .replayLineFeed .. => leads_next (keeps_feedBody h)
  | .jobStart .. => leads_next (keeps_jobStartBody h)
  | .monitorEval .. => leads_next (keeps_monitorEval h)
  | .duskExit .. => leads_next (keeps_duskExitBody h)
  | .modelSetSwitch .. => leads_next (keeps_switchBody h)
  | .diSense .. => leads_next (keeps_senseBody h)
  | .fioShort .. | .fioOvertemp .. => leads_next (keeps_groupTrip h)
  | .fioUndervoltage => leads_next (keeps_fioFault ⟨h.1, h.2⟩)
  | .nfHeartbeatTimeout => leads_next (keeps_hbTimeout h)
  | .ptpMessage .. => leads_next (keeps_ptpMsgBody h)
  | .ptpTxTimer .. => leads_next (keeps_ptpTxBody h)
  | .ptpLost .. => leads_next (keeps_ptpLostBody h)
  | .arpRequest .. => leads_next (keeps_arpBody h)
  | .ethFrameDrop .. => leads_next (keeps_frameDropBody h)
  | .ethLinkDown .. => leads_next (keeps_linkDownBody h)
  | .frameLaunch .. => leads_next (keeps_launchBody h)
  | .launchLateDrop .. => leads_next (keeps_lateDropBody h)
  | .refclkGlitch => leads_next (keeps_glitchBody h)
  | .refclkWindow .. => leads_next (keeps_windowBody h)
  | .refclkLoss => leads_next (keeps_lossBody h)
  | .governorSample .. => leads_next (keeps_governorBody h)
  | .paceSample .. => leads_next (keeps_paceBody h)
  | .thermTrip => leads_next (keeps_tripBody h)
  | .fieldSupplyReturn => leads_next (keeps_supplyBack h)
  | .modResetNRelease => leads_next (keeps_releaseBody h)
  | .pcieLinkUp => leads_next (canon_ite ⟨h.1, h.2⟩ h)
  | .vfEnable .. => leads_next (keeps_vfBody h)
  | .busMasterEnable .. => leads_next (keeps_viaHost (fun _ h => keeps_pumpRing (keeps_setMaster h)) h)
  | .ethLinkUp .. => leads_next (canon_ite h (keeps_linkUpBody h))
  | .completionTimeout .. => leads_next (keeps_timeoutBody h)
  | .pluggableInsertion .. => leads_next (keeps_insertBody h)
  | .energyInterval .. => leads_next (keeps_energyBody h)
  | .illegalWord .. => execIllegalWord_leads h

/-- Settles O52, by one lemma per function of the model. -/
theorem stepKeepsMemoriesCanonical : Obligations.StepKeepsMemoriesCanonical := by
  intro s t h ht
  unfold step at ht
  split at ht
  next => cases ht; exact keeps_tickOnce h
  next c rest _ => exact exec_leads (s := { s with pending := rest }) ⟨h.1, h.2⟩ c t ht

end Sys2Proof.Proofs
end

section
/-! The reset state reads the reset columns of the register tables, block by block (O59). -/

namespace Sys2Proof.Proofs

open Sys2Proof Sys2Proof.Machine

theorem rd_reset (k : Nat) : rd k State.reset = resetVal k := rfl

theorem resetVal_ring {fn o : Nat} (hfn : fn < 17) (ho : o < 0x64) :
    resetVal (ringBase fn + o) =
      if o = oCMD_SIZE ∨ o = oCPL_SIZE then 0x10 else if o = oRING_CTL then 0x100 else if o = oINT_LDP then 1 else 0 := by
  have hoff : (ringBase fn + o) % 0x10000 = o := by unfold ringBase; split <;> omega
  have hblk : (0x10000 ≤ ringBase fn + o ∧ ringBase fn + o < 0x20000) ∨ (0x1010000 ≤ ringBase fn + o ∧ ringBase fn + o < 0x1110000) := by
    unfold ringBase; split <;> omega
  simp only [resetVal, kSYS_STEP, kCLK_OSC_TRIM, kTIME_ERR, arbBase]
  generalize ringBase fn + o = k at *
  iterate 7 rw [if_neg (by omega)]
  rw [if_pos (by omega), hoff]

theorem resetVal_settings {st o : Nat} (hst : st < 64) (ho : o < 0x40) :
    resetVal (ldsBase st + o) = if o = 0x00 then 1 else if o = 0x0C then 0x10 else if o = 0x10 then 0x40 else if o = 0x14 then 0x2710
      else if o = 0x18 then 0x64 else 0 := by
  have hoff : (ldsBase st + o - 0x40000) % 0x40 = o := by unfold ldsBase ledBase; omega
  have hblk : 0x40800 ≤ ldsBase st + o ∧ ldsBase st + o < 0x41800 := by unfold ldsBase ledBase; omega
  simp only [resetVal, kSYS_STEP, kCLK_OSC_TRIM, kTIME_ERR, arbBase, ledBase]
  generalize ldsBase st + o = k at *
  iterate 8 rw [if_neg (by omega)]
  rw [if_pos (by omega), hoff]

theorem resetVal_slotSet {st o : Nat} (hst : st < 64) (ho : o < 0x100) :
    resetVal (fes st + o) = if o = 0x01C then 0x100 else if o = 0x024 ∨ o = 0x02C ∨ o = 0x034 then 0x1000
      else if o = 0x040 ∨ o = 0x044 ∨ o = 0x048 then 0x00010000 else if o = 0x050 then 0x10000400 else if o = 0x058 then 0x100
      else if o = 0x05C then 0x7FFF0000 else if o = 0x068 then 0x10 else 0 := by
  have hoff : (fes st + o) % 0x400 = o := by unfold fes feBase; omega
  have hblk : 0x80000 ≤ fes st + o ∧ fes st + o < 0xA0000 ∧ 0x400 ≤ (fes st + o) % 0x2000 ∧ (fes st + o) % 0x2000 < 0x1400 := by
    unfold fes feBase; omega
  simp only [resetVal, kSYS_STEP, kCLK_OSC_TRIM, kTIME_ERR, arbBase, ledBase]
  generalize fes st + o = k at *
  iterate 9 rw [if_neg (by omega)]
  rw [if_pos hblk, hoff, if_neg (show ¬(0x100 ≤ o ∧ o < 0x200) by omega)]

theorem resetVal_core {n o : Nat} (hn : n < 32) (ho : o < 0xB00) :
    resetVal (coreBase n + o) = if o = 0x000 ∨ o = 0x800 then 1 else 0 := by
  have hoff : (coreBase n + o) % 0x2000 = o := by unfold coreBase; omega
  have hblk : 0x100000 ≤ coreBase n + o ∧ coreBase n + o < 0x140000 := by unfold coreBase; omega
  simp only [resetVal, kSYS_STEP, kCLK_OSC_TRIM, kTIME_ERR, arbBase, ledBase]
  generalize coreBase n + o = k at *
  iterate 10 rw [if_neg (by omega)]
  rw [if_pos hblk, hoff, if_neg (show ¬o = 0xB04 by omega), if_neg (show ¬o = 0xB0C by omega)]

theorem resetVal_launchQueue {p q o : Nat} (hp : p < 2) (hq : q < 8) (ho : o < 0x100) :
    resetVal (ethqBase p q + o) = if o = 0 then 0x000A0000 else if o = 0x14 then 0x88B5 else if o = 0x20 then 0x10 else 0 := by
  have hoff : (ethqBase p q + o - 0xF0000) % 0x4000 = 0x1000 + q * 0x100 + o := by unfold ethqBase ethBase; omega
  have hreg : (0x1000 + q * 0x100 + o) % 0x100 = o := by omega
  have hblk : 0xF0000 ≤ ethqBase p q + o ∧ ethqBase p q + o < 0xF8000 := by unfold ethqBase ethBase; omega
  simp only [resetVal, kSYS_STEP, kCLK_OSC_TRIM, kTIME_ERR, arbBase, ledBase]
  generalize ethqBase p q + o = k at *
  iterate 11 rw [if_neg (by omega)]
  rw [if_pos hblk, hoff, hreg, if_neg (by omega), if_neg (by omega), if_pos (by omega)]

theorem resetVal_lane {l o : Nat} (hl : l < 64) (ho : o < 0x400) : resetVal (laneBase l + o) = if o = 0x004 then 1 else 0 := by
  have hoff : (laneBase l + o) % 0x400 = o := by unfold laneBase; omega
  have hblk : 0xC0000 ≤ laneBase l + o ∧ laneBase l + o < 0xD0000 := by unfold laneBase; omega
  simp only [resetVal, kSYS_STEP, kCLK_OSC_TRIM, kTIME_ERR, arbBase, ledBase]
  generalize laneBase l + o = k at *
  iterate 13 rw [if_neg (by omega)]
  rw [if_pos hblk, hoff]

theorem resetVal_partStatus {p : Nat} (hp : p < 16) : resetVal (kPART_STATUS p) = 0 := by
  have hblk : 0x70000 ≤ kPART_STATUS p ∧ kPART_STATUS p < 0x70040 := by unfold kPART_STATUS; omega
  simp only [resetVal, kSYS_STEP, kCLK_OSC_TRIM, kTIME_ERR, arbBase, ledBase, supBase]
  generalize kPART_STATUS p = k at *
  iterate 18 rw [if_neg (by omega)]

/-- Settles O59: a register of the reset state reads its table's value, which each block's lemma gives for all its instances. -/
theorem registersHoldTheirResetValues : Obligations.RegistersHoldTheirResetValues := by
  refine ⟨rfl, rfl, rfl, rfl, rfl, rfl, rfl, rfl, rfl, rfl, rfl, fun fn h => ?rings, fun st h => ?streams, fun n h => ?cores,
    fun p h => ?partitions, fun p q hp hq => ?queues⟩
  case rings =>
    have hr {o : Nat} (ho : o < 0x64) := (rd_reset _).trans (resetVal_ring h ho)
    have hctl : rd (ringBase fn + oRING_CTL) State.reset = 0x100 := hr (by decide)
    exact ⟨hr (by decide), hr (by decide), hr (by decide), hr (by decide), hr (by decide), by simp [ringEn, rdB, hctl, bitOf]⟩
  case streams =>
    have hs {o : Nat} (ho : o < 0x40) := (rd_reset _).trans (resetVal_settings h ho)
    have hf {o : Nat} (ho : o < 0x100) := (rd_reset _).trans (resetVal_slotSet h ho)
    exact ⟨hs (o := 0) (by decide), hs (by decide), hs (by decide), hs (by decide), hs (by decide), hs (by decide),
      hf (o := 0) (by decide), hf (by decide), hf (by decide), hf (by decide), hf (by decide),
      (rd_reset _).trans (resetVal_lane h (by decide))⟩
  case cores =>
    have hc {o : Nat} (ho : o < 0xB00) := (rd_reset _).trans (resetVal_core h ho)
    exact ⟨hc (o := 0) (by decide), hc (by decide), hc (by decide)⟩
  case partitions => exact ⟨rfl, by rw [partState, rdF, rd_reset, resetVal_partStatus h]; rfl⟩
  case queues =>
    have hq' {o : Nat} (ho : o < 0x100) := (rd_reset _).trans (resetVal_launchQueue hp hq ho)
    exact ⟨hq' (o := 0) (by decide), hq' (by decide), hq' (by decide)⟩

end Sys2Proof.Proofs
end

section
/-! The bounds that the events, faults, audit log and fuses keep (02_partitions_and_roles.md, R44, R45; 20_startup_and_faults.md, R450). -/

namespace Sys2Proof.Proofs

open Sys2Proof Sys2Proof.Machine

/-- A SVC_FUSE_BURN of KIND 0 that names security version 0. -/
def burnZero : SvcDesc := natLE 2 0x0106 ++ zeros 62

/-- The PF's ring has that command in hand at its last check step (R30), while the fuses hold version 1. The test that the version named
lies above the fuses' is one of the descriptor's form (R400, R405), which a further check step does not make again. No command brings the
module into this state; the statement asks it of every state. -/
def burnInHand : State :=
  { State.reset with
    pending := [.stewardServiceStep]
    boot := { powered := true, fwRunning := true }
    regs := [(kSYS_BOOT, 4)]
    fuses := { fwSvn := 1 }
    rings := [(0, { busy := some (.work burnZero true 1) })] }

/-- FW_SVN of the state a step answers. -/
def svnAfter : Host.Outcome State Fault Refusal → Option Nat
  | .next t => some t.fuses.fwSvn
  | _ => none

theorem svnAfter_step_burnInHand : svnAfter (step burnInHand) = some 0 := by decide +kernel

/-- Refutes O54: the step of a ring that has a burn of a lower version in hand lowers FW_SVN. -/
theorem not_stepKeepsEventsFaultsAndAuditBounded : ¬ Obligations.StepKeepsEventsFaultsAndAuditBounded := by
  intro h
  obtain ⟨t, ht⟩ := everyCommandAnswersANextState .stewardServiceStep { burnInHand with pending := [] }
  have hstep : step burnInHand = .next t := ht
  obtain ⟨-, hsvn, -, -⟩ := h burnInHand t hstep
  have hlow : t.fuses.fwSvn = 0 := by simpa [hstep, svnAfter] using svnAfter_step_burnInHand
  have hwas : burnInHand.fuses.fwSvn = 1 := rfl
  omega

end Sys2Proof.Proofs
end

section
/-! The rings of the functions (17_host_interface.md, R395 to R400): what serving a ring writes, how a command is taken, begun and answered. -/

namespace Sys2Proof.Proofs

open Sys2Proof Sys2Proof.Machine Sys2Proof.Laws

/-! ### What serving one ring may write -/

/-- The registers of a function's rings and interrupts (R407). -/
def ringKey (fn k : Nat) : Bool := decide (ringBase fn ≤ k) && decide (k < ringBase fn + 0x68)

/-- Serving the ring of one function writes nothing but its registers, its record, host memory and interrupts. -/
structure RingOnly (fn : Nat) (s t : State) : Prop where
  rest : t = { s with regs := t.regs, rings := t.rings, host := t.host, out := t.out }
  registers : RegsSameBut (ringKey fn) s t
  others : ∀ g, g ≠ fn → ring g t = ring g s

section Frame

variable {fn : Nat} {s t u : State}

theorem ringOnly_refl : RingOnly fn s s := ⟨rfl, fun _ _ => rfl, fun _ _ => rfl⟩

theorem RingOnly.trans (h : RingOnly fn s t) (h' : RingOnly fn t u) : RingOnly fn s u where
  rest := by rw [h'.rest, h.rest]
  registers := fun k hk => (h'.registers k hk).trans (h.registers k hk)
  others := fun g hg => (h'.others g hg).trans (h.others g hg)

theorem ringOnly_ite {c : Prop} [Decidable c] (ht : RingOnly fn s t) (hu : RingOnly fn s u) : RingOnly fn s (if c then t else u) := by
  split <;> assumption

theorem ringKey_offset {o : Nat} (h : o < 0x68) : ringKey fn (ringBase fn + o) = true := by simp [ringKey, h]

theorem ringOnly_wr {k : Nat} (v : Word) (h : ringKey fn k = true) : RingOnly fn s (wr k v s) where
  rest := rfl
  registers := fun j hj => rd_wr_ne s v (by rintro rfl; simp_all)
  others := fun _ _ => rfl

theorem ringOnly_wrB {o : Nat} (i : Nat) (b : Bool) (h : o < 0x68 := by decide) : RingOnly fn s (wrB (ringBase fn + o) i b s) :=
  ringOnly_wr _ (ringKey_offset h)

theorem ringOnly_wrF {o : Nat} (hi lo v : Nat) (h : o < 0x68 := by decide) : RingOnly fn s (wrF (ringBase fn + o) hi lo v s) :=
  ringOnly_wr _ (ringKey_offset h)

theorem ringOnly_inc {o : Nat} (n : Nat) (h : o < 0x68 := by decide) : RingOnly fn s (inc (ringBase fn + o) n s) :=
  ringOnly_wr _ (ringKey_offset h)

theorem ringOnly_updRing (f : Ring → Ring) : RingOnly fn s (updRing fn f s) := ⟨rfl, fun _ _ => rfl, fun _ h => ring_updRing_ne s f h⟩

theorem ringOnly_host (m : List Host.Cell) : RingOnly fn s { s with host := m } := ⟨rfl, fun _ _ => rfl, fun _ _ => rfl⟩

theorem ringOnly_hostPut (a : Nat) (bs : Option (List Byte)) : RingOnly fn s (hostPut a bs s) := by
  cases bs with
  | none => exact ringOnly_refl
  | some bs => exact ringOnly_host _

theorem ringOnly_fireInt (k : Nat) : RingOnly fn s (fireInt fn k s) := by
  unfold fireInt
  exact ringOnly_ite ⟨rfl, fun _ _ => rfl, fun _ _ => rfl⟩ ringOnly_refl

theorem ringOnly_putCpl (bs : List Byte) : RingOnly fn s (putCpl fn bs s) :=
  ((ringOnly_host _).trans (ringOnly_inc 1)).trans (ringOnly_wrB 2 _)

theorem ringOnly_showHeld : RingOnly fn s (showHeld fn s) := ringOnly_wrF 14 8 _

theorem ringOnly_pumpEvents (n : Nat) : ∀ {s : State}, RingOnly fn s (pumpEvents fn n s) := by
  induction n with
  | zero => exact ringOnly_refl
  | succ n ih =>
    intro s
    unfold pumpEvents
    split
    · exact ringOnly_refl
    · exact ringOnly_ite
        (((((ringOnly_putCpl _).trans (ringOnly_updRing _)).trans ringOnly_showHeld).trans (ringOnly_fireInt 1)).trans ih) ringOnly_refl

theorem ringOnly_fetchDescs (n : Nat) : ∀ {s : State}, RingOnly fn s (fetchDescs fn n s) := by
  induction n with
  | zero => exact ringOnly_refl
  | succ n ih =>
    intro s
    unfold fetchDescs
    exact ringOnly_ite (((ringOnly_updRing _).trans (ringOnly_inc 1)).trans ih) ringOnly_refl

theorem ringOnly_pumpRing : RingOnly fn s (pumpRing fn s) := (ringOnly_pumpEvents 64).trans (ringOnly_fetchDescs 4096)

theorem ringOnly_coalesce : RingOnly fn s (coalesce fn s) := by
  unfold coalesce
  exact ringOnly_ite ((ringOnly_updRing _).trans (ringOnly_fireInt 0)) (ringOnly_updRing _)

theorem ringOnly_flushEnd : RingOnly fn s (flushEnd fn s) :=
  (((ringOnly_updRing _).trans (ringOnly_wrB 0 false)).trans (ringOnly_wrB 0 false)).trans (ringOnly_wrB 1 false)

theorem ringOnly_finish (d : SvcDesc) (status flags : Nat) (res : List Byte) : RingOnly fn s (finish fn d status flags res s) := by
  have hres (w : Bool) (m : List Host.Cell) (s : State) : RingOnly fn s (if w then { s with host := m } else s) :=
    ringOnly_ite (ringOnly_host m) ringOnly_refl
  have hcpl (c : Bool) (bs : List Byte) (s : State) : RingOnly fn s (if c then coalesce fn (putCpl fn bs s) else s) :=
    ringOnly_ite ((ringOnly_putCpl bs).trans ringOnly_coalesce) ringOnly_refl
  have hend (c : Bool) (v : Word) (s : State) : RingOnly fn s (if c then flushEnd fn (wr (ringBase fn + oFLUSH_LAST) v s) else pumpRing fn s) :=
    ringOnly_ite ((ringOnly_wr v (ringKey_offset (by decide))).trans ringOnly_flushEnd) ringOnly_pumpRing
  exact (((ringOnly_updRing _).trans (hres _ _ _)).trans (ringOnly_inc 1)).trans ((hcpl _ _ _).trans (hend _ _ _))

end Frame

/-! ### The command in hand and its answer (R396, R398) -/

theorem ringKey_other {fn g o : Nat} (hg : g ≠ fn) (ho : o < 0x68) : ringKey fn (ringBase g + o) = false := by
  unfold ringKey ringBase
  split <;> split <;> simp <;> omega

theorem rd_other {fn g o : Nat} {s t : State} (h : RingOnly fn s t) (hg : g ≠ fn) (ho : o < 0x68 := by decide) :
    rd (ringBase g + o) t = rd (ringBase g + o) s := h.registers _ (ringKey_other hg ho)

/-- The registers of a function's ring, named by their offset, hold what they held. -/
def RingRegsSame (fn : Nat) (s t : State) : Prop := ∀ o, o < 0x68 → rd (ringBase fn + o) t = rd (ringBase fn + o) s

/-- `s` stands between the start of the command that ring `fn` has in hand, in `s1`, and its end: the ring runs with nothing else to take, and
completions written since `s1` follow each other in their places. -/
structure InHand (fn : Nat) (s1 s : State) : Prop where
  runs : ringEn fn s = true ∧ (ring fn s).busMaster = true ∧ (ring fn s).flushing = false
  idle : (ring fn s).fetched = [] ∧ (ring fn s).cmdTail = rd (ringBase fn + oCMD_HEAD) s
  inHand : (ring fn s).busy.isSome = true
  room : cplRoom fn s = true
  base : rdAddr (ringBase fn + oCPL_BASE) s = rdAddr (ringBase fn + oCPL_BASE) s1
  size : ringSize fn oCPL_SIZE s = ringSize fn oCPL_SIZE s1
  count : rd (ringBase fn + oCNT_CMDS) s = rd (ringBase fn + oCNT_CMDS) s1
  tail : ∃ j, rd (ringBase fn + oCPL_TAIL) s = rd (ringBase fn + oCPL_TAIL) s1 + wd j ∧ j ≤ cplUsed fn s ∧
    (j = 0 ∨ ringSize fn oCPL_SIZE s1 ∣ 2 ^ 32)

/-- A command in hand whose completion no held event can precede. -/
structure Serving (fn : Nat) (s1 s : State) : Prop extends InHand fn s1 s where
  noEvent : (ring fn s).held = [] ∨ evtRoom fn s = false

section Congr

variable {fn : Nat} {s t : State}

theorem ringEn_congr (h : rd (ringBase fn + oRING_CTL) t = rd (ringBase fn + oRING_CTL) s) : ringEn fn t = ringEn fn s := by
  simp only [ringEn, rdB, h]

theorem rdAddr_congr {k : Nat} (h : rd k t = rd k s) (h4 : rd (k + 4) t = rd (k + 4) s) : rdAddr k t = rdAddr k s := by
  simp only [rdAddr, h, h4]

theorem ringSize_congr {o : Nat} (h : rd (ringBase fn + o) t = rd (ringBase fn + o) s) : ringSize fn o t = ringSize fn o s := by
  simp only [ringSize, rdF, h]

theorem cplUsed_congr (hg : (ring fn t).cplHead = (ring fn s).cplHead) (h : rd (ringBase fn + oCPL_TAIL) t = rd (ringBase fn + oCPL_TAIL) s) :
    cplUsed fn t = cplUsed fn s := by simp only [cplUsed, h, hg]

theorem cplRoom_congr (hg : (ring fn t).cplHead = (ring fn s).cplHead) (h : rd (ringBase fn + oCPL_TAIL) t = rd (ringBase fn + oCPL_TAIL) s)
    (hs : rd (ringBase fn + oCPL_SIZE) t = rd (ringBase fn + oCPL_SIZE) s) : cplRoom fn t = cplRoom fn s := by
  simp only [cplRoom, cplUsed_congr hg h, ringSize_congr hs]

theorem evtRoom_congr (hg : ring fn t = ring fn s) (h : rd (ringBase fn + oCPL_TAIL) t = rd (ringBase fn + oCPL_TAIL) s)
    (hs : rd (ringBase fn + oCPL_SIZE) t = rd (ringBase fn + oCPL_SIZE) s) : evtRoom fn t = evtRoom fn s := by
  simp only [evtRoom, cplUsed_congr (congrArg Ring.cplHead hg) h, ringSize_congr hs, hg]

/-- What leaves the ring's record and all but its status and event registers alone leaves its command in hand. -/
theorem InHand.congr {s1 : State} (h : InHand fn s1 s) (hg : ring fn t = ring fn s)
    (hr : ∀ o, o < 0x68 → o ≠ oRING_STAT → o ≠ oRING_EVT → o ≠ oCNT_EVT_LOST → rd (ringBase fn + o) t = rd (ringBase fn + o) s) : InHand fn s1 t := by
  have hct := hr oCPL_TAIL (by decide) (by decide) (by decide) (by decide)
  have hcs := hr oCPL_SIZE (by decide) (by decide) (by decide) (by decide)
  have hch := congrArg Ring.cplHead hg
  exact {
    runs := by rw [ringEn_congr (hr oRING_CTL (by decide) (by decide) (by decide) (by decide)), hg]; exact h.runs
    idle := by rw [hg, hr oCMD_HEAD (by decide) (by decide) (by decide) (by decide)]; exact h.idle
    inHand := hg ▸ h.inHand
    room := (cplRoom_congr hch hct hcs).trans h.room
    base := (rdAddr_congr (hr oCPL_BASE (by decide) (by decide) (by decide) (by decide))
      (hr (oCPL_BASE + 4) (by decide) (by decide) (by decide) (by decide))).trans h.base
    size := (ringSize_congr hcs).trans h.size
    count := (hr oCNT_CMDS (by decide) (by decide) (by decide) (by decide)).trans h.count
    tail := by rw [hct, cplUsed_congr hch hct]; exact h.tail }

/-- What leaves the ring alone leaves its command in hand. -/
theorem Serving.congr {s1 : State} (h : Serving fn s1 s) (hg : ring fn t = ring fn s) (hr : RingRegsSame fn s t) : Serving fn s1 t where
  toInHand := h.toInHand.congr hg fun o ho _ _ _ => hr o ho
  noEvent := by rw [evtRoom_congr hg (hr oCPL_TAIL (by decide)) (hr oCPL_SIZE (by decide)), hg]; exact h.noEvent

end Congr

/-- A ring with nothing that may be delivered or fetched does nothing. -/
theorem pumpEvents_none {fn : Nat} {s : State} (n : Nat) (h : (ring fn s).held = [] ∨ evtRoom fn s = false) : pumpEvents fn n s = s := by
  cases n with
  | zero => rfl
  | succ n =>
    unfold pumpEvents
    split
    · rfl
    · next e es he =>
      have hroom : evtRoom fn s = false := by simpa [he] using h
      simp [hroom]

theorem fetchDescs_none {fn : Nat} {s : State} (n : Nat) (h : (ring fn s).cmdTail = rd (ringBase fn + oCMD_HEAD) s) : fetchDescs fn n s = s := by
  cases n with
  | zero => rfl
  | succ n => simp [fetchDescs, h]

theorem pumpRing_none {fn : Nat} {s : State} (he : (ring fn s).held = [] ∨ evtRoom fn s = false)
    (hc : (ring fn s).cmdTail = rd (ringBase fn + oCMD_HEAD) s) : pumpRing fn s = s := by
  rw [pumpRing, pumpEvents_none _ he, fetchDescs_none _ hc]

/-! ### A command is answered (R398) -/

@[simp] theorem natLE_length (k : Nat) : ∀ n, (natLE k n).length = k := by
  induction k with
  | zero => exact fun _ => rfl
  | succ k ih => intro n; simp [natLE, ih]

@[simp] theorem padTo_length (k : Nat) (bs : List Byte) : (padTo k bs).length = k := by
  simp only [padTo, zeros, List.length_take, List.length_append, List.length_replicate]
  omega

/-- A ring's command is busy no more, its result block is in host memory `m`, and it is counted. -/
def counted (fn : Nat) (m : List Host.Cell) (s : State) : State :=
  inc (ringBase fn + oCNT_CMDS) 1 { updRing fn (fun r => { r with busy := none }) s with host := m }

/-- A counted command's completion `bs`, where the ring has room for one, and what its end lets the ring do. -/
def concluded (fn : Nat) (d : SvcDesc) (status : Nat) (bs : List Byte) (s : State) : State :=
  let s := if ringEn fn s && (ring fn s).busMaster && cplRoom fn s then coalesce fn (putCpl fn bs s) else s
  if (ring fn s).flushing then flushEnd fn (wr (ringBase fn + oFLUSH_LAST) (wd (dTAG d * 65536 + status)) s) else pumpRing fn s

/-- Host memory keeps every byte outside a command's result block. -/
def OutsideResult (d : SvcDesc) (m m' : List Host.Cell) : Prop :=
  ∀ x, (dRES d = 0 ∨ x < dRES d ∨ dRES d + 64 ≤ x) → Memory.get x m' = Memory.get x m

theorem finish_eq_concluded (fn : Nat) (d : SvcDesc) (status flags : Nat) (res : List Byte) (s : State) :
    ∃ m flags', OutsideResult d s.host m ∧ finish fn d status flags res s =
      concluded fn d status (cplBytes fn (dTAG d) status (dCMD d) flags' res (counted fn m s)) (counted fn m s) := by
  cases hw : decide (dRES d ≠ 0) && (ring fn (updRing fn (fun r => { r with busy := none }) s)).busMaster with
  | false => exact ⟨s.host, flags + 0, fun _ _ => rfl, by simp only [finish, hw]; rfl⟩
  | true =>
    refine ⟨Memory.write s.host (dRES d) (padTo 64 res), flags + 2, fun x hx => get_write_out _ _ ?_, by simp only [finish, hw]; rfl⟩
    have hres : dRES d ≠ 0 := by simp_all
    rw [padTo_length]
    omega

section Counted

variable {fn o : Nat} (m : List Host.Cell) (s : State)

@[simp] theorem ring_counted : ring fn (counted fn m s) = { ring fn s with busy := none } := ring_updRing_same s fn fun r => { r with busy := none }

theorem rd_counted_ne (h : o ≠ oCNT_CMDS) : rd (ringBase fn + o) (counted fn m s) = rd (ringBase fn + o) s :=
  rd_inc_ne _ _ (by simpa using h)

theorem rd_counted_same : rd (ringBase fn + oCNT_CMDS) (counted fn m s) = rd (ringBase fn + oCNT_CMDS) s + 1 := rd_inc_same _ _ _

end Counted

section PutCpl

variable {fn o : Nat} (bs : List Byte) (s : State)

@[simp] theorem ring_putCpl (g : Nat) : ring g (putCpl fn bs s) = ring g s := rfl

theorem putCpl_host : (putCpl fn bs s).host = Memory.write s.host (cplSlot fn (rd (ringBase fn + oCPL_TAIL) s).toNat s) bs := rfl

theorem rd_putCpl_tail : rd (ringBase fn + oCPL_TAIL) (putCpl fn bs s) = rd (ringBase fn + oCPL_TAIL) s + 1 := by
  simp only [putCpl]
  rw [rd_wrB_ne _ _ _ (by simp)]
  exact rd_inc_same _ _ _

theorem rd_putCpl_ne (ht : o ≠ oCPL_TAIL) (hs : o ≠ oRING_STAT) : rd (ringBase fn + o) (putCpl fn bs s) = rd (ringBase fn + o) s := by
  simp only [putCpl]
  rw [rd_wrB_ne _ _ _ (by simpa using hs), rd_inc_ne _ _ (by simpa using ht)]
  rfl

end PutCpl

theorem fireInt_eq (fn k : Nat) (s : State) : ∃ o, fireInt fn k s = { s with out := o } := by
  unfold fireInt
  extract_lets r
  split
  · exact ⟨_, rfl⟩
  · exact ⟨s.out, rfl⟩

theorem ring_fireInt (fn g k : Nat) (s : State) : ring g (fireInt fn k s) = ring g s := by
  obtain ⟨o, ho⟩ := fireInt_eq fn k s
  rw [ho]
  rfl

theorem rd_fireInt (fn k j : Nat) (s : State) : rd j (fireInt fn k s) = rd j s := by
  obtain ⟨o, ho⟩ := fireInt_eq fn k s
  rw [ho]
  rfl

theorem coalesce_eq (fn : Nat) (s : State) : ∃ n o, coalesce fn s = { updRing fn (fun r => { r with unsig := n }) s with out := o } := by
  unfold coalesce
  extract_lets c n
  split
  · exact ⟨0, fireInt_eq fn 0 _⟩
  · exact ⟨n, s.out, rfl⟩

/-- What a completion that is written leaves of the ring in `t`: the ring is free, the command counted, the completion `bs` in its place in host
memory `m`. -/
structure Completed (fn : Nat) (m : List Host.Cell) (bs : List Byte) (s t : State) : Prop where
  record : ∃ n, ring fn t = { ring fn s with busy := none, unsig := n }
  registers : ∀ o, o ≠ oCPL_TAIL → o ≠ oRING_STAT → o ≠ oCNT_CMDS → rd (ringBase fn + o) t = rd (ringBase fn + o) s
  counted : rd (ringBase fn + oCNT_CMDS) t = rd (ringBase fn + oCNT_CMDS) s + 1
  tail : rd (ringBase fn + oCPL_TAIL) t = rd (ringBase fn + oCPL_TAIL) s + 1
  written : t.host = Memory.write m (cplSlot fn (rd (ringBase fn + oCPL_TAIL) s).toNat s) bs

theorem completed_coalesce (fn : Nat) (m : List Host.Cell) (bs : List Byte) (s : State) :
    Completed fn m bs s (coalesce fn (putCpl fn bs (counted fn m s))) := by
  obtain ⟨n, o, hc⟩ := coalesce_eq fn (putCpl fn bs (counted fn m s))
  rw [hc]
  have hslot : cplSlot fn (rd (ringBase fn + oCPL_TAIL) (counted fn m s)).toNat (counted fn m s) =
      cplSlot fn (rd (ringBase fn + oCPL_TAIL) s).toNat s := by
    simp only [cplSlot, rd_counted_ne m s (o := oCPL_TAIL) (by decide), ringSize_congr (rd_counted_ne m s (o := oCPL_SIZE) (by decide)),
      rdAddr_congr (k := ringBase fn + oCPL_BASE) (rd_counted_ne m s (by decide)) (rd_counted_ne m s (o := oCPL_BASE + 4) (by decide))]
  exact {
    record := ⟨n, (ring_updRing_same (putCpl fn bs (counted fn m s)) fn fun r => { r with unsig := n }).trans (by rw [ring_putCpl, ring_counted])⟩
    registers := fun x hx hx' hx'' => (rd_putCpl_ne bs _ hx hx').trans (rd_counted_ne m s hx'')
    counted := (rd_putCpl_ne bs _ (by decide) (by decide)).trans (rd_counted_same m s)
    tail := (rd_putCpl_tail bs _).trans (congrArg (· + 1) (rd_counted_ne m s (by decide)))
    written := (putCpl_host bs _).trans (congrArg (Memory.write m · bs) hslot) }

theorem ringSize_lt (fn o : Nat) (s : State) : ringSize fn o s < 2 ^ 13 := Nat.mod_lt _ (by decide)

theorem cplRoom_iff {fn : Nat} {s : State} : cplRoom fn s = true ↔ cplUsed fn s < ringSize fn oCPL_SIZE s := by simp [cplRoom]

/-- One completion more is one place less, as long as a place is left. -/
theorem cplUsed_succ {fn : Nat} {s t : State} (hg : (ring fn t).cplHead = (ring fn s).cplHead)
    (ht : rd (ringBase fn + oCPL_TAIL) t = rd (ringBase fn + oCPL_TAIL) s + 1) (hr : cplRoom fn s = true) :
    cplUsed fn t = cplUsed fn s + 1 := by
  have hroom : cplUsed fn s < 2 ^ 13 := (cplRoom_iff.mp hr).trans (ringSize_lt fn oCPL_SIZE s)
  simp only [cplUsed, ht, hg] at hroom ⊢
  generalize rd (ringBase fn + oCPL_TAIL) s = w at *
  generalize (ring fn s).cplHead = v at *
  bv_omega

/-- The command in hand ends with its completion, and the ring does nothing more (R396, R398). -/
theorem finish_of_serving {fn : Nat} {s1 s : State} (h : Serving fn s1 s) (d : SvcDesc) (status flags : Nat) (res : List Byte) :
    ∃ m, ∃ (flags' : Byte), OutsideResult d s.host m ∧
      Completed fn m (natLE 2 (dTAG d) ++ natLE 2 status ++ natLE 2 (dCMD d) ++ [flags', 0] ++ padTo 8 res) s (finish fn d status flags res s) := by
  obtain ⟨m, flags', hm, hf⟩ := finish_eq_concluded fn d status flags res s
  obtain ⟨hen, hbm, hfl⟩ := h.runs
  obtain ⟨hfe, hct⟩ := h.idle
  have hen' : ringEn fn (counted fn m s) = true := (ringEn_congr (rd_counted_ne m s (by decide))).trans hen
  have hroom' : cplRoom fn (counted fn m s) = true :=
    (cplRoom_congr (by simp) (rd_counted_ne m s (by decide)) (rd_counted_ne m s (by decide))).trans h.room
  refine ⟨m, BitVec.ofNat 8 (((rd (ringBase fn + oCPL_TAIL) (counted fn m s)).toNat / ringSize fn oCPL_SIZE (counted fn m s) + 1) % 2 + flags'), hm, ?_⟩
  have hc := completed_coalesce fn m (cplBytes fn (dTAG d) status (dCMD d) flags' res (counted fn m s)) s
  rw [hf, concluded, hen', hroom', ring_counted, hbm]
  obtain ⟨n, hg⟩ := hc.record
  simp only [Bool.and_self, if_true, hg, hfl, Bool.false_eq_true, if_false]
  rw [pumpRing_none]
  · simpa [cplBytes] using hc
  · refine h.noEvent.imp (fun he => hg ▸ he) fun he => ?_
    have hu := cplUsed_succ (by rw [hg]) hc.tail h.room
    have hs := ringSize_congr (hc.registers oCPL_SIZE (by decide) (by decide) (by decide))
    simpa [evtRoom, hu, hs, hg, hfe, h.inHand] using he
  · rw [hg, hc.registers _ (by decide) (by decide) (by decide)]
    exact hct

/-- The next place of a ring that holds `j` completions since `s1` is the j-th from the first. -/
theorem cplSlot_next {fn j : Nat} {s1 s : State} (h : InHand fn s1 s) (ht : rd (ringBase fn + oCPL_TAIL) s = rd (ringBase fn + oCPL_TAIL) s1 + wd j)
    (hj : j = 0 ∨ ringSize fn oCPL_SIZE s1 ∣ 2 ^ 32) :
    cplSlot fn (rd (ringBase fn + oCPL_TAIL) s).toNat s = cplSlot fn ((rd (ringBase fn + oCPL_TAIL) s1).toNat + j) s1 := by
  simp only [cplSlot, h.base, h.size, ht]
  obtain rfl | hj := hj
  · simp [wd]
  · congr 2
    simp only [wd, BitVec.toNat_add, BitVec.toNat_ofNat]
    rw [Nat.mod_mod_of_dvd _ hj, Nat.add_mod, Nat.mod_mod_of_dvd _ hj, ← Nat.add_mod]

/-- A command that ends is answered (R398). -/
theorem Serving.answered {fn : Nat} {s1 s : State} (h : Serving fn s1 s) (d : SvcDesc) (status flags : Nat) (res : List Byte) :
    Answered fn d status res s1 (finish fn d status flags res s) := by
  obtain ⟨m, flags', -, hc⟩ := finish_of_serving h d status flags res
  obtain ⟨j, ht, hju, hjd⟩ := h.tail
  obtain ⟨n, hg⟩ := hc.record
  have hroom : cplUsed fn s < 2 ^ 13 := (cplRoom_iff.mp h.room).trans (ringSize_lt fn oCPL_SIZE s)
  refine ⟨by rw [hg], by rw [hc.counted, h.count], j, flags', ?_, ?_⟩
  · rw [hc.tail, ht]
    generalize rd (ringBase fn + oCPL_TAIL) s1 = w at *
    simp only [wd] at *
    bv_omega
  · rw [hc.written, cplSlot_next h.toInHand ht hjd]
    simpa using read_write (cplSlot fn ((rd (ringBase fn + oCPL_TAIL) s1).toNat + j) s1)
      (natLE 2 (dTAG d) ++ natLE 2 status ++ natLE 2 (dCMD d) ++ [flags', 0] ++ padTo 8 res) m

/-- What a command wrote to host memory stays where it lies apart from its result block and its completion. -/
theorem Serving.hostByte {fn : Nat} {s1 s : State} (h : Serving fn s1 s) (d : SvcDesc) (status flags : Nat) (res : List Byte) {x : Nat}
    (hres : dRES d = 0 ∨ x < dRES d ∨ dRES d + 64 ≤ x)
    (hslot : x < cplSlot fn (rd (ringBase fn + oCPL_TAIL) s).toNat s ∨ cplSlot fn (rd (ringBase fn + oCPL_TAIL) s).toNat s + 16 ≤ x) :
    hostByte x (finish fn d status flags res s) = hostByte x s := by
  obtain ⟨m, flags', hm, hc⟩ := finish_of_serving h d status flags res
  rw [Machine.hostByte, hc.written, get_write_out _ _ (by simpa using hslot)]
  exact hm x hres

end Sys2Proof.Proofs
end

section
/-! How a ring takes a command (17_host_interface.md, R30, R395, R400): from its row to the state in which its own checks run. -/

namespace Sys2Proof.Proofs

open Sys2Proof Sys2Proof.Machine Sys2Proof.Laws

/-! ### A record written twice -/

theorem set_set {α : Type} (k : Nat) (v w : α) (m : Fam α) : Fam.set k v (Fam.set k w m) = Fam.set k v m := by
  induction m with
  | nil => simp [Fam.set]
  | cons p r ih =>
    obtain ⟨j, u⟩ := p
    by_cases hlt : k < j
    · simp [Fam.set, hlt]
    · by_cases heq : k = j
      · simp [Fam.set, heq]
      · simp [Fam.set, hlt, heq, ih]

theorem updRing_updRing (fn : Nat) (f g : Ring → Ring) (s : State) : updRing fn f (updRing fn g s) = updRing fn (fun r => f (g r)) s := by
  have h : (updRing fn f (updRing fn g s)).rings = (updRing fn (fun r => f (g r)) s).rings := by
    show Fam.set fn (f (ring fn (updRing fn g s))) (Fam.set fn _ s.rings) = _
    rw [ring_updRing_same, set_set]
    rfl
  exact congrArg (fun m => { s with rings := m }) h

theorem eachDo_fixed {α σ : Type} {f : α → σ → σ} {l : List α} {s : σ} (h : ∀ x ∈ l, f x s = s) : eachDo f l s = s := by
  induction l with
  | nil => rfl
  | cons x l ih =>
    rw [show eachDo f (x :: l) s = eachDo f l (f x s) from rfl, h x (by simp)]
    exact ih fun y hy => h y (by simp [hy])

/-! ### A ring with work, as the other rings leave it -/

section Work

variable {fn g : Nat} {s t : State}

theorem not_ringKey_boot (fn : Nat) : ringKey fn kSYS_BOOT = false := by
  unfold ringKey ringBase
  split
  · decide
  · simp only [kSYS_BOOT, Bool.and_eq_false_iff, decide_eq_false_iff_not]
    omega

theorem RingOnly.stage (h : RingOnly fn s t) : stage t = stage s := by simp only [Machine.stage, rdF, h.registers _ (not_ringKey_boot fn)]

theorem RingOnly.boot (h : RingOnly fn s t) : t.boot = s.boot := by rw [h.rest]
theorem RingOnly.flash (h : RingOnly fn s t) : t.flash = s.flash := by rw [h.rest]
theorem RingOnly.img (h : RingOnly fn s t) : t.img = s.img := by rw [h.rest]
theorem RingOnly.parts (h : RingOnly fn s t) : t.parts = s.parts := by rw [h.rest]
theorem RingOnly.mem (h : RingOnly fn s t) : t.mem = s.mem := by rw [h.rest]
theorem RingOnly.svc (h : RingOnly fn s t) : t.svc = s.svc := by rw [h.rest]

theorem RingOnly.served (h : RingOnly fn s t) (g : Nat) : ringServed g t = ringServed g s := by simp only [ringServed, h.stage, h.boot]

theorem RingOnly.mustWait (h : RingOnly fn s t) (g : Nat) (d : SvcDesc) : mustWait g d t = mustWait g d s := by
  rw [h.rest]
  rfl

theorem RingOnly.work (h : RingOnly fn s t) (hg : g ≠ fn) : ringWork g t = ringWork g s := by
  simp only [ringWork, h.served, h.mustWait, h.others g hg]

end Work

/-! ### A command is taken (R30, R395) -/

/-- The checks of a descriptor (R400), from the state in which its command is in hand. -/
def serveFrom (fn : Nat) (d : SvcDesc) (authOk dataOk : Bool) (s : State) : State :=
  if fn ≠ 0 && !partUsed (fn - 1) s then finish fn d stNO_PARTITION 0 [] s
  else match cmdRow (dCMD d) with
    | none => finish fn d stBAD_CMD 0 [] s
    | some c =>
      if !onFn fn (dCMD d) c s then finish fn d stBAD_CMD 0 [] s
      else if descBad fn (dCMD d) c d s then finish fn d stBAD_DESC 0 [] s
      else serveAuth fn d c authOk dataOk s

theorem serve_eq_serveFrom (fn : Nat) (d : SvcDesc) (authOk dataOk : Bool) (s : State) :
    serve fn d authOk dataOk s = serveFrom fn d authOk dataOk (updRing fn (fun r => { r with auth := (0xFF, []), busy := some .now }) s) := rfl

/-- What a descriptor points to stands in host memory. -/
def placed (d : SvcDesc) (h : HostIn) (s : State) : State :=
  hostPut (dDATA d) (h.data.map fun bs => bs.take (dLEN d)) (hostPut (dAUTH d) (if dAUTH d = 0 then none else h.auth.map (padTo 96)) s)

/-- The descriptor stands at the end of its ring's fetched ones, with what it points to in host memory. -/
def queued (fn : Nat) (d : SvcDesc) (h : HostIn) (s : State) : State :=
  inc (ringBase fn + oCMD_HEAD) 1 (updRing fn (fun r => { r with cmdTail := r.cmdTail + 1, fetched := r.fetched ++ [d] }) (placed d h s))

theorem arrived_eq (fn : Nat) (d : SvcDesc) (h : HostIn) (s : State) :
    arrived fn d h s = updRing fn (fun r => { r with auth := (0xFF, []), busy := some .now })
      (turnPast fn (inc (ringBase fn + oCMD_HEAD) 1 (updRing fn (fun r => { r with cmdTail := r.cmdTail + 1 }) (placed d h s)))) := rfl

theorem ringOnly_placed (fn : Nat) (d : SvcDesc) (h : HostIn) (s : State) : RingOnly fn s (placed d h s) :=
  (ringOnly_hostPut _ _).trans (ringOnly_hostPut _ _)

theorem ringOnly_queued (fn : Nat) (d : SvcDesc) (h : HostIn) (s : State) : RingOnly fn s (queued fn d h s) :=
  ((ringOnly_placed fn d h s).trans (ringOnly_updRing _)).trans (ringOnly_inc 1)

theorem rings_hostPut (a : Nat) (bs : Option (List Byte)) (s : State) : (hostPut a bs s).rings = s.rings := by cases bs <;> rfl
theorem regs_hostPut (a : Nat) (bs : Option (List Byte)) (s : State) : (hostPut a bs s).regs = s.regs := by cases bs <;> rfl

theorem ring_placed (d : SvcDesc) (h : HostIn) (s : State) (g : Nat) : ring g (placed d h s) = ring g s :=
  ring_congr ((rings_hostPut _ _ _).trans (rings_hostPut _ _ s)) g

theorem rd_placed (d : SvcDesc) (h : HostIn) (s : State) (k : Nat) : rd k (placed d h s) = rd k s :=
  rd_congr ((regs_hostPut _ _ _).trans (regs_hostPut _ _ s)) k

theorem ring_queued (fn : Nat) (d : SvcDesc) (h : HostIn) (s : State) :
    ring fn (queued fn d h s) = { ring fn s with cmdTail := (ring fn s).cmdTail + 1, fetched := (ring fn s).fetched ++ [d] } :=
  (ring_updRing_same _ fn fun r => { r with cmdTail := r.cmdTail + 1, fetched := r.fetched ++ [d] }).trans (by rw [ring_placed])

/-- The rings before `fn` in the round have nothing to do. -/
theorem ringsBefore_none {fn : Nat} {s : State} (h : ∀ i, i < (fn + 17 - s.svc.turn) % 17 → ringWork ((s.svc.turn + i) % 17) s = false) :
    ringsBefore fn s = s :=
  eachDo_fixed fun i hi => by simp [h i (List.mem_range.mp hi)]

theorem updRing_congr {fn : Nat} {f g : Ring → Ring} {s : State} (h : f (ring fn s) = g (ring fn s)) : updRing fn f s = updRing fn g s := by
  simp only [updRing, h]

theorem updRing_turnPast (fn : Nat) (f : Ring → Ring) (s : State) : updRing fn f (turnPast fn s) = turnPast fn (updRing fn f s) := rfl
theorem updRing_inc (fn k n : Nat) (f : Ring → Ring) (s : State) : updRing fn f (inc k n s) = inc k n (updRing fn f s) := rfl

/-- Taken in its turn, the queued descriptor leaves its ring with nothing fetched and the command in hand. -/
theorem arrived_of_queued {fn : Nat} {d : SvcDesc} {h : HostIn} {s : State} (hf : (ring fn s).fetched = []) :
    updRing fn (fun r => { r with auth := (0xFF, []), busy := some .now }) (updRing fn (fun r =>
      { r with fetched := [] }) (turnPast fn (queued fn d h s))) =
      arrived fn d h s := by
  rw [arrived_eq, queued, updRing_turnPast, updRing_turnPast, updRing_turnPast, updRing_inc, updRing_inc, updRing_inc, updRing_updRing,
    updRing_updRing, updRing_updRing]
  exact congrArg (fun s => turnPast fn (inc (ringBase fn + oCMD_HEAD) 1 s)) (updRing_congr (by rw [ring_placed, hf]))

/-- A row where its ring fetches. -/
theorem svcRow_of_fetch {code fn : Nat} {d : SvcDesc} {h : HostIn} {s : State}
    (hr : (ringEn fn s && ringServed fn s && (ring fn s).busMaster && !(ring fn s).flushing && fetchRoom fn s) = true) :
    svcRow code fn d h s =
      (let t := turnPast fn (ringsBefore fn (queued fn (rowDesc code d) h s))
       if !ringWork fn t then t
       else if (ring fn t).busy.isNone && decide ((ring fn t).fetched = [rowDesc code d]) then
         serve fn (rowDesc code d) h.auth.isSome h.data.isSome (updRing fn (fun r => { r with fetched := [] }) t)
       else ringStep fn t) := by
  unfold svcRow
  extract_lets d'
  exact if_neg (by simp [hr])

theorem turn_ne {fn i t : Nat} (hfn : fn < 17) (hi : i < (fn + 17 - t) % 17) : (t + i) % 17 ≠ fn := by
  have := hfn
  omega

/-- A ring that takes a command at once serves it in `arrived` (R30, R400). -/
theorem svcRow_of_takes {code fn : Nat} {d : SvcDesc} {h : HostIn} {s : State} (hfn : fn < 17) (ht : RingTakes fn (rowDesc code d) s) :
    svcRow code fn d h s = serveFrom fn (rowDesc code d) h.auth.isSome h.data.isSome (arrived fn (rowDesc code d) h s) := by
  obtain ⟨hen, hserved, hbm, hfl⟩ := ht.runs
  obtain ⟨hbusy, hfetched, hheld, hct⟩ := ht.idle
  obtain ⟨hwait, hturn⟩ := ht.turn
  have hq := ringOnly_queued fn (rowDesc code d) h s
  have hring := ring_queued fn (rowDesc code d) h s
  have hbefore : ringsBefore fn (queued fn (rowDesc code d) h s) = queued fn (rowDesc code d) h s := by
    refine ringsBefore_none fun i hi => ?_
    rw [hq.svc] at hi ⊢
    rw [hq.work (turn_ne hfn hi), hturn i hi]
  have hwork : ringWork fn (turnPast fn (queued fn (rowDesc code d) h s)) = true := by
    show ringWork fn (queued fn (rowDesc code d) h s) = true
    simp only [ringWork, hring, hfetched, hbusy, List.nil_append, hq.served, hserved, hfl, hq.mustWait, hwait]
    rfl
  have htaken : ring fn (turnPast fn (queued fn (rowDesc code d) h s)) =
    { ring fn s with cmdTail := (ring fn s).cmdTail + 1, fetched := [rowDesc code d] } := hring.trans (by rw [hfetched]; rfl)
  rw [svcRow_of_fetch (by simp [hen, hserved, hbm, hfl, ht.room])]
  simp only [hbefore, hwork]
  rw [if_neg (by simp), if_pos (by rw [htaken]; simp [hbusy]), serve_eq_serveFrom, arrived_of_queued hfetched]

/-! ### The command in hand -/

section Arrived

variable {fn : Nat} {d : SvcDesc} {h : HostIn} {s : State}

theorem RingOnly.turnPast {t : State} (h : RingOnly fn s t) : RingOnly fn (turnPast fn s) (turnPast fn t) :=
  ⟨(congrArg (Machine.turnPast fn) h.rest).trans rfl, h.registers, h.others⟩

theorem ringOnly_arrived : RingOnly fn (turnPast fn s) (arrived fn d h s) := by
  rw [arrived_eq]
  exact ((ringOnly_placed fn d h s).trans ((ringOnly_updRing _).trans (ringOnly_inc (o := oCMD_HEAD) 1))).turnPast.trans (ringOnly_updRing _)

theorem ring_arrived : ring fn (arrived fn d h s) =
    { ring fn s with cmdTail := (ring fn s).cmdTail + 1, auth := (0xFF, []), busy := some .now } := by
  rw [arrived_eq, updRing_turnPast, updRing_inc, updRing_updRing]
  exact (ring_updRing_same _ fn fun r => { r with cmdTail := r.cmdTail + 1, auth := (0xFF, []), busy := some .now }).trans (by rw [ring_placed])

theorem rd_arrived (k : Nat) : rd k (arrived fn d h s) = if k = ringBase fn + oCMD_HEAD then rd k s + 1 else rd k s := by
  have hrd : rd k (arrived fn d h s) = rd k (inc (ringBase fn + oCMD_HEAD) 1 (placed d h s)) := rfl
  rw [hrd, rd_inc, rd_placed, rd_placed]
  split
  · next hk => rw [hk]; rfl
  · rfl

theorem rd_arrived_ne {o : Nat} (ho : o ≠ oCMD_HEAD) : rd (ringBase fn + o) (arrived fn d h s) = rd (ringBase fn + o) s :=
  (rd_arrived _).trans (if_neg (by simpa using ho))

/-- A ring that takes a command has it in hand. -/
theorem serving_arrived (ht : RingTakes fn d s) : Serving fn s (arrived fn d h s) := by
  obtain ⟨hen, -, hbm, hfl⟩ := ht.runs
  obtain ⟨hbusy, hfetched, hheld, hct⟩ := ht.idle
  have hroom : cplRoom fn s = true := by simpa [fetchRoom, cplRoom, hbusy, hfetched, hheld] using ht.room
  exact {
    runs := by rw [ring_arrived, ringEn_congr (rd_arrived_ne (by decide))]; exact ⟨hen, hbm, hfl⟩
    idle := by rw [ring_arrived, rd_arrived, if_pos rfl, hct]; exact ⟨hfetched, rfl⟩
    inHand := by rw [ring_arrived]; rfl
    room := (cplRoom_congr (by rw [ring_arrived]) (rd_arrived_ne (by decide)) (rd_arrived_ne (by decide))).trans hroom
    noEvent := .inl (by rw [ring_arrived]; exact hheld)
    base := rdAddr_congr (rd_arrived_ne (by decide)) (rd_arrived_ne (o := oCPL_BASE + 4) (by decide))
    size := ringSize_congr (rd_arrived_ne (by decide))
    count := rd_arrived_ne (by decide)
    tail := ⟨0, by rw [rd_arrived_ne (by decide)]; simp [wd], Nat.zero_le _, .inl rfl⟩ }

end Arrived

/-- A command in hand has been in hand since now. -/
theorem Serving.self {fn : Nat} {s0 s : State} (h : Serving fn s0 s) : Serving fn s s :=
  { h with base := rfl, size := rfl, count := rfl, tail := ⟨0, by simp [wd], Nat.zero_le _, .inl rfl⟩ }

end Sys2Proof.Proofs
end

section
/-! The checks of a command in their order (17_host_interface.md, R31, R400, R404). -/

namespace Sys2Proof.Proofs

open Sys2Proof Sys2Proof.Machine Sys2Proof.Laws

theorem dCMD_rowDesc {code : Nat} (d : SvcDesc) (h : code < 65536) : dCMD (rowDesc code d) = code := by
  simp only [dCMD, leAt, rowDesc, padTo, natLE, List.drop_zero, List.take_take, List.cons_append, List.nil_append]
  simp [leNat]
  omega

theorem ringKey_reported {fn k : Nat} (h : ringKey fn k = true) : reportKey k = true := by
  have hk : ringBase fn ≤ k ∧ k < ringBase fn + 0x68 := by simpa [ringKey] using h
  have hlow : k % 0x10000 < 0x68 ∧ (k / 0x10000 = 1 ∨ 0x1000000 ≤ k) := by
    unfold ringBase at hk
    split at hk <;> omega
  simp [reportKey, hlow]

/-- Answering a command that is refused writes its ring and the service turn alone. -/
theorem quiet_of_ringOnly {fn : Nat} {s t : State} (h : RingOnly fn (turnPast fn s) t) :
    t = { s with regs := t.regs, rings := t.rings, host := t.host, out := t.out, svc := { s.svc with turn := t.svc.turn } } ∧ RegsReported [] s t := by
  refine ⟨?_, fun k hk => h.registers k ?_⟩
  · rw [h.rest]
    rfl
  · cases hr : ringKey fn k with
    | false => rfl
    | true => simp [ringKey_reported hr] at hk

section Refused

variable {fn : Nat} {code : Nat} {d : SvcDesc} {h : HostIn} {s : State}

/-- A command that a check refuses with `status` as soon as its ring takes it (R400). -/
theorem refused_of_takes {status : Nat} {i : Instr} (hfn : fn < 17) (hi : exec i s = .next (svcRow code fn d h s)) (ht : RingTakes fn (rowDesc code d) s)
    (hs : serveFrom fn (rowDesc code d) h.auth.isSome h.data.isSome (arrived fn (rowDesc code d) h s) =
      finish fn (rowDesc code d) status 0 [] (arrived fn (rowDesc code d) h s)) :
    ∃ t, exec i s = .next t ∧ Answered fn (rowDesc code d) status [] s t ∧
      t = { s with regs := t.regs, rings := t.rings, host := t.host, out := t.out, svc := { s.svc with turn := t.svc.turn } } ∧ RegsReported [] s t := by
  refine ⟨_, hi, ?_⟩
  rw [svcRow_of_takes hfn ht, hs]
  exact ⟨(serving_arrived ht).answered _ _ _ _, quiet_of_ringOnly (ringOnly_arrived.trans (ringOnly_finish _ _ _ _))⟩

theorem partUsed_arrived (p : Nat) : partUsed p (arrived fn d h s) = partUsed p s := by
  simp only [partUsed, (ringOnly_arrived (d := d) (h := h)).img]
  rfl

theorem stage_arrived : stage (arrived fn d h s) = stage s := ringOnly_arrived.stage

theorem onFn_arrived (c : CmdRow) : onFn fn code c (arrived fn d h s) = onFn fn code c s := by simp only [onFn, stage_arrived]

theorem descBad_arrived (c : CmdRow) (d' : SvcDesc) : descBad fn code c d' (arrived fn d h s) = descBad fn code c d' s := by
  rw [(ringOnly_arrived (d := d) (h := h)).rest]
  rfl

/-- R31: on an unused partition's VF no command has an effect. -/
theorem serveFrom_unused (a b : Bool) (hfn : fn ≠ 0) (hp : partUsed (fn - 1) s = false) :
    serveFrom fn d a b s = finish fn d stNO_PARTITION 0 [] s := by simp [serveFrom, hfn, hp]

theorem serveFrom_row {c : CmdRow} (a b : Bool) (hp : fn ≠ 0 → partUsed (fn - 1) s = true) (hc : cmdRow (dCMD d) = some c) :
    serveFrom fn d a b s = if !onFn fn (dCMD d) c s then finish fn d stBAD_CMD 0 [] s
      else if descBad fn (dCMD d) c d s then finish fn d stBAD_DESC 0 [] s else serveAuth fn d c a b s := by
  have hpart : (decide (fn ≠ 0) && !partUsed (fn - 1) s) = false := by
    by_cases h0 : fn = 0
    · simp [h0]
    · simp [hp h0]
  simp only [serveFrom, hpart, hc]
  rfl

end Refused

/-! ### A command that passes the checks before its own (R41, R400) -/

section Starts

variable {fn code : Nat} {d : SvcDesc} {h : HostIn} {s s1 : State}

theorem Serving.auth (hs : Serving fn s1 s) (a : Nat × List Byte) : Serving fn s1 (updRing fn (fun r => { r with auth := a }) s) := by
  have hg : ring fn (updRing fn (fun r => { r with auth := a }) s) = { ring fn s with auth := a } :=
    ring_updRing_same s fn fun r => { r with auth := a }
  have hu : cplUsed fn (updRing fn (fun r => { r with auth := a }) s) = cplUsed fn s := cplUsed_congr (by rw [hg]) rfl
  have hr : cplRoom fn (updRing fn (fun r => { r with auth := a }) s) = cplRoom fn s := cplRoom_congr (by rw [hg]) rfl rfl
  exact { hs with
    runs := by rw [hg]; exact hs.runs
    idle := by rw [hg]; exact hs.idle
    inHand := by rw [hg]; exact hs.inHand
    room := hr.trans hs.room
    noEvent := by simp only [evtRoom, hg, hu]; exact hs.noEvent
    tail := by rw [hu]; exact hs.tail }

/-- Another nonce outstanding, or none. -/
def withNonce (n : Option (List Byte)) (s : State) : State := { s with svc := { s.svc with nonce := n } }

theorem presentNonce_eq (b : List Byte) (s : State) : ∃ n, (presentNonce b s).2 = withNonce n s := by
  unfold presentNonce
  split
  · exact ⟨none, rfl⟩
  · exact ⟨s.svc.nonce, rfl⟩

theorem RingOnly.withNonce {t : State} (h : RingOnly fn s t) (n : Option (List Byte)) : RingOnly fn (withNonce n s) (withNonce n t) :=
  ⟨(congrArg (Proofs.withNonce n) h.rest).trans rfl, h.registers, h.others⟩

/-- The slot that an authorisation passes is the one that its block names (R41). -/
theorem slot_of_pass {c : CmdRow} {b : List Byte} {slot : Nat} (hp : authCheck fn code c d b true s = .pass slot) : slot = leAt b 0 2 := by
  unfold authCheck at hp
  extract_lets slot' nonce at hp
  split at hp
  · cases hp
  · split at hp
    · cases hp
    · simp only [Bool.not_true, Bool.false_eq_true, if_false] at hp
      split at hp
      · cases hp
      · split at hp
        · cases hp
        · exact (Auth.pass.inj hp).symm

/-- A command without a role, or of a VF, runs as it arrived. -/
theorem svcState_plain {c : CmdRow} (hc : cmdRow code = some c) (hp : fn ≠ 0 ∨ c.slots = []) :
    svcState code fn d h s = arrived fn (rowDesc code d) h s := by
  simp only [svcState, hc, if_pos hp]

/-- The state in which a signed command's own checks run. -/
theorem svcState_signed {c : CmdRow} (hc : cmdRow code = some c) (hp : ¬ (fn ≠ 0 ∨ c.slots = [])) :
    svcState code fn d h s = updRing fn
      (fun r => { r with auth := (leAt (authBytes fn (rowDesc code d) h s) 0 2, ((authBytes fn (rowDesc code d) h s).drop 8).take 8) })
      (presentNonce (authBytes fn (rowDesc code d) h s) (arrived fn (rowDesc code d) h s)).2 := by
  simp only [svcState, hc, if_neg hp]

/-- What stands between a command's row and its own checks: its ring, and the nonce that it consumed. -/
theorem svcState_frame (hc : (cmdRow code).isSome = true) : ∃ n, RingOnly fn (withNonce n (turnPast fn s)) (svcState code fn d h s) := by
  obtain ⟨c, hc⟩ := Option.isSome_iff_exists.mp hc
  have ha := ringOnly_arrived (fn := fn) (d := rowDesc code d) (h := h) (s := s)
  by_cases hp : fn ≠ 0 ∨ c.slots = []
  · exact ⟨s.svc.nonce, svcState_plain (d := d) (h := h) (s := s) hc hp ▸ ha⟩
  · rw [svcState_signed hc hp]
    obtain ⟨n, hn⟩ := presentNonce_eq (authBytes fn (rowDesc code d) h s) (arrived fn (rowDesc code d) h s)
    rw [hn]
    exact ⟨n, (ha.withNonce n).trans (ringOnly_updRing _)⟩

theorem serving_svcState (hs : SvcStarts code fn d h s) : Serving fn s (svcState code fn d h s) := by
  obtain ⟨c, hc, -⟩ := hs.passes
  have ha := serving_arrived (h := h) hs.takes
  by_cases hp : fn ≠ 0 ∨ c.slots = []
  · rwa [svcState_plain hc hp]
  · rw [svcState_signed hc hp]
    obtain ⟨n, hn⟩ := presentNonce_eq (authBytes fn (rowDesc code d) h s) (arrived fn (rowDesc code d) h s)
    rw [hn]
    exact (ha.congr (t := withNonce n (arrived fn (rowDesc code d) h s)) rfl fun _ _ => rfl).auth _

theorem checkSteps_congr {t : State} (d : SvcDesc) (h : t.flash = s.flash) : checkSteps d t = checkSteps d s := by simp only [checkSteps, h]

theorem serveAuth_plain {c : CmdRow} {a b : Bool} (hp : fn ≠ 0 ∨ c.slots = []) : serveAuth fn d c a b s = serveOwn fn d c b s := by
  simp only [serveAuth]
  exact if_pos (by simpa using hp)

theorem serveAuth_signed {c : CmdRow} {b : Bool} {slot : Nat} (hp : ¬ (fn ≠ 0 ∨ c.slots = [])) (ha : dAUTH d ≠ 0)
    (hl : (presentNonce (Memory.read s.host (dAUTH d) 96) s).1 = true)
    (hs : authCheck fn (dCMD d) c d (Memory.read s.host (dAUTH d) 96) true (presentNonce (Memory.read s.host (dAUTH d) 96) s).2 = .pass slot) :
    serveAuth fn d c true b s = serveOwn fn d c b (updRing fn
      (fun r => { r with auth := (slot, ((Memory.read s.host (dAUTH d) 96).drop 8).take 8) }) (presentNonce (Memory.read s.host (dAUTH d) 96) s).2) := by
  rw [serveAuth, if_neg (by simpa using hp), if_neg ha, if_neg (by simp)]
  simp only [hl, hs]

theorem serveOwn_oneStep {c : CmdRow} {b : Bool} (h1 : checkSteps d s ≤ 1) (hb : dataIn d c = true → b = true) :
    serveOwn fn d c b s = carryOut fn d (dataBytes d c s) (planOf fn d (dataBytes d c s) s) s := by
  have hok : (dataIn d c && !b) = false := by cases hi : dataIn d c <;> simp_all
  rw [serveOwn, if_neg (by omega), serveNow]
  simp [hok]

/-- A command that starts carries out its plan in `svcState` (R30, R400). -/
theorem svcRow_of_starts {c : CmdRow} (hfn : fn < 17) (hcode : code < 65536) (hc : cmdRow code = some c) (hs : SvcStarts code fn d h s) :
    svcRow code fn d h s =
      carryOut fn (rowDesc code d) (dataBytes (rowDesc code d) c (svcState code fn d h s))
        (planOf fn (rowDesc code d) (dataBytes (rowDesc code d) c (svcState code fn d h s)) (svcState code fn d h s)) (svcState code fn d h s) := by
  obtain ⟨c', hc', hon, hbad, hdata, hauth⟩ := hs.passes
  obtain rfl : c' = c := Option.some.inj (hc'.symm.trans hc)
  obtain ⟨n, hframe⟩ := svcState_frame (fn := fn) (code := code) (d := d) (h := h) (s := s) (by simp [hc])
  have hsteps : checkSteps (rowDesc code d) (svcState code fn d h s) ≤ 1 := by
    rw [checkSteps_congr (rowDesc code d) (hframe.flash.trans rfl : _ = s.flash)]
    exact hs.oneStep
  rw [svcRow_of_takes hfn hs.takes,
    serveFrom_row _ _ (fun h0 => (partUsed_arrived _).trans (hs.tenant h0)) (by rwa [dCMD_rowDesc d hcode]), dCMD_rowDesc d hcode,
    onFn_arrived, descBad_arrived, hon, hbad]
  simp only [Bool.not_true, Bool.false_eq_true, if_false]
  by_cases hp : fn ≠ 0 ∨ c'.slots = []
  · rw [serveAuth_plain hp]
    rw [svcState_plain hc hp] at hsteps ⊢
    exact serveOwn_oneStep hsteps hdata
  · obtain ⟨ha, hsome, hlive, slot, hslot⟩ := (or_assoc.mpr hauth).resolve_left hp
    rw [svcState_signed hc hp] at hsteps ⊢
    rw [hsome, serveAuth_signed hp ha hlive hslot, slot_of_pass hslot]
    exact serveOwn_oneStep hsteps hdata

end Starts

/-! ### A plan without a record -/

theorem carryOut_unrecorded {fn : Nat} {d : SvcDesc} {data : List Byte} {pl : Plan} {s : State} (h : recorded (ring fn s).auth.1 (dCMD d) = false) :
    carryOut fn d data pl s = pl.run s := by simp [carryOut, recordPlan, h]

/-- A command without a role arrives with no slot (R41). -/
theorem auth_svcState_plain {fn code : Nat} {d : SvcDesc} {h : HostIn} {s : State} {c : CmdRow} (hc : cmdRow code = some c) (hp : fn ≠ 0 ∨ c.slots = []) :
    (ring fn (svcState code fn d h s)).auth.1 = 0xFF := by rw [svcState_plain hc hp, ring_arrived]

/-- R404: a SVC_NOP that starts answers module time. -/
theorem svcRow_nop {fn : Nat} {d : SvcDesc} {h : HostIn} {s : State} (hfn : fn < 17) (hs : SvcStarts 0x0001 fn d h s) :
    svcRow 0x0001 fn d h s =
      finish fn (rowDesc 0x0001 d) stOK 0 (natLE 8 (nowNs (svcState 0x0001 fn d h s)).toNat) (svcState 0x0001 fn d h s) := by
  have hcmd : dCMD (rowDesc 0x0001 d) = 0x0001 := dCMD_rowDesc d (by decide)
  rw [svcRow_of_starts hfn (by decide) rfl hs, carryOut_unrecorded]
  · simp only [planOf, planLow, hcmd]
    rfl
  · rw [hcmd, auth_svcState_plain rfl (.inr rfl)]
    rfl

/-- Settles O21: each check's refusal as `serveFrom` reaches it, then SVC_NOP's own answer. -/
theorem ringsCheckCommandsInTheirOrder : Obligations.RingsCheckCommandsInTheirOrder := by
  unfold Obligations.RingsCheckCommandsInTheirOrder
  have hcmd (code : Nat) (hc : code < 65536) (d : SvcDesc) := dCMD_rowDesc (code := code) d hc
  refine ⟨fun fn d h s => ⟨fun ht h0 hp => ?_, fun ht h0 hp => ?_, fun ht => ?_, fun ht hbad => ?_, fun ht hst ha hgood => ?_⟩, fun fn d h s hs => ?_⟩
  · exact refused_of_takes fn.isLt rfl ht (serveFrom_unused _ _ h0 ((partUsed_arrived _).trans hp))
  · refine refused_of_takes fn.isLt rfl ht ?_
    rw [serveFrom_row (c := ⟨false, true, [], [], .none⟩) _ _ (fun _ => (partUsed_arrived _).trans hp) (by rw [hcmd _ (by decide)]; rfl)]
    exact if_pos (by simp [onFn, h0])
  · refine refused_of_takes (by decide) rfl ht ?_
    rw [serveFrom_row (c := ⟨true, false, [], bytesFrom 36 43, .read⟩) _ _ (fun h0 => absurd rfl h0) (by rw [hcmd _ (by decide)]; rfl)]
    exact if_pos (by simp [onFn])
  · obtain ⟨c, hc, hbad⟩ := hbad
    obtain rfl : ⟨true, true, [], [], .none⟩ = c := Option.some.inj hc
    refine refused_of_takes (by decide) rfl ht ?_
    rw [serveFrom_row _ _ (fun h0 => absurd rfl h0) (by rw [hcmd _ (by decide)]; exact hc), hcmd _ (by decide), if_neg (by simp [onFn]),
      if_pos ((descBad_arrived _ _).trans hbad)]
  · obtain ⟨c, hc, hgood⟩ := hgood
    obtain rfl : ⟨false, true, installer, [], .none⟩ = c := Option.some.inj hc
    refine refused_of_takes (by decide) rfl ht ?_
    rw [serveFrom_row _ _ (fun h0 => absurd rfl h0) (by rw [hcmd _ (by decide)]; exact hc), hcmd _ (by decide), onFn_arrived, descBad_arrived, hgood,
      if_neg (by simp [onFn, hst]), if_neg (by simp), serveAuth, if_neg (by decide), if_pos ha]
  · have hnow : nowNs (svcState 0x0001 fn d h s) = nowNs s := by
      obtain ⟨n, hf⟩ := svcState_frame (fn := fn) (code := 0x0001) (d := d) (h := h) (s := s) rfl
      rw [hf.rest]
      rfl
    refine ⟨_, rfl, ?_⟩
    rw [svcRow_nop fn.isLt hs, hnow]
    refine ⟨(serving_svcState hs).self.answered _ _ _ _, ?_⟩
    rw [svcState_plain (c := ⟨true, true, [], [], .none⟩) rfl (.inr rfl)]
    exact quiet_of_ringOnly (ringOnly_arrived.trans (ringOnly_finish _ _ _ _))

end Sys2Proof.Proofs
end

section
/-! What a command that completes leaves (02_partitions_and_roles.md, R37, R40, R42, R44; 17_host_interface.md, R400, R405): its record in the audit
log, its effect, its answer. -/

namespace Sys2Proof.Proofs

open Sys2Proof Sys2Proof.Machine Sys2Proof.Laws

/-! ### The record of a command (R44, R47) -/

/-- Other records in the audit log. -/
def logged (l : List (List Byte)) (n : Nat) (e : Bool) (s : State) : State :=
  { s with flash := { s.flash with audit := l, auditSeq := n, auditExported := e } }

section Record

variable {fn : Nat} {d : SvcDesc} {data : List Byte} {s : State}

theorem logged_self (s : State) : logged s.flash.audit s.flash.auditSeq s.flash.auditExported s = s := rfl

theorem auditPut_eq (cmd status slot func part : Nat) (tag digest : List Byte) (h : s.flash.audit.length ≠ 649) :
    ∃ r, auditPut cmd status slot func part tag digest s = logged (s.flash.audit ++ [r]) (s.flash.auditSeq + 1) false s := by
  unfold auditPut
  extract_lets f r s'
  exact ⟨r, if_neg (by have := h; simp only [f, auditCap]; omega)⟩

theorem recordCmd_eq (fn : Nat) (d : SvcDesc) (data : List Byte) (status : Nat) (hroom : auditRoom s = true) (h : s.flash.audit.length ≠ 649) :
    ∃ r, recordCmd fn d data status s = logged (s.flash.audit ++ [r]) (s.flash.auditSeq + 1) false s := by
  unfold recordCmd
  extract_lets a
  rw [if_pos hroom]
  exact auditPut_eq _ _ _ _ _ _ _ h

/-- A log far from full takes a command's record and raises nothing. -/
theorem recordPlan_eq (pl : Plan) (ha : s.flash.audit.length < 649) (hr : s.flash.auditRO = false) :
    ∃ l n e, recordPlan fn d data pl s = logged l n e s := by
  have hroom : auditRoom s = true := by simp [auditRoom, auditCap, hr]; omega
  unfold recordPlan
  extract_lets code
  simp only [hroom, Bool.not_true, Bool.false_and, Bool.false_eq_true, if_false]
  split
  · exact ⟨_, _, _, (logged_self s).symm⟩
  · obtain ⟨r, hr⟩ := recordCmd_eq fn d data pl.status hroom (by omega)
    exact ⟨_, _, _, hr⟩

theorem carryOut_of_room {pl : Plan} (ha : s.flash.audit.length < 649) (hr : s.flash.auditRO = false) :
    carryOut fn d data pl s = pl.run (recordPlan fn d data pl s) := by
  have hroom : auditRoom s = true := by simp [auditRoom, auditCap, hr]; omega
  simp [carryOut, hroom]

end Record

/-! ### Frames -/

section Frames

variable {fn : Nat} {s t u : State}

theorem SvcFrame.trans (h : SvcFrame s t) (h' : SvcFrame t u) : SvcFrame s u := by
  unfold SvcFrame at *
  rw [h', h]

theorem RingOnly.svcFrame (h : RingOnly fn s t) : SvcFrame s t := by
  unfold SvcFrame
  rw [h.rest]

/-- A state that shows other values in registers that no ring has. -/
structure Shown (s t : State) : Prop where
  rest : OnlyRegs s t
  rings : ∀ fn k, ringKey fn k = true → rd k t = rd k s

theorem shown_refl : Shown s s := ⟨rfl, fun _ _ _ => rfl⟩

theorem Shown.trans (h : Shown s t) (h' : Shown t u) : Shown s u := by
  refine ⟨?_, fun fn k hk => (h'.rings fn k hk).trans (h.rings fn k hk)⟩
  have hu : u = { t with regs := u.regs } := h'.rest
  have ht : t = { s with regs := t.regs } := h.rest
  show u = { s with regs := u.regs }
  rw [hu, ht]

theorem shown_wr {k : Nat} (v : Word) (h : k < 0x10000 ∨ 0x10068 ≤ k ∧ k < 0x1010000) : Shown s (wr k v s) := by
  refine ⟨rfl, fun fn j hj => rd_wr_ne s v ?_⟩
  rintro rfl
  have hk : ringBase fn ≤ j ∧ j < ringBase fn + 0x68 := by simpa [ringKey] using hj
  unfold ringBase at hk
  split at hk <;> omega

theorem shown_eachDo {α : Type} {f : α → State → State} {l : List α} (h : ∀ x ∈ l, ∀ s, Shown s (f x s)) : ∀ {s}, Shown s (eachDo f l s) := by
  induction l with
  | nil => exact shown_refl
  | cons x l ih => exact (h x (by simp) _).trans (ih fun y hy => h y (by simp [hy]))

theorem shown_setRail {k : Nat} (mv : Nat) (hk : k < 4) : Shown s (setRail k mv s) :=
  shown_wr _ (by simp only [kPWR_RAIL]; omega)

theorem shown_showAgeing : Shown s (showAgeing s) := by
  refine ((shown_wr _ (.inr (by decide))).trans (shown_wr _ (.inr (by decide)))).trans (shown_eachDo fun n hn s => ?_)
  have hlt : n < 32 := List.mem_range.mp hn
  exact (shown_wr _ (by simp only [coreBase]; omega)).trans (shown_wr _ (by simp only [coreBase]; omega))

theorem shown_showFw : Shown s (showFw s) := shown_wr _ (.inl (by decide))

end Frames

/-! ### A command that completes in its own step -/

section Completes

variable {fn code : Nat} {d : SvcDesc} {h : HostIn} {s : State} {c : CmdRow}

theorem Serving.logged {s1 x : State} (hs : Serving fn s1 x) (l : List (List Byte)) (n : Nat) (e : Bool) : Serving fn s1 (logged l n e x) :=
  hs.congr rfl fun _ _ => rfl

theorem Shown.serving {s1 x y : State} (hs : Shown x y) (hx : Serving fn s1 x) : Serving fn s1 y :=
  hx.congr (ring_congr (by rw [show y = { x with regs := y.regs } from hs.rest]) fn) fun _ ho => hs.rings fn _ (ringKey_offset ho)

/-- The flash of a state in which a command's own checks run is as the command found it. -/
theorem flash_svcState (hc : cmdRow code = some c) : (svcState code fn d h s).flash = s.flash := by
  obtain ⟨n, hf⟩ := svcState_frame (fn := fn) (code := code) (d := d) (h := h) (s := s) (by simp [hc])
  exact hf.flash

theorem svcFrame_svcState (hc : cmdRow code = some c) : SvcFrame s (svcState code fn d h s) := by
  obtain ⟨n, hf⟩ := svcState_frame (fn := fn) (code := code) (d := d) (h := h) (s := s) (by simp [hc])
  exact SvcFrame.trans (t := withNonce n (turnPast fn s)) rfl hf.svcFrame

/-- What a command's effect leaves, its answer leaves too. -/
theorem svcFrame_of_effect {x t : State} (hc : cmdRow code = some c) (he : SvcFrame (svcState code fn d h s) x) (hr : RingOnly fn x t) : SvcFrame s t :=
  SvcFrame.trans (SvcFrame.trans (svcFrame_svcState hc) he) hr.svcFrame

theorem tick_svcState (hc : cmdRow code = some c) : tick (svcState code fn d h s) = tick s := by
  rw [show svcState code fn d h s = _ from svcFrame_svcState hc]
  rfl

/-- A command whose plan is to complete has its effect `f` and is answered; `r` is the state with its record (R398, R400). -/
theorem completes_of_starts {f : State → State} {res : List Byte} {r : State} (hfn : fn < 17) (hcode : code < 65536) (hc : cmdRow code = some c)
    (hs : SvcStarts code fn d h s)
    (hplan : planOf fn (rowDesc code d) (dataBytes (rowDesc code d) c (svcState code fn d h s)) (svcState code fn d h s) =
      completes fn (rowDesc code d) res f)
    (hrec : recordPlan fn (rowDesc code d) (dataBytes (rowDesc code d) c (svcState code fn d h s)) (completes fn (rowDesc code d) res f)
      (svcState code fn d h s) = r)
    (hf : Serving fn (svcState code fn d h s) (f r)) :
    Answered fn (rowDesc code d) stOK res (svcState code fn d h s) (svcRow code fn d h s) ∧ RingOnly fn (f r) (svcRow code fn d h s) := by
  have haudit := flash_svcState (fn := fn) (d := d) (h := h) (s := s) hc ▸ hs.audit
  rw [svcRow_of_starts hfn hcode hc hs, hplan, carryOut_of_room haudit.1 haudit.2, hrec]
  exact ⟨hf.answered _ _ _ _, ringOnly_finish _ _ _ _⟩

/-- The record of a command that starts. -/
theorem recordPlan_of_starts (data : List Byte) (pl : Plan) (hc : cmdRow code = some c) (hs : SvcStarts code fn d h s) :
    ∃ l n e, recordPlan fn (rowDesc code d) data pl (svcState code fn d h s) = logged l n e (svcState code fn d h s) :=
  have haudit := flash_svcState (fn := fn) (d := d) (h := h) (s := s) hc ▸ hs.audit
  recordPlan_eq pl haudit.1 haudit.2

theorem recordPlan_unrecorded {s : State} (data : List Byte) (pl : Plan) (h : recorded (ring fn s).auth.1 (dCMD d) = false) :
    recordPlan fn d data pl s = s := by simp [recordPlan, h]

end Completes

/-! ### Keys in a map -/

theorem find_filter_in {α : Type} {k : Nat} {p : Nat × α → Bool} (h : ∀ v, p (k, v) = true) (m : Fam α) : Fam.find k (m.filter p) = Fam.find k m := by
  induction m with
  | nil => rfl
  | cons q r ih =>
    obtain ⟨j, v⟩ := q
    by_cases hj : j = k
    · subst hj
      simp [List.filter, h v, Fam.find]
    · cases hp : p (j, v) <;> simp [List.filter, hp, Fam.find, hj, ih]

theorem find_set {α : Type} (v : α) (k k' : Nat) (m : Fam α) : Fam.find k' (m.set k v) = if k' = k then some v else Fam.find k' m := by
  split
  · next hk => rw [hk, find_set_self]
  · next hk => exact find_set_ne v hk m

theorem find_del {α : Type} (k k' : Nat) (m : Fam α) : Fam.find k' (m.del k) = if k' = k then none else Fam.find k' m := by
  split
  · next hk => rw [hk, find_del_self]
  · next hk => exact find_filter_in (by simp [hk]) m

/-! ### Nonce, expert unlock, keys and fuses (R37, R40, R42, R405) -/

section Roles

variable {fn : Nat} {d : SvcDesc} {h : HostIn} {s : State}

/-- A command that brings its data has them in `dataBytes`. -/
theorem dataBytes_read {d : SvcDesc} {c : CmdRow} (hc : c.data = .read) (hl : dLEN d ≠ 0) : dataBytes d c s = Memory.read s.host (dDATA d) (dLEN d) := by
  simp [dataBytes, dataIn, hc, hl]

/-- The nonce `n` issued (R40). -/
def issueNonce (n : List Byte) (s : State) : State := draw 1 { s with svc := { s.svc with nonce := some n, nonceTick := tick s } }

/-- R40: a fresh nonce is the only one outstanding. -/
theorem svcRow_nonce (hfn : fn < 17) (hs : SvcStarts 0x0002 fn d h s) : ∃ n, n.length = 16 ∧
    Answered fn (rowDesc 0x0002 d) stOK n (svcState 0x0002 fn d h s) (svcRow 0x0002 fn d h s) ∧ SvcFrame s (svcRow 0x0002 fn d h s) ∧
      (svcRow 0x0002 fn d h s).flash = s.flash ∧
      (svcRow 0x0002 fn d h s).svc = { s.svc with nonce := some n, nonceTick := tick s, turn := (fn + 1) % 17 } := by
  have hcmd : dCMD (rowDesc 0x0002 d) = 0x0002 := dCMD_rowDesc d (by decide)
  let n := natLE 16 (Config.nonce (svcState 0x0002 fn d h s).fresh).toNat
  have hserving : Serving fn (svcState 0x0002 fn d h s) (issueNonce n (svcState 0x0002 fn d h s)) :=
    (serving_svcState hs).self.congr rfl fun _ _ => rfl
  obtain ⟨hans, hring⟩ := completes_of_starts (res := n) (f := issueNonce n) hfn (by decide) rfl hs
    (by simp only [planOf, planLow, hcmd]; rfl)
    (recordPlan_unrecorded _ _ (by rw [hcmd, auth_svcState_plain rfl (.inr rfl)]; rfl)) hserving
  obtain ⟨m, hframe⟩ := svcState_frame (fn := fn) (code := 0x0002) (d := d) (h := h) (s := s) rfl
  have heffect : SvcFrame (svcState 0x0002 fn d h s) (issueNonce n (svcState 0x0002 fn d h s)) := rfl
  refine ⟨n, natLE_length _ _, hans, svcFrame_of_effect rfl heffect hring, hring.flash.trans (flash_svcState rfl), ?_⟩
  rw [hring.svc]
  show { (svcState 0x0002 fn d h s).svc with nonce := some n, nonceTick := tick (svcState 0x0002 fn d h s) } = _
  rw [hframe.svc, tick_svcState rfl]
  rfl

/-- An effect on what no ring holds, as its command's checks found it but for the record (R44). -/
theorem svcRow_effect {code : Nat} {c : CmdRow} {f : State → State} {res : List Byte} (hfn : fn < 17) (hcode : code < 65536) (hc : cmdRow code = some c)
    (hs : SvcStarts code fn d h s)
    (hplan : planOf fn (rowDesc code d) (dataBytes (rowDesc code d) c (svcState code fn d h s)) (svcState code fn d h s) =
      completes fn (rowDesc code d) res f)
    (hf : ∀ l n e, Serving fn (svcState code fn d h s) (f (logged l n e (svcState code fn d h s)))) :
    Answered fn (rowDesc code d) stOK res (svcState code fn d h s) (svcRow code fn d h s) ∧
      ∃ l n e, RingOnly fn (f (logged l n e (svcState code fn d h s))) (svcRow code fn d h s) := by
  obtain ⟨l, n, e, hrec⟩ := recordPlan_of_starts (dataBytes (rowDesc code d) c (svcState code fn d h s)) (completes fn (rowDesc code d) res f) hc hs
  obtain ⟨hans, hring⟩ := completes_of_starts hfn hcode hc hs hplan hrec (hf l n e)
  exact ⟨hans, l, n, e, hring⟩

/-- The expert unlock open to `u`, or ended (R42). -/
def withExpert (u : Option (BitVec 64)) (s : State) : State :=
  { s with svc := { s.svc with expertUntil := u }, flash := { s.flash with expertOpen := u.isSome } }

/-- R42: the unlock opens for its time. -/
theorem svcRow_unlock (hfn : fn < 17) (hs : SvcStarts 0x0101 fn d h s) :
    Answered fn (rowDesc 0x0101 d) stOK [] (svcState 0x0101 fn d h s) (svcRow 0x0101 fn d h s) ∧ SvcFrame s (svcRow 0x0101 fn d h s) ∧
      (svcRow 0x0101 fn d h s).flash.expertOpen = true ∧ (svcRow 0x0101 fn d h s).svc.expertUntil = some (tick s + BitVec.ofNat 64
        ((if dArg (rowDesc 0x0101 d) 36 4 = 0 then 3600 else dArg (rowDesc 0x0101 d) 36 4) * 625000000)) := by
  have hcmd : dCMD (rowDesc 0x0101 d) = 0x0101 := dCMD_rowDesc d (by decide)
  let t := if dArg (rowDesc 0x0101 d) 36 4 = 0 then 3600 else dArg (rowDesc 0x0101 d) 36 4
  obtain ⟨hans, l, n, e, hring⟩ := svcRow_effect (f := fun s => withExpert (some (tick s + BitVec.ofNat 64 (t * 625000000))) s) (res := [])
    hfn (by decide) rfl hs (by simp only [planOf, planLow, hcmd]; rfl) fun l n e => ((serving_svcState hs).self).congr rfl fun _ _ => rfl
  have heffect : SvcFrame (svcState 0x0101 fn d h s)
      (withExpert (some (tick (svcState 0x0101 fn d h s) + BitVec.ofNat 64 (t * 625000000))) (logged l n e (svcState 0x0101 fn d h s))) := rfl
  refine ⟨hans, svcFrame_of_effect rfl heffect hring, by rw [hring.flash]; rfl, ?_⟩
  rw [hring.svc, ← tick_svcState (d := d) (h := h) (fn := fn) (s := s) (code := 0x0101) rfl]
  rfl

/-- R42: the lock ends it. -/
theorem svcRow_lock (hfn : fn < 17) (hs : SvcStarts 0x0102 fn d h s) :
    Answered fn (rowDesc 0x0102 d) stOK [] (svcState 0x0102 fn d h s) (svcRow 0x0102 fn d h s) ∧ SvcFrame s (svcRow 0x0102 fn d h s) ∧
      (svcRow 0x0102 fn d h s).flash.expertOpen = false ∧ expert (svcRow 0x0102 fn d h s) = false := by
  have hcmd : dCMD (rowDesc 0x0102 d) = 0x0102 := dCMD_rowDesc d (by decide)
  obtain ⟨hans, l, n, e, hring⟩ := svcRow_effect (f := withExpert none) (res := [])
    hfn (by decide) rfl hs (by simp only [planOf, planLow, hcmd]; rfl) fun l n e => ((serving_svcState hs).self).congr rfl fun _ _ => rfl
  have heffect : SvcFrame (svcState 0x0102 fn d h s) (withExpert none (logged l n e (svcState 0x0102 fn d h s))) := rfl
  exact ⟨hans, svcFrame_of_effect rfl heffect hring, by rw [hring.flash]; rfl, by rw [expert, hring.svc]; rfl⟩

/-- Other keys in the flash (R37). -/
def withKeys (f : Fam (List Byte) → Fam (List Byte)) (s : State) : State := { s with flash := { s.flash with keys := f s.flash.keys } }

/-- R37: a command that changes the keys in flash changes nothing else there but the log. -/
theorem svcRow_keys {code : Nat} {c : CmdRow} {f : Fam (List Byte) → Fam (List Byte)} (hfn : fn < 17) (hcode : code < 65536) (hc : cmdRow code = some c)
    (hs : SvcStarts code fn d h s)
    (hplan : planOf fn (rowDesc code d) (dataBytes (rowDesc code d) c (svcState code fn d h s)) (svcState code fn d h s) =
      completes fn (rowDesc code d) [] (withKeys f)) :
    Answered fn (rowDesc code d) stOK [] (svcState code fn d h s) (svcRow code fn d h s) ∧ SvcFrame s (svcRow code fn d h s) ∧
      (svcRow code fn d h s).flash.keys = f s.flash.keys := by
  obtain ⟨hans, l, n, e, hring⟩ := svcRow_effect hfn hcode hc hs hplan fun l n e => ((serving_svcState hs).self).congr rfl fun _ _ => rfl
  have heffect : SvcFrame (svcState code fn d h s) (withKeys f (logged l n e (svcState code fn d h s))) := rfl
  refine ⟨hans, svcFrame_of_effect hc heffect hring, ?_⟩
  rw [hring.flash, ← flash_svcState (d := d) (h := h) (fn := fn) (s := s) hc]
  rfl

/-- What the form of a descriptor that passes says of a command's own arguments (R405). -/
theorem argBadLow_of_starts {code : Nat} (hs : SvcStarts code fn d h s) : argBadLow code (rowDesc code d) s = false := by
  obtain ⟨c, -, -, hbad, -⟩ := hs.passes
  simp only [descBad, Bool.or_eq_false_iff] at hbad
  exact hbad.1.2

end Roles

/-! ### Fuses (R405, R427) -/

/-- What a burn leaves: every state but registers, rings, host memory, interrupts, flash, the steward's state, free values and fuses. -/
def BurnFrame (s t : State) : Prop :=
  t = { s with regs := t.regs, rings := t.rings, host := t.host, out := t.out, flash := t.flash, svc := t.svc, fresh := t.fresh, fuses := t.fuses }

/-- A fuse count burnt. -/
def burnSvn (v : Nat) (s : State) : State := showFw { s with fuses := { s.fuses with fwSvn := v } }
/-- A birth record burnt: ΔV falls to a free value not above it. -/
def burnBirth (k : Nat) (data : List Byte) (s : State) : State :=
  draw 1 { s with fuses := { s.fuses with birth := s.fuses.birth.set k (data.take 8) },
                  flash := { s.flash with deltaV := (Config.freeWord s.fresh).toNat % (s.flash.deltaV + 1) } }
/-- Rails and ageing log shown anew. -/
def showRails (s : State) : State := showAgeing (eachDo (fun k s => setRail k (min (rail k s) (railSet s)) s) (upTo 4) s)

section Fuses

variable {fn : Nat} {d : SvcDesc} {h : HostIn} {s t u x : State}

theorem planFuseBurn_eq (fn : Nat) (d : SvcDesc) (data : List Byte) : planFuseBurn fn d data = completes fn d [] fun s =>
    if dArg d 36 1 = 0 then burnSvn (dArg d 37 1) s else showRails (burnBirth (dArg d 38 1) data s) := rfl

theorem shown_showRails : Shown s (showRails s) :=
  (shown_eachDo fun _ hk _ => shown_setRail _ (List.mem_range.mp hk)).trans shown_showAgeing

theorem BurnFrame.trans (h : BurnFrame s t) (h' : BurnFrame t u) : BurnFrame s u := by
  unfold BurnFrame at *
  rw [h', h]

theorem RingOnly.burnFrame (h : RingOnly fn s t) : BurnFrame s t := by
  unfold BurnFrame
  rw [h.rest]

theorem burnFrame_svcState : BurnFrame s (svcState 0x0106 fn d h s) := by
  obtain ⟨n, hf⟩ := svcState_frame (fn := fn) (code := 0x0106) (d := d) (h := h) (s := s) rfl
  exact BurnFrame.trans (t := withNonce n (turnPast fn s)) rfl hf.burnFrame

theorem burnFrame_burnSvn (v : Nat) : BurnFrame s (burnSvn v s) := rfl

theorem RingOnly.fuses (h : RingOnly fn s t) : t.fuses = s.fuses := by rw [h.rest]

theorem Shown.eq (h : Shown s t) : t = { s with regs := t.regs } := h.rest

theorem Shown.burnFrame (h : Shown s t) : BurnFrame s t := by
  unfold BurnFrame
  rw [h.eq]

theorem burnFrame_burnBirth (k : Nat) (data : List Byte) : BurnFrame s (showRails (burnBirth k data s)) :=
  BurnFrame.trans (t := burnBirth k data s) rfl shown_showRails.burnFrame

/-- The effect of a burn, with its fuses and ΔV. -/
theorem svcRow_burn (hfn : fn < 17) (hs : SvcStarts 0x0106 fn d h s) :
    let d' := rowDesc 0x0106 d
    let t := svcRow 0x0106 fn d h s
    Answered fn d' stOK [] (svcState 0x0106 fn d h s) t ∧ BurnFrame s t ∧
      (dArg d' 36 1 = 0 → t.fuses = { s.fuses with fwSvn := dArg d' 37 1 } ∧ t.flash.deltaV = s.flash.deltaV) ∧
      (dArg d' 36 1 ≠ 0 → t.fuses.fwSvn = s.fuses.fwSvn ∧ t.flash.deltaV ≤ s.flash.deltaV ∧
        t.fuses.birth = s.fuses.birth.set (dArg d' 38 1) ((dataBytes d' ⟨false, true,
          maker, [36, 37, 38], .read⟩ (svcState 0x0106 fn d h s)).take 8)) := by
  intro d' t
  have hcmd : dCMD d' = 0x0106 := dCMD_rowDesc d (by decide)
  have hflash := flash_svcState (fn := fn) (d := d) (h := h) (s := s) (code := 0x0106) rfl
  have hfuses : (svcState 0x0106 fn d h s).fuses = s.fuses := by
    rw [show svcState 0x0106 fn d h s = _ from svcFrame_svcState rfl]
  have hserve (l : List (List Byte)) (n : Nat) (e : Bool) (x : State) (hx : x.regs = (logged l n e (svcState 0x0106 fn d h s)).regs)
      (hx' : x.rings = (logged l n e (svcState 0x0106 fn d h s)).rings) : Serving fn (svcState 0x0106 fn d h s) x :=
    (((serving_svcState hs).self).logged l n e).congr (ring_congr hx' fn) fun _ _ => rd_congr hx _
  have hplan : planOf fn d' (dataBytes d' ⟨false, true, maker, [36, 37, 38], .read⟩ (svcState 0x0106 fn d h s)) (svcState 0x0106 fn d h s) =
      planFuseBurn fn d' (dataBytes d' ⟨false, true, maker, [36, 37, 38], .read⟩ (svcState 0x0106 fn d h s)) := by
    simp only [planOf, planLow, hcmd]
    rfl
  rw [planFuseBurn_eq] at hplan
  by_cases h0 : dArg d' 36 1 = 0
  · simp only [h0, if_true] at hplan
    obtain ⟨hans, l, n, e, hring⟩ := svcRow_effect hfn (by decide) rfl hs hplan fun l n e => shown_showFw.serving (hserve l n e _ rfl rfl)
    refine ⟨hans, (burnFrame_svcState.trans (burnFrame_burnSvn (s := logged l n e (svcState 0x0106 fn d h s)) _)).trans hring.burnFrame,
      fun _ => ⟨?_, ?_⟩, fun h1 => absurd h0 h1⟩
    · rw [hring.fuses, ← hfuses]
      rfl
    · rw [hring.flash, ← hflash]
      rfl
  · simp only [h0, if_false] at hplan
    obtain ⟨hans, l, n, e, hring⟩ := svcRow_effect hfn (by decide) rfl hs hplan fun l n e => shown_showRails.serving (hserve l n e _ rfl rfl)
    have heq := (shown_showRails (s := burnBirth (dArg d' 38 1) (dataBytes d' ⟨false, true, maker, [36, 37, 38], .read⟩ (svcState 0x0106 fn d h s))
      (logged l n e (svcState 0x0106 fn d h s)))).eq
    refine ⟨hans, (burnFrame_svcState.trans (burnFrame_burnBirth (s := logged l n e (svcState 0x0106 fn d h s)) _ _)).trans hring.burnFrame,
      fun h1 => absurd h1 h0, fun _ => ⟨?_, ?_, ?_⟩⟩
    · rw [hring.fuses, heq, ← hfuses]
      rfl
    · rw [hring.flash, heq, ← hflash]
      exact Nat.le_of_lt_succ (Nat.mod_lt _ (Nat.succ_pos _))
    · rw [hring.fuses, heq, ← hfuses]
      rfl

end Fuses

/-- Settles O22: each authorised command's plan, its effect on what no ring holds, and its answer. -/
theorem authorisationAndKeysFollowTheirCommands : Obligations.AuthorisationAndKeysFollowTheirCommands := by
  unfold Obligations.AuthorisationAndKeysFollowTheirCommands
  intro arg fn d h s
  refine ⟨fun hs => ⟨_, rfl, svcRow_nonce fn.isLt hs⟩, fun hs => ⟨_, rfl, svcRow_unlock fn.isLt hs⟩, fun hs => ⟨_, rfl, svcRow_lock fn.isLt hs⟩,
    fun hs => ⟨_, rfl, ?_⟩, fun hs => ⟨_, rfl, ?_⟩, fun hs => ⟨_, rfl, ?_⟩⟩
  · have hcmd : dCMD (rowDesc 0x0103 d) = 0x0103 := dCMD_rowDesc d (by decide)
    have hlen : dLEN (rowDesc 0x0103 d) = 32 := by
      have := argBadLow_of_starts hs
      simp [argBadLow] at this
      exact this.2
    obtain ⟨hans, hframe, hkeys⟩ := svcRow_keys (f := fun m => m.set (arg 0x0103 d 36 1) _) fn.isLt (by decide) rfl hs
      (by simp only [planOf, planLow, hcmd]; rfl)
    refine ⟨hans, hframe, fun k => ?_⟩
    rw [hkeys, find_set, dataBytes_read rfl (by rw [hlen]; decide), hlen]
  · have hcmd : dCMD (rowDesc 0x0104 d) = 0x0104 := dCMD_rowDesc d (by decide)
    obtain ⟨hans, hframe, hkeys⟩ := svcRow_keys (f := fun m => m.del (arg 0x0104 d 36 1)) fn.isLt (by decide) rfl hs
      (by simp only [planOf, planLow, hcmd]; rfl)
    exact ⟨hans, hframe, fun k => by rw [hkeys, find_del]⟩
  · obtain ⟨hans, hframe, hsvn, hbirth⟩ := svcRow_burn fn.isLt hs
    have hargs := argBadLow_of_starts hs
    refine ⟨hans, hframe, fun h0 => ?_, fun h1 => ?_⟩
    · obtain ⟨hf, hd⟩ := hsvn h0
      refine ⟨hf, ?_, hd⟩
      have h0' : dArg (rowDesc 0x0106 d) 36 1 = 0 := h0
      rw [hf]
      simp [argBadLow, h0'] at hargs
      exact hargs.2.2.2.1
    · have h1' : dArg (rowDesc 0x0106 d) 36 1 = 1 := h1
      obtain ⟨hf, hd, hb⟩ := hbirth (by omega)
      have hlen : dLEN (rowDesc 0x0106 d) = 16 := by
        simp [argBadLow, h1'] at hargs
        exact hargs.2.2
      refine ⟨hf, hd, ?_⟩
      rw [hb, find_set_self, dataBytes_read rfl (by rw [hlen]; decide), hlen]

end Sys2Proof.Proofs
end

section
/-! Transfers (17_host_interface.md, R401): what reporting an uncorrectable word leaves, what the lines of a range write and read, and how a
copy moves its bytes step by step (R30). -/

namespace Sys2Proof.Proofs

open Sys2Proof Sys2Proof.Machine Sys2Proof.Laws

/-! ### An event while a command is in hand (R399) -/

section Events

variable {fn : Nat} {s1 s t : State}

/-- A command in hand stays in hand where only the events held for its ring change. -/
theorem InHand.held (h : InHand fn s1 s) (es : List Evt) : InHand fn s1 (updRing fn (fun r => { r with held := es }) s) := by
  have hg : ring fn (updRing fn (fun r => { r with held := es }) s) = { ring fn s with held := es } :=
    ring_updRing_same s fn fun r => { r with held := es }
  have hu : cplUsed fn (updRing fn (fun r => { r with held := es }) s) = cplUsed fn s := cplUsed_congr (by rw [hg]) rfl
  have hr : cplRoom fn (updRing fn (fun r => { r with held := es }) s) = cplRoom fn s := cplRoom_congr (by rw [hg]) rfl rfl
  exact { h with
    runs := by rw [hg]; exact h.runs
    idle := by rw [hg]; exact h.idle
    inHand := by rw [hg]; exact h.inHand
    room := hr.trans h.room
    tail := by rw [hu]; exact h.tail }

/-- An event's completion is one more before the command's own, where there is room for it beside the command's (R395). -/
theorem InHand.event (h : InHand fn s1 s) (hsize : ringSize fn oCPL_SIZE s1 ∣ 2 ^ 32) (hroom : evtRoom fn s = true) (bs : List Byte) :
    InHand fn s1 (putCpl fn bs s) := by
  obtain ⟨hfe, hct⟩ := h.idle
  have hu : cplUsed fn (putCpl fn bs s) = cplUsed fn s + 1 := cplUsed_succ rfl (rd_putCpl_tail bs s) h.room
  have hs : ringSize fn oCPL_SIZE (putCpl fn bs s) = ringSize fn oCPL_SIZE s := ringSize_congr (rd_putCpl_ne bs s (by decide) (by decide))
  obtain ⟨j, ht, hj, -⟩ := h.tail
  exact {
    runs := by rw [ringEn_congr (rd_putCpl_ne bs s (by decide) (by decide)), ring_putCpl]; exact h.runs
    idle := by rw [ring_putCpl, rd_putCpl_ne bs s (by decide) (by decide)]; exact h.idle
    inHand := h.inHand
    room := by
      rw [cplRoom_iff, hu, hs]
      simpa [evtRoom, hfe, h.inHand] using hroom
    base := (rdAddr_congr (rd_putCpl_ne bs s (by decide) (by decide)) (rd_putCpl_ne (o := oCPL_BASE + 4) bs s (by decide) (by decide))).trans h.base
    size := hs.trans h.size
    count := (rd_putCpl_ne bs s (by decide) (by decide)).trans h.count
    tail := ⟨j + 1, by rw [rd_putCpl_tail, ht, BitVec.add_assoc]; simp [wd, BitVec.ofNat_add], by omega, .inr hsize⟩ }

end Events

/-! ### Faults raised while a command is in hand (R454) -/

section Raise

variable {fn : Nat} {s1 s : State}

theorem ring_showHeld (g : Nat) (s : State) : ring g (showHeld fn s) = ring g s := rfl

/-- The events held for the ring are delivered, or no room is left for one. -/
theorem serving_pumpEvents (hsize : ringSize fn oCPL_SIZE s1 ∣ 2 ^ 32) (n : Nat) :
    ∀ {s : State}, (ring fn s).held.length ≤ n → InHand fn s1 s → ringServed fn s = true → Serving fn s1 (pumpEvents fn n s) := by
  induction n with
  | zero => exact fun hn h _ => ⟨h, .inl (List.length_eq_zero_iff.mp (Nat.le_zero.mp hn))⟩
  | succ n ih =>
    intro s hn h hserved
    unfold pumpEvents
    split
    · next he => exact ⟨h, .inl he⟩
    · next e es he =>
      extract_lets res p q
      by_cases hroom : evtRoom fn s = true
      case neg =>
        rw [if_neg (by simp [hroom])]
        exact ⟨h, .inr (by simpa using hroom)⟩
      case pos =>
        rw [if_pos (by simp [h.runs, hserved, hroom])]
        have hq : InHand fn s1 q := (h.event hsize hroom _).held es
        have hpump : InHand fn s1 (fireInt fn 1 (showHeld fn q)) := by
          refine hq.congr ((ring_fireInt fn fn 1 _).trans rfl) fun o _ ho _ _ => ?_
          rw [rd_fireInt]
          exact rd_wrF_ne q 14 8 _ (by simpa using ho)
        have hheld : ring fn (fireInt fn 1 (showHeld fn q)) = { ring fn p with held := es } :=
          (ring_fireInt fn fn 1 _).trans (ring_updRing_same p fn fun r => { r with held := es })
        have honly : RingOnly fn s (fireInt fn 1 (showHeld fn q)) :=
          (((ringOnly_putCpl _).trans (ringOnly_updRing _)).trans ringOnly_showHeld).trans (ringOnly_fireInt 1)
        refine ih ?_ hpump ((honly.served fn).trans hserved)
        rw [hheld]
        rw [he] at hn
        exact Nat.le_of_succ_le_succ hn

/-- An event raised to the ring itself leaves its command in hand. -/
theorem serving_raiseTo (hsize : ringSize fn oCPL_SIZE s1 ∣ 2 ^ 32) (e : Evt) (h : Serving fn s1 s) (hserved : ringServed fn s = true) :
    Serving fn s1 (raiseTo fn e s) := by
  unfold raiseTo
  split
  · next hlen =>
    have hg := ring_updRing_same s fn fun r => { r with held := r.held ++ [e] }
    have hh : InHand fn s1 (showHeld fn (updRing fn (fun r => { r with held := r.held ++ [e] }) s)) := by
      rw [updRing_congr (g := fun r => { r with held := (ring fn s).held ++ [e] }) rfl]
      exact (h.toInHand.held _).congr rfl fun o _ ho _ _ => rd_wrF_ne _ 14 8 _ (by simpa using ho)
    refine serving_pumpEvents hsize 64 ?_ hh (((ringOnly_updRing _).trans ringOnly_showHeld).served fn |>.trans hserved)
    rw [ring_showHeld, hg]
    simpa using hlen
  · next hlen =>
    have hroom : evtRoom fn s = false := h.noEvent.resolve_left fun h0 => hlen (by simp [h0])
    have hrd (o : Nat) (ho : o ≠ oRING_EVT) (ho' : o ≠ oCNT_EVT_LOST) :
        rd (ringBase fn + o) (inc (ringBase fn + oCNT_EVT_LOST) 1 (wrB (ringBase fn + oRING_EVT) 2 true s)) = rd (ringBase fn + o) s := by
      rw [rd_inc_ne _ _ (by simpa using ho'), rd_wrB_ne _ _ _ (by simpa using ho)]
    refine ⟨h.toInHand.congr rfl fun o _ _ ho ho' => hrd o ho ho', .inr ?_⟩
    exact (evtRoom_congr (fn := fn) (s := s) (t := inc (ringBase fn + oCNT_EVT_LOST) 1 (wrB (ringBase fn + oRING_EVT) 2 true s)) rfl
      (hrd _ (by decide) (by decide)) (hrd _ (by decide) (by decide))).trans hroom

theorem ringOnly_raiseTo (g : Nat) (e : Evt) : RingOnly g s (raiseTo g e s) := by
  unfold raiseTo
  exact ringOnly_ite (((ringOnly_updRing _).trans ringOnly_showHeld).trans (ringOnly_pumpEvents 64))
    ((ringOnly_wrB 2 true).trans (ringOnly_inc 1))

end Raise

/-! ### What raising a fault keeps (R454) -/

/-- A loop keeps what its body keeps. -/
theorem eachDo_keeps {α σ : Type} {P : σ → Prop} {f : α → σ → σ} {l : List α} (hf : ∀ x ∈ l, ∀ s, P s → P (f x s)) : ∀ {s}, P s → P (eachDo f l s) := by
  induction l with
  | nil => exact id
  | cons x l ih => exact fun h => ih (fun y hy => hf y (by simp [hy])) (hf x (by simp) _ h)

/-- Registers that belong to no ring and no region: those of the system block and the memories', cores' and faults'. -/
def reportReg (k : Nat) : Prop := k < 0x10000 ∧ k ≠ kSYS_BOOT ∨ 0x100000 ≤ k ∧ k < 0x1010000

theorem reportReg_off {k : Nat} (h : reportReg k) : k < 0x10000 ∨ 0x10068 ≤ k ∧ k < 0x1010000 := by
  unfold reportReg at h
  omega

section RaiseFault

variable {P : State → Prop} (hwr : ∀ k v s, reportReg k → P s → P (wr k v s))

include hwr

theorem showFaults_keeps {s : State} (h : P s) : P (showFaults s) :=
  hwr _ _ _ (.inl (by decide)) (hwr _ _ _ (.inl (by decide)) (hwr _ _ _ (.inr (by decide)) h))

theorem logFault_keeps {s : State} (code unit part : Nat) (arg : Word) (h : P s) : P (logFault code unit part arg s) := by
  have hlog (o : Nat) (ho : o < 0x10) : reportReg (kFAULT_LOG ((rd kFAULT_LOG_WR s).toNat % 64) + o) := by
    unfold kFAULT_LOG
    exact .inr (by omega)
  exact hwr _ _ _ (.inr (by decide)) (hwr _ _ _ (hlog 0xC (by decide)) (hwr _ _ _ (hlog 8 (by decide)) (hwr _ _ _ (hlog 4 (by decide))
    (hwr _ _ _ (hlog 0 (by decide)) h))))

omit hwr in
theorem findLog_lt {w : Word} {s : State} {i : Nat} : ∀ {k n : Nat}, findLog w s k n = some i → i < 64
  | 0, _, h => by cases h
  | k + 1, n, h => by
    unfold findLog at h
    split at h
    · cases h
    · split at h
      · obtain rfl := Option.some.inj h
        omega
      · exact findLog_lt h

theorem relogFault_keeps {s : State} (code unit part : Nat) (h : P s) : P (relogFault code unit part s) := by
  unfold relogFault
  split
  · next i hi =>
    have hlog (o : Nat) (ho : o < 0x10) : reportReg (kFAULT_LOG i + o) := by
      have := findLog_lt hi
      unfold kFAULT_LOG
      exact .inr (by omega)
    exact hwr _ _ _ (hlog 8 (by decide)) (hwr _ _ _ (hlog 4 (by decide)) h)
  · exact h

/-- Raising a fault keeps what its registers, the active faults and its events keep. -/
theorem raiseFault_keeps {fns : List Nat} (hfaults : ∀ fs s, P s → P { s with faults := fs }) (hto : ∀ g ∈ fns, ∀ e s, P s → P (raiseTo g e s))
    {s : State} (code unit part : Nat) (arg : Word) (h : P s) : P (raiseFault code unit part arg fns s) := by
  unfold raiseFault
  extract_lets same s2 s3 e
  split
  · exact relogFault_keeps hwr _ _ _ (hwr _ _ _ (.inr (by decide)) h)
  · have h2 : P s2 := by
      unfold s2
      split
      · exact h
      · exact hfaults _ _ h
    exact showFaults_keeps hwr (eachDo_keeps (fun g hg s => hto g (List.mem_eraseDups.mp hg) e s)
      (hwr _ _ _ (.inr (by decide)) (logFault_keeps hwr _ _ _ _ h2)))

end RaiseFault

/-! ### A command in hand while memory is written (R261) -/

/-- A command of ring `fn` is in hand since `s1`; the start-up stage and the regions are as they were then, and what else differs is what
reporting writes. -/
structure Writing (fn : Nat) (s1 s : State) : Prop where
  serving : Serving fn s1 s
  stage : stage s = stage s1
  regions : ∀ k, 0x071000 ≤ k → k < 0x080000 → rd k s = rd k s1
  rest : OnlyReports s1 s

section Writing

variable {fn : Nat} {s1 s : State}

theorem Serving.writing (h : Serving fn s1 s1) : Writing fn s1 s1 := ⟨h, rfl, fun _ _ _ => rfl, rfl⟩

theorem Writing.eq (h : Writing fn s1 s) :
    s = { s1 with regs := s.regs, rings := s.rings, host := s.host, out := s.out, faults := s.faults } := h.rest
theorem Writing.boot (h : Writing fn s1 s) : s.boot = s1.boot := by rw [h.eq]
theorem Writing.pwr (h : Writing fn s1 s) : s.pwr = s1.pwr := by rw [h.eq]
theorem Writing.mem (h : Writing fn s1 s) : s.mem = s1.mem := by rw [h.eq]

theorem Writing.served (h : Writing fn s1 s) : ringServed fn s = ringServed fn s1 := by simp only [ringServed, h.stage, h.boot]

theorem writing_wr {k : Nat} (v : Word) (hk : reportReg k) (h : Writing fn s1 s) : Writing fn s1 (wr k v s) where
  serving := (shown_wr v (reportReg_off hk)).serving h.serving
  stage := by
    rw [← h.stage, Machine.stage, Machine.stage, rdF, rdF, rd_wr_ne]
    unfold reportReg kSYS_BOOT at *
    omega
  regions := fun j hj hj' => by
    rw [rd_wr_ne _ _ (by unfold reportReg at hk; omega)]
    exact h.regions j hj hj'
  rest := by
    show wr k v s = _
    rw [h.eq]
    rfl

theorem writing_wrB {k i : Nat} {b : Bool} (hk : reportReg k) (h : Writing fn s1 s) : Writing fn s1 (wrB k i b s) := writing_wr _ hk h
theorem writing_inc {k n : Nat} (hk : reportReg k) (h : Writing fn s1 s) : Writing fn s1 (inc k n s) := writing_wr _ hk h

theorem writing_faults (fs : List FaultRec) (h : Writing fn s1 s) : Writing fn s1 { s with faults := fs } where
  serving := h.serving.congr rfl fun _ _ => rfl
  stage := h.stage
  regions := h.regions
  rest := by
    show { s with faults := fs } = _
    rw [h.eq]

/-- Other device memory. -/
def stored (m : List Host.Cell) (p : List Nat) (s : State) : State := { s with mem := m, poison := p }

theorem writing_stored (m : List Host.Cell) (p : List Nat) (h : Writing fn s1 s) : Writing fn (stored m p s1) (stored m p s) where
  serving := { h.serving.congr (t := stored m p s) rfl (fun _ _ => rfl) with base := h.serving.base, size := h.serving.size, count := h.serving.count, tail := h.serving.tail }
  stage := h.stage
  regions := h.regions
  rest := by
    show stored m p s = _
    rw [h.eq]
    rfl

theorem writing_raiseTo (hsize : ringSize fn oCPL_SIZE s1 ∣ 2 ^ 32) (hserved : ringServed fn s1 = true) (g : Nat) (e : Evt) (h : Writing fn s1 s) :
    Writing fn s1 (raiseTo g e s) := by
  have ho : RingOnly g s (raiseTo g e s) := ringOnly_raiseTo g e
  refine ⟨?_, ho.stage.trans h.stage, fun k hk hk' => (ho.registers k ?_).trans (h.regions k hk hk'), ?_⟩
  · by_cases hg : g = fn
    · subst hg
      exact serving_raiseTo hsize e h.serving (h.served.trans hserved)
    · exact h.serving.congr (ho.others fn (Ne.symm hg)) fun o hlt => rd_other ho (Ne.symm hg) hlt
  · unfold ringKey ringBase
    split
    · simp; omega
    · simp; omega
  · show raiseTo g e s = _
    rw [ho.rest, h.eq]

theorem writing_raiseFault (hsize : ringSize fn oCPL_SIZE s1 ∣ 2 ^ 32) (hserved : ringServed fn s1 = true) (code unit part : Nat) (arg : Word)
    (fns : List Nat) (h : Writing fn s1 s) : Writing fn s1 (raiseFault code unit part arg fns s) :=
  raiseFault_keeps (fun _ _ _ hk => writing_wr _ hk) (fun _ _ => writing_faults _) (fun g _ e _ => writing_raiseTo hsize hserved g e) code unit part arg h

end Writing

/-! ### The lines of a range (R245) -/

section Lines

/-- The lines of a range are its bytes in order. -/
theorem lines_bytes (k : Nat) : ∀ {a len : Nat}, len = 0 ∨ len + a % 64 ≤ 64 * k →
    (lines k a len).flatMap (fun x => (List.range x.2).map (x.1 + ·)) = (List.range len).map (a + ·) := by
  induction k with
  | zero =>
    intro a len h
    obtain rfl : len = 0 := by omega
    rfl
  | succ k ih =>
    intro a len h
    unfold lines
    split
    · next h0 => simp [h0]
    · next h0 =>
      extract_lets n
      have hn : n ≤ len := Nat.min_le_left _ _
      have hrest : len - n = 0 ∨ len - n + (a + n) % 64 ≤ 64 * k := by omega
      rw [List.flatMap_cons, ih hrest]
      conv_rhs => rw [show len = n + (len - n) by omega, List.range_add, List.map_append]
      simp [Nat.add_assoc, Function.comp_def]

theorem linesOf_bytes (a len : Nat) : (linesOf a len).flatMap (fun x => (List.range x.2).map (x.1 + ·)) = (List.range len).map (a + ·) :=
  lines_bytes _ (by omega)

end Lines

/-! ### Writing the lines of a range -/

/-- A region holds what it held where its four registers are as they were. -/
theorem regionHolds_congr {t r a b : Nat} {s s' : State} (h : ∀ o, o < 0x10 → rd (kRGN t r + o) s' = rd (kRGN t r + o) s) :
    regionHolds t r a b s' = regionHolds t r a b s := by
  have h0 : rd (kRGN t r) s' = rd (kRGN t r) s := h 0 (by decide)
  simp only [regionHolds, h0, h 4 (by decide), h 8 (by decide), h 0xC (by decide)]

/-- Memory accesses reach what they reached while a command in hand writes. -/
theorem Writing.reaches {fn : Nat} {s1 s : State} (h : Writing fn s1 s) {t : Nat} (ht : t < 18) (master unit a len : Nat) (w : Bool) :
    reaches master unit t a len w s = reaches master unit t a len w s1 := by
  have himg : s.img = s1.img := by rw [h.eq]
  have howner (c : Nat) : coreOwner c s = coreOwner c s1 := by simp only [coreOwner, cfg, himg]
  have hperm (b : Nat) : permits t a len b s = permits t a len b s1 := by
    rw [Bool.eq_iff_iff, permits, permits, List.any_eq_true, List.any_eq_true]
    refine exists_congr fun r => and_congr_right fun hr => ?_
    have hlt : r < 16 := List.mem_range.mp hr
    have hreg (o : Nat) (ho : o < 0x10) : rd (kRGN t r + o) s = rd (kRGN t r + o) s1 :=
      h.regions _ (by unfold kRGN; omega) (by unfold kRGN; omega)
    rw [regionHolds_congr hreg, regionHolds_congr hreg]
  simp only [Machine.reaches, howner, hperm]

/-- A place in HBM names one of the stacks that registers exist for (R253, R254). -/
theorem hbmPlace_lt (a : Nat) (s : State) : (hbmPlace a s).1 < 4 := by
  unfold hbmPlace
  split
  · simp only [stackOffset]
    omega
  · next t r _ =>
    have hlt : rdF (kRGN t r + 0xC) 21 20 s < 4 := Nat.mod_lt _ (by decide)
    simp only
    omega

section Write

variable {fn : Nat} {s1 s : State} (hsize : ringSize fn oCPL_SIZE s1 ∣ 2 ^ 32) (hserved : ringServed fn s1 = true)

include hsize hserved

theorem writing_reportUnc (a : Nat) (h : Writing fn s1 s) : Writing fn s1 (reportUnc a s) := by
  have hraise := fun code unit part arg fns {s} => writing_raiseFault (s := s) hsize hserved code unit part arg fns
  unfold reportUnc
  extract_lets w n o off sa sb k sc sd
  split
  · next hscr =>
    have hreg (x : Nat) (hx : x < 0x20) : reportReg (o + x) := by
      simp only [inScratch, Bool.and_eq_true, decide_eq_true_eq] at hscr
      unfold o n coreBase scratchCore
      exact .inr (by omega)
    have hsb : Writing fn s1 sb :=
      writing_wr _ (hreg _ (by decide)) (writing_inc (hreg _ (by decide)) (writing_wrB (hreg _ (by decide)) h))
    split <;> exact hraise _ _ _ _ _ hsb
  · split
    · next hclu =>
      have hreg (x : Nat) (hx : x < 0x20) : reportReg (cluBase k + x) := by
        simp only [inCluster, Bool.and_eq_true, decide_eq_true_eq] at hclu
        unfold k cluBase
        exact .inr (by omega)
      have hsd : Writing fn s1 sd :=
        writing_wr _ (hreg _ (by decide)) (writing_inc (hreg _ (by decide)) (writing_wrB (hreg _ (by decide)) h))
      split <;> exact hraise _ _ _ _ _ hsd
    · split
      · have hlt := hbmPlace_lt w s
        split
        next hb off' hp =>
        rw [hp] at hlt
        have hreg (x : Nat) (hx : x < 0x20) : reportReg (hbmBase hb + x) := by
          unfold hbmBase
          exact .inr (by simp only at hlt; omega)
        extract_lets se sf
        have hsf : Writing fn s1 sf := writing_wr _ (hreg _ (by decide)) (writing_wr _ (hreg _ (by decide))
          (writing_inc (hreg _ (by decide)) (writing_wrB (hreg _ (by decide)) h)))
        split <;> exact hraise _ _ _ _ _ hsf
      · exact hraise _ _ _ _ _ h

theorem writing_memStore (a : Nat) (bs : List Byte) (h : Writing fn s1 s) :
    ∃ p, Writing fn (stored (Memory.write s1.mem a bs) p s1) (memStore [(a, bs)] s) := by
  have hr : Writing fn s1 (eachDo reportUnc (partWords [(a, bs)] s) s) := eachDo_keeps (fun w _ _ hs => writing_reportUnc hsize hserved w hs) h
  obtain ⟨p, hm⟩ : ∃ p, memStore [(a, bs)] s = stored (Memory.write s1.mem a bs) p (eachDo reportUnc (partWords [(a, bs)] s) s) :=
    ⟨_, by rw [← hr.mem]; rfl⟩
  exact ⟨p, hm ▸ writing_stored _ _ hr⟩

end Write

/-- One line less of a range (R245). -/
theorem lines_cons {k a len : Nat} (h : len ≠ 0) :
    lines (k + 1) a len = (a, min len (64 - a % 64)) :: lines k (a + min len (64 - a % 64)) (len - min len (64 - a % 64)) := by simp [lines, h]

/-- The bytes of a range whose first line `bs.take n` is written, the rest `bs.drop n` over it. -/
theorem get_two_writes {a len n x : Nat} {bs : List Byte} {m : List Host.Cell} (hn : n ≤ len) (hl : bs.length = len) :
    (if a + n ≤ x ∧ x < a + n + (len - n) then (bs.drop n).getD (x - (a + n)) 0 else Memory.get x (Memory.write m a (bs.take n))) =
      if a ≤ x ∧ x < a + len then bs.getD (x - a) 0 else Memory.get x m := by
  have htake : (bs.take n).length = n := by simp; omega
  by_cases hx : a + n ≤ x ∧ x < a + len
  · rw [if_pos (by omega), if_pos (by omega)]
    simp only [List.getD_eq_getElem?_getD, List.getElem?_drop]
    congr 2
    omega
  · rw [if_neg (by omega)]
    by_cases hx' : a ≤ x ∧ x < a + len
    · obtain ⟨i, rfl⟩ : ∃ i, x = a + i := ⟨x - a, by omega⟩
      have hi : i < (bs.take n).length := by omega
      have hb : i < bs.length := by omega
      rw [if_pos hx', get_write_in _ _ hi, Nat.add_sub_cancel_left, List.getElem_take]
      simp [hb]
    · rw [if_neg hx', get_write_out _ _ (by omega)]

/-- A write whose lines all reach leaves its bytes at them and no other byte changed (R245). -/
theorem writing_writePieces {fn master unit t : Nat} (ht : t < 18) (k : Nat) :
    ∀ {a len : Nat} {bs : List Byte} {s1 s : State}, ringSize fn oCPL_SIZE s1 ∣ 2 ^ 32 → ringServed fn s1 = true → s1.pwr.wiping = [] →
      bs.length = len → (len = 0 ∨ len + a % 64 ≤ 64 * k) → (∀ x ∈ lines k a len, reaches master unit t x.1 x.2 true s1 = true) → Writing fn s1 s →
      ∃ m p, Writing fn (stored m p s1) (writePieces master unit t (lines k a len) bs s).2.2 ∧
        ∀ x, Memory.get x m = if a ≤ x ∧ x < a + len then bs.getD (x - a) 0 else Memory.get x s1.mem := by
  induction k with
  | zero =>
    intro a len bs s1 s _ _ _ _ hk _ h
    obtain rfl : len = 0 := by omega
    exact ⟨s1.mem, s1.poison, h, fun x => by rw [if_neg (by omega)]⟩
  | succ k ih =>
    intro a len bs s1 s hsize hserved hw hl hk hreach h
    by_cases h0 : len = 0
    · subst h0
      rw [show lines (k + 1) a 0 = [] from rfl]
      exact ⟨s1.mem, s1.poison, h, fun x => by rw [if_neg (by omega)]⟩
    · rw [lines_cons h0] at hreach ⊢
      generalize hn : min len (64 - a % 64) = n at hreach ⊢
      have hhead : reaches master unit t a n true s = true := (h.reaches ht _ _ _ _ _).trans (hreach (a, n) (by simp))
      obtain ⟨p, hp⟩ := writing_memStore hsize hserved a (bs.take n) h
      obtain ⟨m', p', hrec, hget⟩ := ih (a := a + n) (len := len - n) (bs := bs.drop n) (s1 := stored (Memory.write s1.mem a (bs.take n)) p s1)
        (s := memStore [(a, bs.take n)] s) hsize hserved hw (by simp; omega) (by omega) (fun x hx => hreach x (by simp [hx])) hp
      refine ⟨m', p', ?_, fun x => ?_⟩
      · simp only [writePieces, hhead, if_true, awaitWipe_none a (h.pwr ▸ hw : s.pwr.wiping = [])]
        exact hrec
      · rw [hget x]
        exact get_two_writes (by omega) hl

/-! ### SVC_COPY_IN and SVC_COPY_OUT (R401) -/

section Copy

variable {fn code : Nat} {d : SvcDesc} {h : HostIn} {s : State} {c : CmdRow}

theorem SvcFrame.memorySame {t : State} (hf : SvcFrame s t) : MemorySame s t := by
  rw [show t = _ from hf]
  exact ⟨fun _ => rfl, rfl⟩

/-- A command whose plan refuses it is recorded and answers the status (R400). -/
theorem svcRow_refused {status : Nat} {res : List Byte} (hfn : fn < 17) (hcode : code < 65536) (hc : cmdRow code = some c) (hs : SvcStarts code fn d h s)
    (hplan : planOf fn (rowDesc code d) (dataBytes (rowDesc code d) c (svcState code fn d h s)) (svcState code fn d h s) =
      refuse fn (rowDesc code d) status res) :
    Answered fn (rowDesc code d) status res (svcState code fn d h s) (svcRow code fn d h s) ∧
      ∃ l n e, RingOnly fn (logged l n e (svcState code fn d h s)) (svcRow code fn d h s) := by
  have haudit := flash_svcState (fn := fn) (d := d) (h := h) (s := s) hc ▸ hs.audit
  obtain ⟨l, n, e, hrec⟩ := recordPlan_of_starts (dataBytes (rowDesc code d) c (svcState code fn d h s)) (refuse fn (rowDesc code d) status res) hc hs
  rw [svcRow_of_starts hfn hcode hc hs, hplan, carryOut_of_room haudit.1 haudit.2, hrec]
  exact ⟨((serving_svcState hs).self.logged l n e).answered _ _ _ _, l, n, e, ringOnly_finish _ _ _ _⟩

theorem svcFrame_of_logged {t : State} {l : List (List Byte)} {n : Nat} {e : Bool} (hc : cmdRow code = some c)
    (hr : RingOnly fn (logged l n e (svcState code fn d h s)) t) : SvcFrame s t :=
  svcFrame_of_effect (x := logged l n e (svcState code fn d h s)) hc rfl hr

/-- The regions of a tag that permit a range let a master of the host reach its lines. -/
theorem reaches_of_tagHolds {t a len master unit : Nat} {w : Bool} {x : Nat × Nat} (ht : tagHolds t a len (if w then rgtWrite else rgtRead) s = true)
    (hx : x ∈ linesOf a len) : reaches master unit t x.1 x.2 w s = true := by
  have hl := List.all_eq_true.mp ht x hx
  simp only [Bool.and_eq_true, Bool.or_eq_true] at hl
  obtain ⟨hmem, hperm⟩ := hl
  have hscr : inScratch x.1 = false := by
    simp only [inHbm, inCluster, inScratch, Bool.and_eq_true, decide_eq_true_eq, Bool.and_eq_false_iff, decide_eq_false_iff_not] at *
    omega
  simp only [reaches, hscr, hperm, Bool.and_true]
  simpa using hmem

theorem served_svcState (hc : cmdRow code = some c) (hs : SvcStarts code fn d h s) : ringServed fn (svcState code fn d h s) = true := by
  obtain ⟨n, hf⟩ := svcState_frame (fn := fn) (code := code) (d := d) (h := h) (s := s) (by simp [hc])
  exact (hf.served fn).trans hs.takes.runs.2.1

theorem size_svcState (hs : SvcStarts code fn d h s) : ringSize fn oCPL_SIZE (svcState code fn d h s) ∣ 2 ^ 32 := by
  obtain ⟨k, -, hk, hsize⟩ := hs.takes.sizes
  rw [(serving_svcState hs).size, hsize]
  exact Nat.pow_dvd_pow 2 (by omega)

theorem planOf_copy {d : SvcDesc} {w : Bool} (data : List Byte) (s : State) (hcmd : dCMD d = 0x0003 ∧ w = true ∨ dCMD d = 0x0004 ∧ w = false) :
    planOf fn d data s =
      if tagHolds (fnTag fn) (dArg d 36 8) (dLEN d) (if w then rgtWrite else rgtRead) s = false then refuse fn d stREGION []
      else { status := stOK, logged := false, run := copyStep fn d 0 } := by
  obtain ⟨h, rfl⟩ | ⟨h, rfl⟩ := hcmd <;> simp [planOf, planLow, planCopy, h]

/-- A transfer's plan runs without a record of its own before it moves its bytes. -/
theorem svcRow_copy {w : Bool} (hfn : fn < 17) (hcode : code = 0x0003 ∧ w = true ∨ code = 0x0004 ∧ w = false) (hc : cmdRow code = some c)
    (hs : SvcStarts code fn d h s)
    (ht : tagHolds (fnTag fn) (dArg (rowDesc code d) 36 8) (dLEN (rowDesc code d)) (if w then rgtWrite else rgtRead) (svcState code fn d h s) = true) :
    svcRow code fn d h s = copyStep fn (rowDesc code d) 0 (svcState code fn d h s) := by
  have haudit := flash_svcState (fn := fn) (d := d) (h := h) (s := s) hc ▸ hs.audit
  have hcmd : dCMD (rowDesc code d) = code := dCMD_rowDesc d (by omega)
  rw [svcRow_of_starts hfn (by omega) hc hs, planOf_copy _ _ (by rwa [hcmd]), if_neg (by simp [ht]), carryOut_of_room haudit.1 haudit.2]
  simp [recordPlan]

/-- A transfer whose range the regions do not permit is refused (R401). -/
theorem svcRow_copyRefused {w : Bool} (hfn : fn < 17) (hcode : code = 0x0003 ∧ w = true ∨ code = 0x0004 ∧ w = false) (hc : cmdRow code = some c)
    (hs : SvcStarts code fn d h s)
    (ht : tagHolds (fnTag fn) (dArg (rowDesc code d) 36 8) (dLEN (rowDesc code d)) (if w then rgtWrite else rgtRead) (svcState code fn d h s) = false) :
    Answered fn (rowDesc code d) stREGION [] (svcState code fn d h s) (svcRow code fn d h s) ∧ MemorySame s (svcRow code fn d h s) ∧
      SvcFrame s (svcRow code fn d h s) := by
  have hcmd : dCMD (rowDesc code d) = code := dCMD_rowDesc d (by omega)
  obtain ⟨hans, l, n, e, hring⟩ := svcRow_refused hfn (by omega) hc hs (status := stREGION) (res := [])
    (by rw [planOf_copy _ _ (by rwa [hcmd]), if_pos ht])
  have hf := svcFrame_of_logged hc hring
  exact ⟨hans, SvcFrame.memorySame hf, hf⟩

end Copy

section CopyEnd

variable {fn : Nat} {d : SvcDesc} {h : HostIn} {s : State}

/-- What a command records at its end, and the effect that follows (R44). -/
theorem recordLate_of_starts {code : Nat} {c : CmdRow} (hc : cmdRow code = some c) (hs : SvcStarts code fn d h s) (data : List Byte) (status : Nat)
    (eff : State → State) :
    ∃ l n e, recordLate fn (rowDesc code d) data status eff (svcState code fn d h s) = eff (logged l n e (svcState code fn d h s)) := by
  have haudit := flash_svcState (fn := fn) (d := d) (h := h) (s := s) hc ▸ hs.audit
  obtain ⟨l, n, e, hrec⟩ := recordPlan_of_starts data { status := status, logged := true, run := eff } hc hs
  exact ⟨l, n, e, by rw [recordLate, carryOut_of_room haudit.1 haudit.2, hrec]⟩

/-- An answer speaks of the registers of the state before it alone. -/
theorem answered_of_regs {d : SvcDesc} {status : Nat} {res : List Byte} {s0 s1 t : State} (h : Answered fn d status res s0 t) (hr : s0.regs = s1.regs) :
    Answered fn d status res s1 t := by
  have hrd (k : Nat) : rd k s0 = rd k s1 := rd_congr hr k
  have hslot (m : Nat) : cplSlot fn m s0 = cplSlot fn m s1 := by simp only [cplSlot, rdAddr, ringSize, rdF, hrd]
  exact ⟨h.free, by simpa only [hrd] using h.counted, by simpa only [hrd, hslot] using h.written⟩

theorem read_length (m : Memory) (a k : Nat) : (Memory.read m a k).length = k := by simp [Memory.read]

theorem read_getD {m : Memory} {a k i : Nat} (hi : i < k) : (Memory.read m a k).getD i 0 = Memory.get (a + i) m := by
  simp [Memory.read, hi]

theorem pwr_svcState {code : Nat} {c : CmdRow} (hc : cmdRow code = some c) : (svcState code fn d h s).pwr = s.pwr := by
  rw [show svcState code fn d h s = _ from svcFrame_svcState hc]

/-- The data of a short SVC_COPY_IN is at its device range when it completes, and nowhere else (R401). -/
theorem svcRow_copyIn (hfn : fn < 17) (hs : SvcStarts 0x0003 fn d h s)
    (ht : tagHolds (fnTag fn) (dArg (rowDesc 0x0003 d) 36 8) (dLEN (rowDesc 0x0003 d)) rgtWrite (svcState 0x0003 fn d h s) = true)
    (hlen : dLEN (rowDesc 0x0003 d) ≤ 4096) (hw : s.pwr.wiping = []) :
    let d' := rowDesc 0x0003 d
    let a := dArg d' 36 8
    Answered fn d' stOK [] (svcState 0x0003 fn d h s) (svcRow 0x0003 fn d h s) ∧
      ∀ x, devByte x (svcRow 0x0003 fn d h s) =
        if a ≤ x ∧ x < a + dLEN d' then hostByte (dDATA d' + (x - a)) (svcState 0x0003 fn d h s) else devByte x s := by
  intro d' a
  have hcmd : dCMD d' = 0x0003 := dCMD_rowDesc d (by decide)
  let s1 := svcState 0x0003 fn d h s
  let data := Memory.read s1.host (dDATA d') (dLEN d')
  obtain ⟨l, n, e, hrec⟩ := recordLate_of_starts rfl hs data stOK fun s => finish fn d' stOK 0 [] (devWrite mHost fn (fnTag fn) a data s).2.2
  have hrow : svcRow 0x0003 fn d h s = finish fn d' stOK 0 [] (devWrite mHost fn (fnTag fn) a data (logged l n e s1)).2.2 := by
    rw [svcRow_copy (w := true) hfn (.inl ⟨rfl, rfl⟩) rfl hs ht, copyStep, if_pos (by simpa using hlen), copyEnd]
    exact (if_pos hcmd).trans hrec
  have hdata : data.length = dLEN d' := read_length _ _ _
  have htag : fnTag fn < 18 := by unfold fnTag; split <;> omega
  have hwriting : Writing fn (logged l n e s1) (logged l n e s1) := ((serving_svcState hs).self.logged l n e).self.writing
  have hmem : (logged l n e s1).mem = s.mem := by
    show (svcState 0x0003 fn d h s).mem = s.mem
    rw [show svcState 0x0003 fn d h s = _ from svcFrame_svcState rfl]
  obtain ⟨m, p, hm, hget⟩ := writing_writePieces (master := mHost) (unit := fn) htag (dLEN d' / 64 + 2) (s1 := logged l n e s1) (a := a) (len := dLEN d')
    (bs := data)
    (size_svcState hs) (served_svcState rfl hs) (by rw [← hw]; exact congrArg Pwr.wiping (pwr_svcState rfl)) hdata (by omega)
    (fun x hx => reaches_of_tagHolds (w := true) (t := fnTag fn) (s := s1) ht hx) hwriting
  rw [hrow, devWrite, hdata]
  refine ⟨answered_of_regs (hm.serving.answered _ _ _ _) rfl, fun x => ?_⟩
  rw [devByte, (ringOnly_finish _ _ _ _).mem, show (writePieces mHost fn (fnTag fn) (linesOf a (dLEN d')) data (logged l n e s1)).2.2.mem = m from hm.mem,
    hget x, hmem]
  split
  · next hx => exact read_getD (by omega)
  · rfl

end CopyEnd

section CopyOut

variable {fn : Nat} {d : SvcDesc} {h : HostIn} {s : State}

theorem mem_svcState {code : Nat} {c : CmdRow} (hc : cmdRow code = some c) :
    (svcState code fn d h s).mem = s.mem ∧ (svcState code fn d h s).poison = s.poison := by
  rw [show svcState code fn d h s = _ from svcFrame_svcState hc]
  exact ⟨rfl, rfl⟩

/-- A longer transfer is in progress after its first 4 KiB, and no byte of the device has changed (R30, R401). -/
theorem svcRow_copyLong {code : Nat} {c : CmdRow} {w : Bool} (hfn : fn < 17) (hcode : code = 0x0003 ∧ w = true ∨ code = 0x0004 ∧ w = false)
    (hc : cmdRow code = some c) (hs : SvcStarts code fn d h s)
    (ht : tagHolds (fnTag fn) (dArg (rowDesc code d) 36 8) (dLEN (rowDesc code d)) (if w then rgtWrite else rgtRead) (svcState code fn d h s) = true)
    (hlen : 4096 < dLEN (rowDesc code d)) :
    (ring fn (svcRow code fn d h s)).busy = some (.copy (rowDesc code d) 4096) ∧ MemorySame s (svcRow code fn d h s) := by
  rw [svcRow_copy hfn hcode hc hs ht, copyStep, if_neg (by simpa using hlen), ring_updRing_same]
  exact ⟨rfl, SvcFrame.memorySame (SvcFrame.trans (svcFrame_svcState hc) (ringOnly_updRing _).svcFrame)⟩

/-- What a command wrote at an address apart from its answer is there when it has completed (R398). -/
theorem hostByte_of_apart {s1 x : State} {d : SvcDesc} {a len status flags : Nat} {res : List Byte} (hx : Serving fn s1 x) (hregs : x.regs = s1.regs)
    (hap : Apart fn a len d s1) {i : Nat} (hi : i < len) : hostByte (a + i) (finish fn d status flags res x) = hostByte (a + i) x := by
  obtain ⟨hslot, hres⟩ := hap
  have hrd (k : Nat) : rd k x = rd k s1 := rd_congr hregs k
  have hsame (m : Nat) : cplSlot fn m x = cplSlot fn m s1 := by simp only [cplSlot, rdAddr, ringSize, rdF, hrd]
  refine hx.hostByte d status flags res (by omega) ?_
  rw [hsame, hrd]
  omega

/-- The bytes of a range of sound words, as a read whose lines all reach gives them (R245). -/
theorem devRead_bytes {master unit t a len : Nat} {s : State} (hw : s.pwr.wiping = []) (hp : s.poison = [])
    (hr : ∀ x ∈ linesOf a len, reaches master unit t x.1 x.2 false s = true) :
    devRead master unit t a len s = (Memory.read s.mem a len, 0, false, s) := by
  have hread (b n : Nat) : memRead b n s = (List.range n).map (fun i => Memory.get (b + i) s.mem) := by simp [memRead, hp]
  have hbytes := congrArg (List.map (fun x => Memory.get x s.mem)) (linesOf_bytes a len)
  rw [devRead, readPieces_reach hw hp hr]
  simp only [Memory.read, hread]
  simp only [List.map_flatMap, List.map_map, Function.comp_def] at hbytes
  rw [← hbytes, List.flatMap_def]

/-- The end of a transfer to the host over sound words. -/
theorem copyEnd_out {d : SvcDesc} {s : State} {bs : List Byte} (hcmd : dCMD d ≠ 0x0003)
    (hr : devRead mHost fn (fnTag fn) (dArg d 36 8) (dLEN d) s = (bs, 0, false, s)) :
    copyEnd fn d s = recordLate fn d [] stOK (fun s => finish fn d stOK 0 [] (hostPut (dDATA d) (some bs) s)) s := by
  rw [copyEnd]
  exact (if_neg hcmd).trans (by rw [hr]; rfl)

/-- The device's bytes are at the host range of a short SVC_COPY_OUT when it completes (R401). -/
theorem svcRow_copyOut (hfn : fn < 17) (hs : SvcStarts 0x0004 fn d h s)
    (ht : tagHolds (fnTag fn) (dArg (rowDesc 0x0004 d) 36 8) (dLEN (rowDesc 0x0004 d)) rgtRead (svcState 0x0004 fn d h s) = true)
    (hlen : dLEN (rowDesc 0x0004 d) ≤ 4096) (hp : s.poison = []) (hw : s.pwr.wiping = [])
    (hap : Apart fn (dDATA (rowDesc 0x0004 d)) (dLEN (rowDesc 0x0004 d)) (rowDesc 0x0004 d) (svcState 0x0004 fn d h s)) :
    let d' := rowDesc 0x0004 d
    Answered fn d' stOK [] (svcState 0x0004 fn d h s) (svcRow 0x0004 fn d h s) ∧ MemorySame s (svcRow 0x0004 fn d h s) ∧
      ∀ i, i < dLEN d' → hostByte (dDATA d' + i) (svcRow 0x0004 fn d h s) = devByte (dArg d' 36 8 + i) s := by
  intro d'
  have hcmd : dCMD d' = 0x0004 := dCMD_rowDesc d (by decide)
  obtain ⟨hmem, hpoison⟩ := mem_svcState (fn := fn) (code := 0x0004) (d := d) (h := h) (s := s) rfl
  have hread := devRead_bytes (master := mHost) (unit := fn) (t := fnTag fn) (a := dArg d' 36 8) (len := dLEN d') (s := svcState 0x0004 fn d h s)
    (by rw [pwr_svcState rfl, hw]) (hpoison.trans hp) fun x hx => reaches_of_tagHolds (w := false) ht hx
  let bs := Memory.read (svcState 0x0004 fn d h s).mem (dArg d' 36 8) (dLEN d')
  obtain ⟨l, n, e, hrec⟩ := recordLate_of_starts rfl hs [] stOK fun s => finish fn d' stOK 0 [] (hostPut (dDATA d') (some bs) s)
  have hrow : svcRow 0x0004 fn d h s = finish fn d' stOK 0 [] (hostPut (dDATA d') (some bs) (logged l n e (svcState 0x0004 fn d h s))) := by
    rw [svcRow_copy (w := false) hfn (.inr ⟨rfl, rfl⟩) rfl hs ht, copyStep, if_pos (by simpa using hlen), copyEnd_out (by rw [hcmd]; decide) hread]
    exact hrec
  have hserving : Serving fn (svcState 0x0004 fn d h s) (hostPut (dDATA d') (some bs) (logged l n e (svcState 0x0004 fn d h s))) :=
    (serving_svcState hs).self.congr rfl fun _ _ => rfl
  have hframe : SvcFrame (svcState 0x0004 fn d h s) (hostPut (dDATA d') (some bs) (logged l n e (svcState 0x0004 fn d h s))) := rfl
  rw [hrow]
  refine ⟨hserving.answered _ _ _ _, ?_, fun i hi => ?_⟩
  · exact SvcFrame.memorySame (svcFrame_of_effect rfl hframe (ringOnly_finish _ _ _ _))
  · rw [hostByte_of_apart hserving rfl hap hi]
    have hb : i < bs.length := by rwa [read_length]
    refine (get_write_in bs _ hb).trans ?_
    simp [bs, Memory.read, hmem, devByte]

end CopyOut

/-! ### The steward's round (R30) -/

section Round

variable {fn : Nat} {s : State}

/-- The ring that has the step of the round, if one has work. -/
def roundStep (s : State) : State :=
  match (upTo 17).find? fun i => ringWork ((s.svc.turn + i) % 17) s with
  | none => s
  | some i => ringStep ((s.svc.turn + i) % 17) (turnPast ((s.svc.turn + i) % 17) s)

/-- A service step where no ring has an event to deliver or a descriptor to fetch. -/
theorem stewardServiceStep_eq (hrun : s.boot.fwRunning = true)
    (hidle : ∀ g, g < 17 → (ring g s).held = [] ∧ (ring g s).cmdTail = rd (ringBase g + oCMD_HEAD) s) :
    exec .stewardServiceStep s = .next (roundStep s) := by
  have hpump : eachDo pumpRing (upTo 17) s = s := eachDo_fixed fun g hg =>
    pumpRing_none (.inl (hidle g (List.mem_range.mp hg)).1) (hidle g (List.mem_range.mp hg)).2
  have hbody : serviceBody s = roundStep (eachDo pumpRing (upTo 17) s) := rfl
  show Host.Outcome.next (if s.boot.fwRunning then serviceBody s else s) = _
  rw [if_pos hrun, hbody, hpump]

/-- The ring whose turn it is has the step if it has work. -/
theorem stewardServiceStep_of_turn (hfn : fn < 17) (hrun : s.boot.fwRunning = true)
    (hidle : ∀ g, g < 17 → (ring g s).held = [] ∧ (ring g s).cmdTail = rd (ringBase g + oCMD_HEAD) s) (hturn : s.svc.turn = fn)
    (hwork : ringWork fn s = true) : exec .stewardServiceStep s = .next (ringStep fn (turnPast fn s)) := by
  have hmod : (s.svc.turn + 0) % 17 = fn := by omega
  have hfind : ((upTo 17).find? fun i => ringWork ((s.svc.turn + i) % 17) s) = some 0 := by
    rw [show upTo 17 = 0 :: (List.range 16).map (· + 1) from rfl, List.find?_cons_of_pos (by rw [hmod, hwork])]
  rw [stewardServiceStep_eq hrun hidle, roundStep, hfind]
  simp only [hmod]

/-- Where no ring has work, a service step changes nothing. -/
theorem stewardServiceStep_idle (hrun : s.boot.fwRunning = true)
    (hidle : ∀ g, g < 17 → (ring g s).held = [] ∧ (ring g s).cmdTail = rd (ringBase g + oCMD_HEAD) s)
    (hwork : ∀ g, g < 17 → ringWork g s = false) : exec .stewardServiceStep s = .next s := by
  have hfind : ((upTo 17).find? fun i => ringWork ((s.svc.turn + i) % 17) s) = none :=
    List.find?_eq_none.mpr fun i _ => by rw [hwork _ (Nat.mod_lt _ (by decide))]; decide
  rw [stewardServiceStep_eq hrun hidle, roundStep, hfind]

/-- The one descriptor a ring had fetched is in hand, in its turn. -/
def begun (fn : Nat) (s : State) : State :=
  updRing fn (fun r => { r with auth := (0xFF, []), busy := some .now }) (updRing fn (fun r => { r with fetched := [] }) (turnPast fn s))

theorem ringOnly_begun : RingOnly fn (turnPast fn s) (begun fn s) := (ringOnly_updRing _).trans (ringOnly_updRing _)

theorem serving_begun (hen : ringEn fn s = true) (hbm : (ring fn s).busMaster = true) (hfl : (ring fn s).flushing = false)
    (hheld : (ring fn s).held = []) (hct : (ring fn s).cmdTail = rd (ringBase fn + oCMD_HEAD) s) (hroom : cplRoom fn s = true) :
    Serving fn s (begun fn s) := by
  rw [begun, updRing_updRing]
  have hg : ring fn (updRing fn (fun r => { r with fetched := [], auth := (0xFF, []), busy := some .now }) (turnPast fn s)) =
      { ring fn s with fetched := [], auth := (0xFF, []), busy := some .now } :=
    ring_updRing_same (turnPast fn s) fn fun r => { r with fetched := [], auth := (0xFF, []), busy := some .now }
  have hr : cplRoom fn (updRing fn (fun r => { r with fetched := [], auth := (0xFF, []), busy := some .now }) (turnPast fn s)) = cplRoom fn s :=
    cplRoom_congr (by rw [hg]) rfl rfl
  exact {
    runs := by rw [hg]; exact ⟨hen, hbm, hfl⟩
    idle := by rw [hg]; exact ⟨rfl, hct⟩
    inHand := by rw [hg]; rfl
    room := hr.trans hroom
    base := rfl
    size := rfl
    count := rfl
    tail := ⟨0, by simp [wd]; rfl, Nat.zero_le _, .inl rfl⟩
    noEvent := .inl (by rw [hg]; exact hheld) }

end Round

/-- Settles O23: a transfer's plan, its bytes line by line, and the round's next ring. -/
theorem transfersMoveTheirBytes : Obligations.TransfersMoveTheirBytes := by
  unfold Obligations.TransfersMoveTheirBytes
  refine ⟨fun fn d h s hs => ⟨fun ht => ⟨_, rfl, ?_⟩, fun ht hlen hw => ⟨_, rfl, ?_⟩, fun ht hlen => ⟨_, rfl, ?_⟩⟩,
    fun fn d h s hs => ⟨fun ht => ⟨_, rfl, ?_⟩, fun ht hlen hp hw hap => ⟨_, rfl, ?_⟩⟩, fun fn s hrun hidle => ⟨fun hnone => ?_, ?_, ?_⟩⟩
  · exact svcRow_copyRefused (w := true) fn.isLt (.inl ⟨rfl, rfl⟩) rfl hs ht
  · exact svcRow_copyIn fn.isLt hs ht hlen hw
  · exact svcRow_copyLong (w := true) fn.isLt (.inl ⟨rfl, rfl⟩) rfl hs ht hlen
  · exact svcRow_copyRefused (w := false) fn.isLt (.inr ⟨rfl, rfl⟩) rfl hs ht
  · exact svcRow_copyOut fn.isLt hs ht hlen hp hw hap
  · exact stewardServiceStep_idle hrun hidle hnone
  · intro d k hturn hserved hbusy hlen
    have hstep : ringStep fn.val (turnPast fn.val s) =
        updRing fn.val (fun r => { r with busy := some (.copy d (k + 4096)) }) (turnPast fn.val s) := by
      rw [ringStep, show ring fn.val (turnPast fn.val s) = ring fn.val s from rfl, hbusy]
      exact if_neg (by simpa using hlen)
    refine ⟨_, stewardServiceStep_of_turn fn.isLt hrun hidle hturn (by simp [ringWork, hserved, hbusy]), ?_⟩
    rw [hstep, ring_updRing_same]
    exact ⟨rfl, rfl, fun _ => rfl, rfl⟩
  · intro d r hturn hserved hbusy hfetched hfl hwait hfn hpart hen hbm hroom hr
    subst hr
    obtain ⟨hheld, hct⟩ := hidle fn.val fn.isLt
    have hserving := serving_begun hen hbm hfl hheld hct hroom
    have hstep : ringStep fn.val (turnPast fn.val s) = finish fn.val d stNO_PARTITION 0 [] (begun fn.val s) := by
      rw [ringStep, show ring fn.val (turnPast fn.val s) = ring fn.val s from rfl, hbusy, hfetched]
      exact (serve_eq_serveFrom _ _ _ _ _).trans (serveFrom_unused _ _ hfn hpart)
    refine ⟨_, stewardServiceStep_of_turn fn.isLt hrun hidle hturn (by simp [ringWork, hserved, hbusy, hfetched, hfl, hwait]), ?_⟩
    rw [hstep]
    obtain ⟨m, flags, -, hc⟩ := finish_of_serving hserving d stNO_PARTITION 0 []
    obtain ⟨n, hrec⟩ := hc.record
    refine ⟨hserving.answered _ _ _ _, by rw [hrec]; exact hserving.idle.1, ?_⟩
    exact SvcFrame.memorySame (SvcFrame.trans (t := turnPast fn.val s) rfl (ringOnly_begun.trans (ringOnly_finish _ _ _ _)).svcFrame)

end Sys2Proof.Proofs
end

section
/-! Audit log, firmware slots and images (02_partitions_and_roles.md, R47; 03_configuration_image.md, R58, R62; 20_startup_and_faults.md, R451): what
their commands leave in the flash. -/

namespace Sys2Proof.Proofs

open Sys2Proof Sys2Proof.Machine Sys2Proof.Laws

section Commands

variable {fn code : Nat} {d : SvcDesc} {h : HostIn} {s s1 t x : State} {c : CmdRow}

/-! ### What an answered command wrote to the host -/

theorem read_of_apart {a status flags : Nat} {bs res : List Byte} (hx : Serving fn s1 x) (hregs : x.regs = s1.regs)
    (hap : Apart fn a bs.length d s1) (hb : ∃ m, x.host = Memory.write m a bs) :
    Memory.read (finish fn d status flags res x).host a bs.length = bs := by
  obtain ⟨m, hm⟩ := hb
  have hread := read_write a bs m
  rw [← hm] at hread
  conv_rhs => rw [← hread]
  exact List.map_congr_left fun i hi => hostByte_of_apart hx hregs hap (List.mem_range.mp hi)

/-- A command whose plan runs `f` on the state `r` with its record. -/
theorem svcRow_of_plan {pl : Plan} {r : State} (hfn : fn < 17) (hcode : code < 65536) (hc : cmdRow code = some c) (hs : SvcStarts code fn d h s)
    (hplan : planOf fn (rowDesc code d) (dataBytes (rowDesc code d) c (svcState code fn d h s)) (svcState code fn d h s) = pl)
    (hrec : recordPlan fn (rowDesc code d) (dataBytes (rowDesc code d) c (svcState code fn d h s)) pl (svcState code fn d h s) = r) :
    svcRow code fn d h s = pl.run r := by
  have haudit := flash_svcState (fn := fn) (d := d) (h := h) (s := s) hc ▸ hs.audit
  rw [svcRow_of_starts hfn hcode hc hs, hplan, carryOut_of_room haudit.1 haudit.2, hrec]

theorem svcRow_of_logged_plan {pl : Plan} (hfn : fn < 17) (hcode : code < 65536) (hc : cmdRow code = some c) (hs : SvcStarts code fn d h s)
    (hplan : planOf fn (rowDesc code d) (dataBytes (rowDesc code d) c (svcState code fn d h s)) (svcState code fn d h s) = pl) :
    ∃ l n e, svcRow code fn d h s = pl.run (logged l n e (svcState code fn d h s)) := by
  obtain ⟨l, n, e, hrec⟩ := recordPlan_of_starts (dataBytes (rowDesc code d) c (svcState code fn d h s)) pl hc hs
  exact ⟨l, n, e, svcRow_of_plan hfn hcode hc hs hplan hrec⟩

/-- The reads of the log and of an image are not recorded (R44). -/
theorem recorded_read (slot : Nat) (hc : code = 0x0110 ∨ code = 0x0204) : recorded slot code = false := by
  obtain rfl | rfl := hc <;> simp [recorded]

/-! ### The audit log (R47) -/

/-- Records that a command reads from the log (R47). -/
def readRecords (fn : Nat) (d : SvcDesc) (s1 s : State) : List (List Byte) :=
  (s.flash.audit.filter fun r => decide (dArg d 36 4 ≤ recSeq r) && mayRead fn (ring fn s1).auth.1 r).take (dArg d 40 4)

/-- R47: the readable records from a number on. -/
theorem svcRow_auditRead (hfn : fn < 17) (hs : SvcStarts 0x0110 fn d h s) (hs1 : svcState 0x0110 fn d h s = s1) {rs : List (List Byte)}
    (hrs : readRecords fn (rowDesc 0x0110 d) s1 s = rs) (hap : Apart fn (dDATA (rowDesc 0x0110 d)) rs.flatten.length (rowDesc 0x0110 d) s1) :
    let t := svcRow 0x0110 fn d h s
    Answered fn (rowDesc 0x0110 d) stOK (natLE 4 rs.length) s1 t ∧ SvcFrame s t ∧ t.flash = s.flash ∧
      Memory.read t.host (dDATA (rowDesc 0x0110 d)) rs.flatten.length = rs.flatten := by
  intro t
  subst hs1
  have hcmd : dCMD (rowDesc 0x0110 d) = 0x0110 := dCMD_rowDesc d (by decide)
  have hflash := flash_svcState (fn := fn) (d := d) (h := h) (s := s) (code := 0x0110) rfl
  have hrow : t = finish fn (rowDesc 0x0110 d) stOK 0 (natLE 4 rs.length) (hostPut (dDATA (rowDesc 0x0110 d)) (some rs.flatten) (svcState 0x0110 fn d h s)) := by
    rw [show t = _ from svcRow_of_plan hfn (by decide) rfl hs (by simp only [planOf, planLow, hcmd]; rfl)
      (recordPlan_unrecorded _ _ (by rw [hcmd]; exact recorded_read _ (.inl rfl))), ← hrs, readRecords, ← hflash]
    rfl
  have hserving : Serving fn (svcState 0x0110 fn d h s) (hostPut (dDATA (rowDesc 0x0110 d)) (some rs.flatten) (svcState 0x0110 fn d h s)) :=
    (serving_svcState hs).self.congr rfl fun _ _ => rfl
  rw [hrow]
  exact ⟨hserving.answered _ _ _ _, svcFrame_of_effect (x := hostPut _ (some rs.flatten) (svcState 0x0110 fn d h s)) rfl rfl (ringOnly_finish _ _ _ _),
    (ringOnly_finish _ _ _ _).flash.trans hflash, read_of_apart hserving rfl hap ⟨_, rfl⟩⟩

/-- The segment handed over at an address, and marked as exported (R47). -/
def exportTo (a : Nat) (s : State) : State :=
  { s with host := Memory.write s.host a (auditSegment s.flash), flash := { s.flash with auditExported := true } }

theorem planAuditExport_run (fn : Nat) (d : SvcDesc) (s : State) :
    (planAuditExport fn d).run s = finish fn d stOK 0 (natLE 4 s.flash.segNo) (exportTo (dDATA d) s) := rfl

/-- R47: the whole segment, marked exported. -/
theorem svcRow_auditExport (hfn : fn < 17) (hs : SvcStarts 0x0111 fn d h s)
    (hap : Apart fn (dDATA (rowDesc 0x0111 d)) 65536 (rowDesc 0x0111 d) (svcState 0x0111 fn d h s)) :
    let t := svcRow 0x0111 fn d h s
    Answered fn (rowDesc 0x0111 d) stOK (natLE 4 s.flash.segNo) (svcState 0x0111 fn d h s) t ∧ SvcFrame s t ∧ FlashSame s t ∧ t.flash.auditExported = true ∧
      Memory.read t.host (dDATA (rowDesc 0x0111 d)) 65536 = auditSegment t.flash := by
  have hcmd : dCMD (rowDesc 0x0111 d) = 0x0111 := dCMD_rowDesc d (by decide)
  have hflash := flash_svcState (fn := fn) (d := d) (h := h) (s := s) (code := 0x0111) rfl
  obtain ⟨l, n, e, hrow⟩ := svcRow_of_logged_plan hfn (by decide) rfl hs (pl := planAuditExport fn (rowDesc 0x0111 d))
      (by simp only [planOf, planLow, hcmd]; rfl)
  have hserving : Serving fn (svcState 0x0111 fn d h s) (exportTo (dDATA (rowDesc 0x0111 d)) (logged l n e (svcState 0x0111 fn d h s))) :=
    (serving_svcState hs).self.congr rfl fun _ _ => rfl
  have heffect : SvcFrame (svcState 0x0111 fn d h s) (exportTo (dDATA (rowDesc 0x0111 d)) (logged l n e (svcState 0x0111 fn d h s))) := rfl
  have hlen : (auditSegment (logged l n e (svcState 0x0111 fn d h s)).flash).length = 65536 := padTo_length _ _
  have hring := ringOnly_finish (fn := fn) (s := exportTo (dDATA (rowDesc 0x0111 d)) (logged l n e (svcState 0x0111 fn d h s))) (rowDesc 0x0111 d) stOK 0
    (natLE 4 s.flash.segNo)
  have hread := read_of_apart (status := stOK) (flags := 0) (res := natLE 4 s.flash.segNo) hserving rfl (hlen.symm ▸ hap) ⟨_, rfl⟩
  rw [hlen] at hread
  rw [planAuditExport_run, show (logged l n e (svcState 0x0111 fn d h s)).flash.segNo = s.flash.segNo by rw [← hflash]; rfl] at hrow
  rw [hrow]
  refine ⟨hserving.answered _ _ _ _, svcFrame_of_effect rfl heffect hring, ?_, ?_, ?_⟩
  · rw [FlashSame, hring.flash, ← hflash]
    rfl
  · rw [hring.flash]
    rfl
  · rw [hring.flash]
    exact hread

/-- A command's answer to its effect `x`: what is written, what stays, what the flash holds. -/
theorem answered_effect {status flags : Nat} {res : List Byte} (hc : cmdRow code = some c)
    (hrow : svcRow code fn d h s = finish fn (rowDesc code d) status flags res x)
    (hx : Serving fn (svcState code fn d h s) x) (he : SvcFrame (svcState code fn d h s) x) :
    Answered fn (rowDesc code d) status res (svcState code fn d h s) (svcRow code fn d h s) ∧ SvcFrame s (svcRow code fn d h s) ∧
      (svcRow code fn d h s).flash = x.flash := by
  have hring := ringOnly_finish (fn := fn) (s := x) (rowDesc code d) status flags res
  rw [hrow]
  exact ⟨hx.answered _ _ _ _, svcFrame_of_effect hc he hring, hring.flash⟩

/-- A refused command leaves the flash but for its record (R44). -/
theorem svcRow_refused_flash {status : Nat} {res : List Byte} (hfn : fn < 17) (hcode : code < 65536) (hc : cmdRow code = some c)
    (hs : SvcStarts code fn d h s)
    (hplan : planOf fn (rowDesc code d) (dataBytes (rowDesc code d) c (svcState code fn d h s)) (svcState code fn d h s) =
      refuse fn (rowDesc code d) status res) :
    Answered fn (rowDesc code d) status res (svcState code fn d h s) (svcRow code fn d h s) ∧ SvcFrame s (svcRow code fn d h s) ∧
      FlashSame s (svcRow code fn d h s) := by
  obtain ⟨hans, l, n, e, hring⟩ := svcRow_refused hfn hcode hc hs hplan
  refine ⟨hans, svcFrame_of_logged hc hring, ?_⟩
  rw [FlashSame, hring.flash, ← flash_svcState (d := d) (h := h) (fn := fn) (s := s) hc]
  rfl

/-- A new segment, chained to the last, with records `l` (R47). -/
def resealed (l : List (List Byte)) (n : Nat) (e : Bool) (s : State) : State :=
  { s with flash := { s.flash with segPrev := auditPrev s.flash, segNo := s.flash.segNo + 1, audit := l, auditSeq := n, auditRO := false,
                                   auditExported := e, auditLost := 0 } }

/-- R47: a sealed log opens with the seal's record, and with AUDIT_LOST where a count stood. -/
theorem sealLog_eq (fn : Nat) (d : SvcDesc) (s : State) : ∃ l n e, l.length ≤ 2 ∧ sealLog fn d s = resealed l n e s := by
  unfold sealLog
  extract_lets f s2 s3
  obtain ⟨r, hr⟩ : ∃ r, s3 = logged [r] (f.auditSeq + 1) false s2 :=
    recordCmd_eq (s := s2) fn d [] stOK rfl (show (0 : Nat) ≠ 649 by decide)
  clear_value s3
  subst hr
  split
  · next h0 =>
    refine ⟨[r], f.auditSeq + 1, false, by simp, ?_⟩
    have hl : s.flash.auditLost = 0 := h0
    simp only [resealed, ← hl]
    rfl
  · obtain ⟨r', hr'⟩ := auditPut_eq
      (s := { logged [r] (f.auditSeq + 1) false s2 with flash := { (logged [r] (f.auditSeq + 1) false s2).flash with auditLost := 0 } })
      0xE002 0 0xFF 0xFF 0xFF [] (natLE 8 (logged [r] (f.auditSeq + 1) false s2).flash.auditLost) (by simp [logged])
    exact ⟨[r, r'], _, false, by simp, hr'⟩

/-- R47: the seal of an exported segment opens the next. -/
theorem svcRow_seal (hfn : fn < 17) (hs : SvcStarts 0x0112 fn d h s) (hexp : s.flash.auditExported = true) :
    let t := svcRow 0x0112 fn d h s
    Answered fn (rowDesc 0x0112 d) stOK (natLE 4 (s.flash.segNo + 1)) (svcState 0x0112 fn d h s) t ∧ SvcFrame s t ∧
      t.flash.segNo = s.flash.segNo + 1 ∧ t.flash.segPrev = auditPrev s.flash ∧ t.flash.auditLost = 0 ∧ t.flash.audit.length ≤ 2 := by
  have hcmd : dCMD (rowDesc 0x0112 d) = 0x0112 := dCMD_rowDesc d (by decide)
  have hflash := flash_svcState (fn := fn) (d := d) (h := h) (s := s) (code := 0x0112) rfl
  obtain ⟨l, n, e, hl, hseal⟩ := sealLog_eq fn (rowDesc 0x0112 d) (svcState 0x0112 fn d h s)
  let pl : Plan := { status := stOK, logged := false, run := fun s => let s := sealLog fn (rowDesc 0x0112 d) s; finish fn (rowDesc 0x0112 d) stOK 0 (natLE 4 s.flash.segNo) s }
  have hplan : planAuditSeal fn (rowDesc 0x0112 d) (svcState 0x0112 fn d h s) = pl := if_neg (by rw [hflash]; simp [hexp])
  have hrow : svcRow 0x0112 fn d h s = finish fn (rowDesc 0x0112 d) stOK 0 (natLE 4 (s.flash.segNo + 1)) (resealed l n e (svcState 0x0112 fn d h s)) := by
    rw [svcRow_of_plan (pl := pl) hfn (by decide) rfl hs (by simp only [planOf, planLow, hcmd]; exact hplan) rfl]
    show finish fn _ stOK 0 (natLE 4 (sealLog fn (rowDesc 0x0112 d) (svcState 0x0112 fn d h s)).flash.segNo) (sealLog fn (rowDesc 0x0112 d) (svcState 0x0112 fn d h s)) = _
    rw [hseal, ← hflash]
    rfl
  obtain ⟨hans, hframe, hfl⟩ := answered_effect rfl hrow ((serving_svcState hs).self.congr rfl fun _ _ => rfl) rfl
  refine ⟨hans, hframe, ?_⟩
  rw [hfl, ← hflash]
  exact ⟨rfl, rfl, rfl, hl⟩

/-! ### Firmware (R451) -/

theorem dataBytes_eq_dataOf {d : SvcDesc} (hc : c.data = .read) (s : State) : dataBytes d c s = dataOf d s := by
  by_cases hl : dLEN d = 0 <;> simp [dataBytes, dataIn, dataOf, hc, hl]

theorem fwGood_svcState (data : List Byte) (hc : cmdRow code = some c) : fwGood data (svcState code fn d h s) = fwGood data s := by
  have hfuses : (svcState code fn d h s).fuses = s.fuses := by
    rw [show svcState code fn d h s = _ from svcFrame_svcState hc]
  simp only [fwGood, keyOf, flash_svcState hc, hfuses]

/-- The active slot stays where the inactive one is written (R451). -/
theorem fwSlot_putFw (bs : Option (List Byte)) (pend : Bool) (s : State) :
    fwSlot (!s.flash.fwActiveB) (putFw bs pend s) = bs ∧ fwSlot s.flash.fwActiveB (putFw bs pend s) = fwSlot s.flash.fwActiveB s := by
  cases hb : s.flash.fwActiveB <;> simp [fwSlot, putFw, hb]

/-- A command goes on at its ring's next turn, with `b` in hand. -/
def goesOn (fn : Nat) (b : Busy) (s : State) : State := updRing fn (fun r => { r with busy := some b }) s

theorem busy_goesOn (b : Busy) (s : State) : (ring fn (goesOn fn b s)).busy = some b := by
  rw [goesOn, ring_updRing_same]

/-- A command that begins: what stays, what the flash holds, what its ring has in hand. -/
theorem goesOn_effect {b : Busy} (hc : cmdRow code = some c) (hrow : svcRow code fn d h s = goesOn fn b x) (he : SvcFrame (svcState code fn d h s) x) :
    SvcFrame s (svcRow code fn d h s) ∧ (svcRow code fn d h s).flash = x.flash ∧ (ring fn (svcRow code fn d h s)).busy = some b := by
  rw [hrow]
  exact ⟨svcFrame_of_effect hc he (ringOnly_updRing _), rfl, busy_goesOn b x⟩

theorem planFwUpdate_good {data : List Byte} (hg : fwGood data s = true) :
    planFwUpdate fn d data s = begins fun s => goesOn fn (.fwWrite d data) (putFw none false s) := if_pos hg

/-- R451: good firmware empties the inactive slot, to be written at the command's next service step. -/
theorem svcRow_fwGood {data : List Byte} (hfn : fn < 17) (hs : SvcStarts 0x0105 fn d h s)
    (hdata : dataOf (rowDesc 0x0105 d) (svcState 0x0105 fn d h s) = data) (hgood : fwGood data s = true) :
    let t := svcRow 0x0105 fn d h s
    t.flash.fwPending = none ∧ SvcFrame s t ∧ fwSlot (!s.flash.fwActiveB) t = none ∧ fwSlot s.flash.fwActiveB t = fwSlot s.flash.fwActiveB s ∧
      (ring fn t).busy = some (.fwWrite (rowDesc 0x0105 d) data) := by
  intro t
  have hcmd : dCMD (rowDesc 0x0105 d) = 0x0105 := dCMD_rowDesc d (by decide)
  have hflash := flash_svcState (fn := fn) (d := d) (h := h) (s := s) (code := 0x0105) rfl
  have hplan := planFwUpdate_good (fn := fn) (d := rowDesc 0x0105 d) (s := svcState 0x0105 fn d h s) ((fwGood_svcState data rfl).trans hgood)
  obtain ⟨l, n, e, hrow⟩ := svcRow_of_logged_plan (pl := begins fun s => goesOn fn (.fwWrite (rowDesc 0x0105 d) data) (putFw none false s))
    hfn (by decide) rfl hs (by simp only [planOf, planLow, hcmd]; rw [dataBytes_eq_dataOf rfl, hdata]; exact hplan)
  obtain ⟨hframe, hfl, hbusy⟩ := goesOn_effect (x := putFw none false (logged l n e (svcState 0x0105 fn d h s))) rfl hrow rfl
  have hslots := fwSlot_putFw none false (logged l n e (svcState 0x0105 fn d h s))
  have hslot (b : Bool) : fwSlot b t = fwSlot b (putFw none false (logged l n e (svcState 0x0105 fn d h s))) := by simp only [fwSlot, t, hfl]
  have hactive : (logged l n e (svcState 0x0105 fn d h s)).flash.fwActiveB = s.flash.fwActiveB := by rw [← hflash]; rfl
  have hwas : fwSlot s.flash.fwActiveB (logged l n e (svcState 0x0105 fn d h s)) = fwSlot s.flash.fwActiveB s := by
    simp only [fwSlot, ← hflash]
    rfl
  rw [hactive] at hslots
  exact ⟨by rw [hfl]; rfl, hframe, (hslot _).trans hslots.1, (hslot _).trans (hslots.2.trans hwas), hbusy⟩

/-- Firmware that fails verification stands in its slot, pending no start; its status is another than ST_OK (R451). -/
theorem svcRow_fwBad {data : List Byte} (hfn : fn < 17) (hs : SvcStarts 0x0105 fn d h s)
    (hdata : dataOf (rowDesc 0x0105 d) (svcState 0x0105 fn d h s) = data) (hbad : fwGood data s = false) :
    let t := svcRow 0x0105 fn d h s
    (∃ st, 0 < st ∧ st < 65536 ∧ Answered fn (rowDesc 0x0105 d) st [] (svcState 0x0105 fn d h s) t) ∧
      SvcFrame s t ∧ t.flash.fwPending = none ∧ fwSlot s.flash.fwActiveB t = fwSlot s.flash.fwActiveB s := by
  intro t
  have hcmd : dCMD (rowDesc 0x0105 d) = 0x0105 := dCMD_rowDesc d (by decide)
  have hflash := flash_svcState (fn := fn) (d := d) (h := h) (s := s) (code := 0x0105) rfl
  let st := 1 + (Config.freeWord (svcState 0x0105 fn d h s).fresh).toNat % 65535
  have hplan : planFwUpdate fn (rowDesc 0x0105 d) data (svcState 0x0105 fn d h s) =
      { status := st, logged := true, run := fun s => finish fn (rowDesc 0x0105 d) st 0 [] (draw 1 (putFw (some data) false s)) } :=
    if_neg (by rw [fwGood_svcState data rfl, hbad]; decide)
  obtain ⟨l, n, e, hrow⟩ := svcRow_of_logged_plan hfn (by decide) rfl hs
    (pl := { status := st, logged := true, run := fun s => finish fn (rowDesc 0x0105 d) st 0 [] (draw 1 (putFw (some data) false s)) })
    (by simp only [planOf, planLow, hcmd]; rw [dataBytes_eq_dataOf rfl, hdata]; exact hplan)
  obtain ⟨hans, hframe, hfl⟩ := answered_effect (x := draw 1 (putFw (some data) false (logged l n e (svcState 0x0105 fn d h s)))) rfl hrow
    ((serving_svcState hs).self.congr rfl fun _ _ => rfl) rfl
  have hslots := (fwSlot_putFw (some data) false (logged l n e (svcState 0x0105 fn d h s))).2
  have hactive : (logged l n e (svcState 0x0105 fn d h s)).flash.fwActiveB = s.flash.fwActiveB := by rw [← hflash]; rfl
  have hwas : fwSlot s.flash.fwActiveB (logged l n e (svcState 0x0105 fn d h s)) = fwSlot s.flash.fwActiveB s := by
    simp only [fwSlot, ← hflash]
    rfl
  have hslot : fwSlot s.flash.fwActiveB t = fwSlot s.flash.fwActiveB (putFw (some data) false (logged l n e (svcState 0x0105 fn d h s))) := by
    simp only [fwSlot, t, hfl]
    rfl
  rw [hactive] at hslots
  exact ⟨⟨st, by omega, by omega, hans⟩, hframe, by rw [hfl]; rfl, hslot.trans (hslots.trans hwas)⟩

/-! ### Images (R58, R62) -/

/-- The staged slot emptied (R58). -/
def unstaged (s : State) : State := { s with flash := { s.flash with imgStaged := none } }

/-- A number other than the last (R58). -/
theorem stageNo_ne (w : Word) (x : Nat) : w + 1 + wd (x % (2 ^ 32 - 1)) ≠ w := by
  intro h
  have hmod : x % (2 ^ 32 - 1) < 2 ^ 32 - 1 := Nat.mod_lt _ (by decide)
  generalize x % (2 ^ 32 - 1) = y at *
  simp only [wd] at h
  bv_omega

/-- R58: an image that passes checks 1 to 9 leaves the staged slot empty, to be written under a new number. -/
theorem svcRow_imageLoad {data : List Byte} {new : List Sec} (hfn : fn < 17) (hs : SvcStarts 0x0201 fn d h s)
    (hdata : dataOf (rowDesc 0x0201 d) (svcState 0x0201 fn d h s) = data) (hok : imgCheck 9 data (svcState 0x0201 fn d h s) = .inr new) :
    let t := svcRow 0x0201 fn d h s
    t.flash.imgStaged = none ∧ t.flash.stageNo = s.flash.stageNo ∧ t.flash.imgActive = s.flash.imgActive ∧ SvcFrame s t ∧
      ∃ no, no ≠ s.flash.stageNo ∧ (ring fn t).busy = some (.staging (rowDesc 0x0201 d) data no) := by
  intro t
  have hcmd : dCMD (rowDesc 0x0201 d) = 0x0201 := dCMD_rowDesc d (by decide)
  have hflash := flash_svcState (fn := fn) (d := d) (h := h) (s := s) (code := 0x0201) rfl
  let no := (svcState 0x0201 fn d h s).flash.stageNo + 1 + wd ((Config.freeWord (svcState 0x0201 fn d h s).fresh).toNat % (2 ^ 32 - 1))
  have hplan : planImageLoad fn (rowDesc 0x0201 d) data (svcState 0x0201 fn d h s) =
      begins fun s => draw 1 (goesOn fn (.staging (rowDesc 0x0201 d) data no) (unstaged s)) := by
    rw [planImageLoad, hok]
    rfl
  obtain ⟨l, n, e, hrow⟩ := svcRow_of_logged_plan hfn (by decide) rfl hs
    (pl := begins fun s => draw 1 (goesOn fn (.staging (rowDesc 0x0201 d) data no) (unstaged s)))
    (by simp only [planOf, planLow, hcmd]; rw [dataBytes_eq_dataOf rfl, hdata]; exact hplan)
  obtain ⟨hframe, hfl, hbusy⟩ := goesOn_effect (x := draw 1 (unstaged (logged l n e (svcState 0x0201 fn d h s)))) rfl hrow rfl
  rw [hfl, ← hflash]
  exact ⟨rfl, rfl, rfl, hframe, no, stageNo_ne _ _, hbusy⟩

/-- R58: an image that fails is refused with the check that fails. -/
theorem svcRow_imageLoad_bad {data : List Byte} {e : ImgBad} (hfn : fn < 17) (hs : SvcStarts 0x0201 fn d h s)
    (hdata : dataOf (rowDesc 0x0201 d) (svcState 0x0201 fn d h s) = data) (hbad : imgCheck 9 data (svcState 0x0201 fn d h s) = .inl e) :
    Answered fn (rowDesc 0x0201 d) e.status (imgResult e) (svcState 0x0201 fn d h s) (svcRow 0x0201 fn d h s) ∧ SvcFrame s (svcRow 0x0201 fn d h s) ∧
      FlashSame s (svcRow 0x0201 fn d h s) := by
  have hcmd : dCMD (rowDesc 0x0201 d) = 0x0201 := dCMD_rowDesc d (by decide)
  have hplan : planImageLoad fn (rowDesc 0x0201 d) data (svcState 0x0201 fn d h s) = refuse fn (rowDesc 0x0201 d) e.status (imgResult e) := by
    rw [planImageLoad, hbad]
  exact svcRow_refused_flash hfn (by decide) rfl hs
    (by simp only [planOf, planLow, hcmd]; rw [dataBytes_eq_dataOf rfl, hdata]; exact hplan)

/-- R58: a discard empties the staged slot. -/
theorem svcRow_discard (hfn : fn < 17) (hs : SvcStarts 0x0203 fn d h s) :
    let t := svcRow 0x0203 fn d h s
    t.flash.imgStaged = none ∧ t.flash.imgActive = s.flash.imgActive ∧ SvcFrame s t ∧
      Answered fn (rowDesc 0x0203 d) stOK [] (svcState 0x0203 fn d h s) t := by
  intro t
  have hcmd : dCMD (rowDesc 0x0203 d) = 0x0203 := dCMD_rowDesc d (by decide)
  have hflash := flash_svcState (fn := fn) (d := d) (h := h) (s := s) (code := 0x0203) rfl
  obtain ⟨l, n, e, hrow⟩ := svcRow_of_logged_plan (pl := planImageDiscard fn (rowDesc 0x0203 d)) hfn (by decide) rfl hs
    (by simp only [planOf, planLow, hcmd]; rfl)
  obtain ⟨hans, hframe, hfl⟩ := answered_effect (x := unstaged (logged l n e (svcState 0x0203 fn d h s))) rfl hrow
    ((serving_svcState hs).self.congr rfl fun _ _ => rfl) rfl
  rw [hfl, ← hflash]
  exact ⟨rfl, rfl, hframe, hans⟩

/-- R58: an image is handed over. -/
theorem svcRow_imageRead {b : List Byte} (hfn : fn < 17) (hs : SvcStarts 0x0204 fn d h s)
    (hb : (if dArg (rowDesc 0x0204 d) 36 1 = 0 then s.flash.imgActive else s.flash.imgStaged).getD [] = b)
    (hap : Apart fn (dDATA (rowDesc 0x0204 d)) b.length (rowDesc 0x0204 d) (svcState 0x0204 fn d h s)) :
    let t := svcRow 0x0204 fn d h s
    SvcFrame s t ∧ t.flash = s.flash ∧ Answered fn (rowDesc 0x0204 d) stOK (natLE 4 b.length) (svcState 0x0204 fn d h s) t ∧
      Memory.read t.host (dDATA (rowDesc 0x0204 d)) b.length = b := by
  intro t
  have hcmd : dCMD (rowDesc 0x0204 d) = 0x0204 := dCMD_rowDesc d (by decide)
  have hflash := flash_svcState (fn := fn) (d := d) (h := h) (s := s) (code := 0x0204) rfl
  have hrow : svcRow 0x0204 fn d h s =
      finish fn (rowDesc 0x0204 d) stOK 0 (natLE 4 b.length) (hostPut (dDATA (rowDesc 0x0204 d)) (some b) (svcState 0x0204 fn d h s)) := by
    rw [svcRow_of_plan (pl := planImageRead fn (rowDesc 0x0204 d) (svcState 0x0204 fn d h s)) hfn (by decide) rfl hs
      (by simp only [planOf, planLow, hcmd]; rfl) (recordPlan_unrecorded _ _ (by rw [hcmd]; exact recorded_read _ (.inr rfl))), planImageRead, hflash]
    simp only [hb]
    rfl
  have hserving : Serving fn (svcState 0x0204 fn d h s) (hostPut (dDATA (rowDesc 0x0204 d)) (some b) (svcState 0x0204 fn d h s)) :=
    (serving_svcState hs).self.congr rfl fun _ _ => rfl
  obtain ⟨hans, hframe, hfl⟩ := answered_effect rfl hrow hserving rfl
  refine ⟨hframe, hfl.trans hflash, hans, ?_⟩
  rw [show t = _ from hrow]
  exact read_of_apart hserving rfl hap ⟨_, rfl⟩

/-- R62: a commit that passes makes the staged image the active one; the command's next service step brings it into force. -/
theorem svcRow_commit {b : List Byte} {new : List Sec} (hfn : fn < 17) (hs : SvcStarts 0x0202 fn d h s)
    (hok : commitCheck (wd (dArg (rowDesc 0x0202 d) 36 4)) (svcState 0x0202 fn d h s) = .inr (b, new)) :
    let t := svcRow 0x0202 fn d h s
    t.flash.imgActive = some b ∧ t.flash.imgStaged = none ∧ t.flash.committing = true ∧ SvcFrame s t ∧
      (ring fn t).busy = some (.applying (rowDesc 0x0202 d)) := by
  intro t
  have hcmd : dCMD (rowDesc 0x0202 d) = 0x0202 := dCMD_rowDesc d (by decide)
  have hplan : planImageCommit fn (rowDesc 0x0202 d) (svcState 0x0202 fn d h s) =
      begins fun s => goesOn fn (.applying (rowDesc 0x0202 d)) (commitRecord b s) := by
    rw [planImageCommit, hok]
    rfl
  obtain ⟨l, n, e, hrow⟩ := svcRow_of_logged_plan
    (pl := begins fun s => goesOn fn (.applying (rowDesc 0x0202 d)) (commitRecord b s)) hfn (by decide) rfl hs
    (by simp only [planOf, planLow, hcmd]; exact hplan)
  obtain ⟨hframe, hfl, hbusy⟩ := goesOn_effect (x := commitRecord b (logged l n e (svcState 0x0202 fn d h s))) rfl hrow rfl
  rw [hfl]
  exact ⟨rfl, rfl, rfl, hframe, hbusy⟩

/-- R60: a commit that fails a check is refused with it. -/
theorem svcRow_commit_bad {e : ImgBad} (hfn : fn < 17) (hs : SvcStarts 0x0202 fn d h s)
    (hbad : commitCheck (wd (dArg (rowDesc 0x0202 d) 36 4)) (svcState 0x0202 fn d h s) = .inl e) :
    Answered fn (rowDesc 0x0202 d) e.status (imgResult e) (svcState 0x0202 fn d h s) (svcRow 0x0202 fn d h s) ∧ SvcFrame s (svcRow 0x0202 fn d h s) ∧
      FlashSame s (svcRow 0x0202 fn d h s) := by
  have hcmd : dCMD (rowDesc 0x0202 d) = 0x0202 := dCMD_rowDesc d (by decide)
  have hplan : planImageCommit fn (rowDesc 0x0202 d) (svcState 0x0202 fn d h s) = refuse fn (rowDesc 0x0202 d) e.status (imgResult e) := by
    rw [planImageCommit, hbad]
  exact svcRow_refused_flash hfn (by decide) rfl hs (by simp only [planOf, planLow, hcmd]; exact hplan)

end Commands

end Sys2Proof.Proofs
end

section
/-! Resets of the bus (17_host_interface.md, R390; 02_partitions_and_roles.md, R35, R42): which rings stop, what stays. -/

namespace Sys2Proof.Proofs

open Sys2Proof Sys2Proof.Machine Sys2Proof.Laws

/-! ### What a flush or a reset of one function may change -/

/-- The registers that a flush may write: those of the ring, MORNING of PWR_STAT, the calibration's. -/
def flushReg (fn k : Nat) : Bool := ringKey fn k || decide (k = kPWR_STAT) || (decide (codecBase ≤ k) && decide (k < codecBase + 0x500))

/-- A flush of ring `fn` writes its registers, its record, host memory and interrupts. -/
structure FlushFrame (fn : Nat) (s t : State) : Prop where
  rest : t = { s with regs := t.regs, rings := t.rings, host := t.host, out := t.out }
  others : ∀ g, g ≠ fn → ring g t = ring g s
  registers : RegsSameBut (flushReg fn) s t

/-- A reset of function `fn` leaves the other rings with their registers, and every state but registers, rings, host memory, interrupts, faults,
flash, the steward's state and the time latches; it never opens the expert unlock. -/
structure BusFrame (fn : Nat) (s t : State) : Prop where
  rest : t = { s with regs := t.regs, force := t.force, cnt := t.cnt, rings := t.rings, host := t.host, out := t.out, faults := t.faults,
                      flash := t.flash, svc := t.svc, time := t.time }
  others : ∀ g, g ≠ fn → ring g t = ring g s
  registers : ∀ g, g ≠ fn → ∀ o, o < 0x68 → rd (ringBase g + o) t = rd (ringBase g + o) s
  locked : expert s = false → expert t = false

section Frame

variable {fn : Nat} {s t u : State}

theorem FlushFrame.trans (h : FlushFrame fn s t) (h' : FlushFrame fn t u) : FlushFrame fn s u where
  rest := by rw [h'.rest, h.rest]
  others := fun g hg => (h'.others g hg).trans (h.others g hg)
  registers := fun k hk => (h'.registers k hk).trans (h.registers k hk)

theorem RingOnly.flushFrame (h : RingOnly fn s t) : FlushFrame fn s t :=
  ⟨h.rest, h.others, fun k hk => h.registers k (by simp only [flushReg, Bool.or_eq_false_iff] at hk; exact hk.1.1)⟩

theorem flushFrame_refl : FlushFrame fn s s := ringOnly_refl.flushFrame

theorem flushFrame_wr {k : Nat} (v : Word) (h : flushReg fn k = true) : FlushFrame fn s (wr k v s) where
  rest := rfl
  others := fun _ _ => rfl
  registers := fun j hj => rd_wr_ne s v (by rintro rfl; simp_all)

theorem flushReg_codec {k : Nat} (h : codecBase ≤ k) (h' : k < codecBase + 0x500) : flushReg fn k = true := by simp [flushReg, h, h']

theorem flushFrame_calAbort : FlushFrame fn s (calAbort s) := by
  unfold calAbort
  split
  · have hlt : rdF kCAL 3 0 s < 16 := Nat.mod_lt _ (by decide)
    exact (flushFrame_wr _ (flushReg_codec (by decide) (by decide))).trans
      (flushFrame_wr _ (flushReg_codec (by unfold cdsBase; omega) (by unfold cdsBase; omega)))
  · exact flushFrame_refl

theorem busFrame_refl : BusFrame fn s s := ⟨rfl, fun _ _ => rfl, fun _ _ _ _ => rfl, id⟩

theorem BusFrame.trans (h : BusFrame fn s t) (h' : BusFrame fn t u) : BusFrame fn s u where
  rest := by rw [h'.rest, h.rest]
  others := fun g hg => (h'.others g hg).trans (h.others g hg)
  registers := fun g hg o ho => (h'.registers g hg o ho).trans (h.registers g hg o ho)
  locked := h'.locked ∘ h.locked

theorem flushReg_other {g o : Nat} (hg : g ≠ fn) (ho : o < 0x68) : flushReg fn (ringBase g + o) = false := by
  have hbase : ringBase g < 0x20000 ∨ 0x1000000 ≤ ringBase g := by
    unfold ringBase
    split <;> omega
  simp only [flushReg, ringKey_other hg ho, kPWR_STAT, codecBase, Bool.false_or, Bool.or_eq_false_iff, decide_eq_false_iff_not, Bool.and_eq_false_iff]
  omega

theorem FlushFrame.busFrame (h : FlushFrame fn s t) : BusFrame fn s t where
  rest := by rw [h.rest]
  others := h.others
  registers := fun _ hg _ ho => h.registers _ (flushReg_other hg ho)
  locked := fun he => by rw [h.rest]; exact he

theorem RingOnly.busFrame (h : RingOnly fn s t) : BusFrame fn s t := h.flushFrame.busFrame

theorem Shown.busFrame (h : Shown s t) : BusFrame fn s t where
  rest := by rw [h.eq]
  others := fun g _ => ring_congr (by rw [h.eq]) g
  registers := fun g _ o ho => h.rings g _ (ringKey_offset ho)
  locked := fun he => by rw [h.eq]; exact he

/-- A flush writes its ring, and abandons a calibration or a start. -/
theorem flushFrame_flushRing : FlushFrame fn s (flushRing fn s) := by
  unfold flushRing
  split
  · exact flushFrame_refl
  · extract_lets s2
    have h2 : FlushFrame fn s s2 := ((ringOnly_updRing _).trans (ringOnly_wrB 1 true)).flushFrame
    split
    · exact h2.trans ringOnly_flushEnd.flushFrame
    · exact h2.trans (ringOnly_finish _ _ _ _).flushFrame
    · exact (h2.trans flushFrame_calAbort).trans (ringOnly_finish _ _ _ _).flushFrame
    · exact (h2.trans (flushFrame_wr _ (by simp [flushReg]))).trans (ringOnly_finish _ _ _ _).flushFrame
    · exact h2

theorem busFrame_flushRing : BusFrame fn s (flushRing fn s) := flushFrame_flushRing.busFrame

theorem busFrame_setMaster (hfn : fn < 17) (on : Bool) : BusFrame fn s (setMaster fn on s) := by
  unfold setMaster
  extract_lets s2
  have h2 : BusFrame fn s s2 := (ringOnly_updRing _).busFrame
  split
  · exact h2
  · exact h2.trans (shown_wr _ (by unfold kPART_STATUS; omega)).busFrame

theorem busFrame_ringReset : BusFrame fn s (ringReset fn s) := by
  unfold ringReset
  extract_lets b s2 s3 s4
  have h2 : BusFrame fn s s2 := by
    refine ⟨rfl, fun _ _ => rfl, fun g hg o ho => rd_regsReset_out s ?_, id⟩
    have hk := ringKey_other hg ho
    simp only [ringKey, Bool.and_eq_false_iff, decide_eq_false_iff_not] at hk
    unfold b
    omega
  have h3 : BusFrame fn s2 s4 := ((ringOnly_updRing _).trans (ringOnly_wrB 1 _)).busFrame
  have h4 : BusFrame fn s4 { s4 with time := { s4.time with nowLatch := s4.time.nowLatch.del fn, tickLatch := s4.time.tickLatch.del fn } } :=
    ⟨rfl, fun _ _ => rfl, fun _ _ _ _ => rfl, id⟩
  exact ((h2.trans h3).trans h4).trans ringOnly_showHeld.busFrame

theorem busFrame_auditPut (cmd status slot func part : Nat) (tag digest : List Byte) : BusFrame 0 s (auditPut cmd status slot func part tag digest s) := by
  unfold auditPut
  extract_lets f r s2
  have h2 : BusFrame 0 s s2 := ⟨rfl, fun _ _ => rfl, fun _ _ _ _ => rfl, id⟩
  split
  · refine raiseFault_keeps (P := BusFrame 0 s) (fun k v t hk h => h.trans (shown_wr v (reportReg_off hk)).busFrame)
      (fun fs t h => h.trans ⟨rfl, fun _ _ => rfl, fun _ _ _ _ => rfl, id⟩) (fun g hg e t h => ?_) _ _ _ _ h2
    obtain rfl := List.mem_singleton.mp hg
    exact h.trans (ringOnly_raiseTo 0 e).busFrame
  · exact h2

theorem busFrame_auditLose : BusFrame 0 s { s with flash := { s.flash with auditLost := s.flash.auditLost + 1 } } :=
  ⟨rfl, fun _ _ => rfl, fun _ _ _ _ => rfl, id⟩

theorem busFrame_auditEvent (cmd status part : Nat) (digest : List Byte) : BusFrame 0 s (auditEvent cmd status part digest s) := by
  unfold auditEvent auditLose
  split
  · exact busFrame_auditPut cmd status 0xFF 0xFF part [] digest
  · exact busFrame_auditLose

theorem busFrame_locked : BusFrame 0 s (withExpert none s) := ⟨rfl, fun _ _ => rfl, fun _ _ _ _ => rfl, fun _ => rfl⟩

theorem endExpert_of_locked (status : Nat) (h : expert s = false) : endExpert status s = s := by simp [endExpert, h]

theorem endExpert_of_open (status : Nat) (h : expert s = true) : endExpert status s = auditEvent 0xE003 status 0xFF [] (withExpert none s) := by
  simp only [endExpert, h, Bool.not_true, Bool.false_eq_true, if_false]
  rfl

theorem busFrame_endExpert (status : Nat) : BusFrame 0 s (endExpert status s) := by
  cases h : expert s with
  | false => rw [endExpert_of_locked status h]; exact busFrame_refl
  | true => rw [endExpert_of_open status h]; exact busFrame_locked.trans (busFrame_auditEvent _ _ _ _)

theorem busFrame_fnReset (hfn : fn < 17) : BusFrame fn s (fnReset fn s) := by
  unfold fnReset
  extract_lets s2
  have h2 : BusFrame fn s s2 := (busFrame_flushRing.trans (busFrame_setMaster hfn false)).trans busFrame_ringReset
  split
  · next h0 =>
    subst h0
    exact h2.trans (busFrame_endExpert 2)
  · exact h2

end Frame

/-! ### What a ring's record keeps -/

section Record

variable {fn : Nat} {s : State}

theorem ring_pumpEvents (n : Nat) : ∀ s, ∃ hs, ring fn (pumpEvents fn n s) = { ring fn s with held := hs } := by
  induction n with
  | zero => exact fun s => ⟨(ring fn s).held, rfl⟩
  | succ n ih =>
    intro s
    unfold pumpEvents
    split
    · exact ⟨(ring fn s).held, rfl⟩
    · split
      · next e es he hrun =>
        obtain ⟨hs, h⟩ := ih (fireInt fn 1 (showHeld fn (updRing fn (fun r => { r with held := es })
          (putCpl fn (cplBytes fn 0xFFFF stEVENT 0 8 (natLE 2 e.code ++ natLE 1 e.unit ++ natLE 1 e.part ++ natLE 4 e.time) s) s))))
        refine ⟨hs, h.trans ?_⟩
        rw [ring_fireInt, ring_showHeld, ring_updRing_same, ring_putCpl]
      · exact ⟨(ring fn s).held, rfl⟩

theorem ring_fetchDescs (n : Nat) : ∀ s, ∃ ds, ring fn (fetchDescs fn n s) = { ring fn s with fetched := ds } := by
  induction n with
  | zero => exact fun s => ⟨(ring fn s).fetched, rfl⟩
  | succ n ih =>
    intro s
    unfold fetchDescs
    extract_lets m d
    split
    · obtain ⟨ds, h⟩ := ih (inc (ringBase fn + oCMD_HEAD) 1 (updRing fn (fun r => { r with fetched := r.fetched ++ [d] }) s))
      exact ⟨ds, h.trans (congrArg (fun r : Ring => { r with fetched := ds })
        (ring_updRing_same s fn fun r => { r with fetched := r.fetched ++ [d] }))⟩
    · exact ⟨(ring fn s).fetched, rfl⟩

theorem ring_pumpRing (fn : Nat) (s : State) : ∃ hs ds, ring fn (pumpRing fn s) = { ring fn s with held := hs, fetched := ds } := by
  obtain ⟨hs, h⟩ := ring_pumpEvents (fn := fn) 64 s
  obtain ⟨ds, h'⟩ := ring_fetchDescs (fn := fn) 4096 (pumpEvents fn 64 s)
  exact ⟨hs, ds, by rw [pumpRing, h', h]⟩

theorem ring_coalesce (fn : Nat) (s : State) : ∃ n, ring fn (coalesce fn s) = { ring fn s with unsig := n } := by
  obtain ⟨n, o, h⟩ := coalesce_eq fn s
  exact ⟨n, h ▸ ring_updRing_same s fn fun r => { r with unsig := n }⟩

theorem ring_flushEnd (fn : Nat) (s : State) : ring fn (flushEnd fn s) = { ring fn s with flushing := false, fetched := [] } :=
  ring_updRing_same s fn fun r => { r with flushing := false, fetched := [] }

theorem ringEn_flushEnd (fn : Nat) (s : State) : ringEn fn (flushEnd fn s) = false := by
  simp only [flushEnd, ringEn, rdB]
  rw [rd_wrB_ne _ _ _ (by simp), rd_wrB_ne _ _ _ (by simp)]
  exact rdB_wrB_same _ _ _ _ (by decide)

/-- A command's end leaves the ring free, and of a ring that flushes it delivers nothing held. -/
theorem ring_finish (fn : Nat) (d : SvcDesc) (status flags : Nat) (res : List Byte) (s : State) :
    ∃ hs ds n fl, ring fn (finish fn d status flags res s) = { ring fn s with busy := none, held := hs, fetched := ds, unsig := n, flushing := fl } ∧
      ((ring fn s).flushing = true → hs = (ring fn s).held) := by
  obtain ⟨m, flags', -, hf⟩ := finish_eq_concluded fn d status flags res s
  rw [hf, concluded]
  generalize cplBytes fn (dTAG d) status (dCMD d) flags' res (counted fn m s) = bs
  have hput (c : Bool) : ∃ n, ring fn (if c then coalesce fn (putCpl fn bs (counted fn m s)) else counted fn m s) =
      { ring fn s with busy := none, unsig := n } := by
    cases c with
    | false => exact ⟨(ring fn s).unsig, ring_counted m s⟩
    | true =>
      obtain ⟨n, h⟩ := ring_coalesce fn (putCpl fn bs (counted fn m s))
      exact ⟨n, h.trans (by rw [ring_putCpl, ring_counted])⟩
  obtain ⟨n, hn⟩ := hput (ringEn fn (counted fn m s) && (ring fn (counted fn m s)).busMaster && cplRoom fn (counted fn m s))
  generalize (if ringEn fn (counted fn m s) && (ring fn (counted fn m s)).busMaster && cplRoom fn (counted fn m s) then
    coalesce fn (putCpl fn bs (counted fn m s)) else counted fn m s) = u at hn ⊢
  split
  · refine ⟨(ring fn s).held, [], n, false, ?_, fun _ => rfl⟩
    rw [ring_flushEnd]
    exact congrArg (fun r : Ring => { r with flushing := false, fetched := [] }) hn
  · next hfl =>
    obtain ⟨hs, ds, h⟩ := ring_pumpRing fn u
    refine ⟨hs, ds, n, (ring fn s).flushing, by rw [h, hn], fun h' => ?_⟩
    simp [hn, h'] at hfl

theorem ring_calAbort (g : Nat) (s : State) : ring g (calAbort s) = ring g s := by
  unfold calAbort
  split <;> rfl

/-- A flush keeps what the ring holds. -/
theorem held_flushRing (fn : Nat) (s : State) : (ring fn (flushRing fn s)).held = (ring fn s).held := by
  unfold flushRing
  split
  · rfl
  · extract_lets s2
    have h2 : ring fn s2 = { ring fn s with flushing := true, fetched := [] } := ring_updRing_same s fn fun r => { r with flushing := true, fetched := [] }
    have hfin (d : SvcDesc) (u : State) (hu : ring fn u = ring fn s2) : (ring fn (finish fn d stFLUSHED 0 [] u)).held = (ring fn s).held := by
      obtain ⟨hs, ds, n, fl, h, hh⟩ := ring_finish fn d stFLUSHED 0 [] u
      rw [h, hh (by rw [hu, h2]), hu, h2]
    split
    · rw [ring_flushEnd, h2]
    · exact hfin _ _ rfl
    · exact hfin _ _ (ring_calAbort fn s2)
    · exact hfin _ _ rfl
    · rw [h2]

/-- A free ring's flush ends at once. -/
theorem ringEn_flushRing (hfl : (ring fn s).flushing = false) (hb : (ring fn s).busy = none) : ringEn fn (flushRing fn s) = false := by
  unfold flushRing
  split
  · next h => simpa [hfl] using h
  · extract_lets s2
    have h2 : (ring fn s2).busy = none := by
      rw [show ring fn s2 = { ring fn s with flushing := true, fetched := [] } from ring_updRing_same s fn fun r => { r with flushing := true, fetched := [] }]
      exact hb
    rw [h2]
    exact ringEn_flushEnd fn s2

end Record

/-! ### A ring at reset (R390) -/

/-- Ring `fn` has stopped, and its interrupt registers read their reset values. -/
structure RingStopped (fn : Nat) (t : State) : Prop where
  record : (ring fn t).busMaster = false ∧ (ring fn t).cmdTail = 0 ∧ (ring fn t).cplHead = 0 ∧ (ring fn t).fetched = []
  off : ringEn fn t = false
  tail : rd (ringBase fn + oCPL_TAIL) t = 0
  ints : ∀ k, k < 7 → rd (ringBase fn + oINT_SRC + 4 * k) t = resetVal (ringBase fn + oINT_SRC + 4 * k)

section Stopped

variable {fn : Nat} {s t : State}

/-- What leaves the ring's record but its held events, and all its registers but status, events and counters, leaves it stopped. -/
theorem RingStopped.congr (h : RingStopped fn s) {hs : List Evt} (hg : ring fn t = { ring fn s with held := hs })
    (hr : ∀ o, o < 0x60 → o ≠ oRING_STAT → o ≠ oRING_EVT → rd (ringBase fn + o) t = rd (ringBase fn + o) s) : RingStopped fn t where
  record := by rw [hg]; exact h.record
  off := (ringEn_congr (hr oRING_CTL (by decide) (by decide) (by decide))).trans h.off
  tail := (hr oCPL_TAIL (by decide) (by decide) (by decide)).trans h.tail
  ints := fun k hk => by
    have hk' := hr (0x40 + 4 * k) (by omega) (by unfold oRING_STAT; omega) (by unfold oRING_EVT; omega)
    rw [← Nat.add_assoc] at hk'
    exact hk'.trans (h.ints k hk)

theorem RingStopped.busFrame {g : Nat} (h : RingStopped fn s) (hg : fn ≠ g) (hb : BusFrame g s t) : RingStopped fn t :=
  h.congr (hs := (ring fn s).held) (hb.others fn hg) fun o ho _ _ => hb.registers fn hg o (by omega)

/-- A stopped ring holds an event and delivers none. -/
theorem RingStopped.raiseTo (h : RingStopped fn s) (e : Evt) : RingStopped fn (raiseTo fn e s) := by
  unfold Machine.raiseTo
  split
  · have hput : RingStopped fn (showHeld fn (updRing fn (fun r => { r with held := r.held ++ [e] }) s)) :=
      h.congr (ring_updRing_same s fn fun r => { r with held := r.held ++ [e] }) fun o _ hs _ => rd_wrF_ne _ _ _ _ (by simpa using hs)
    have hpump : ∀ n u, RingStopped fn u → pumpEvents fn n u = u := by
      intro n u hu
      cases n with
      | zero => rfl
      | succ n => unfold pumpEvents; split <;> simp [hu.off]
    rwa [hpump 64 _ hput]
  · refine h.congr (hs := (ring fn s).held) rfl fun o ho _ he => ?_
    rw [rd_inc_ne _ _ (by simp only [oCNT_EVT_LOST, ne_eq, Nat.add_left_cancel_iff]; omega), rd_wrB_ne _ _ _ (by simpa using he)]

/-- The registers of a ring that was reset, but its status, read their reset values. -/
theorem rd_ringReset {o : Nat} (ho : o < 0x60) (hs : o ≠ oRING_STAT) : rd (ringBase fn + o) (ringReset fn s) = resetVal (ringBase fn + o) := by
  have hne : ringBase fn + o ≠ ringBase fn + oRING_STAT := by simpa using hs
  simp only [ringReset, showHeld]
  rw [rd_wrF_ne _ _ _ _ hne]
  refine Eq.trans (rd_wrB_ne (updRing fn (fun r => { r with cmdTail := 0, cplHead := 0, fetched := [], unsig := 0, flushing := r.busy.isSome, ldp := [] })
    (regsReset (ringBase fn) (ringBase fn + 0x60) s)) 1 _ hne) ?_
  exact rd_regsReset_in s (Nat.le_add_right _ _) (by omega)

theorem ring_ringReset : ring fn (ringReset fn s) =
    { ring fn s with cmdTail := 0, cplHead := 0, fetched := [], unsig := 0, flushing := (ring fn s).busy.isSome, ldp := [] } :=
  ring_updRing_same (regsReset (ringBase fn) (ringBase fn + 0x60) s) fn
    fun r => { r with cmdTail := 0, cplHead := 0, fetched := [], unsig := 0, flushing := r.busy.isSome, ldp := [] }

/-- R390: a ring's reset. -/
theorem ringStopped_ringReset (hfn : fn < 17) (hm : (ring fn s).busMaster = false) : RingStopped fn (ringReset fn s) := by
  exact {
    record := by rw [ring_ringReset]; exact ⟨hm, rfl, rfl, rfl⟩
    off := by rw [ringEn, rdB, rd_ringReset (by decide) (by decide), resetVal_ring hfn (by decide)]; decide
    tail := (rd_ringReset (by decide) (by decide)).trans (resetVal_ring hfn (by decide))
    ints := fun k hk => by rw [Nat.add_assoc]; exact rd_ringReset (by simp only [oINT_SRC]; omega) (by simp only [oINT_SRC, oRING_STAT]; omega) }

theorem ring_setMaster (fn : Nat) (on : Bool) (s : State) : ring fn (setMaster fn on s) = { ring fn s with busMaster := on } := by
  unfold setMaster
  split <;> exact ring_updRing_same s fn fun r => { r with busMaster := on }

theorem RingStopped.shown (h : RingStopped fn s) (hs : Shown s t) : RingStopped fn t :=
  h.congr (hs := (ring fn s).held) (ring_congr (by rw [hs.eq]) fn) fun o ho _ _ => hs.rings fn _ (ringKey_offset (by omega))

theorem RingStopped.same (h : RingStopped fn s) (hr : t.rings = s.rings) (hg : t.regs = s.regs) : RingStopped fn t :=
  h.congr (hs := (ring fn s).held) (ring_congr hr fn) fun _ _ _ _ => rd_congr hg _

theorem RingStopped.auditPut (h : RingStopped 0 s) (cmd status slot func part : Nat) (tag digest : List Byte) :
    RingStopped 0 (auditPut cmd status slot func part tag digest s) := by
  unfold Machine.auditPut
  extract_lets f r s2
  have h2 : RingStopped 0 s2 := h.same rfl rfl
  split
  · refine raiseFault_keeps (P := RingStopped 0) (fun k v t hk h => h.shown (shown_wr v (reportReg_off hk)))
      (fun fs t h => h.same rfl rfl) (fun g hg e t h => ?_) _ _ _ _ h2
    obtain rfl := List.mem_singleton.mp hg
    exact h.raiseTo e
  · exact h2

theorem RingStopped.endExpert (h : RingStopped 0 s) (status : Nat) : RingStopped 0 (endExpert status s) := by
  cases he : expert s with
  | false => rwa [endExpert_of_locked status he]
  | true =>
    rw [endExpert_of_open status he]
    unfold auditEvent auditLose
    split
    · exact RingStopped.auditPut (h.same (t := withExpert none s) rfl rfl) _ _ _ _ _ _ _
    · exact h.same rfl rfl

/-- R390: a reset of a function stops its ring. -/
theorem ringStopped_fnReset (hfn : fn < 17) : RingStopped fn (fnReset fn s) := by
  unfold fnReset
  extract_lets s2
  have h2 : RingStopped fn s2 := ringStopped_ringReset hfn (by rw [ring_setMaster])
  split
  · next h0 =>
    subst h0
    exact h2.endExpert 2
  · exact h2

theorem fnReset_of_vf (h : fn ≠ 0) : fnReset fn s = ringReset fn (setMaster fn false (flushRing fn s)) := by
  simp only [fnReset, h, if_false]

/-- R399: a VF's reset keeps its held events. -/
theorem held_fnReset (h : fn ≠ 0) : (ring fn (fnReset fn s)).held = (ring fn s).held := by
  rw [fnReset_of_vf h, ring_ringReset, ring_setMaster]
  exact held_flushRing fn s

/-- R390: the PF's reset ends the expert unlock. -/
theorem expert_fnReset_pf : expert (fnReset 0 s) = false := by
  rw [fnReset, if_pos rfl]
  generalize ringReset 0 (setMaster 0 false (flushRing 0 s)) = u
  cases he : expert u with
  | false => rwa [endExpert_of_locked 2 he]
  | true => rw [endExpert_of_open 2 he]; exact (busFrame_auditEvent 0xE003 2 0xFF []).locked rfl

/-- R390: resets of several functions stop the ring of each. -/
theorem ringStopped_eachDo (hfn : fn < 17) : ∀ (fns : List Nat) (s : State), (∀ g ∈ fns, g < 17) → fn ∈ fns ∨ RingStopped fn s →
    RingStopped fn (eachDo fnReset fns s) := by
  intro fns
  induction fns with
  | nil => exact fun s _ h => h.resolve_left (List.not_mem_nil)
  | cons g fns ih =>
    intro s hlt h
    refine ih (fnReset g s) (fun g' hg' => hlt g' (List.mem_cons_of_mem g hg')) ?_
    by_cases hg : fn = g
    · subst hg
      exact .inr (ringStopped_fnReset hfn)
    · exact h.imp (fun hm => (List.mem_cons.mp hm).resolve_left hg) fun hs => hs.busFrame hg (busFrame_fnReset (hlt g (by simp)))

end Stopped

/-! ### The commands of the bus -/

theorem next_of_eq {s t : State} (h : s = t) : (Host.Outcome.next s : Host.Outcome State Fault Refusal) = .next t := congrArg _ h

theorem BusFrame.memorySame {fn : Nat} {s t : State} (h : BusFrame fn s t) : MemorySame s t := by
  rw [h.rest]
  exact ⟨fun _ => rfl, rfl⟩

/-- What resets of functions leave alone. -/
def BusKeeps (s t : State) : Prop := t.mem = s.mem ∧ t.poison = s.poison ∧ t.cores = s.cores ∧ t.jobs = s.jobs

theorem busKeeps_eachDo (fns : List Nat) (h : ∀ g ∈ fns, g < 17) (s : State) : BusKeeps s (eachDo fnReset fns s) :=
  eachDo_keeps (P := BusKeeps s) (f := fnReset) (fun g hg t ht => by rw [(busFrame_fnReset (h g hg)).rest]; exact ht) ⟨rfl, rfl, rfl, rfl⟩

theorem BusKeeps.memorySame {s t : State} (h : BusKeeps s t) : MemorySame s t := by
  obtain ⟨hm, hp, -, -⟩ := h
  exact ⟨fun a => by simp only [devByte, hm], hp⟩

/-- R390: PERST resets every function and takes the link down. -/
theorem perst_effect (s : State) : (∀ fn, fn < 17 → RingStopped fn (perstBody s)) ∧ expert (perstBody s) = false ∧ BusKeeps s (perstBody s) := by
  have hlt : ∀ g ∈ upTo 17, g < 17 := by decide
  refine ⟨fun fn hfn => ?_, ?_, busKeeps_eachDo (upTo 17) hlt s⟩
  · exact (ringStopped_eachDo hfn (upTo 17) s hlt (.inl (by simpa [upTo] using hfn))).same rfl rfl
  · have hexpert : expert (eachDo fnReset (upTo 17) s) = false := by
      have hfirst : upTo 17 = 0 :: (upTo 16).map (· + 1) := by decide
      rw [hfirst, eachDo, List.foldl_cons]
      refine eachDo_keeps (f := fnReset) (l := (upTo 16).map (· + 1)) (P := fun t => expert t = false)
        (fun g hg t ht => (busFrame_fnReset (hlt g ?_)).locked ht) expert_fnReset_pf
      exact hfirst ▸ List.mem_cons_of_mem 0 hg
    exact hexpert

/-- R390: VF Enable cleared resets the VFs and leaves the PF's ring. -/
theorem vfDisable_effect {s : State} (hup : s.boot.linkUp = true) : (vfBody false s).boot.vfOn = false ∧
    (∀ fn, 1 ≤ fn → fn < 17 → RingStopped fn (vfBody false s)) ∧ ring 0 (vfBody false s) = ring 0 s ∧ BusKeeps s (vfBody false s) := by
  have hlt : ∀ g ∈ (upTo 16).map (· + 1), g < 17 := by decide
  have hne : ∀ g ∈ (upTo 16).map (· + 1), 0 ≠ g := by decide
  have hbody : vfBody false s = { eachDo fnReset ((upTo 16).map (· + 1)) s with
      boot := { (eachDo fnReset ((upTo 16).map (· + 1)) s).boot with vfOn := false } } := by simp [vfBody, hup]
  rw [hbody]
  refine ⟨rfl, fun fn h1 hfn => ?_, ?_, busKeeps_eachDo _ hlt s⟩
  · have hmem : fn ∈ (upTo 16).map (· + 1) := List.mem_map.mpr ⟨fn - 1, by simp only [upTo, List.mem_range]; omega, by omega⟩
    exact (ringStopped_eachDo hfn _ s hlt (.inl hmem)).same rfl rfl
  · exact eachDo_keeps (P := fun t => ring 0 t = ring 0 s) (f := fnReset)
      (fun g hg t ht => ((busFrame_fnReset (hlt g hg)).others 0 (hne g hg)).trans ht) rfl

/-- R390: Bus Master Enable follows its bit and shows in PART_STATUS.VF_UP. -/
theorem rdB_setMaster {fn : Nat} (h : fn ≠ 0) (on : Bool) (s : State) : rdB (kPART_STATUS (fn - 1)) 6 (setMaster fn on s) = on := by
  simp only [setMaster, h, if_false]
  exact rdB_wrB_same _ _ _ _ (by decide)

/-- PART_STATUS is no ring's register. -/
theorem ringKey_partStatus {fn g : Nat} (h : g < 17) : ringKey fn (kPART_STATUS (g - 1)) = false := by
  unfold ringKey ringBase kPART_STATUS
  split <;> simp <;> omega

theorem busMasterDisable_effect {fn : Nat} (hfn : fn < 17) (s : State) :
    BusFrame fn s (setMaster fn false (flushRing fn s)) ∧ (ring fn (setMaster fn false (flushRing fn s))).busMaster = false ∧
      ((ring fn s).flushing = false → (ring fn s).busy = none → ringEn fn (setMaster fn false (flushRing fn s)) = false) := by
  refine ⟨busFrame_flushRing.trans (busFrame_setMaster hfn false), by rw [ring_setMaster], fun hfl hb => ?_⟩
  have hreg : rd (ringBase fn + oRING_CTL) (setMaster fn false (flushRing fn s)) = rd (ringBase fn + oRING_CTL) (flushRing fn s) := by
    unfold setMaster
    split
    · rfl
    · exact rd_wrB_ne _ _ _ (by have := ringKey_partStatus (fn := fn) hfn; rintro h; rw [← h, ringKey_offset (by decide)] at this; simp at this)
  exact (ringEn_congr hreg).trans (ringEn_flushRing hfl hb)

theorem busMasterEnable_effect {fn : Nat} (hfn : fn < 17) (s : State) :
    BusFrame fn s (pumpRing fn (setMaster fn true s)) ∧ (ring fn (pumpRing fn (setMaster fn true s))).busMaster = true ∧
      (fn ≠ 0 → rdB (kPART_STATUS (fn - 1)) 6 (pumpRing fn (setMaster fn true s)) = true) := by
  obtain ⟨hs, ds, h⟩ := ring_pumpRing fn (setMaster fn true s)
  refine ⟨(busFrame_setMaster hfn true).trans ringOnly_pumpRing.busFrame, by rw [h, ring_setMaster], fun h0 => ?_⟩
  rw [rdB, ringOnly_pumpRing.registers _ (ringKey_partStatus hfn)]
  exact rdB_setMaster h0 true s

theorem pcieLinkUp_effect (s : State) :
    (domOn 14 s = true → domOn 15 s = true → stage s ≠ 0 → exec .pcieLinkUp s = .next { s with boot := { s.boot with linkUp := true } }) ∧
      (domOn 14 s = false ∨ domOn 15 s = false ∨ stage s = 0 → exec .pcieLinkUp s = .next s) := by
  have hexec : exec .pcieLinkUp s =
    .next (if domOn 14 s && domOn 15 s && decide (stage s ≠ 0) then { s with boot := { s.boot with linkUp := true } } else s) := rfl
  refine ⟨fun h14 h15 hst => ?_, fun h => ?_⟩
  · rw [hexec, if_pos (by simp [h14, h15, hst])]
  · rw [hexec, if_neg (by rcases h with h | h | h <;> simp [h])]

theorem next_viaHost_of_reach {fn : Nat} {s : State} {f : State → State} (h : hostReach fn s = true) :
    (Host.Outcome.next (viaHost fn f s) : Host.Outcome State Fault Refusal) = .next (f s) := by
  rw [viaHost, if_pos h]

/-- Settles O19: a reset of a function flushes and resets its own ring, and each bus event is a composition of such resets. -/
theorem busEventsResetTheirFunctions : Obligations.BusEventsResetTheirFunctions := by
  unfold Obligations.BusEventsResetTheirFunctions
  intro stopped
  have hstop {fn t} (h : RingStopped fn t) : stopped fn t := by
    obtain ⟨hbm, hct, hch, hfe⟩ := h.record
    exact ⟨hbm, hct, hch, hfe, h.off, h.tail, h.ints⟩
  refine ⟨fun fn s => ⟨fun hr => ?_, fun hr => ?_⟩, fun s => ?_, fun fn s hr => ⟨?_, ?_⟩, fun s hup => ⟨?_, ?_⟩, fun s => ⟨fun h14 h15 hst => ?_, ?_⟩⟩
  · have hframe : BusFrame fn.val s (fnReset fn.val s) := busFrame_fnReset fn.isLt
    exact ⟨_, next_viaHost_of_reach hr, hstop (ringStopped_fnReset fn.isLt), hframe.memorySame, fun h0 => h0 ▸ expert_fnReset_pf,
      fun h0 => ⟨held_fnReset h0, hframe.others⟩⟩
  · exact next_viaHost_of_unchanged fun h => absurd h (by simp [hr])
  · obtain ⟨hstopped, hlocked, hkeeps⟩ := perst_effect s
    obtain ⟨hmem, hpoison, hcores, hjobs⟩ := hkeeps
    exact ⟨_, rfl, fun fn hfn => hstop (hstopped fn hfn), rfl, rfl, hlocked, BusKeeps.memorySame ⟨hmem, hpoison, hcores, hjobs⟩, hcores, hjobs⟩
  · obtain ⟨hframe, hbm, hen⟩ := busMasterDisable_effect fn.isLt s
    exact ⟨_, next_viaHost_of_reach hr, hbm, hframe.others, hframe.memorySame, hen, fun h0 => rdB_setMaster h0 false _⟩
  · obtain ⟨hframe, hbm, hup⟩ := busMasterEnable_effect fn.isLt s
    exact ⟨_, next_viaHost_of_reach hr, hbm, hframe.others, hframe.memorySame, hup⟩
  · exact ⟨_, rfl, by simp [vfBody, hup]⟩
  · obtain ⟨hoff, hstopped, hpf, hkept⟩ := vfDisable_effect hup
    exact ⟨_, rfl, hoff, fun fn h1 hfn => hstop (hstopped fn h1 hfn), hpf,
      BusKeeps.memorySame hkept⟩
  · exact ⟨_, (pcieLinkUp_effect s).1 h14 h15 hst, rfl⟩
  · exact (pcieLinkUp_effect s).2

end Sys2Proof.Proofs
end

section
/-! What the units leave alone (02_partitions_and_roles.md, R45; 03_configuration_image.md, R62; 15_field_io_and_supervisor.md, R358): an operation of
the cores, the scheduler, the ledger, field I/O or the memories touches neither flash, the boot state, the image nor the command a ring has in hand. -/

namespace Sys2Proof.Proofs

open Sys2Proof Sys2Proof.Machine Sys2Proof.Laws

/-! ### What lasts -/

/-- Flash, the boot state with SYS_BOOT, the image and what each ring has in hand are those of `base`, and its faults are active still. -/
structure Lasting (base s : State) : Prop where
  flash : s.flash = base.flash
  boot : s.boot = base.boot
  img : s.img = base.img
  busy : ∀ g, (ring g s).busy = (ring g base).busy
  sysBoot : rd kSYS_BOOT s = rd kSYS_BOOT base
  faults : ∀ f ∈ base.faults, f ∈ s.faults

/-- So are the module's time and what each partition has to re-plan. -/
structure Spared (base s : State) : Prop extends Lasting base s where
  time : s.time = base.time
  plan : ∀ p, (part p s).replan = (part p base).replan ∧ (part p s).freed = (part p base).freed

/-- The state function leaves these alone. One lemma `spares_f` follows for each function `f` that the replanning of a partition, the Nightfall state
or a new image goes through; a function that gives a pair is stated by its state component. -/
def Spares (base : State) (f : State → State) : Prop := ∀ ⦃s⦄, Spared base s → Spared base (f s)

theorem spared_refl (s : State) : Spared s s := ⟨⟨rfl, rfl, rfl, fun _ => rfl, rfl, fun _ => id⟩, rfl, fun _ => ⟨rfl, rfl⟩⟩

section Spares

variable {base : State}

theorem spared_ite {p : Prop} [Decidable p] {a b : State} (ha : Spared base a) (hb : Spared base b) : Spared base (if p then a else b) := by
  split <;> assumption

theorem spared_ite_snd {α : Type} {p : Prop} [Decidable p] {a b : α × State} (ha : Spared base a.2) (hb : Spared base b.2) :
    Spared base (if p then a else b).2 := by split <;> assumption

theorem spares_eachDo {α : Type} {f : α → State → State} {l : List α} {s : State} (hf : ∀ x, Spares base (f x)) (h : Spared base s) :
    Spared base (eachDo f l s) := eachDo_keeps (P := Spared base) (fun x _ _ hs => hf x hs) h

/-- A record update of any other fields. All fields stand as arguments so that the unifier finds `s` in the update of a computed state without
evaluating that state. -/
theorem spared_with {s : State} {pending force cnt mem host poison fuses svc accRaised out readData fresh models binds strms jobs cores
    ports banks eccHour srcs emus ents dos reqs cmprs mirrors fio lqs wire ethWait ptp cports drains sbonds fes cds decTurn loads cages spans gops
    clk pwr} (h : Spared base s) :
    Spared base (State.mk pending s.regs force cnt mem host poison s.time s.flash fuses s.boot s.img s.rings svc s.faults accRaised out readData fresh
      s.parts models binds strms jobs cores ports banks eccHour srcs emus ents dos reqs cmprs mirrors fio lqs wire ethWait ptp cports drains sbonds
      fes cds decTurn loads cages spans gops clk pwr) := ⟨⟨h.flash, h.boot, h.img, h.busy, h.sysBoot, h.faults⟩, h.time, h.plan⟩

/-- A field of every ring that an update of one ring keeps. -/
theorem busy_updRing {fn : Nat} {f : Ring → Ring} {s : State} (hf : ∀ x, (f x).busy = x.busy) (g : Nat) :
    (ring g (updRing fn f s)).busy = (ring g s).busy := by
  by_cases hg : g = fn
  · subst hg
    rw [ring_updRing_same, hf]
  · rw [ring_updRing_ne s f hg]

theorem replan_updPart {p : Nat} {f : Part → Part} {s : State} (hf : ∀ x, (f x).replan = x.replan) (q : Nat) :
    (part q (updPart p f s)).replan = (part q s).replan := by
  by_cases hq : q = p
  · subst hq
    rw [part_updPart_same, hf]
  · rw [part_updPart_ne s f hq]

theorem freed_updPart {p : Nat} {f : Part → Part} {s : State} (hf : ∀ x, (f x).freed = x.freed) (q : Nat) :
    (part q (updPart p f s)).freed = (part q s).freed := by
  by_cases hq : q = p
  · subst hq
    rw [part_updPart_same, hf]
  · rw [part_updPart_ne s f hq]

/-! ### Named operations -/

/-- A register that is not among the first of the system block, SYS_BOOT with them. -/
def UnitReg (k : Nat) : Prop := 0x1C ≤ k

theorem ringBase_ge (fn : Nat) : 0x10000 ≤ ringBase fn := by
  unfold ringBase
  split <;> omega

theorem UnitReg.lit {k : Nat} (h : Nat.ble 0x1C k = true) : UnitReg k := Nat.le_of_ble_eq_true h
theorem UnitReg.add {k n : Nat} (h : UnitReg k) : UnitReg (k + n) := Nat.le_add_right_of_le h
theorem UnitReg.core (n : Nat) : UnitReg (coreBase n) := by unfold UnitReg coreBase; omega
theorem UnitReg.lane (n : Nat) : UnitReg (laneBase n) := by unfold UnitReg laneBase; omega
theorem UnitReg.clu (n : Nat) : UnitReg (cluBase n) := by unfold UnitReg cluBase; omega
theorem UnitReg.hbm (n : Nat) : UnitReg (hbmBase n) := by unfold UnitReg hbmBase; omega
theorem UnitReg.eth (n : Nat) : UnitReg (ethBase n) := by unfold UnitReg ethBase; omega
theorem UnitReg.ethq (n m : Nat) : UnitReg (ethqBase n m) := by unfold UnitReg ethqBase ethBase; omega
theorem UnitReg.frontEnd (n : Nat) : UnitReg (fes n) := by unfold UnitReg fes feBase; omega
theorem UnitReg.output (n m : Nat) : UnitReg (fesOut n m) := by unfold UnitReg fesOut Machine.fes feBase; omega
theorem UnitReg.acct (n : Nat) : UnitReg (acctBase n) := by unfold UnitReg acctBase; omega
theorem UnitReg.str (n : Nat) : UnitReg (strBase n) := by unfold UnitReg strBase; omega
theorem UnitReg.faultCount (n : Nat) : UnitReg (kFAULT_CNT_ACC n) := by unfold UnitReg kFAULT_CNT_ACC; omega
theorem UnitReg.faultLog (n : Nat) : UnitReg (kFAULT_LOG n) := by unfold UnitReg kFAULT_LOG; omega
theorem UnitReg.src (n : Nat) : UnitReg (srcBase n) := by unfold UnitReg srcBase; split <;> omega
theorem UnitReg.emu (n : Nat) : UnitReg (emuBase n) := by unfold UnitReg emuBase ledBase; omega
theorem UnitReg.ss (n : Nat) : UnitReg (ssBase n) := by unfold UnitReg ssBase; omega
theorem UnitReg.link (n : Nat) : UnitReg (linkBase n) := by unfold UnitReg linkBase spanLaneBase; omega
theorem UnitReg.arbTag (n : Nat) : UnitReg (kARB_TAG n) := by unfold UnitReg kARB_TAG arbBase; omega
theorem UnitReg.lds (n : Nat) : UnitReg (ldsBase n) := by unfold UnitReg ldsBase ledBase; omega
theorem UnitReg.view (n : Nat) : UnitReg (viewBase n) := by unfold UnitReg viewBase ledBase; omega
theorem UnitReg.ldp (n : Nat) : UnitReg (ldpBase n) := by unfold UnitReg ldpBase ledBase; omega
theorem UnitReg.grp (n : Nat) : UnitReg (grpBase n) := by unfold UnitReg grpBase ledBase; omega
theorem UnitReg.region (n m : Nat) : UnitReg (kRGN n m) := by unfold UnitReg kRGN; omega
theorem UnitReg.partStatus (n : Nat) : UnitReg (kPART_STATUS n) := by unfold UnitReg kPART_STATUS; omega
theorem UnitReg.partCores (n : Nat) : UnitReg (kPART_CORES n) := by unfold UnitReg kPART_CORES; omega
theorem UnitReg.partFe (n : Nat) : UnitReg (kPART_FE n) := by unfold UnitReg kPART_FE; omega
theorem UnitReg.partIo (n : Nat) : UnitReg (kPART_IO n) := by unfold UnitReg kPART_IO; omega
theorem UnitReg.partGen (n : Nat) : UnitReg (kPART_GEN n) := by unfold UnitReg kPART_GEN; omega
theorem UnitReg.dom (n : Nat) : UnitReg (kPWR_DOM n) := by unfold UnitReg kPWR_DOM; omega
theorem UnitReg.rail (n : Nat) : UnitReg (kPWR_RAIL n) := by unfold UnitReg kPWR_RAIL; omega
theorem UnitReg.cds (n : Nat) : UnitReg (cdsBase n) := by unfold UnitReg cdsBase codecBase; omega
theorem UnitReg.ring (n : Nat) : UnitReg (ringBase n) := Nat.le_trans (by decide) (ringBase_ge n)

theorem spares_wr_ne {k v} {s : State} (h : Spared base s) (hk : k ≠ kSYS_BOOT) : Spared base (wr k v s) :=
  ⟨⟨h.flash, h.boot, h.img, h.busy, (rd_wr_ne s v (Ne.symm hk)).trans h.sysBoot, h.faults⟩, h.time, h.plan⟩

theorem spares_wr {k v} {s : State} (h : Spared base s) (hk : UnitReg k) : Spared base (wr k v s) :=
  spares_wr_ne h (by unfold UnitReg at hk; unfold kSYS_BOOT; omega)

theorem spares_wrF {k hi lo v} {s : State} (h : Spared base s) (hk : UnitReg k) : Spared base (wrF k hi lo v s) := spares_wr h hk

theorem spares_wrB {k i b} {s : State} (h : Spared base s) (hk : UnitReg k) : Spared base (wrB k i b s) := spares_wr h hk

theorem spares_inc {k n} {s : State} (h : Spared base s) (hk : UnitReg k) : Spared base (inc k n s) := spares_wr h hk

theorem spares_takeShadow {k} : Spares base (takeShadow k) := fun _ h => spared_with h

theorem spares_cntAdd {k n} : Spares base (cntAdd k n) := fun _ h => spared_with h

theorem spares_regsReset {lo hi} (hlo : UnitReg lo) : Spares base (regsReset lo hi) := fun s h =>
  ⟨⟨h.flash, h.boot, h.img, h.busy, (rd_regsReset_out s (by unfold UnitReg kSYS_BOOT at *; omega)).trans h.sysBoot, h.faults⟩, h.time, h.plan⟩

theorem spares_draw {n} : Spares base (draw n) := fun _ h => spared_with h

theorem spares_updRing {fn : Nat} {f : Ring → Ring} {s : State} (h : Spared base s) (hf : ∀ x, (f x).busy = x.busy := by intro; rfl) :
    Spared base (updRing fn f s) := { h with busy := fun g => (busy_updRing hf g).trans (h.busy g) }

theorem spares_fireInt {fn k} : Spares base (fireInt fn k) := fun _ h => spared_ite (spared_with h) h

theorem spares_putCpl {fn bs} : Spares base (putCpl fn bs) := fun _ h => spares_wrB (spares_inc (spared_with h) (.add (.ring _))) (.add (.ring _))

theorem spares_showHeld {fn} : Spares base (showHeld fn) := fun _ h => spares_wrF h (.add (.ring _))

theorem spares_pumpEvents {fn : Nat} : ∀ {n}, Spares base (pumpEvents fn n)
  | 0, _, h => h
  | n + 1, s, h => by
    dsimp only [pumpEvents]
    split
    · exact h
    · exact spared_ite (spares_pumpEvents (spares_fireInt (spares_showHeld (spares_updRing (spares_putCpl h))))) h

theorem spares_raiseTo {fn e} : Spares base (raiseTo fn e) := fun _ h =>
  spared_ite (spares_pumpEvents (spares_showHeld (spares_updRing h))) (spares_inc (spares_wrB h (.add (.ring _))) (.add (.ring _)))

theorem spared_fault {s : State} {f : FaultRec} (h : Spared base s) : Spared base { s with faults := s.faults ++ [f] } :=
  ⟨⟨h.flash, h.boot, h.img, h.busy, h.sysBoot, fun x hx => List.mem_append_left _ (h.faults x hx)⟩, h.time, h.plan⟩

theorem spares_showFaults : Spares base showFaults := fun _ h => spares_wrF (spares_wrB (spares_wr h (.lit rfl)) (.lit rfl)) (.lit rfl)

theorem spares_logFault {code unit a2 arg} : Spares base (logFault code unit a2 arg) := fun _ h =>
  spares_inc (spares_wr (spares_wr (spares_wr (spares_wr h (.faultLog _)) (.add (.faultLog _))) (.add (.faultLog _))) (.add (.faultLog _))) (.lit rfl)

theorem spares_relogFault {code unit a2} : Spares base (relogFault code unit a2) := fun s h => by
  unfold relogFault
  split
  · exact spares_wr (spares_wr h (.add (.faultLog _))) (.add (.faultLog _))
  · exact h

theorem spares_raiseFault {code unit a2 arg fns} : Spares base (raiseFault code unit a2 arg fns) := fun _ h =>
  spared_ite (spares_relogFault (spares_inc h (.lit rfl))) (spares_showFaults
    (spares_eachDo (fun _ => spares_raiseTo) (spares_wrB (spares_logFault (spared_ite h (spared_fault h))) (.lit rfl))))

/-! ### Memory accesses -/

theorem spares_refuseAccess {master unit t a write} : Spares base (refuseAccess master unit t a write) := fun s h => by
  unfold refuseAccess
  refine spared_ite (spares_inc h (.faultCount _)) ?_
  extract_lets +onlyGivenNames s1
  have h1 : Spared base s1 := spared_with (spares_inc h (.faultCount _))
  exact spares_raiseFault (spared_ite h1 (spares_wrB (spares_wr (spares_wr (spares_wr h1 (.lit rfl)) (.lit rfl)) (.lit rfl)) (.lit rfl)))

theorem spares_reportUnc {a} : Spares base (reportUnc a) := fun s h => by
  dsimp only [reportUnc]
  refine spared_ite ?_ ?_
  · split <;> exact spares_raiseFault (spares_wr (spares_inc (spares_wrB h (.add (.add (.core _)))) (.add (.add (.core _)))) (.add (.add (.core _))))
  · refine spared_ite ?_ ?_
    · split <;> exact spares_raiseFault (spares_wr (spares_inc (spares_wrB h (.add (.clu _))) (.add (.clu _))) (.add (.clu _)))
    · refine spared_ite ?_ (spares_raiseFault h)
      split <;> exact spares_raiseFault (spares_wr (spares_wr (spares_inc (spares_wrB h (.add (.hbm _))) (.add (.hbm _))) (.add (.hbm _))) (.add (.hbm _)))

theorem spares_memStore {ws} : Spares base (memStore ws) := fun _ h => spared_with (spares_eachDo (fun _ => spares_reportUnc) (l := partWords ws _) h)

theorem spares_memClear {a len} : Spares base (memClear a len) := fun _ h => spared_with h

theorem spares_showWiping : Spares base showWiping := fun _ h =>
  spares_eachDo (fun _ _ h => spares_wr h (.clu _)) (spares_eachDo (fun _ _ h => spares_wrF h (.add (.core _))) h)

theorem spares_wipeSram {d} : Spares base (wipeSram d) := fun _ h => spares_showWiping (spared_with h)

theorem spares_awaitWipe {a} : Spares base (awaitWipe a) := fun s h => by
  unfold awaitWipe
  split
  · exact spared_ite (spares_wipeSram h) h
  · exact h

theorem spares_readPieces {master unit t : Nat} : ∀ {ls}, Spares base fun s => (readPieces master unit t ls s).2.2.2
  | [], _, h => h
  | (a, n) :: r, s, h => by
    dsimp only [readPieces]
    split
    · exact spares_readPieces (spares_eachDo (fun _ => spares_reportUnc) (spares_awaitWipe h))
    · exact spares_readPieces (spares_refuseAccess h)

theorem spares_devRead {master unit t a len} : Spares base fun s => (devRead master unit t a len s).2.2.2 := fun _ h => spares_readPieces h

theorem spares_awaitRange {a len} : Spares base (awaitRange a len) := fun _ h => spares_eachDo (fun _ => spares_awaitWipe) h

theorem spares_writePieces {master unit t : Nat} : ∀ {ls bs}, Spares base fun s => (writePieces master unit t ls bs s).2.2
  | [], _, _, h => h
  | (a, n) :: r, _, s, h => by
    dsimp only [writePieces]
    split
    · exact spares_writePieces (spares_memStore (spares_awaitWipe h))
    · exact spares_writePieces (spares_refuseAccess h)

theorem spares_devWrite {master unit t a bs} : Spares base fun s => (devWrite master unit t a bs s).2.2 := fun _ h => spares_writePieces h

theorem spares_updPart {p : Nat} {f : Part → Part} {s : State} (h : Spared base s) (hr : ∀ x, (f x).replan = x.replan := by intro; rfl)
    (hf : ∀ x, (f x).freed = x.freed := by intro; rfl) : Spared base (updPart p f s) :=
  { h with plan := fun q => ⟨(replan_updPart hr q).trans (h.plan q).1, (freed_updPart hf q).trans (h.plan q).2⟩ }

/-! ### Time, ports, launch queues -/

theorem spares_updStrm {st f} : Spares base (updStrm st f) := fun _ h => spared_with h

theorem spares_updCore {n f} : Spares base (updCore n f) := fun _ h => spared_with h

theorem spares_timeEvt {bit} : Spares base (timeEvt bit) := fun _ h => spares_eachDo (fun _ => spares_fireInt) (spares_wrB h (.lit rfl))

theorem spares_showErr : Spares base showErr := fun _ h => spared_ite (spares_wr h (.lit rfl)) (spares_wr h (.lit rfl))

theorem spares_setPtpState {a0 st} : Spares base (setPtpState a0 st) := fun s h => by
  unfold setPtpState
  refine spared_ite h ?_
  extract_lets +onlyGivenNames s0
  have h0 : Spared base s0 := spares_wrB (spares_wrF h (.eth _)) (.add (.eth _))
  exact spares_wrF (spared_ite (spared_with h0) (spared_ite (spared_with h0) h0)) (.lit rfl)

theorem spares_showLq {p q} : Spares base (showLq p q) := fun _ h => spares_wr h (.add (.ethq _ _))

theorem spares_setLq {p q a2} : Spares base (setLq p q a2) := fun _ h => spares_showLq (spared_with h)

theorem spares_lqFinish {p q i status sent} : Spares base (lqFinish p q i status sent) := fun _ h =>
  spares_inc (spares_devWrite (spares_devWrite h)) (.add (.ethq _ _))

theorem spares_lqDrop {p q status cnt} : Spares base (lqDrop p q status cnt) := fun s h => by
  dsimp only [lqDrop]
  split
  · exact h
  · split
    · exact spares_lqFinish (spares_setLq (spared_ite h (spares_inc h (.add (.ethq _ _)))))
    · exact spares_setLq (spared_ite h (spares_inc h (.add (.ethq _ _))))

theorem spares_lqDiscard {p q : Nat} : ∀ {k}, Spares base (lqDiscard p q k)
  | 0, _, h => h
  | _ + 1, _, h => spared_ite h (spares_lqDiscard (spares_lqDrop h))

/-! ### Sources and front ends -/

theorem spares_updSrc {i f} : Spares base (updSrc i f) := fun _ h => spared_with h

theorem spares_setEmu {m e} : Spares base (setEmu m e) := fun _ h => spares_wrF (spares_wr (spared_with h) (.add (.emu _))) (.add (.emu _))

theorem spares_emuResync {m} : Spares base (emuResync m) := fun _ h => spares_setEmu h

theorem spares_updFe {st f} : Spares base (updFe st f) := fun _ h => spared_with h

theorem spares_feStat {st b v} : Spares base (feStat st b v) := fun _ h => spares_wrB h (.add (.frontEnd _))

theorem spares_showOuts {st} : Spares base (showOuts st) := fun _ h => spares_eachDo (by
    intro _ s h
    dsimp only
    split
    · exact spares_wr (spares_wr h (.add (.output _ _))) (.add (.output _ _))
    · exact h) h

theorem spares_windowDone {st obj} : Spares base (windowDone st obj) := fun _ h => spares_showOuts (spares_updFe h)

/-! ### Rings and spans -/

theorem spares_fetchDescs {fn : Nat} : ∀ {k}, Spares base (fetchDescs fn k)
  | 0, _, h => h
  | _ + 1, _, h => spared_ite (spares_fetchDescs (spares_inc (spares_updRing h) (.add (.ring _)))) h

theorem spares_pumpRing {fn} : Spares base (pumpRing fn) := fun _ h => spares_fetchDescs (spares_pumpEvents h)

theorem spares_setPortBit {st b v} : Spares base (setPortBit st b v) := fun _ h => spares_wrB h (.add (.lane _))

theorem spares_showSs {st} : Spares base (showSs st) := fun _ h => spares_wr h (.ss _)

theorem spares_updSp {m f} : Spares base (updSp m f) := fun _ h => spared_with h

theorem spares_showSpan : Spares base showSpan := fun _ h => spares_wr_ne (spares_wr_ne h (by decide)) (by decide)

theorem spares_spanDown {m} : Spares base (spanDown m) := fun _ h =>
  spares_showSpan (spares_wrF (spares_wrB (spares_updSp h) (.add (.link _))) (.add (.link _)))

/-! ### Cores -/

theorem spares_showPc {n} : Spares base (showPc n) := fun _ h => spares_wrF (spares_wr (spares_wr h (.add (.core _))) (.add (.core _))) (.core _)

theorem spares_showUnits {n} : Spares base (showUnits n) := fun s h => by
  unfold showUnits
  extract_lets +onlyGivenNames c b _ _ _ _ s4
  have h4 : Spared base s4 := by
    unfold s4
    split
    · exact spares_wrF (spares_wrB (spares_wrB (spares_wrF
        (spares_wr h (.add (.core _))) (.add (.core _))) (.add (.core _))) (.add (.core _))) (.add (.core _))
    · exact spares_wrB (spares_wrB (spares_wrF (spares_wr h (.add (.core _))) (.add (.core _))) (.add (.core _))) (.add (.core _))
  exact spares_wrB (spares_wrB (spares_wrB h4 (.add (.core _))) (.add (.core _))) (.add (.core _))

theorem spares_itemDone {n item} : Spares base (itemDone n item) := fun _ h => spares_showUnits (spares_updCore h)

theorem spares_seqEvt {n bit} : Spares base (seqEvt n bit) := fun _ h => spares_wrB h (.add (.core _))

theorem spares_showConv {n} : Spares base (showConv n) := fun s h => by
  dsimp only [showConv]
  split
  · exact spares_wrF (spares_wrB (spares_wrB (spares_wrB
      (spares_wrB h (.add (.core _))) (.add (.core _))) (.add (.core _))) (.add (.core _))) (.add (.core _))
  · exact spares_wr (spares_wrF (spares_wrB (spares_wrB (spares_wrB
      (spares_wrB h (.add (.core _))) (.add (.core _))) (.add (.core _))) (.add (.core _))) (.add (.core _))) (.add (.add (.core _)))

theorem spares_updArb {k f} : Spares base (updArb k f) := fun _ h => spared_with h

theorem spares_showGap : Spares base showGap := fun _ h => spares_eachDo (fun _ _ h => spares_wr h (.add (.lit rfl))) h

theorem spares_arbTake : Spares base arbTake := fun _ h =>
  spares_showGap (spares_wrB (spares_wrB (spares_wrB (spares_eachDo (fun _ _ h => spares_updArb h) (spares_eachDo
    (fun _ => spares_takeShadow) h)) (.lit rfl)) (.lit rfl)) (.lit rfl))

/-! ### Ledger and field outputs -/

theorem spares_setEnt {e a1} : Spares base (setEnt e a1) := fun _ h => spared_with h

theorem spares_updEnt {e f} : Spares base (updEnt e f) := fun s h => by
  unfold updEnt
  split
  · exact spares_setEnt h
  · exact h

theorem spares_showView {st} : Spares base (showView st) := fun _ h =>
  spares_eachDo (fun _ _ h => spares_wr h (.add (.view _))) (spares_wrB h (.add (.lds _)))

theorem spares_showLedger {st p} : Spares base (showLedger st p) := fun _ h =>
  spares_showView (spares_wrF (spares_wrF (spares_wr h (.lit rfl)) (.add (.ldp _))) (.add (.lds _)))

theorem spares_logRecord {p bs} : Spares base (logRecord p bs) := fun s h => by
  unfold logRecord
  refine spared_ite (spares_inc (spares_wrB h (.lit rfl)) (.add (.ldp _))) ?_
  extract_lets +onlyGivenNames a _ _ step
  have h2 : ∀ {x0 x1}, Spares base (step x0 x1) := fun h => spared_ite (spares_fireInt (spares_updRing h)) (spares_updRing h)
  exact h2 (h2 (spares_inc (spares_devWrite h) (.add (.ldp _))))

theorem spares_freeEnt {e} : Spares base (freeEnt e) := fun s h => by
  unfold freeEnt
  split
  · exact h
  · exact spares_showLedger (spares_logRecord (spared_with h))

theorem spares_drainEnt {e} : Spares base (drainEnt e) := fun s h => by
  unfold drainEnt
  split
  · exact spared_ite (spares_freeEnt h) (spares_showLedger h)
  · exact h

theorem spares_showGrp {g} : Spares base (showGrp g) := fun _ h => spares_wr (spares_wrF (spares_wr h (.grp _)) (.lit rfl)) (.lit rfl)

theorem spares_askerFires {delayed d a} : Spares base (askerFires delayed d a) := fun s h => by
  dsimp only [askerFires]
  split
  · split
    · exact h
    · exact spared_with (spares_setEnt (spared_ite h (spares_inc h (.add (.lds _)))))
  · exact (spared_with h)
  · exact (spared_with h)

theorem spares_admitReq {delayed r} : Spares base (admitReq delayed r) := fun _ h =>
  spares_eachDo (fun _ => spares_askerFires) (spared_ite (spares_inc (spared_with h) (.add (.grp _))) (spared_with h))

theorem spares_request {r} : Spares base (request r) := fun s h => by
  dsimp only [request]
  split
  · exact spares_eachDo (fun _ => spares_askerFires) (spares_inc h (.add (.grp _)))
  · exact spared_ite (spares_inc (spared_with h) (.add (.grp _))) (spared_ite (spares_admitReq h) (spared_with h))

theorem spares_firedEnt {e} : Spares base (firedEnt e) := fun s h => by
  unfold firedEnt
  split
  · exact h
  · exact spared_ite (spares_drainEnt (spares_setEnt h)) h

theorem spares_doOff {d} : Spares base (doOff d) := fun s h => by
  unfold doOff
  split
  · exact h
  · exact spares_showGrp (spares_eachDo (fun _ => spares_firedEnt) (spared_with h))

theorem spares_staleAt {st} : Spares base (staleAt st) := fun _ h => spares_inc (spares_wrB h (.lit rfl)) (.add (.lds _))

theorem spares_ledgerPost {p num gen live mask score cls} : Spares base fun s => (ledgerPost p num gen live mask score cls s).2 := fun s h => by
  unfold ledgerPost
  beta_reduce
  extract_lets +onlyGivenNames s0
  have h0 : Spared base s0 := spares_inc h (.lit rfl)
  split
  · exact h0
  · split
    · exact h0
    · exact spared_ite_snd (spares_staleAt h0) (spares_showLedger (spares_setEnt h0))

theorem spares_ledgerJobEnded {p num} : Spares base (ledgerJobEnded p num) := fun s h => by
  unfold ledgerJobEnded
  split
  · exact h
  · exact spares_drainEnt (spares_updEnt h)

theorem spares_showSup : Spares base showSup := fun _ h => spares_wrB (spares_wr (spares_wr h (.lit rfl)) (.lit rfl)) (.lit rfl)

theorem spares_showFio : Spares base showFio := fun _ h => spares_showSup (spares_wrB h (.lit rfl))

theorem spares_nightStop : Spares base nightStop := fun _ h =>
  spares_eachDo (fun _ => spares_firedEnt) (spared_with (spares_eachDo (fun _ => spares_updEnt) (spared_with h)))

theorem spares_nightSafe : Spares base nightSafe := fun _ h => spares_eachDo (fun _ _ h => spared_ite (spares_request h) h) (spared_with h)

theorem spares_nightfall {cause atStart} : Spares base (nightfall cause atStart) := fun s h => by
  unfold nightfall
  extract_lets +onlyGivenNames first s0
  have h0 : Spared base s0 := spares_wrB h (.lit rfl)
  exact spared_ite (spares_showFio h0) (spares_eachDo (fun _ => spares_fireInt)
    (spares_raiseFault (spares_showFio (spares_eachDo (fun _ => spares_showGrp)
      (spared_ite (spared_with (spares_nightStop (spares_inc (spared_with (spares_wrB (spares_wrB (spared_ite
        (spares_wrF h0 (.lit rfl)) h0) (.lit rfl)) (.lit rfl))) (.lit rfl))))
        (spares_nightSafe (spares_nightStop (spares_inc (spared_with (spares_wrB (spares_wrB (spared_ite
          (spares_wrF h0 (.lit rfl)) h0) (.lit rfl)) (.lit rfl))) (.lit rfl)))))))))

/-! ### Engines and the end of a job -/

theorem spares_mixWrite {a new} : Spares base (mixWrite a new) := fun _ h => spares_draw (spares_memStore (spares_awaitRange h))

theorem spares_dmaVoid {n t} : Spares base (dmaVoid n t) := fun _ h =>
  spares_eachDo (fun _ _ h => spares_eachDo (fun _ _ h => spared_ite (spares_mixWrite h) h) h) h

theorem spares_updEng {n f} : Spares base (updEng n f) := fun _ h => spares_updCore h

theorem spares_setBuf {n b w} : Spares base (setBuf n b w) := fun _ h => spares_updEng h

theorem spares_vecVoid {n a1} : Spares base (vecVoid n a1) := fun s h => by
  unfold vecVoid
  extract_lets +onlyGivenNames r s0 f old keys e
  have h0 : Spared base s0 := spares_eachDo (fun _ => spares_mixWrite) h
  split
  · exact spares_draw (spares_updEng h0)
  · exact spares_draw (spares_updEng h0)
  · exact h0

theorem spares_voidCount {n k} : Spares base (voidCount n k) := fun _ h => spared_ite h (spares_inc (spares_seqEvt h) (.add (.core _)))

theorem spares_voidAll {n} : Spares base (voidAll n) := fun _ h =>
  spares_showConv (spares_showUnits (spares_voidCount (spares_wrB (spares_wrF (spares_wrB (spares_updCore (spares_eachDo (fun _ => spares_vecVoid)
    (spares_eachDo (fun _ _ h => spares_setBuf h) (spares_eachDo (fun _ => spares_dmaVoid) h)))) (.core _)) (.core _)) (.add (.core _)))))

theorem spares_discardWaiting {n} : Spares base (discardWaiting n) := fun _ h =>
  spares_showConv (spares_showUnits (spares_wrB (spares_wrF (spares_draw (spares_updCore h)) (.core _)) (.add (.core _))))

theorem spares_flushSettle {n} : Spares base (flushSettle n) := fun _ h => spared_ite (spares_wrB (spares_updCore h) (.core _)) h

theorem spares_flushCore {n grace} : Spares base (flushCore n grace) := fun _ h =>
  spared_ite (spares_flushSettle (spares_wrB (spares_updCore (spares_discardWaiting h)) (.core _))) (spares_updCore (spares_voidAll h))

theorem spares_acct {p o n} : Spares base (acct p o n) := fun _ h => spares_cntAdd h

theorem spares_updJob {p num f} : Spares base (updJob p num f) := fun _ h => spared_with h

theorem spares_dropJob {p num} : Spares base (dropJob p num) := fun _ h => spared_with h

theorem spares_showSched {p} : Spares base (showSched p) := fun _ h =>
  spares_eachDo (fun _ _ h => spares_wrF h (.str _)) (spares_wrF (spares_wr h (.add (.acct _))) (.add (.acct _)))

theorem spares_schedEvt {p bit} : Spares base (schedEvt p bit) := fun _ h => spares_fireInt (spares_fireInt (spares_wrB h (.add (.acct _))))

theorem spares_freeCore {n} : Spares base (freeCore n) := fun _ h =>
  spared_ite h (spares_showPc (spares_wrF (spares_updCore (spares_acct (spared_with h))) (.core _)))

theorem spares_resultLog {slot epoch j mask hi} : Spares base (resultLog slot epoch j mask hi) := fun _ h =>
  spared_ite (spares_inc h (.add (.cds _))) (spares_inc (spares_devWrite h) (.add (.cds _)))

theorem spares_countPost {j late} : Spares base (countPost j late) := fun s h => by
  unfold countPost
  extract_lets +onlyGivenNames b left s0
  have h0 : Spared base s0 := spares_wr h (.add (.str _))
  exact spared_ite (spares_inc (spares_acct (spared_ite (spares_wr h0 (.add (.str _))) h0)) (.add (.str _))) (spared_ite (spares_wr h0 (.add (.str _))) h0)

theorem spares_keepRunning {j} : Spares base (keepRunning j) := fun _ h => spared_ite (spares_eachDo (fun _ => spares_updCore) h) h

theorem spares_handOver {n q} : Spares base (handOver n q) := fun s h => by
  unfold handOver
  extract_lets +onlyGivenNames left j r posted kept
  have hleft : Spared base left := spares_updCore h
  have hr : Spared base r.2 := spares_ledgerPost hleft
  have hposted : Spared base posted := by
    unfold posted
    clear_value j r left
    split
    · split
      · exact spared_ite (spares_resultLog hleft) hleft
      · exact hleft
    · split
      · exact spared_ite (spares_countPost hr) hr
      · exact hr
  have hkept : Spared base kept := by
    unfold kept
    clear_value posted j
    split
    · exact spared_ite (spares_keepRunning (spares_updJob hposted)) hposted
    · exact hposted
  exact spares_itemDone hkept

theorem spares_handOverAll {j} : Spares base (handOverAll j) := fun _ h =>
  spares_eachDo (fun _ _ h => spares_eachDo (fun _ _ h => spared_ite (spares_handOver h) h) h) h

theorem spares_stopCores {ns} : Spares base (stopCores ns) := fun _ h => spares_eachDo (fun _ _ h => spares_flushCore (spares_freeCore h)) h

theorem spares_showLate {st} : Spares base (showLate st) := fun _ h => spares_wrB h (.str _)

theorem spares_lastPreDusk {j} : Spares base (lastPreDusk j) := fun _ h => spared_ite (spares_updStrm h) h

theorem spares_jobEnd {p num o} : Spares base (jobEnd p num o) := fun s h => by
  unfold jobEnd
  split
  · exact h
  · extract_lets +onlyGivenNames s0 s1 _ s3
    have h0 : Spared base s0 := by
      unfold s0
      refine spares_stopCores ?_
      split
      · exact spares_handOverAll h
      · exact h
    have h1 : Spared base s1 := by
      unfold s1
      split
      · exact spares_acct h0
      · exact spares_acct h0
      · exact spares_acct h0
      · exact spares_inc (spares_acct h0) (.add (.str _))
    have h3 : Spared base s3 := spares_showLate (spares_lastPreDusk (spares_ledgerJobEnded (spares_dropJob (spared_ite (spares_acct h1) h1))))
    exact spares_showSched (spared_ite h3 (spares_windowDone h3))

theorem spares_retargetDusk {st} : Spares base (retargetDusk st) := fun _ h => spared_with h

theorem spares_showPace {p} : Spares base (showPace p) := fun _ h => spares_wr h (.add (.acct _))

theorem spares_loadWeights {p n m} : Spares base (loadWeights p n m) := fun _ h => spares_devWrite (spares_devRead h)

theorem spares_loadEntering {p hs} : Spares base (loadEntering p hs) := fun _ h => spares_eachDo (by
    intro _ s h
    dsimp only
    split
    · exact spares_eachDo (fun _ => spares_loadWeights) h
    · exact h) h

theorem spares_showRun {p} : Spares base (showRun p) := fun _ h => spared_ite h (spares_wrF h (.partStatus _))

theorem spares_haltPart {p} : Spares base (haltPart p) := fun _ h =>
  spares_showSched (spares_schedEvt (spares_raiseFault (spares_updPart (spares_eachDo (fun _ => spares_jobEnd) (spares_wrF h (.partStatus _))))))

theorem spares_migrateJob {n j} : Spares base (migrateJob n j) := fun _ h =>
  spared_ite (spares_updJob (spares_acct (spares_freeCore (spares_stopCores h)))) h

theorem spares_holdDusk {p} : Spares base (holdDusk p) := fun _ h =>
  spares_wrB (spares_eachDo (fun _ _ h => spares_retargetDusk (spares_wrF h (.str _))) h) (.add (.acct _))

theorem spares_unholdDusk {p} : Spares base (unholdDusk p) := fun _ h =>
  spares_wrB (spares_eachDo (fun _ _ h => spared_ite (spares_wrF h (.str _)) h) h) (.add (.acct _))

theorem spares_applyPlan {p} : Spares base (applyPlan p) := fun s h => by
  unfold applyPlan
  extract_lets +onlyGivenNames a s0
  have h0 : Spared base s0 := spares_showPace h
  exact spared_ite (spares_showRun (spares_unholdDusk h0)) (spared_ite (spares_showRun (spares_holdDusk h0)) (spares_haltPart h0))

theorem spares_showFixed {p} : Spares base (showFixed p) := fun _ h => spares_wrB h (.add (.acct _))

/-! ### Power and pages of registers -/

theorem spares_showEn : Spares base showEn := fun _ h => spares_wr (spares_wr (spares_wr h (.lit rfl)) (.lit rfl)) (.lit rfl)

theorem spares_showWipe : Spares base showWipe := fun _ h => spares_eachDo (fun _ _ h => spares_wrB h (.hbm _)) (spares_showWiping h)

theorem spares_switchDom {on d} : Spares base (switchDom on d) := fun s h => by
  unfold switchDom
  refine spared_ite h ?_
  extract_lets +onlyGivenNames s0
  have h0 : Spared base s0 := spares_wrB h (.dom _)
  exact spared_ite (spared_with (spared_ite (spares_wrB h0 (.add (.core _))) h0)) (spared_ite (spared_with h0) h0)

theorem spares_setDomains : Spares base setDomains := fun _ h =>
  spares_showWipe (spares_showEn (spares_eachDo (fun _ => spares_switchDom) (spares_eachDo (fun _ => spares_switchDom) h)))

theorem spares_setRail {k mv} : Spares base (setRail k mv) := fun _ h => spares_wr h (.rail _)

theorem spares_railsUp : Spares base railsUp := fun _ h => spares_eachDo (fun _ _ h => spares_setRail h) h

theorem spares_showBudget : Spares base showBudget := fun _ h => spares_wr (spares_wrB h (.lit rfl)) (.lit rfl)

theorem spares_showModels {p} : Spares base (showModels p) := fun _ h => spares_wrF h (.partStatus _)

theorem spares_showStatus {p} : Spares base (showStatus p) := fun _ h =>
  spares_showModels (spares_wrB (spares_wrB (spares_wrF h (.partStatus _)) (.partStatus _)) (.partStatus _))

theorem spares_showPart {p} : Spares base (showPart p) := fun s h => by
  unfold showPart
  extract_lets +onlyGivenNames s0
  have h0 : Spared base s0 := spares_showStatus h
  exact spares_wrF (spares_wr (spares_wr (spares_wr (spared_ite (spares_wrF h0 (.partStatus _)) (spared_ite h0
    (spares_wrF h0 (.partStatus _)))) (.partCores _)) (.partFe _)) (.partIo _)) (.add (.ldp _))

theorem spares_showRegion {t r b} : Spares base (showRegion t r b) := fun _ h =>
  spares_wr (spares_wr (spares_wr (spares_wr h (.region _ _)) (.add (.region _ _))) (.add (.region _ _))) (.add (.region _ _))

theorem spares_showRegions : Spares base showRegions := fun _ h =>
  spares_eachDo (fun _ _ h => spares_eachDo (fun _ => spares_showRegion) h) (spares_regsReset (.region _ _) h)

theorem spares_showArbiter : Spares base showArbiter := fun _ h =>
  spares_eachDo (fun _ _ h => spares_wr h (.add (.clu _))) (spares_wr (spares_eachDo (fun _ _ h => spares_wr h (.arbTag _)) h) (.lit rfl))

theorem spares_showMotion : Spares base showMotion := fun _ h =>
  spares_eachDo (fun _ _ h => spares_wr (spares_wr h (.emu _)) (.add (.emu _))) (spares_eachDo (fun _ _ h => spares_wr (spares_wr
    (spares_wr h (.src _)) (.add (.src _))) (.add (.src _)))
    (spares_eachDo (fun _ _ h => spares_wr (spares_wr h (.src _)) (.add (.src _))) h))

theorem spares_showFieldio : Spares base showFieldio := fun _ h =>
  spares_wr (spares_wr (spares_wr (spares_eachDo (fun _ _ h => spares_wr h (.add (.lit rfl))) h) (.lit rfl)) (.lit rfl)) (.lit rfl)

theorem spares_showLanes : Spares base showLanes := fun _ h => spares_eachDo (fun _ _ h => spares_wr h (.lane _)) h

theorem spares_showTorus : Spares base showTorus := fun _ h => spares_showSpan (spares_wr_ne h (by decide))

theorem spares_showImage : Spares base showImage := fun _ h =>
  spares_showTorus (spares_showLanes (spares_showFieldio (spares_showMotion
    (spares_arbTake (spares_showArbiter (spares_eachDo (fun _ => spares_showPart) (spares_showRegions (spares_wr_ne h (by decide)))))))))

/-! ### What a new image clears -/

theorem spares_clearMemory {old new} : Spares base (clearMemory old new) := fun _ h => spares_eachDo (fun _ => spares_memClear) h

theorem spares_resetAll {rs : List (Nat × Nat)} (hrs : ∀ r ∈ rs, UnitReg r.1) : Spares base (resetAll rs) := fun _ h =>
  eachDo_keeps (P := Spared base) (fun r hr _ hs => spares_regsReset (hrs r hr) hs) h

theorem spares_freshCore {n} : Spares base (freshCore n) := fun _ h =>
  spares_wrB (spares_resetAll (by simp [UnitReg, coreBase]; omega) (spares_memClear (spared_with h))) (.add (.core _))

theorem spares_clearCores {old new} : Spares base (clearCores old new) := fun _ h => spares_eachDo (fun _ => spares_freshCore) h

theorem spares_clearQueues {new} : Spares base (clearQueues new) := fun _ h =>
  spares_eachDo (fun _ _ h => spared_ite h (spared_with (spares_lqDiscard h))) h

theorem spares_clearGroups {old new} : Spares base (clearGroups old new) := fun _ h =>
  spares_eachDo (fun _ _ h => spared_ite h (spares_showGrp (spares_eachDo (fun _ => spares_doOff) (spared_with h)))) h

theorem spares_clearSlots {old new} : Spares base (clearSlots old new) := fun s h => by
  unfold clearSlots
  extract_lets +onlyGivenNames e who wipe
  have h0 : ∀ {x0 x1}, Spares base (wipe x0 x1) := fun h => spared_ite h (spares_memClear h)
  exact spares_eachDo (fun _ _ h => spared_ite h (spared_with (spares_regsReset (.cds _) (h0 (h0 h))))) h

theorem spares_stillStream {st} : Spares base (stillStream st) := fun _ h =>
  spares_wrF (spares_feStat (spares_feStat (spares_feStat (spares_wr (spared_with h) (.add (.frontEnd _)))))) (.str _)

theorem spares_looseLanes {ns} : Spares base (looseLanes ns) := fun _ h =>
  spares_eachDo (fun _ _ h => spares_eachDo (fun _ _ h => spares_takeShadow (spares_wr h (.add (.lane _)))) (spares_wrF
    (spares_wrF h (.add (.lane _))) (.add (.lane _)))) h

theorem spares_freshPort {moved st} : Spares base (freshPort moved st) := fun _ h =>
  spares_setPortBit (spares_setPortBit (spares_wr (spares_eachDo (fun _ _ h => spares_takeShadow (spares_wr h (.add (.lane _)))) (spared_ite
    (spares_looseLanes h) h)) (.add (.lane _))))

theorem spares_keepBinds : Spares base keepBinds := fun _ h => spared_with h

theorem spares_freshSources {old} : Spares base (freshSources old) := fun _ h =>
  spares_eachDo (fun _ _ h => spared_ite h (spares_wr (spares_updSrc h) (.add (.src _)))) h

theorem spares_freshEmus {old} : Spares base (freshEmus old) := fun _ h => spares_eachDo (fun _ _ h => spared_ite h (spares_emuResync h)) h

theorem spares_freshPorts : Spares base freshPorts := fun _ h => spares_eachDo (by
    intro _ s h
    beta_reduce
    extract_lets +onlyGivenNames s0
    have h0 : Spared base s0 := spared_ite h (spares_wrF h (.eth _))
    exact spared_ite (spares_setPtpState h0) (spared_ite (spares_setPtpState h0) h0)) h

theorem spares_freshLinks {old} : Spares base (freshLinks old) := fun _ h => spared_ite h (spares_eachDo (fun _ => spares_spanDown) h)

theorem spares_freshPower {old} : Spares base (freshPower old) := fun _ h =>
  spared_ite (spares_wrB h (.lit rfl)) (spares_showBudget (spared_with (spares_railsUp (spares_wrB h (.lit rfl)))))

theorem spares_endJobs {p} : Spares base (endJobs p) := fun _ h => spares_eachDo (fun _ => spares_jobEnd) h

theorem spares_freshAcct {old} : Spares base (freshAcct old) := fun _ h => spares_eachDo (fun _ _ h => spared_ite h (spares_regsReset (.acct _) h)) h

/-! ### A new image (R62) -/

theorem Lasting.trans {s t : State} (h : Lasting base s) (h' : Lasting s t) : Lasting base t where
  flash := h'.flash.trans h.flash
  boot := h'.boot.trans h.boot
  img := h'.img.trans h.img
  busy := fun g => (h'.busy g).trans (h.busy g)
  sysBoot := h'.sysBoot.trans h.sysBoot
  faults := fun f hf => h'.faults f (h.faults f hf)

/-- What spares more lasts. -/
theorem Spares.lasting {f : State → State} {s : State} (hf : ∀ base, Spares base f) (h : Lasting base s) : Lasting base (f s) :=
  h.trans (hf s (spared_refl s)).toLasting

theorem lasting_ite {p : Prop} [Decidable p] {a b : State} (ha : Lasting base a) (hb : Lasting base b) : Lasting base (if p then a else b) := by
  split <;> assumption

theorem lasting_with {s : State} {pending force cnt mem host poison time fuses svc accRaised out readData fresh parts models binds strms
    jobs cores ports banks eccHour srcs emus ents dos reqs cmprs mirrors fio lqs wire ethWait ptp cports drains sbonds fes cds decTurn loads cages
    spans gops clk pwr} (h : Lasting base s) :
    Lasting base (State.mk pending s.regs force cnt mem host poison time s.flash fuses s.boot s.img s.rings svc s.faults accRaised out readData fresh
      parts models binds strms jobs cores ports banks eccHour srcs emus ents dos reqs cmprs mirrors fio lqs wire ethWait ptp cports drains sbonds
      fes cds decTurn loads cages spans gops clk pwr) := ⟨h.flash, h.boot, h.img, h.busy, h.sysBoot, h.faults⟩

theorem lasting_setQual {q ppb} {s : State} (h : Lasting base s) : Lasting base (setQual q ppb s) :=
  lasting_ite (Spares.lasting (fun _ => spares_showErr) h)
    (Spares.lasting (f := fun s => timeEvt 1 (showErr (wrF kTIME_STAT 2 0 q s))) (fun _ _ hs => spares_timeEvt (spares_showErr (spares_wrF hs (.lit rfl))))
      (lasting_with (lasting_ite (Spares.lasting (fun _ => spares_draw) h) h)))

theorem lasting_ptpLostBody {p} {s : State} (h : Lasting base s) : Lasting base (ptpLostBody p s) :=
  have hstate : Lasting base (setPtpState p 1 s) := Spares.lasting (fun _ => spares_setPtpState) h
  lasting_ite h (Spares.lasting (f := fun s => raiseFault 0xA002 p 0xFF 0 [0] (timeEvt 2 s)) (fun _ _ hs => spares_raiseFault (spares_timeEvt hs))
    (lasting_ite (lasting_setQual hstate) hstate))

theorem lasting_restPart {gen p} {s : State} (h : Lasting base s) : Lasting base (restPart gen p s) :=
  have hrest : Lasting base { updPart p (fun x => { jobNo := x.jobNo, area := x.area }) s with gops := s.gops.del p, mirrors := s.mirrors.del p } :=
    ⟨h.flash, h.boot, h.img, h.busy, h.sysBoot, h.faults⟩
  Spares.lasting (f := fun s => showSched p (wrF (acctBase p + 0x80) 3 1 0 (wrF (kPART_STATUS p) 2 0 (if partUsed p s then runState p s else 0) s)))
    (fun _ _ hs => spares_showSched (spares_wrF (spares_wrF hs (.partStatus _)) (.add (.acct _))))
    (lasting_ite (Spares.lasting (fun _ _ h => spares_inc h (.partGen _)) hrest) hrest)

/-- Counters that start again lie in their units' blocks. -/
theorem unitReg_counterRanges {l : List Sec} {ps : List Nat} : ∀ r ∈ counterRanges l ps, UnitReg r.1 := by
  have hat {b : Nat} (hb : UnitReg b) {rs : List (Nat × Nat)} {r : Nat × Nat} (hr : r ∈ rs.map fun x => (b + x.1, b + x.2)) : UnitReg r.1 := by
    obtain ⟨x, -, rfl⟩ := List.mem_map.mp hr
    exact hb.add
  intro r hr
  simp only [counterRanges, List.mem_append, List.mem_flatMap, or_assoc] at hr
  rcases hr with ⟨st, -, h⟩ | ⟨p, -, h⟩ | ⟨g, -, h⟩ | ⟨q, -, h⟩ | ⟨q, -, h⟩ | ⟨n, -, h⟩ | ⟨n, -, h⟩
  · rcases h with h | h | h | h | h | ⟨i, -, h⟩
    · exact hat (.frontEnd _) h
    · exact hat (.str _) h
    · exact hat (.lds _) h
    · exact hat (.ss _) h
    · exact hat (.lane _) h
    · exact hat (.lane _) h
  · exact h.elim (hat (.ldp _)) (hat (.ring _))
  · exact hat (.grp _) h
  · exact hat (.ethq _ _) h
  · exact hat (.ethq _ _) h
  · exact hat (.core _) h
  · exact hat (.cds _) h

/-- R62: a new image changes the image, and neither flash, the boot state nor what a ring has in hand. -/
theorem lasting_applyImage {gen new} {s : State} : Lasting { s with img := new } (applyImage gen new s) := by
  unfold applyImage
  extract_lets +onlyGivenNames old ps s0 s1 s2 sts s3 s4 s5 s6 s7 s8 s9 s10 s11 s12
  have h1 : Lasting s s1 :=
    (spares_clearGroups (spares_clearQueues (spares_eachDo (fun _ => spares_endJobs) (spared_refl s)))).toLasting
  have h2 : Lasting s s2 := eachDo_keeps (P := Lasting s) (fun _ _ _ hs => lasting_ite (lasting_ptpLostBody hs) hs) h1
  have h3 : Lasting { s with img := new } { s3 with img := new } :=
    have ⟨hflash, hboot, _, hbusy, hsys, hfaults⟩ := Spares.lasting (f := resetAll _)
      (fun _ => spares_resetAll fun r hr => (List.mem_append.mp hr).elim (unitReg_counterRanges r) (unitReg_counterRanges r)) h2
    ⟨hflash, hboot, rfl, hbusy, hsys, hfaults⟩
  have h10 : Lasting { s with img := new } s10 := by
    have h9 {base : State} (hb : Spared base { s3 with img := new }) : Spared base s9 :=
      spares_freshPower (spares_freshLinks (spares_freshPorts (spares_freshEmus (spares_freshSources (spares_freshAcct
        (spares_eachDo (fun _ => spares_freshPort) (spares_looseLanes (spares_eachDo (fun _ => spares_stillStream)
          (spares_keepBinds (spares_clearSlots (spares_clearCores (spares_clearMemory (spares_showImage hb)))))))))))))
    exact h3.trans (spared_ite (spares_setDomains (h9 (spared_refl _))) (h9 (spared_refl _))).toLasting
  have h11 : Lasting { s with img := new } s11 := eachDo_keeps (P := Lasting _) (fun _ _ _ hs => lasting_restPart hs) h10
  exact h11.trans (spares_showFio (spares_eachDo (fun _ => spares_showSs) (spares_eachDo
    (fun _ _ h => spares_showFixed (spares_showPace (spared_ite h (spared_ite (spares_unholdDusk h) h)))) (spared_refl s11)))).toLasting

end Spares

end Sys2Proof.Proofs
end

section
/-! The Nightfall state and the steward's restart (15_field_io_and_supervisor.md, R357, R358; 20_startup_and_faults.md, R452). -/

namespace Sys2Proof.Proofs

open Sys2Proof Sys2Proof.Machine Sys2Proof.Laws

/-! ### The Nightfall state where nothing is decided or waits (R358) -/

/-- The Nightfall state holds with FIRMWARE among its causes, and device memory and jobs are those of `base`. -/
structure NightHolds (base s : State) : Prop where
  night : night s = true
  cause : rdB kFIO_CAUSE 3 s = true
  mem : s.mem = base.mem
  poison : s.poison = base.poison
  jobs : s.jobs = base.jobs

section NightHolds

variable {base s : State}

theorem nightHolds_ite {p : Prop} [Decidable p] {a b : State} (ha : NightHolds base a) (hb : NightHolds base b) : NightHolds base (if p then a else b) := by
  split <;> assumption

theorem NightHolds.congr {t : State} (h : NightHolds base s) (hstat : rd kFIO_STAT t = rd kFIO_STAT s) (hcause : rd kFIO_CAUSE t = rd kFIO_CAUSE s)
    (hmem : t.mem = s.mem) (hpoison : t.poison = s.poison) (hjobs : t.jobs = s.jobs) : NightHolds base t where
  night := by rw [Machine.night, rdB, hstat]; exact h.night
  cause := by rw [rdB, hcause]; exact h.cause
  mem := hmem.trans h.mem
  poison := hpoison.trans h.poison
  jobs := hjobs.trans h.jobs

theorem nightHolds_wr {k : Nat} (v : Word) (hk : k ≠ 0x050000 ∧ k ≠ 0x050014) (h : NightHolds base s) : NightHolds base (wr k v s) :=
  h.congr (rd_wr_ne _ _ (by unfold kFIO_STAT; omega)) (rd_wr_ne _ _ (by unfold kFIO_CAUSE; omega)) rfl rfl rfl

theorem FlushFrame.nightHolds {fn : Nat} {t : State} (h : FlushFrame fn s t) (hs : NightHolds base s) : NightHolds base t := by
  have hoff {k : Nat} (hk : 0x050000 ≤ k) (hk' : k < 0x050018) : rd k t = rd k s := h.registers k (by
    have hbase : ringBase fn < 0x20000 ∨ 0x1000000 ≤ ringBase fn := by
      unfold ringBase
      split <;> omega
    simp only [flushReg, ringKey, kPWR_STAT, codecBase, Bool.or_eq_false_iff, decide_eq_false_iff_not, Bool.and_eq_false_iff]
    omega)
  exact hs.congr (hoff (by decide) (by decide)) (hoff (by decide) (by decide)) (by rw [h.rest]) (by rw [h.rest]) (by rw [h.rest])

theorem nightHolds_raiseFault {code unit part : Nat} {arg : Word} {fns : List Nat} (h : NightHolds base s) :
    NightHolds base (raiseFault code unit part arg fns s) :=
  raiseFault_keeps (P := NightHolds base) (fun k v _ hk hs => nightHolds_wr v (by unfold reportReg at hk; omega) hs)
    (fun _ _ hs => hs.congr rfl rfl rfl rfl rfl) (fun g _ e _ hs => (ringOnly_raiseTo g e).flushFrame.nightHolds hs) _ _ _ _ h

theorem nightHolds_showFio (h : NightHolds base s) : NightHolds base (showFio s) := by
  have hbit {b : Bool} : NightHolds base (wrB kFIO_STAT 3 b s) := {
    night := by
      rw [Machine.night, rdB, rd_wrB_same, bitOf_setBit_ne _ _ (by decide)]
      exact h.night
    cause := by rw [rdB, rd_wrB_ne _ _ _ (by decide)]; exact h.cause
    mem := h.mem
    poison := h.poison
    jobs := h.jobs }
  exact nightHolds_wr _ (by decide) (nightHolds_wr _ (by decide) (nightHolds_wr _ (by decide) hbit))

theorem nightHolds_showGrp {g : Nat} (hg : g < 8) (h : NightHolds base s) : NightHolds base (showGrp g s) :=
  nightHolds_wr _ (by decide) (nightHolds_wr _ (by decide) (nightHolds_wr _ (by unfold grpBase ledBase; omega) h))

/-- The request of the Nightfall state itself asks for its output and touches no ledger entry. -/
theorem nightHolds_request {d : Nat} (hd : d < 32) (h : NightHolds base s) :
    NightHolds base (request { d := d, who := [.night], src := 0, f := 0, grace := none } s) := by
  have hg : grpBase (d / 4) < 0x050000 - 0x10 := by unfold grpBase ledBase; omega
  have hinc : NightHolds base (inc (grpBase (d / 4) + 0xC) 1 s) := nightHolds_wr _ (by omega) h
  dsimp only [request]
  split
  · exact hinc.congr rfl rfl rfl rfl rfl
  · exact nightHolds_ite (hinc.congr rfl rfl rfl rfl rfl) (nightHolds_ite (h.congr rfl rfl rfl rfl rfl) (h.congr rfl rfl rfl rfl rfl))

theorem nightHolds_nightSafe (h : NightHolds base s) : NightHolds base (nightSafe s) :=
  eachDo_keeps (P := NightHolds base) (fun _ hd _ hs => nightHolds_ite (nightHolds_request (List.mem_range.mp hd) hs) hs)
    (h.congr (t := { s with dos := s.dos.filter fun o => safeOf o.1 s ≠ 0 }) rfl rfl rfl rfl rfl)

theorem nightStop_of_none (hents : s.ents = []) (hreqs : s.reqs = []) :
    nightStop s = { s with reqs := [], dos := s.dos.map fun o => (o.1, { o.2 with who := [], ends := [], night := true }) } := by
  simp only [nightStop, hents, hreqs]
  rfl

/-- R357, R358: the FIRMWARE cause begins the Nightfall state, or joins it. -/
theorem nightHolds_nightfall (hents : s.ents = []) (hreqs : s.reqs = []) : NightHolds s (nightfall 3 false s) := by
  unfold nightfall
  extract_lets +onlyGivenNames first s1
  split
  · next hn =>
    exact nightHolds_showFio ⟨hn, rdB_wrB_same s _ _ _ (by decide), rfl, rfl, rfl⟩
  · extract_lets s2 s3 fio s4 s5 s6 s7 s8
    have h2 : rdB kFIO_CAUSE 3 s2 = true := by
      have h1 : rdB kFIO_CAUSE 3 s1 = true := rdB_wrB_same s _ _ _ (by decide)
      unfold s2
      split
      · rw [rdB, rd_wrF_same, bitOf_setFld _ _ _ _ _ (by decide)]
        exact h1
      · exact h1
    have h4 : NightHolds s s4 := by
      have hstat : night s3 = true := by
        rw [night, rdB, rd_wrB_ne _ _ _ (by decide)]
        exact rdB_wrB_same _ _ _ _ (by decide)
      have hcause : rdB kFIO_CAUSE 3 s3 = true := by
        rw [rdB, rd_wrB_ne _ _ _ (by decide), rd_wrB_ne _ _ _ (by decide)]
        exact h2
      have hrest : s2.mem = s.mem ∧ s2.poison = s.poison ∧ s2.jobs = s.jobs := by
        unfold s2
        split <;> exact ⟨rfl, rfl, rfl⟩
      obtain ⟨hmem, hpoison, hjobs⟩ := hrest
      exact nightHolds_wr _ (by decide) ⟨hstat, hcause, hmem, hpoison, hjobs⟩
    have h5 : NightHolds s s5 := by
      have hnone : s4.ents = [] ∧ s4.reqs = [] := by
        have h2' : s2.ents = s.ents ∧ s2.reqs = s.reqs := by
          unfold s2
          split <;> exact ⟨rfl, rfl⟩
        exact ⟨h2'.1.trans hents, h2'.2.trans hreqs⟩
      unfold s5
      rw [nightStop_of_none hnone.1 hnone.2]
      exact h4.congr rfl rfl rfl rfl rfl
    exact eachDo_keeps (P := NightHolds s) (fun _ _ _ hs => (ringOnly_fireInt 6).flushFrame.nightHolds hs)
      (nightHolds_raiseFault (nightHolds_showFio (eachDo_keeps (P := NightHolds s) (fun _ hg _ hs => nightHolds_showGrp (List.mem_range.mp hg) hs)
        (nightHolds_nightSafe h5))))

end NightHolds

/-! ### The restart (R452) -/

/-- R454: a fault that is not of class INFO is active once it is raised. -/
theorem faultActive_raiseFault {code unit part : Nat} {arg : Word} {fns : List Nat} {s : State} (hclass : faultClass code ≠ .info) :
    FaultActive code unit part (raiseFault code unit part arg fns s) := by
  have hwr : ∀ k v s, reportReg k → FaultActive code unit part s → FaultActive code unit part (wr k v s) := fun _ _ _ _ h => h
  unfold raiseFault
  extract_lets same s2 s3 e
  split
  · next h =>
    obtain ⟨f, hf, hsame⟩ := List.any_eq_true.mp h.2
    exact relogFault_keeps hwr _ _ _ ⟨f, hf, of_decide_eq_true hsame⟩
  · have h2 : FaultActive code unit part s2 := by
      unfold s2
      rw [if_neg hclass]
      exact ⟨_, List.mem_append_right _ (List.mem_singleton.mpr rfl), rfl, rfl, rfl⟩
    refine showFaults_keeps hwr (eachDo_keeps (P := FaultActive code unit part) (fun g _ t ht => ?_) (logFault_keeps hwr code unit part arg h2))
    unfold FaultActive
    rw [(ringOnly_raiseTo g e).rest]
    exact ht

section Restart

variable {s : State}

/-- Every ring flushed. -/
def flushRings (s : State) : State := eachDo flushRing (upTo 17) s

/-- The firmware stopped; the module had been ready, or had not. -/
def firmwareStopped (was : Bool) (s : State) : State := updBoot (fun b => { b with fwRunning := false, restarting := was }) s

theorem stewardRestart_eq : stewardRestart s =
    raiseFault 0x1003 0 0xFF 0 [0] (setStage (if isReady (flushRings (nightfall 3 false s)) || (flushRings (nightfall 3 false s)).boot.restarting then 1 else 0)
      (firmwareStopped (isReady (flushRings (nightfall 3 false s)) || (flushRings (nightfall 3 false s)).boot.restarting) (flushRings (nightfall 3 false s)))) := rfl

/-- A free ring stays free in a flush. -/
theorem busy_flushRing {fn : Nat} (h : (ring fn s).busy = none) : (ring fn (flushRing fn s)).busy = none := by
  unfold flushRing
  split
  · exact h
  · extract_lets s2
    have h2 : (ring fn s2).busy = none := (busy_updRing (f := fun r => { r with flushing := true, fetched := [] }) (fun _ => rfl) fn).trans h
    rw [h2]
    show (ring fn (flushEnd fn s2)).busy = none
    rw [ring_flushEnd]
    exact h2

/-- What a flush of every ring leaves. -/
structure RingsFlushed (s t : State) : Prop where
  rest : t = { s with regs := t.regs, rings := t.rings, host := t.host, out := t.out }
  sysBoot : rd kSYS_BOOT t = rd kSYS_BOOT s
  free : ∀ fn, (ring fn s).busy = none → (ring fn t).busy = none

theorem FlushFrame.sysBoot {fn : Nat} {t : State} (h : FlushFrame fn s t) : rd kSYS_BOOT t = rd kSYS_BOOT s := h.registers _ (by
  have := ringBase_ge fn
  simp only [flushReg, ringKey, kSYS_BOOT, kPWR_STAT, codecBase, Bool.or_eq_false_iff, decide_eq_false_iff_not, Bool.and_eq_false_iff]
  omega)

theorem ringsFlushed (s : State) : RingsFlushed s (flushRings s) :=
  eachDo_keeps (P := RingsFlushed s) (f := flushRing) (fun fn _ t ht => by
    have hf : FlushFrame fn t (flushRing fn t) := flushFrame_flushRing
    refine ⟨by rw [hf.rest, ht.rest], hf.sysBoot.trans ht.sysBoot, fun g hg => ?_⟩
    by_cases hgf : g = fn
    · subst hgf
      exact busy_flushRing (ht.free g hg)
    · rw [hf.others g hgf]
      exact ht.free g hg) ⟨rfl, rfl, fun _ h => h⟩

theorem isReady_congr {t : State} (h : rd kSYS_BOOT t = rd kSYS_BOOT s) : isReady t = isReady s := by
  rw [isReady, stage, rdF, h]
  rfl

theorem restarting_kept : (isReady (flushRings (nightfall 3 false s)) || (flushRings (nightfall 3 false s)).boot.restarting) =
    (isReady s || s.boot.restarting) := by
  have hflush := ringsFlushed (nightfall 3 false s)
  have hnight : Spared s (nightfall 3 false s) := spares_nightfall (spared_refl s)
  rw [isReady_congr hflush.sysBoot, isReady_congr hnight.sysBoot, hflush.rest]
  show (isReady s || (nightfall 3 false s).boot.restarting) = _
  rw [hnight.boot]

/-- R452: what the restart of the steward leaves. -/
structure Restarted (s t : State) : Prop where
  flash : t.flash = s.flash
  time : t.time = s.time
  boot : t.boot = { s.boot with fwRunning := false, restarting := isReady s || s.boot.restarting }
  free : ∀ fn, (ring fn s).busy = none → (ring fn t).busy = none
  fault : FaultActive 0x1003 0 0xFF t
  night : s.ents = [] → s.reqs = [] → NightHolds s t

theorem stewardRestart_effect : Restarted s (stewardRestart s) := by
  have hnight : Spared s (nightfall 3 false s) := spares_nightfall (spared_refl s)
  have hflush := ringsFlushed (nightfall 3 false s)
  rw [stewardRestart_eq, restarting_kept]
  generalize hwas : (isReady s || s.boot.restarting) = was
  generalize hv : flushRings (nightfall 3 false s) = v at *
  have hlast : Spared (setStage (if was then 1 else 0) (firmwareStopped was v))
      (raiseFault 0x1003 0 0xFF 0 [0] (setStage (if was then 1 else 0) (firmwareStopped was v))) := spares_raiseFault (spared_refl _)
  have hflash : v.flash = s.flash := by rw [hflush.rest, ← hnight.flash]
  have htime : v.time = s.time := by rw [hflush.rest, ← hnight.time]
  have hboot : v.boot = s.boot := by rw [hflush.rest, ← hnight.boot]
  exact {
    flash := hlast.flash.trans hflash
    time := hlast.time.trans htime
    boot := hlast.boot.trans (by
      rw [show (setStage (if was then 1 else 0) (firmwareStopped was v)).boot = { v.boot with fwRunning := false, restarting := was } from rfl,
        hboot, hwas])
    free := fun fn h => (hlast.busy fn).trans (hflush.free fn ((hnight.busy fn).trans h))
    fault := faultActive_raiseFault (by decide)
    night := fun hents hreqs => by
      have hv' : NightHolds s v := by
        rw [← hv]
        exact eachDo_keeps (P := NightHolds s) (fun _ _ _ hs => flushFrame_flushRing.nightHolds hs) (nightHolds_nightfall hents hreqs)
      exact nightHolds_raiseFault (nightHolds_wr _ (by decide) (nightHolds_wr _ (by decide)
        (hv'.congr (t := firmwareStopped was v) rfl rfl rfl rfl rfl))) }

end Restart

end Sys2Proof.Proofs
end

section
/-! Firmware slots, images and their service steps (03_configuration_image.md, R58, R62; 20_startup_and_faults.md, R451): what follows once their
commands go on, and the commands of the audit log, firmware and images together. -/

namespace Sys2Proof.Proofs

open Sys2Proof Sys2Proof.Machine Sys2Proof.Laws

section Steps

variable {d : SvcDesc} {data : List Byte} {s : State}

theorem busy_finish (fn : Nat) (d : SvcDesc) (status flags : Nat) (res : List Byte) (s : State) :
    (ring fn (finish fn d status flags res s)).busy = none := by
  obtain ⟨hs, ds, n, fl, h, -⟩ := ring_finish fn d status flags res s
  rw [h]

/-- R58: the staged slot is written, under its number. -/
theorem staged_effect (no : Word) :
    let t := staged 0 d data no (turnPast 0 s)
    t.flash.imgStaged = some data ∧ t.flash.stageNo = no ∧ t.flash.imgActive = s.flash.imgActive ∧ (ring 0 t).busy = none ∧ SvcFrame s t := by
  intro t
  have hring : RingOnly 0 { turnPast 0 s with flash := { s.flash with imgStaged := some data, stageNo := no } } t := ringOnly_finish d stOK 0 _
  rw [hring.flash]
  exact ⟨rfl, rfl, rfl, busy_finish 0 d stOK 0 _ _, SvcFrame.trans (t := { turnPast 0 s with flash := { s.flash with imgStaged := some data, stageNo := no } }) rfl
    hring.svcFrame⟩

/-- The firmware of the command is in the inactive slot and pending, and its command is done. -/
structure FirmwareWritten (data : List Byte) (s t : State) : Prop where
  flash : t.flash = (putFw (some data) true s).flash
  free : (ring 0 t).busy = none
  restarted : s.boot.recovery = false → t.boot.fwRunning = false ∧ FaultActive 0x1003 0 0xFF t

/-- R451: the written slot is pending and, but in recovery, the steward restarts. -/
theorem firmwareWritten : FirmwareWritten data s (fwWritten 0 d data (turnPast 0 s)) := by
  unfold fwWritten
  extract_lets u
  have hu : RingOnly 0 (putFw (some data) true (turnPast 0 s)) u := ringOnly_finish d stOK 0 _
  have hboot : u.boot = s.boot := hu.boot
  have hfree : (ring 0 u).busy = none := busy_finish 0 d stOK 0 _ _
  split
  · next hrec => exact ⟨hu.flash, hfree, fun h => by simp [hboot, h] at hrec⟩
  · have hshow : Spared u (showFio { u with fio := { u.fio with fwUpdate := true } }) := spares_showFio (spared_with (spared_refl u))
    have hre := stewardRestart_effect (s := showFio { u with fio := { u.fio with fwUpdate := true } })
    exact ⟨hre.flash.trans (hshow.flash.trans hu.flash), hre.free 0 ((hshow.busy 0).trans hfree), fun _ => ⟨by rw [hre.boot], hre.fault⟩⟩

/-- R62: the active image comes into force, and its command is done. -/
theorem applied_effect {b : List Byte} {l : List ISec} (hact : s.flash.imgActive = some b) (hsecs : imgSecs b = .inr l) :
    let t := applied 0 d (turnPast 0 s)
    t.img = l.map ISec.sec ∧ t.flash.committing = false ∧ t.flash.imgActive = some b ∧ (ring 0 t).busy = none := by
  intro t
  have hcommit : commitApply (turnPast 0 s) = { applyImage true (l.map ISec.sec) (turnPast 0 s) with
      flash := { (applyImage true (l.map ISec.sec) (turnPast 0 s)).flash with committing := false } } := by
    have hnow : (turnPast 0 s).flash.imgActive.map imgSecs = some (.inr l) := by
      rw [show (turnPast 0 s).flash = s.flash from rfl, hact, Option.map_some, hsecs]
    rw [commitApply, hnow]
  have hring : RingOnly 0 (commitApply (turnPast 0 s)) t := ringOnly_finish d stOK 0 []
  have hlast : Lasting { turnPast 0 s with img := l.map ISec.sec } (applyImage true (l.map ISec.sec) (turnPast 0 s)) := lasting_applyImage
  rw [hring.flash, hring.img, hcommit]
  exact ⟨hlast.img, rfl, (congrArg Flash.imgActive hlast.flash).trans hact, busy_finish 0 d stOK 0 [] _⟩

end Steps

/-! ### The commands together -/

section Clauses

variable {d : SvcDesc} {h : HostIn} {s : State}

/-- R47: a log that was not exported is not sealed. -/
theorem svcRow_seal_unexported (hs : SvcStarts 0x0112 0 d h s) (hexp : s.flash.auditExported = false) :
    Answered 0 (rowDesc 0x0112 d) stAUDIT_UNEXPORTED [] (svcState 0x0112 0 d h s) (svcRow 0x0112 0 d h s) ∧ SvcFrame s (svcRow 0x0112 0 d h s) ∧
      FlashSame s (svcRow 0x0112 0 d h s) := by
  have hcmd : dCMD (rowDesc 0x0112 d) = 0x0112 := dCMD_rowDesc d (by decide)
  have hflash := flash_svcState (fn := 0) (d := d) (h := h) (s := s) (code := 0x0112) rfl
  have hplan : planAuditSeal 0 (rowDesc 0x0112 d) (svcState 0x0112 0 d h s) = refuse 0 (rowDesc 0x0112 d) stAUDIT_UNEXPORTED [] := by
    simp [planAuditSeal, hflash, hexp]
  exact svcRow_refused_flash (by decide) (by decide) rfl hs (by simp only [planOf, planLow, hcmd]; exact hplan)

end Clauses

/-- Settles O24: each command's plan acts on the flash and completes, or goes on at the service step that writes the slot, restarts the steward or puts
the image into force. -/
theorem auditLogFirmwareAndImagesFollowTheirCommands : Obligations.AuditLogFirmwareAndImagesFollowTheirCommands := by
  unfold Obligations.AuditLogFirmwareAndImagesFollowTheirCommands
  refine ⟨?_, fun d h s => ⟨?_, ?_, ?_, ?_, ?_, ?_, ?_⟩, fun d s hrun hidle hturn hserved => ⟨?_, ?_, ?_⟩⟩
  · intro fn d h s hs s1 d' rs hap
    exact ⟨_, rfl, svcRow_auditRead fn.isLt hs rfl rfl hap⟩
  · intro hs s1 hap
    exact ⟨_, rfl, svcRow_auditExport (by decide) hs hap⟩
  · intro hs s1
    exact ⟨fun hexp => ⟨_, rfl, svcRow_seal (by decide) hs hexp⟩, fun hexp => ⟨_, rfl, svcRow_seal_unexported hs hexp⟩⟩
  · intro hs s1 data
    exact ⟨fun hg => ⟨_, rfl, svcRow_fwGood (by decide) hs rfl hg⟩, fun hg => ⟨_, rfl, svcRow_fwBad (by decide) hs rfl hg⟩⟩
  · intro hs s1 data
    refine ⟨fun new hok => ⟨_, rfl, svcRow_imageLoad (by decide) hs rfl hok⟩, fun e hbad => ⟨_, rfl, ?_⟩⟩
    obtain ⟨hans, hframe, hflash⟩ := svcRow_imageLoad_bad (by decide) hs rfl hbad
    exact ⟨hframe, hflash, hans⟩
  · intro hs s1
    exact ⟨_, rfl, svcRow_discard (by decide) hs⟩
  · intro hs s1 b hap
    exact ⟨_, rfl, svcRow_imageRead (by decide) hs rfl hap⟩
  · intro hs s1 no
    refine ⟨fun b new hok => ⟨_, rfl, svcRow_commit (by decide) hs hok⟩, fun e hbad => ⟨_, rfl, ?_⟩⟩
    obtain ⟨hans, hframe, hflash⟩ := svcRow_commit_bad (by decide) hs hbad
    exact ⟨hframe, hflash, hans⟩
  · intro data no hb
    have hstep : ringStep 0 (turnPast 0 s) = staged 0 d data no (turnPast 0 s) := by
      rw [ringStep, show ring 0 (turnPast 0 s) = ring 0 s from rfl, hb]
    exact ⟨_, stewardServiceStep_of_turn (by decide) hrun hidle hturn (by simp [ringWork, hserved, hb]), hstep ▸ staged_effect no⟩
  · intro data hb
    have hstep : ringStep 0 (turnPast 0 s) = fwWritten 0 d data (turnPast 0 s) := by
      rw [ringStep, show ring 0 (turnPast 0 s) = ring 0 s from rfl, hb]
    obtain ⟨hflash, hfree, hre⟩ : FirmwareWritten data s (fwWritten 0 d data (turnPast 0 s)) := firmwareWritten
    obtain ⟨hnew, hold⟩ := fwSlot_putFw (some data) true s
    refine ⟨_, stewardServiceStep_of_turn (by decide) hrun hidle hturn (by simp [ringWork, hserved, hb]), ?_⟩
    rw [hstep]
    have hslot (b : Bool) : fwSlot b (fwWritten 0 d data (turnPast 0 s)) = fwSlot b (putFw (some data) true s) := by
      simp only [fwSlot, hflash]
    exact ⟨by rw [hflash]; rfl, (hslot _).trans hnew, (hslot _).trans hold, hfree, hre⟩
  · intro b l hb hact hsecs
    have hstep : ringStep 0 (turnPast 0 s) = applied 0 d (turnPast 0 s) := by
      rw [ringStep, show ring 0 (turnPast 0 s) = ring 0 s from rfl, hb]
    exact ⟨_, stewardServiceStep_of_turn (by decide) hrun hidle hturn (by simp [ringWork, hserved, hb]), hstep ▸ applied_effect hact hsecs⟩

end Sys2Proof.Proofs
end

section
/-! Wipes, failed firmware and the ends of an unlock (02_partitions_and_roles.md, R42; 11_memory.md, R264; 15_field_io_and_supervisor.md, R357;
20_startup_and_faults.md, R451, R452). -/

namespace Sys2Proof.Proofs

open Sys2Proof Sys2Proof.Machine Sys2Proof.Laws

/-! ### The Midnight wipe (R264) -/

section Wipe

variable {d : Nat} {s : State}

theorem onlyRegs_wr {t : State} (k : Nat) (v : Word) (h : OnlyRegs s t) : OnlyRegs s (wr k v t) := by
  show wr k v t = _
  rw [h]
  rfl

theorem onlyRegs_refl : OnlyRegs s s := rfl

theorem onlyRegs_memorySame {t : State} (h : OnlyRegs s t) : MemorySame s t := by
  rw [h]
  exact ⟨fun _ => rfl, rfl⟩

theorem onlyRegs_pwr {t : State} (h : OnlyRegs s t) : t.pwr = s.pwr := by rw [h]

theorem onlyRegs_mem {t : State} (h : OnlyRegs s t) : t.mem = s.mem := by rw [h]

theorem onlyRegs_showWiping (t : State) (h : OnlyRegs s t) : OnlyRegs s (showWiping t) :=
  eachDo_keeps (P := OnlyRegs s) (fun _ _ _ hs => onlyRegs_wr _ _ hs) (eachDo_keeps (P := OnlyRegs s) (fun _ _ _ hs => onlyRegs_wr _ _ hs) h)

theorem onlyRegs_showWipe : OnlyRegs s (showWipe s) :=
  eachDo_keeps (P := OnlyRegs s) (fun _ _ _ hs => onlyRegs_wr _ _ hs) (onlyRegs_showWiping s onlyRegs_refl)

/-- Memory without the words of a domain's SRAM, and the domain waking no more. -/
structure Wiped (d : Nat) (s t : State) : Prop where
  mem : t.mem = s.mem.filter fun c => decide (sramDom c.1 ≠ some d)
  wiping : t.pwr.wiping = s.pwr.wiping.filter (· != d)

/-- The words of a domain's SRAM gone. -/
def unwiped (d : Nat) (s : State) : State :=
  { s with
    pwr := { s.pwr with wiping := s.pwr.wiping.filter (· != d) }, mem := s.mem.filter fun c => decide (sramDom c.1 ≠ some d),
    poison := s.poison.filter fun w => decide (sramDom w ≠ some d) }

theorem wiped_wipeSram : Wiped d s (wipeSram d s) := by
  have h : OnlyRegs (unwiped d s) (wipeSram d s) := onlyRegs_showWiping (unwiped d s) onlyRegs_refl
  exact ⟨onlyRegs_mem h, congrArg Pwr.wiping (onlyRegs_pwr h)⟩

/-- A loop that leaves memory and power alone. -/
theorem Wiped.eachDo {α : Type} {f : α → State → State} {l : List α} {t : State} (h : Wiped d s t)
    (hf : ∀ x t, (f x t).mem = t.mem ∧ (f x t).pwr = t.pwr) : Wiped d s (eachDo f l t) :=
  eachDo_keeps (P := Wiped d s) (fun x _ t ht => ⟨(hf x t).1.trans ht.mem, (congrArg Pwr.wiping (hf x t).2).trans ht.wiping⟩) h

theorem Wiped.again {t : State} (h : Wiped d s t) : Wiped d s { t with pwr := { t.pwr with wiping := t.pwr.wiping.filter (· != d) } } :=
  ⟨h.mem, by simp [h.wiping]⟩

/-- R264: the wipe of a domain that wakes. -/
theorem wiped_wipeDom (hd : d ∈ s.pwr.wiping) : Wiped d s (wipeDom d s) := by
  have h := wiped_wipeSram (d := d) (s := s)
  unfold wipeDom
  rw [if_neg (not_not_intro hd)]
  extract_lets u n
  split
  · exact h
  · split
    · split
      · exact h
      · exact ⟨h.mem, h.wiping⟩
    · split
      · exact h.again.eachDo fun _ _ => ⟨rfl, rfl⟩
      · refine h.again.eachDo fun _ _ => ?_
        split <;> exact ⟨rfl, rfl⟩

theorem Wiped.devByte {t : State} (h : Wiped d s t) (a : Nat) : devByte a t = if sramDom a = some d then 0 else devByte a s := by
  rw [Machine.devByte, h.mem, get_filter (fun a => decide (sramDom a ≠ some d))]
  by_cases ha : sramDom a = some d <;> simp [ha, Machine.devByte]

/-- R264: the SRAM of a core's domain is its scratchpad. -/
theorem sramDom_core (h1 : 50 ≤ d) (h2 : d < 114) (h3 : d % 2 = 1) (a : Nat) :
    sramDom a = some d ↔ weightBank ((d - 50) / 2) ≤ a ∧ a < weightBank ((d - 50) / 2) + 0x400000 := by
  unfold sramDom inCluster inScratch scratchCore weightBank
  split
  · next h =>
    simp only [Bool.and_eq_true, decide_eq_true_eq] at h
    simp only [Option.some.injEq]
    omega
  · split
    · next h =>
      simp only [Bool.and_eq_true, decide_eq_true_eq] at h
      simp only [Option.some.injEq]
      omega
    · next h =>
      simp only [Bool.and_eq_true, decide_eq_true_eq] at h
      simp only [reduceCtorEq, false_iff]
      omega

/-- R250: the SRAM of a cluster bank's domain is every fourth stretch of 512 bytes. -/
theorem sramDom_bank (h1 : 34 ≤ d) (h2 : d < 50) (a : Nat) :
    sramDom a = some d ↔ 0x1000000000 + (d - 34) / 4 * 0x2000000 ≤ a ∧ a < 0x1000000000 + (d - 34) / 4 * 0x2000000 + 0x1800000 ∧
      a / 64 % 32 / 8 = (d - 34) % 4 := by
  unfold sramDom inCluster inScratch scratchCore
  split
  · next h =>
    simp only [Bool.and_eq_true, decide_eq_true_eq] at h
    simp only [Option.some.injEq]
    omega
  · next h =>
    simp only [Bool.and_eq_true, decide_eq_true_eq] at h
    split
    · next h' =>
      simp only [Bool.and_eq_true, decide_eq_true_eq] at h'
      simp only [Option.some.injEq]
      omega
    · simp only [reduceCtorEq, false_iff]
      omega

theorem midnightWipe_effect (d : Fin 148) (s : State) : ∃ t, exec (.midnightWipe d) s = .next t ∧
    (d.val ∉ s.pwr.wiping → MemorySame s t ∧ t.pwr = s.pwr) ∧ (d.val ∈ s.pwr.wiping → Wiped d.val s t) := by
  refine ⟨_, rfl, fun hd => ?_, fun hd => ?_⟩
  · have hnone : wipeDom d.val s = s := if_pos hd
    rw [hnone]
    exact ⟨onlyRegs_memorySame onlyRegs_showWipe, onlyRegs_pwr onlyRegs_showWipe⟩
  · have h := wiped_wipeDom hd
    exact ⟨(onlyRegs_mem onlyRegs_showWipe).trans h.mem, (congrArg Pwr.wiping (onlyRegs_pwr onlyRegs_showWipe)).trans h.wiping⟩

end Wipe

/-! ### An event of the audit log (R45) -/

section Audit

variable {s : State}

/-- A flash whose audit log alone differs. -/
def auditOf (f g : Flash) : Prop := g = { f with audit := g.audit, auditSeq := g.auditSeq, auditExported := g.auditExported, auditLost := g.auditLost }

/-- An audit event changes the audit log alone of the flash, and may raise AUDIT_FULL. -/
theorem auditEvent_effect (code status part : Nat) (digest : List Byte) :
    ∃ f, auditOf s.flash f ∧ Spared { s with flash := f } (auditEvent code status part digest s) := by
  unfold auditEvent auditLose
  split
  · unfold auditPut
    extract_lets f r s2
    refine ⟨s2.flash, rfl, ?_⟩
    exact spared_ite (spares_raiseFault (spared_refl s2)) (spared_refl s2)
  · exact ⟨{ s.flash with auditLost := s.flash.auditLost + 1 }, rfl, spared_refl _⟩

/-- R42: the end of an unlock. -/
theorem endExpert_effect (status : Nat) (h : expert s = true) :
    expert (endExpert status s) = false ∧ (endExpert status s).flash.expertOpen = false ∧ MemorySame s (endExpert status s) := by
  have hframe : BusFrame 0 s (endExpert status s) := busFrame_endExpert status
  refine ⟨?_, ?_, hframe.memorySame⟩
  · rw [endExpert_of_open status h]
    exact (busFrame_auditEvent 0xE003 status 0xFF []).locked rfl
  · obtain ⟨f, hf, hs⟩ := auditEvent_effect (s := withExpert none s) 0xE003 status 0xFF []
    rw [endExpert_of_open status h, hs.flash]
    exact congrArg Flash.expertOpen hf

end Audit

/-! ### Firmware that does not reach READY (R451) -/

section Fallback

variable {base s t : State}

/-- No firmware is pending or none other than in `base`, the boot state and SYS_BOOT are those of `base`, and its faults are active. -/
structure BootKept (base s : State) : Prop where
  pending : s.flash.fwPending = base.flash.fwPending
  boot : s.boot = base.boot
  sysBoot : rd kSYS_BOOT s = rd kSYS_BOOT base
  faults : ∀ f ∈ base.faults, f ∈ s.faults

theorem bootKept_refl : BootKept s s := ⟨rfl, rfl, rfl, fun _ => id⟩

theorem BootKept.lasting (h : BootKept base s) (hl : Lasting s t) : BootKept base t where
  pending := (congrArg Flash.fwPending hl.flash).trans h.pending
  boot := hl.boot.trans h.boot
  sysBoot := hl.sysBoot.trans h.sysBoot
  faults := fun f hf => hl.faults f (h.faults f hf)

theorem bootKept_ite {p : Prop} [Decidable p] {a b : State} (ha : BootKept base a) (hb : BootKept base b) : BootKept base (if p then a else b) := by
  split <;> assumption

theorem bootKept_raiseFault {code unit part : Nat} {arg : Word} {fns : List Nat} (h : BootKept base s) :
    BootKept base (raiseFault code unit part arg fns s) := h.lasting (spares_raiseFault (spared_refl s)).toLasting

/-- Another flash with the same firmware pending. -/
theorem BootKept.flash {f : Flash} (h : BootKept base s) (hf : f.fwPending = s.flash.fwPending) : BootKept base { s with flash := f } :=
  ⟨hf.trans h.pending, h.boot, h.sysBoot, h.faults⟩

theorem bootKept_auditEvent {code status part : Nat} {digest : List Byte} (h : BootKept base s) : BootKept base (auditEvent code status part digest s) := by
  obtain ⟨f, hf, hs⟩ := auditEvent_effect (s := s) code status part digest
  exact (h.flash (f := f) (by rw [hf])).lasting hs.toLasting

theorem bootKept_auditCheck (h : BootKept base s) : BootKept base (auditCheck s) := by
  unfold auditCheck
  extract_lets +onlyGivenNames f1 u s2 f2 s3 f3
  have h2 : BootKept base s2 := bootKept_ite (bootKept_raiseFault (bootKept_auditEvent (h.flash rfl))) h
  have h3 : BootKept base s3 := bootKept_ite h2 (bootKept_raiseFault (h2.flash rfl))
  exact bootKept_ite (bootKept_auditEvent (h3.flash rfl)) h3

theorem bootKept_applyImage {new : List Sec} (h : BootKept base s) : BootKept base (applyImage false new s) :=
  BootKept.lasting (s := { s with img := new }) ⟨h.pending, h.boot, h.sysBoot, h.faults⟩ lasting_applyImage

theorem bootKept_bootImage (h : BootKept base s) : BootKept base (bootImage s) := by
  unfold bootImage
  extract_lets bad
  have hbad : BootKept base (bad s) := bootKept_applyImage (bootKept_raiseFault h)
  split
  · exact hbad
  · split
    · exact hbad
    · exact bootKept_ite h (bootKept_applyImage h)

theorem bootKept_bootChecks (h : BootKept base s) : BootKept base (bootChecks s) := by
  unfold bootChecks
  extract_lets +onlyGivenNames on f1 s2 f2 s3
  have h2 : BootKept base s2 := bootKept_auditCheck (bootKept_ite (h.flash rfl) h)
  have h3 : BootKept base s3 := bootKept_ite (h2.flash rfl) h2
  exact bootKept_bootImage (bootKept_ite (bootKept_raiseFault (h3.flash rfl)) h3)

/-- Nothing is pending, FALLBACK shows, FW_BAD is active. -/
structure FellBack (t : State) : Prop where
  pending : t.flash.fwPending = none
  shown : rdB kSYS_BOOT 9 t = true
  fault : FaultActive 0x1001 0 0xFF t

theorem FellBack.kept (h : FellBack s) (hk : BootKept s t) : FellBack t where
  pending := hk.pending.trans h.pending
  shown := by rw [rdB, hk.sysBoot]; exact h.shown
  fault := have ⟨f, hf, hid⟩ := h.fault; ⟨f, hk.faults f hf, hid⟩

/-- Another field of SYS_BOOT is written. -/
theorem FellBack.sysBoot {w : Word} (h : FellBack s) (hw : bitOf 9 w = bitOf 9 (rd kSYS_BOOT s)) : FellBack (wr kSYS_BOOT w s) where
  pending := h.pending
  shown := by rw [rdB, rd_wr_same, hw]; exact h.shown
  fault := h.fault

theorem FellBack.wr {k : Nat} {w : Word} (h : FellBack s) (hk : k ≠ kSYS_BOOT) : FellBack (wr k w s) where
  pending := h.pending
  shown := by rw [rdB, rd_wr_ne _ _ (Ne.symm hk)]; exact h.shown
  fault := h.fault

theorem FellBack.setStage {n : Nat} (h : FellBack s) : FellBack (setStage n s) :=
  FellBack.wr (h.sysBoot (bitOf_setFld 9 2 0 n _ (by decide))) (by decide)

theorem FellBack.updBoot {f : Boot → Boot} (h : FellBack s) : FellBack (updBoot f s) := ⟨h.pending, h.shown, h.fault⟩

/-- A firmware slot boots: it runs at stage 1. -/
theorem runFw_effect {b : Bool} (h : FellBack s) :
    FellBack (runFw b s) ∧ (runFw b s).boot.slotB = b ∧ (runFw b s).boot.fwRunning = true ∧ stage (runFw b s) = 1 := by
  unfold runFw
  extract_lets s2
  have hstart : FellBack (setStage 1 (showFw (wrB kSYS_BOOT 8 b s2))) :=
    (FellBack.wr (FellBack.sysBoot h.updBoot (bitOf_setBit_ne b _ (by decide))) (by decide)).setStage
  have hstage : stage (setStage 1 (showFw (wrB kSYS_BOOT 8 b s2))) = 1 := by
    rw [stage, rdF, setStage, rd_wrB_ne _ _ _ (by decide)]
    exact rdF_wrF_same _ _ _ _ _ (by decide) (by decide)
  have hkept := bootKept_bootChecks (bootKept_refl (s := setStage 1 (showFw (wrB kSYS_BOOT 8 b s2))))
  refine ⟨hstart.kept hkept, by rw [hkept.boot]; rfl, by rw [hkept.boot]; rfl, ?_⟩
  rw [stage, rdF, hkept.sysBoot]
  exact hstage

theorem fellBack_enterRecovery (h : FellBack s) : FellBack (enterRecovery s) := by
  unfold enterRecovery
  extract_lets s2 s3
  have h3 : BootKept s2 (raiseFault 0x1002 0 0xFF 0 [0] s3) := bootKept_refl.lasting
    (spares_raiseFault (spares_showEn (spares_eachDo (fun _ => spares_switchDom) (spares_eachDo (fun _ => spares_switchDom) (spared_refl s2))))).toLasting
  have h4 : FellBack (setStage 5 (raiseFault 0x1002 0 0xFF 0 [0] s3)) := (h.updBoot.kept h3).setStage
  exact h4.kept (bootKept_refl.lasting (spares_pumpRing (spared_refl _)).toLasting)

/-- R451: the other slot boots, or the module recovers. -/
theorem fallBack_effect {b : Bool} : FellBack (fallBack b s) ∧
    (fwAccepted (!b) s = true → (fallBack b s).boot.slotB = !b ∧ (fallBack b s).boot.fwRunning = true ∧ stage (fallBack b s) = 1) := by
  unfold fallBack
  extract_lets f s2 s3
  have h2 : BootKept s2 s3 := bootKept_raiseFault bootKept_refl
  have h3 : FellBack s3 := {
    pending := h2.pending
    shown := by rw [rdB, h2.sysBoot]; exact rdB_wrB_same _ _ _ _ (by decide)
    fault := faultActive_raiseFault (by decide) }
  have hacc : fwAccepted (!b) s3 = fwAccepted (!b) s := by
    have hflash : s3.flash = s2.flash := (spares_raiseFault (spared_refl s2)).flash
    have hfuses : s3.fuses = s.fuses := raiseFault_keeps (P := fun t => t.fuses = s.fuses) (fun _ _ _ _ ht => ht) (fun _ _ ht => ht)
      (fun g _ e t ht => by rw [(ringOnly_raiseTo g e).rest]; exact ht) _ _ _ _ rfl
    simp only [fwAccepted, fwSlot, fwGood, keyOf, hflash, hfuses]
    rfl
  rw [hacc]
  split
  · exact ⟨(runFw_effect h3).1, fun _ => (runFw_effect h3).2⟩
  · next hno => exact ⟨fellBack_enterRecovery h3, fun hyes => absurd hyes hno⟩

end Fallback

/-- Settles O18: a wipe drops the words of its domain's SRAM; a fallback, a restart of the steward and the end of an unlock change what they name. -/
theorem wipesRestartsAndUnlocksEnd : Obligations.WipesRestartsAndUnlocksEnd := by
  unfold Obligations.WipesRestartsAndUnlocksEnd
  refine ⟨fun d s => ⟨fun hd => ?_, fun hd => ?_⟩, fun b s hp hrun hslot hready => ⟨fun ht => ?_, fun ht => ?_⟩, fun s hrun => ?_,
    fun u s hu => ⟨fun ht => ?_, fun ht => ?_⟩⟩
  · obtain ⟨t, ht, hnone, -⟩ := midnightWipe_effect d s
    exact ⟨t, ht, hnone hd⟩
  · obtain ⟨t, ht, -, hw⟩ := midnightWipe_effect d s
    refine ⟨t, ht, (hw hd).wiping, fun h1 h2 h3 a => ?_, fun h1 h2 a => ?_⟩
    · simp only [(hw hd).devByte, sramDom_core h1 h2 h3]
    · simp only [(hw hd).devByte, sramDom_bank h1 h2]
  · have hstep : exec .fwPendingTimeout s = .next (fallBack b s) := by
      show Host.Outcome.next (pendingTimeout s) = _
      simp [pendingTimeout, hp, hrun, hslot, hready, ht]
    obtain ⟨hfell, hboot⟩ := fallBack_effect (s := s) (b := b)
    exact ⟨_, hstep, hfell.pending, hfell.shown, hfell.fault, hboot⟩
  · show Host.Outcome.next (pendingTimeout s) = _
    simp [pendingTimeout, hp, Nat.not_le.mpr ht]
  · have hstep : exec .stewardWatchdog s = .next (stewardRestart s) := congrArg Host.Outcome.next (if_pos hrun)
    have hre := stewardRestart_effect (s := s)
    refine ⟨_, hstep, by rw [hre.boot], by rw [hre.boot], hre.fault, hre.time, fun hents hreqs => ?_⟩
    have hn := hre.night hents hreqs
    exact ⟨hn.cause, hn.night, ⟨fun a => by simp only [devByte, hn.mem], hn.poison⟩, hn.jobs⟩
  · have hopen : expert s = true := by simp [expert, hu]
    have hstep : exec .expertUnlockTimeout s = .next (endExpert 1 s) := by
      show Host.Outcome.next (expertTimeout s) = _
      simp [expertTimeout, hu, ht]
    exact ⟨_, hstep, endExpert_effect 1 hopen⟩
  · show Host.Outcome.next (expertTimeout s) = _
    simp [expertTimeout, hu, Nat.not_le.mpr ht]

end Sys2Proof.Proofs
end

section
/-! The scheduler's commands (02_partitions_and_roles.md, R45; 10_dispatch_programs.md, R207; 13_scheduling_and_deadlines.md, R294, R295, R300, R301,
R306, R308). -/

namespace Sys2Proof.Proofs

open Sys2Proof Sys2Proof.Machine Sys2Proof.Laws

/-! ### What writing device memory leaves of the cores and the jobs -/

/-- A job's number and where it stands. -/
def standing (j : Job) : Nat × Nat × JobSt × List Nat × List Nat := (j.part, j.num, j.st, j.place, j.live)

/-- The cores are as they were; so is where each job stands. -/
structure WorkSame (base s : State) : Prop where
  cores : s.cores = base.cores
  jobs : s.jobs.map standing = base.jobs.map standing

section WorkSame

variable {base s : State}

theorem workSame_refl : WorkSame s s := ⟨rfl, rfl⟩

theorem WorkSame.trans {t : State} (h : WorkSame base s) (h' : WorkSame s t) : WorkSame base t := ⟨h'.cores.trans h.cores, h'.jobs.trans h.jobs⟩

theorem workSame_wr {k : Nat} {v : Word} (h : WorkSame base s) : WorkSame base (wr k v s) := ⟨h.cores, h.jobs⟩

theorem onlyRegs_workSame {t : State} (h : OnlyRegs s t) : WorkSame s t := by
  rw [h]
  exact ⟨rfl, rfl⟩

theorem RingOnly.workSame {fn : Nat} {t : State} (h : RingOnly fn s t) : WorkSame s t := by
  rw [h.rest]
  exact ⟨rfl, rfl⟩

theorem workSame_raiseFault (code unit part : Nat) (arg : Word) (fns : List Nat) (h : WorkSame base s) :
    WorkSame base (raiseFault code unit part arg fns s) :=
  raiseFault_keeps (P := WorkSame base) (fun _ _ _ _ hs => workSame_wr hs) (fun _ _ hs => ⟨hs.cores, hs.jobs⟩)
    (fun g _ e _ hs => hs.trans (ringOnly_raiseTo g e).workSame) code unit part arg h

theorem workSame_refuseAccess (master unit t a : Nat) (write : Bool) (h : WorkSame base s) : WorkSame base (refuseAccess master unit t a write s) := by
  unfold refuseAccess
  extract_lets s1 s2 src s3
  have h1 : WorkSame base s1 := workSame_wr h
  have h3 : WorkSame base s3 := by
    unfold s3
    split <;> exact ⟨h1.cores, h1.jobs⟩
  split
  · exact h1
  · exact workSame_raiseFault _ _ _ _ _ h3

theorem workSame_reportUnc (a : Nat) (h : WorkSame base s) : WorkSame base (reportUnc a s) := by
  have hraise (code unit part : Nat) (arg : Word) (fns : List Nat) {s : State} := workSame_raiseFault (s := s) (base := base) code unit part arg fns
  unfold reportUnc
  extract_lets w n o off sa sb k sc sd
  have hsb : WorkSame base sb := ⟨h.cores, h.jobs⟩
  have hsd : WorkSame base sd := ⟨h.cores, h.jobs⟩
  split
  · split <;> exact hraise _ _ _ _ _ hsb
  · split
    · split <;> exact hraise _ _ _ _ _ hsd
    · split
      · split
        extract_lets se sf
        have hsf : WorkSame base sf := ⟨h.cores, h.jobs⟩
        split <;> exact hraise _ _ _ _ _ hsf
      · exact hraise _ _ _ _ _ h

theorem workSame_memStore (ws : List (Nat × List Byte)) (h : WorkSame base s) : WorkSame base (memStore ws s) := by
  have hs : WorkSame base (eachDo reportUnc (partWords ws s) s) := eachDo_keeps (P := WorkSame base) (fun a _ _ hs => workSame_reportUnc a hs) h
  exact ⟨hs.cores, hs.jobs⟩

theorem workSame_awaitWipe (a : Nat) (h : WorkSame base s) : WorkSame base (awaitWipe a s) := by
  unfold awaitWipe
  split
  · split
    · next d _ _ => exact (WorkSame.mk h.cores h.jobs : WorkSame base (unwiped d s)).trans (onlyRegs_workSame (onlyRegs_showWiping _ onlyRegs_refl))
    · exact h
  · exact h

theorem workSame_writePieces (master unit t : Nat) :
    ∀ (l : List (Nat × Nat)) (bs : List Byte) {s : State}, WorkSame base s → WorkSame base (writePieces master unit t l bs s).2.2
  | [], _, _, h => h
  | (a, n) :: l, bs, s, h => by
    rw [writePieces]
    split
    · exact workSame_writePieces master unit t l _ (workSame_memStore _ (workSame_awaitWipe a h))
    · exact workSame_writePieces master unit t l _ (workSame_refuseAccess master unit t a true h)

theorem workSame_devWrite (master unit t a : Nat) (bs : List Byte) : WorkSame s (devWrite master unit t a bs s).2.2 :=
  workSame_writePieces master unit t _ bs workSame_refl

theorem workSame_showSched (p : Nat) : WorkSame s (showSched p s) :=
  eachDo_keeps (P := WorkSame s) (fun _ _ _ => workSame_wr) (workSame_wr (workSame_wr workSame_refl))

/-- A job found is found where its number stands. -/
theorem findJob_standing (p num : Nat) (s : State) :
    (findJob p num s).map standing = (s.jobs.map standing).find? fun x => decide (x.1 = p) && decide (x.2.1 = num) := by
  rw [List.find?_map]
  rfl

theorem WorkSame.findJob (h : WorkSame base s) {p num : Nat} {x : Job} (hx : findJob p num base = some x) :
    ∃ y, Machine.findJob p num s = some y ∧ standing y = standing x := by
  have heq : (Machine.findJob p num s).map standing = some (standing x) := by rw [findJob_standing, h.jobs, ← findJob_standing, hx]; rfl
  exact Option.map_eq_some_iff.mp heq

end WorkSame

/-! ### An evaluation by the deadline monitor (R300 to R302) -/

/-- Only registers, interrupts, the streams' overrun times and the jobs' predictions and Dusk models differ. -/
structure Evaluated (s t : State) : Prop where
  rest : t = { s with regs := t.regs, out := t.out, strms := t.strms, jobs := t.jobs }
  standing : t.jobs.map standing = s.jobs.map standing

section Evaluated

variable {s t : State} {p st : Nat}

theorem Evaluated.workSame (h : Evaluated s t) : WorkSame s t := ⟨by rw [h.rest], h.standing⟩

theorem Evaluated.memorySame (h : Evaluated s t) : MemorySame s t := by
  rw [h.rest]
  exact ⟨fun _ => rfl, rfl⟩

theorem evaluated_refl : Evaluated s s := ⟨rfl, rfl⟩

theorem Evaluated.trans {u : State} (h : Evaluated s t) (h' : Evaluated t u) : Evaluated s u where
  rest := by
    rw [h'.rest, h.rest]
  standing := h'.standing.trans h.standing

theorem evaluated_wr (k : Nat) (v : Word) : Evaluated s (wr k v s) := ⟨rfl, rfl⟩
theorem evaluated_updStrm (f : Strm → Strm) : Evaluated s (updStrm st f s) := ⟨rfl, rfl⟩

/-- An update of jobs that leaves where they stand. -/
theorem evaluated_jobs {f : Job → Job} (hf : ∀ j, Proofs.standing (f j) = Proofs.standing j) : Evaluated s { s with jobs := s.jobs.map f } :=
  ⟨rfl, by simp only [List.map_map]; exact List.map_congr_left fun j _ => hf j⟩

theorem evaluated_fireInt (fn k : Nat) : Evaluated s (fireInt fn k s) := by
  obtain ⟨o, ho⟩ := fireInt_eq fn k s
  rw [ho]
  exact ⟨rfl, rfl⟩

theorem evaluated_schedEvt (bit : Nat) : Evaluated s (schedEvt p bit s) :=
  ((evaluated_wr _ _).trans (evaluated_fireInt _ _)).trans (evaluated_fireInt _ _)

theorem rd_schedEvt (bit k : Nat) : rd k (schedEvt p bit s) = rd k (wrB (acctBase p + 0x84) bit true s) := by
  rw [schedEvt, rd_fireInt, rd_fireInt]

theorem evaluated_retargetDusk : Evaluated s (retargetDusk st s) :=
  evaluated_jobs fun j => by
    split
    · split <;> rfl
    · rfl

/-- A stream moved to DUSK before its jobs learn of it: its mode, the event and the count of moves. -/
def duskShown (p st : Nat) (s : State) : State := inc (strBase st + 0xC) 1 (schedEvt p 0 (wrF (strBase st) 1 0 1 s))

theorem duskIn_eq (hp : streamPart st s = some p) : duskIn st s = retargetDusk st (updStrm st (fun x => { x with overrunTick := tick (duskShown p st s) })
    { duskShown p st s with jobs := (duskShown p st s).jobs.map fun j => if j.stream = st then { j with preDusk := true } else j }) := by
  unfold duskIn
  rw [hp]
  rfl

theorem rd_duskIn (hp : streamPart st s = some p) (k : Nat) : rd k (duskIn st s) = rd k (duskShown p st s) := by
  rw [duskIn_eq hp]
  rfl

theorem evaluated_duskIn : Evaluated s (duskIn st s) := by
  cases hp : streamPart st s with
  | none => rw [duskIn, hp]; exact evaluated_refl
  | some p =>
    rw [duskIn_eq hp]
    have hshown : Evaluated s (duskShown p st s) := ((evaluated_wr _ _).trans (evaluated_schedEvt 0)).trans (evaluated_wr _ _)
    have hjobs := hshown.trans (evaluated_jobs (f := fun j => if j.stream = st then { j with preDusk := true } else j) fun j => by split <;> rfl)
    exact (hjobs.trans (evaluated_updStrm _)).trans evaluated_retargetDusk

theorem evaluated_updJob {num : Nat} {f : Job → Job} (hf : ∀ j, Proofs.standing (f j) = Proofs.standing j) : Evaluated s (updJob p num f s) :=
  evaluated_jobs fun j => by
    split
    · exact hf j
    · rfl

theorem evaluated_predicts (num : Nat) (late : Bool) : Evaluated s (predicts p num st late s) := by
  unfold predicts
  extract_lets s1 s2
  have h1 : Evaluated s s1 := evaluated_updJob fun _ => rfl
  have h2 : Evaluated s s2 := h1.trans (evaluated_updStrm _)
  split
  · exact h1.trans (evaluated_wr _ _)
  · split
    · split
      · exact h2.trans evaluated_duskIn
      · exact h2
    · refine Evaluated.trans ?_ (evaluated_wr _ _)
      split
      · exact h2
      · exact h2.trans (evaluated_schedEvt 3)

theorem evaluated_monitorJob (num aNs : Nat) : Evaluated s (monitorJob p num aNs s) := by
  unfold monitorJob
  split
  · exact evaluated_refl
  · split
    · exact evaluated_refl
    · exact evaluated_predicts num _

/-- The registers of a stream and of a partition stand apart (R315). -/
theorem acctBase_lt_strBase (hp : p < 16) (st : Nat) : acctBase p + 0x84 < strBase st := by
  unfold acctBase strBase
  omega

theorem mode_duskShown (hp : p < 16) : rdF (strBase st) 1 0 (duskShown p st s) = 1 := by
  have hne := acctBase_lt_strBase hp st
  rw [rdF, duskShown, rd_inc_ne _ _ (by omega), rd_schedEvt, rd_wrB_ne _ _ _ (by omega)]
  exact rdF_wrF_same s _ 1 0 1 (by decide) (by decide)

theorem evt_duskShown (hp : p < 16) : rdB (acctBase p + 0x84) 0 (duskShown p st s) = true := by
  have hne := acctBase_lt_strBase hp st
  rw [rdB, duskShown, rd_inc_ne _ _ (by omega), rd_schedEvt]
  exact rdB_wrB_same _ _ 0 true (by decide)

/-- No overrun predicted: the stream's mode stays (R300). -/
theorem mode_predicts_false (num : Nat) : rdF (strBase st) 1 0 (predicts p num st false s) = rdF (strBase st) 1 0 s := by
  have hshow (u : State) : rdF (strBase st) 1 0 (showLate st u) = rdF (strBase st) 1 0 u := by
    rw [rdF, showLate, rd_wrB_same]
    exact fld_setFld_ne 2 2 _ 1 0 _ (.inl (by decide)) (by decide)
  exact hshow _

/-- An overrun predicted for a stream with Dusk models: it moves (R301). -/
theorem predicts_dusk (num : Nat) (hdusk : hasDusk st s = true) (hdet : det s = false) (hmode : rdF (strBase st) 1 0 s = 0) :
    ∃ u, predicts p num st true s = duskIn st u ∧ u.img = s.img := by
  refine ⟨updStrm st (fun x => { x with overrunTick := tick s }) (updJob p num (fun j => { j with pred := true }) s), ?_, rfl⟩
  unfold predicts
  extract_lets s1 s2
  have hc : (hasDusk st s2 && !det s2) = true := by
    show (hasDusk st s && !det s) = true
    rw [hdusk, hdet]
    rfl
  exact (if_neg (by decide)).trans ((if_pos hc).trans (if_pos hmode))

theorem monitorEval_eq {num : Nat} {j : Job} (h : findJob p num s = some j) (hbg : j.bg = false) :
    monitorEval p num s = predicts p num j.stream (overrun j (arbNs j s) s) s := by
  rw [monitorEval, h]
  show monitorJob p num (arbNs j s) s = _
  rw [monitorJob, h]
  exact if_neg (by simp [hbg])

end Evaluated
end Sys2Proof.Proofs
end

section
/-! Placement, the end of Dusk, model-set switches and re-plans (02_partitions_and_roles.md, R45; 10_dispatch_programs.md, R207;
13_scheduling_and_deadlines.md, R294, R295, R300, R301, R306, R308). -/

namespace Sys2Proof.Proofs

open Sys2Proof Sys2Proof.Machine Sys2Proof.Laws

/-! ### The end of Dusk (R301) -/

theorem duskExitBody_eq {st : Nat} {b : Binding} {s : State} (hb : bindingOf st s = some b) (hmode : rdF (strBase st) 1 0 s = 1)
    (hjobs : ∀ j ∈ s.jobs, j.stream = st → j.preDusk = false) (hhold : b.duskHoldMs * 625000 ≤ (s.time.c - (strm st s).overrunTick).toNat) :
    duskExitBody st s = wrF (strBase st) 1 0 0 s := by
  have hall : (s.jobs.all fun j => decide (j.stream ≠ st) || !j.preDusk) = true :=
    List.all_eq_true.mpr fun j hj => by
      by_cases hst : j.stream = st
      · simp [hjobs j hj hst]
      · simp [hst]
  unfold duskExitBody
  rw [hb]
  exact if_pos ⟨hmode, hall, hhold⟩

/-! ### The end of a model-set switch (R306) -/

/-- A partition's switch over. -/
def switchOver (p : Nat) (s : State) : State := updPart p (fun x => { x with switching := none, hold := false }) s

/-- Once no job of the partition runs, its switch ends. -/
theorem parts_switchBody {p : Nat} {w : Switch} {s : State} (hw : (part p s).switching = some w)
    (hrun : ∀ j ∈ s.jobs, j.part = p → j.st ≠ .running) : ∃ u, (switchBody p s).parts = (switchOver p u).parts := by
  have hidle : ¬ (s.jobs.any fun j => decide (j.part = p) && decide (j.st = .running)) = true := by
    rw [List.any_eq_true]
    rintro ⟨j, hj, hjp⟩
    rw [Bool.and_eq_true, decide_eq_true_eq, decide_eq_true_eq] at hjp
    exact hrun j hj hjp.1 hjp.2
  unfold switchBody
  split
  · next hnone => rw [hw] at hnone; cases hnone
  · rw [if_neg hidle]
    extract_lets now leaving s1 s2 s3 s4
    have h4 : OnlyRegs s3 s4 := eachDo_keeps (P := OnlyRegs s3) (fun _ _ _ => onlyRegs_wr _ _) (onlyRegs_wr _ _ (onlyRegs_wr _ _ onlyRegs_refl))
    have hparts : s4.parts = s3.parts := by rw [h4]
    refine ⟨s2, Eq.trans ?_ hparts⟩
    split
    · split
      · exact (ringOnly_finish _ _ _ _).parts
      · rfl
    · rfl

theorem part_switchBody {p : Nat} {w : Switch} {s : State} (hw : (part p s).switching = some w)
    (hrun : ∀ j ∈ s.jobs, j.part = p → j.st ≠ .running) : (part p (switchBody p s)).switching = none ∧ (part p (switchBody p s)).hold = false := by
  obtain ⟨u, hu⟩ := parts_switchBody hw hrun
  have hpart : part p (switchBody p s) = part p (switchOver p u) := by simp only [part, hu]
  rw [hpart, switchOver, part_updPart_same]
  exact ⟨rfl, rfl⟩

/-! ### Re-plans (R308) -/

/-- With room in the log, an audit event leaves a record (R45). -/
theorem audit_length_auditEvent {s : State} (code status part : Nat) (digest : List Byte) (h : auditRoom s = true) :
    (auditEvent code status part digest s).flash.audit.length = s.flash.audit.length + 1 := by
  unfold auditEvent auditPut
  rw [if_pos h]
  extract_lets f r s1
  have h1 : s1.flash.audit.length = s.flash.audit.length + 1 := List.length_append
  split
  · rw [(spares_raiseFault (spared_refl s1)).flash, h1]
  · exact h1

/-- A partition's re-plan as begun: what it was asked for is forgotten. -/
def replanned (p : Nat) (s : State) : State := updPart p (fun x => { x with replan := [], freed := [], hold := x.switching.isSome }) s

/-- A re-plan does its work, which leaves flash and what each partition has to re-plan alone, and leaves a record of it (R45, R308). -/
theorem replanBody_eq {p : Nat} {s : State} (h : (part p s).replan ≠ []) :
    ∃ t digest, Spared (replanned p s) t ∧ replanBody p s = auditEvent 0xE005 0 p digest t := by
  unfold replanBody
  split
  · next hnone => exact absurd hnone h
  · extract_lets back s0 s1 s2 s3 s4 s5 s6
    have h0 : Spared (replanned p s) s0 := spared_refl _
    have h1 : Spared (replanned p s) s1 := spared_ite h0 (spares_loadEntering (spares_wrF h0 (.partStatus _)))
    have h2 : Spared (replanned p s) s2 := spares_inc h1 (.partGen _)
    have h3 : Spared (replanned p s) s3 := spares_eachDo (fun _ s hs => spares_eachDo (fun _ => spares_migrateJob) hs) h2
    have h4 : Spared (replanned p s) s4 := spared_ite (spares_showPace h3) (spares_applyPlan h3)
    have h5 : Spared (replanned p s) s5 := spared_ite (spares_raiseFault h4) h4
    exact ⟨s6, _, spares_schedEvt (spares_showSched (spares_showFixed h5)), rfl⟩

theorem replanBody_effect {p : Nat} {s : State} (h : (part p s).replan ≠ []) :
    (part p (replanBody p s)).replan = [] ∧ (part p (replanBody p s)).freed = [] ∧
      (auditRoom s = true → (replanBody p s).flash.audit.length = s.flash.audit.length + 1) := by
  obtain ⟨t, digest, ht, heq⟩ := replanBody_eq h
  obtain ⟨f, _, haudit⟩ := auditEvent_effect (s := t) 0xE005 0 p digest
  have hplan : (part p (replanned p s)).replan = [] ∧ (part p (replanned p s)).freed = [] := by
    rw [replanned, part_updPart_same]
    exact ⟨rfl, rfl⟩
  have hreplan : (part p (replanBody p s)).replan = [] := by rw [heq, (haudit.plan p).1]; exact (ht.plan p).1.trans hplan.1
  have hfreed : (part p (replanBody p s)).freed = [] := by rw [heq, (haudit.plan p).2]; exact (ht.plan p).2.trans hplan.2
  refine ⟨hreplan, hfreed, fun hroom => ?_⟩
  have hflash : t.flash = s.flash := ht.flash
  have hroom' : auditRoom t = true := by rw [auditRoom, hflash]; exact hroom
  rw [heq, audit_length_auditEvent _ _ _ _ hroom', hflash]

/-! ### Placement (R207, R294, R295) -/

theorem nodup_idleCores (p : Nat) (s : State) : (idleCores p s).Nodup := by
  unfold idleCores liveCores partCores bitsSet
  exact ((List.nodup_range.filter _).filter _).filter _

/-- A core that has taken a job's attempt (R207). -/
structure Takes (p : Nat) (j : Job) (slotAddr : Nat) (c : Core) : Prop where
  job : c.job = some j.num
  part : c.part = p
  list : c.list = j.place
  loops : c.loops = []
  number : Fam.get 0 1 c.s = wd j.num
  record : Fam.get 0 1 c.a = BitVec.ofNat 48 slotAddr

section Start

variable {p : Nat} {j : Job} {m : Model} {slotAddr idx n : Nat} {s : State}

/-- A core with the state of R207, at a time in ns. -/
def taken (p : Nat) (j : Job) (m : Model) (slotAddr idx now : Nat) (c : Core) : Core :=
  { c with
    part := p, job := some j.num, list := j.place, pc := BitVec.ofNat 48 (m.addr + (m.progs.getD (min idx (m.progs.length - 1)) (0, 0)).1),
    s := [(1, wd j.num), (2, j.win.getD 0 0), (3, wd idx), (4, wd j.place.length), (5, wd j.model)],
    a := [(0, BitVec.ofNat 48 m.addr), (1, BitVec.ofNat 48 slotAddr)], loops := [], fAccess := false, fSat := false, fSpecial := false,
    wait := none, ending := false, yielding := none, yieldReq := false, sinceNs := now, slotAddr := slotAddr }

theorem takes_taken (now : Nat) (c : Core) : Takes p j slotAddr (taken p j m slotAddr idx now c) := ⟨rfl, rfl, rfl, rfl, rfl, rfl⟩

theorem onlyRegs_startCore : OnlyRegs (updCore n (taken p j m slotAddr idx (nowNs s).toNat) s) (startCore p j m slotAddr idx n s) := by
  unfold startCore showPc
  extract_lets prog sreg areg s1 s2 s3 c
  have h2 : OnlyRegs s1 s2 := eachDo_keeps (P := OnlyRegs s1) (fun _ _ _ => onlyRegs_wr _ _) onlyRegs_refl
  have h3 : OnlyRegs s1 s3 := onlyRegs_wr _ _ (onlyRegs_wr _ _ h2)
  exact onlyRegs_wr _ _ (onlyRegs_wr _ _ (onlyRegs_wr _ _ (onlyRegs_wr _ _ (onlyRegs_wr _ _ h3))))

theorem core_onlyRegs {t : State} (h : OnlyRegs s t) (k : Nat) : coreOf k t = coreOf k s := core_congr (by rw [h]) k

theorem takes_startCore : Takes p j slotAddr (coreOf n (startCore p j m slotAddr idx n s)) := by
  rw [core_onlyRegs onlyRegs_startCore, core_updCore_same]
  exact takes_taken _ _

theorem core_startCore_ne {k : Nat} (h : k ≠ n) : coreOf k (startCore p j m slotAddr idx n s) = coreOf k s := by
  rw [core_onlyRegs onlyRegs_startCore, core_updCore_ne s _ h]

theorem jobs_startCore : (startCore p j m slotAddr idx n s).jobs = s.jobs := by
  rw [onlyRegs_startCore]
  rfl

/-- The attempt put on each core of a placement. -/
def startCores (p : Nat) (j : Job) (m : Model) (slotAddr : Nat) (l : List (Nat × Nat)) (s : State) : State :=
  eachDo (fun (x : Nat × Nat) s => startCore p j m slotAddr x.2 x.1 s) l s

theorem jobs_startCores (l : List (Nat × Nat)) : (startCores p j m slotAddr l s).jobs = s.jobs :=
  eachDo_keeps (P := fun t : State => t.jobs = s.jobs) (fun _ _ _ h => jobs_startCore.trans h) rfl

theorem core_startCores_ne {k : Nat} (l : List (Nat × Nat)) (h : k ∉ l.map Prod.fst) : coreOf k (startCores p j m slotAddr l s) = coreOf k s :=
  eachDo_keeps (P := fun t => coreOf k t = coreOf k s)
    (fun x hx _ ht => (core_startCore_ne fun hk => h (List.mem_map.mpr ⟨x, hx, hk.symm⟩)).trans ht) rfl

/-- Each core of the placement has taken the attempt. -/
theorem takes_startCores {k : Nat} (l : List (Nat × Nat)) (hl : (l.map Prod.fst).Nodup) (hk : k ∈ l.map Prod.fst) :
    Takes p j slotAddr (coreOf k (startCores p j m slotAddr l s)) := by
  induction l generalizing s with
  | nil => cases hk
  | cons x l ih =>
    rw [List.map_cons, List.nodup_cons] at hl
    rw [List.map_cons, List.mem_cons] at hk
    have hstep : startCores p j m slotAddr (x :: l) s = startCores p j m slotAddr l (startCore p j m slotAddr x.2 x.1 s) := by
      simp only [startCores, eachDo, List.foldl_cons]
    rw [hstep]
    by_cases hkl : k ∈ l.map Prod.fst
    · exact ih hl.2 hkl
    · obtain rfl := hk.resolve_right hkl
      rw [core_startCores_ne l hkl]
      exact takes_startCore

end Start

section JobStart

variable {p : Nat} {j : Job} {m : Model} {area slot : Nat} {place : List Nat} {s : State}

/-- A queued job as it runs on its cores (R295). -/
def launched (p : Nat) (j : Job) (place : List Nat) (slot : Nat) (s : State) : Job :=
  { j with
    place := place, live := place, slot := some slot, st := .running, front := false, attempt := if j.attempt = 0 then 1 else j.attempt,
    gen := if j.attempt = 0 then rd (kPART_GEN p) s else j.gen, tMark := nowNs s, marker := none }

/-- The job list with the job running. -/
def listed (p : Nat) (j : Job) (place : List Nat) (slot : Nat) (s : State) : State :=
  updJob p j.num (fun _ => launched p j place slot s) (if j.slot.isSome then s else draw 1 s)

/-- Its launch record written and the progress counters of its cores cleared. -/
def recorded (p : Nat) (j : Job) (place : List Nat) (area slot : Nat) (s : State) : State :=
  eachDo (fun n s => eachDo (fun k s => wr (coreBase n + 0x940 + 4 * k) 0 s) (upTo 8) s) place
    (devWrite mSched p p (area + slot * 512) (launchRecord (launched p j place slot s)) (listed p j place slot s)).2.2

theorem startJob_eq (hm : model j.model s = some m) (harea : (part p s).area = some area) (hst : j.st = .queued)
    (hslot : j.slot = some slot ∨ j.slot = none ∧ freeSlot p s = some slot) : startJob p j place s =
      showSched p (startCores p (launched p j place slot s) m (area + slot * 512) place.zipIdx (recorded p j place area slot s)) := by
  have hnot : decide (j.st = .yielded) = false := by rw [hst]; rfl
  unfold startJob
  rw [hm, harea, hnot]
  obtain hsome | ⟨hnone, hfree⟩ := hslot
  · simp only [hsome]
    rw [recorded, listed, hsome]
    rfl
  · simp only [hnone, hfree]
    rw [recorded, listed, hnone]
    rfl

theorem workSame_recorded : WorkSame (listed p j place slot s) (recorded p j place area slot s) :=
  eachDo_keeps (P := WorkSame (listed p j place slot s))
    (fun _ _ _ => eachDo_keeps (P := WorkSame (listed p j place slot s)) fun _ _ _ => workSame_wr) (workSame_devWrite _ _ _ _ _)

theorem findJob_listed (h : findJob p j.num s = some j) : findJob p j.num (listed p j place slot s) = some (launched p j place slot s) := by
  have hjobs : (listed p j place slot s).jobs = s.jobs.map fun x => if jobIs p j.num x then launched p j place slot s else x := by
    unfold listed
    split <;> rfl
  have his : jobIs p j.num j = true := List.find?_some h
  have hcomp : (jobIs p j.num ∘ fun x => if jobIs p j.num x then launched p j place slot s else x) = jobIs p j.num := by
    funext x
    simp only [Function.comp_apply]
    split
    · next hx => exact Eq.trans (b := jobIs p j.num j) rfl (his.trans hx.symm)
    · rfl
  rw [findJob] at h
  rw [findJob, hjobs, List.find?_map, hcomp, h, Option.map_some, if_pos his]

/-- R207, R295: the job runs on its cores, each of which has taken it. -/
theorem startJob_effect (hj : findJob p j.num s = some j) (hm : model j.model s = some m) (harea : (part p s).area = some area) (hst : j.st = .queued)
    (hslot : j.slot = some slot ∨ j.slot = none ∧ freeSlot p s = some slot) (hplace : place.Nodup) :
    (∃ x, findJob p j.num (startJob p j place s) = some x ∧ standing x = standing (launched p j place slot s)) ∧
      ∀ n ∈ place, Takes p (launched p j place slot s) (area + slot * 512) (coreOf n (startJob p j place s)) := by
  rw [startJob_eq hm harea hst hslot]
  set running := startCores p (launched p j place slot s) m (area + slot * 512) place.zipIdx (recorded p j place area slot s) with hrunning
  have hshow : WorkSame running (showSched p running) := workSame_showSched p
  constructor
  · have hjobs : (listed p j place slot s).jobs.map standing = (showSched p running).jobs.map standing := by
      rw [hshow.jobs, hrunning, jobs_startCores, workSame_recorded.jobs]
    have hfound : (findJob p j.num (showSched p running)).map standing = some (standing (launched p j place slot s)) := by
      rw [findJob_standing, ← hjobs, ← findJob_standing, findJob_listed hj]
      rfl
    exact Option.map_eq_some_iff.mp hfound
  · intro n hn
    rw [core_congr hshow.cores n]
    exact takes_startCores _ (by rwa [List.zipIdx_map_fst]) (by rwa [List.zipIdx_map_fst])

theorem skipLate_eq {k : Nat} (hhead : headJob p s = some j) (hlate : j.bg = true ∨ ∀ b, bindingOf j.stream s = some b → b.skipLate = false) :
    skipLate p (k + 1) s = s := by
  have hnot : (!j.bg && decide (j.st = .queued) && (bindingOf j.stream s).any (fun b => b.skipLate) &&
      decide (commitLeft j.stream j.win s ≤ 0)) = false := by
    obtain hbg | hskip := hlate
    · simp [hbg]
    · cases hb : bindingOf j.stream s with
      | none => simp
      | some b => simp [hskip b hb]
  rw [skipLate, hhead]
  simp only [hnot]
  rfl

theorem placeOf_eq (hflush : ∀ n ∈ j.place, (coreOf n s).flushing = false) (hdet : det s = false) (hcores : m.cores ≤ (idleCores p s).length) :
    placeOf p j m s = some ((idleCores p s).take m.cores) := by
  have hany : ¬ (j.place.any fun n => (coreOf n s).flushing) = true := by
    rw [List.any_eq_true]
    rintro ⟨n, hn, hf⟩
    rw [hflush n hn] at hf
    cases hf
  unfold placeOf
  rw [if_neg hany, hdet]
  exact (if_neg (by simp)).trans (if_pos hcores)

theorem jobStartBody_eq (hheld : placeHeld p s = false) (hhead : headJob p s = some j)
    (hlate : j.bg = true ∨ ∀ b, bindingOf j.stream s = some b → b.skipLate = false) (hm : model j.model s = some m)
    (hplace : placeOf p j m s = some place) :
    jobStartBody p s = monitorJob p j.num (arbNs j (startJob p j place s)) (startJob p j place s) := by
  unfold jobStartBody
  rw [if_neg (by simp [hheld]), skipLate_eq hhead hlate]
  simp only [hhead, hm, hplace]

end JobStart

/-- Settles O15: the scheduler's commands. A job keeps where it stands, and the cores what they took, through the monitor's first evaluation of it. -/
theorem schedulerPlacesMonitorsAndSwitches : Obligations.SchedulerPlacesMonitorsAndSwitches := by
  refine ⟨?_, ?_, ?_, ?_, ?_⟩
  · intro p j m area slot s hheld hhead hj hst hlate hm harea hslot hflush hdet hcores place
    have hslots : j.slot = some slot ∨ j.slot = none ∧ freeSlot p.val s = some slot := by
      cases hjs : j.slot with
      | some i => rw [hjs] at hslot; exact .inl hslot
      | none => rw [hjs] at hslot; exact .inr ⟨rfl, hslot⟩
    have hnodup : place.Nodup := (nodup_idleCores p.val s).sublist (List.take_sublist _ _)
    obtain ⟨⟨x, hx, hstands⟩, htakes⟩ := startJob_effect hj hm harea hst hslots hnodup
    set started := startJob p.val j place s
    have hseen : WorkSame started (monitorJob p.val j.num (arbNs j started) started) := (evaluated_monitorJob _ _).workSame
    obtain ⟨y, hy, hyx⟩ := hseen.findJob hx
    obtain ⟨_, _, hrun, hplace, hlive⟩ := by simpa only [standing, Prod.mk.injEq] using hyx.trans hstands
    refine ⟨_, next_of_eq (jobStartBody_eq hheld hhead hlate hm (placeOf_eq hflush hdet hcores)), ⟨y, hy, hrun, hplace, hlive⟩, fun n hn => ?_⟩
    obtain ⟨hjob, hpart, hlist, hloops, hnumber, hrecord⟩ := htakes n hn
    rw [core_congr hseen.cores n]
    exact ⟨hjob, hpart, hlist, hloops, hnumber, hrecord⟩
  · intro p num j s hj hbg hstream
    have heq := monitorEval_eq hj hbg
    have heval : Evaluated s (predicts p.val num.toNat j.stream (overrun j (arbNs j s) s) s) := evaluated_predicts _ _
    refine ⟨_, next_of_eq heq, heval.memorySame, fun hover => ?_, fun hover hdusk hdet hmode => ?_⟩
    · rw [hover]
      exact mode_predicts_false _
    · rw [hover]
      obtain ⟨u, hu, himg⟩ := predicts_dusk (p := p.val) num.toNat hdusk hdet hmode
      have hstream' : streamPart j.stream u = some p.val := by rw [← hstream, streamPart, streamPart, streamUsed, streamUsed, cfg, cfg, himg]
      rw [hu, rdF, rdB, rd_duskIn hstream', rd_duskIn hstream']
      exact ⟨mode_duskShown p.isLt, evt_duskShown p.isLt⟩
  · intro st b s hb hmode hjobs hhold
    exact ⟨_, next_of_eq (duskExitBody_eq hb hmode hjobs hhold), rdF_wrF_same s _ 1 0 0 (by decide) (by decide), fun k hk => rd_wrF_ne s 1 0 0 hk, rfl⟩
  · exact fun p w s hw hrun => ⟨_, rfl, part_switchBody hw hrun⟩
  · intro p s hrun hreplan
    exact ⟨_, next_of_eq (if_neg (by simp [hrun])), replanBody_effect hreplan⟩

end Sys2Proof.Proofs
end

section
/-! What the pipeline of a stream leaves alone (05_image_front_ends.md, R94 to R111, R117; 06_strip_codec_and_replay.md, R124): a line that passes on,
or the start of a front end, neither starts nor stops a stream and does not touch the state of the lanes. -/

namespace Sys2Proof.Proofs

open Sys2Proof Sys2Proof.Machine Sys2Proof.Laws

/-! ### What lasts -/

/-- The image is that of `base`, and so is which streams are started. -/
structure StartsKept (base s : State) : Prop where
  started : ∀ x, (strm x s).started = (strm x base).started
  img : s.img = base.img

/-- So is CL_STAT of every camera lane, where `st` is the number of a stream. -/
structure PipeFrame (st : Nat) (base s : State) : Prop extends StartsKept base s where
  status : st < 64 → ∀ n, n < 64 → rd (laneBase n + 4) s = rd (laneBase n + 4) base

theorem pipe_refl (st : Nat) (s : State) : PipeFrame st s s := ⟨⟨fun _ => rfl, rfl⟩, fun _ _ _ => rfl⟩

theorem StartsKept.trans {s t u : State} (h : StartsKept s t) (h' : StartsKept t u) : StartsKept s u :=
  ⟨fun x => (h'.started x).trans (h.started x), h'.img.trans h.img⟩

/-- A register that is no camera lane's CL_STAT. -/
def OffStatus (k : Nat) : Prop := k < 0x0C0000 ∨ 0x0D0000 ≤ k ∨ k % 0x400 ≠ 4

theorem OffStatus.core (n o : Nat) : OffStatus (coreBase n + o) := by unfold OffStatus coreBase; omega
theorem OffStatus.clu (n o : Nat) : OffStatus (cluBase n + o) := by unfold OffStatus cluBase; omega
theorem OffStatus.hbm (n o : Nat) : OffStatus (hbmBase n + o) := by unfold OffStatus hbmBase; omega
theorem OffStatus.cds (n o : Nat) : OffStatus (cdsBase n + o) := by unfold OffStatus cdsBase codecBase; omega
theorem OffStatus.ss (n : Nat) : OffStatus (ssBase n) := by unfold OffStatus ssBase; omega
theorem OffStatus.faultCount (n : Nat) : OffStatus (kFAULT_CNT_ACC n) := by unfold OffStatus kFAULT_CNT_ACC; omega

theorem OffStatus.lane (n : Nat) {o : Nat} (ho : o % 0x400 ≠ 4) : OffStatus (laneBase n + o) := by unfold OffStatus laneBase; omega

theorem OffStatus.frontEnd (st : Nat) {o : Nat} (ho : o % 0x400 ≠ 4) : OffStatus (fes st + o) := by unfold OffStatus fes feBase; omega

theorem OffStatus.output (st n : Nat) {o : Nat} (ho : o % 0x40 ≠ 4) : OffStatus (fesOut st n + o) := by
  unfold OffStatus fesOut Machine.fes feBase
  omega

theorem OffStatus.report {k : Nat} (h : reportReg k) : OffStatus k := by
  unfold reportReg at h
  unfold OffStatus
  omega

theorem ringKey_status (fn : Nat) {n : Nat} (hn : n < 64) : ringKey fn (laneBase n + 4) = false := by
  unfold ringKey ringBase laneBase
  split <;> simp <;> omega

section Pipe

variable {st : Nat} {base s : State}

theorem pipe_ite {p : Prop} [Decidable p] {a b : State} (ha : PipeFrame st base a) (hb : PipeFrame st base b) :
    PipeFrame st base (if p then a else b) := by split <;> assumption

theorem pipe_ite_snd {α : Type} {p : Prop} [Decidable p] {a b : α × State} (ha : PipeFrame st base a.2) (hb : PipeFrame st base b.2) :
    PipeFrame st base (if p then a else b).2 := by split <;> assumption

theorem pipe_eachDo {α : Type} {f : α → State → State} {l : List α} (hf : ∀ x s, PipeFrame st base s → PipeFrame st base (f x s))
    (h : PipeFrame st base s) : PipeFrame st base (eachDo f l s) := eachDo_keeps (P := PipeFrame st base) (fun x _ => hf x) h

/-- A record update of any other fields. All fields stand as arguments so that the unifier finds `s` in the update of a computed state without
evaluating that state. -/
theorem pipe_with {pending force cnt mem host poison time flash fuses boot rings svc faults accRaised out readData fresh parts models binds jobs cores
    ports banks eccHour srcs emus ents dos reqs cmprs mirrors fio lqs wire ethWait ptp cports drains sbonds fes cds decTurn loads cages spans gops
    clk pwr} (h : PipeFrame st base s) :
    PipeFrame st base (State.mk pending s.regs force cnt mem host poison time flash fuses boot s.img rings svc faults accRaised out readData fresh
      parts models binds s.strms jobs cores ports banks eccHour srcs emus ents dos reqs cmprs mirrors fio lqs wire ethWait ptp cports drains sbonds
      fes cds decTurn loads cages spans gops clk pwr) := ⟨⟨h.started, h.img⟩, h.status⟩

/-! ### Registers, rings and faults -/

theorem pipe_wr_of {k : Nat} {v : Word} (h : PipeFrame st base s) (hk : st < 64 → OffStatus k) : PipeFrame st base (wr k v s) := by
  refine ⟨⟨h.started, h.img⟩, fun hst n hn => (rd_wr_ne s v ?_).trans (h.status hst n hn)⟩
  rintro rfl
  have := hk hst
  unfold OffStatus laneBase at this
  omega

theorem pipe_wr {k : Nat} {v : Word} (h : PipeFrame st base s) (hk : OffStatus k) : PipeFrame st base (wr k v s) := pipe_wr_of h fun _ => hk

theorem RingOnly.pipe {fn : Nat} {t : State} (hr : RingOnly fn s t) (h : PipeFrame st base s) : PipeFrame st base t where
  started := fun x => by
    rw [hr.rest]
    exact h.started x
  img := hr.img.trans h.img
  status := fun hst n hn => (hr.registers _ (ringKey_status fn hn)).trans (h.status hst n hn)

theorem pipe_draw {n : Nat} (h : PipeFrame st base s) : PipeFrame st base (draw n s) := pipe_with h

theorem pipe_takeShadow {k : Nat} (h : PipeFrame st base s) : PipeFrame st base (takeShadow k s) := pipe_with h

theorem pipe_raiseFault {code unit part : Nat} {arg : Word} {fns : List Nat} (h : PipeFrame st base s) :
    PipeFrame st base (raiseFault code unit part arg fns s) :=
  raiseFault_keeps (P := PipeFrame st base) (fun _ _ _ hk hs => pipe_wr hs (.report hk)) (fun _ _ hs => pipe_with hs)
    (fun g _ e _ hs => (ringOnly_raiseTo g e).pipe hs) code unit part arg h

/-! ### Memory -/

theorem pipe_refuseAccess {master unit t a : Nat} {write : Bool} (h : PipeFrame st base s) : PipeFrame st base (refuseAccess master unit t a write s) := by
  unfold refuseAccess
  extract_lets s0 s1 src s2
  have h0 : PipeFrame st base s0 := pipe_wr h (.faultCount t)
  have h2 : PipeFrame st base s2 := pipe_ite (pipe_with h0) (pipe_wr (pipe_wr (pipe_wr (pipe_wr (pipe_with h0) (.inr (.inl (by decide))))
    (.inr (.inl (by decide)))) (.inr (.inl (by decide)))) (.inr (.inl (by decide))))
  exact pipe_ite h0 (pipe_raiseFault h2)

theorem pipe_reportUnc {a : Nat} (h : PipeFrame st base s) : PipeFrame st base (reportUnc a s) := by
  dsimp only [reportUnc]
  refine pipe_ite ?_ (pipe_ite ?_ (pipe_ite ?_ (pipe_raiseFault h)))
  · split <;> exact pipe_raiseFault (pipe_wr (pipe_wr (pipe_wr h (.core _ 0x204)) (.core _ 0x210)) (.core _ 0x214))
  · split <;> exact pipe_raiseFault (pipe_wr (pipe_wr (pipe_wr h (.clu _ _)) (.clu _ _)) (.clu _ _))
  · split <;> exact pipe_raiseFault (pipe_wr (pipe_wr (pipe_wr (pipe_wr h (.hbm _ _)) (.hbm _ _)) (.hbm _ _)) (.hbm _ _))

theorem pipe_memStore {ws : List (Nat × List Byte)} (h : PipeFrame st base s) : PipeFrame st base (memStore ws s) :=
  pipe_with (pipe_eachDo (l := partWords ws s) (fun _ _ hs => pipe_reportUnc hs) h)

theorem pipe_showWiping (h : PipeFrame st base s) : PipeFrame st base (showWiping s) :=
  pipe_eachDo (fun n _ hs => pipe_wr hs (.clu n 0)) (pipe_eachDo (fun _ _ hs => pipe_wr hs (.core _ _)) h)

theorem pipe_awaitWipe {a : Nat} (h : PipeFrame st base s) : PipeFrame st base (awaitWipe a s) := by
  unfold awaitWipe
  split
  · exact pipe_ite (pipe_showWiping (pipe_with h)) h
  · exact h

theorem pipe_writePieces {master unit t : Nat} : ∀ {ls bs s}, PipeFrame st base s → PipeFrame st base (writePieces master unit t ls bs s).2.2
  | [], _, _, h => h
  | (a, n) :: r, _, _, h => by
    dsimp only [writePieces]
    split
    · exact pipe_writePieces (pipe_memStore (pipe_awaitWipe h))
    · exact pipe_writePieces (pipe_refuseAccess h)

theorem pipe_devWrite {master unit t a : Nat} {bs : List Byte} (h : PipeFrame st base s) : PipeFrame st base (devWrite master unit t a bs s).2.2 :=
  pipe_writePieces h

/-! ### The strip codec's recorders (R124) -/

theorem pipe_recEnd {n : Nat} (h : PipeFrame st base s) : PipeFrame st base (recEnd n s) := pipe_wr (pipe_with h) (.cds n 0)

theorem pipe_codecLoad {n u samples : Nat} (h : PipeFrame st base s) : PipeFrame st base (codecLoad n u samples s) := by
  unfold codecLoad
  extract_lets s0
  have h0 : PipeFrame st base s0 := by
    unfold s0
    split
    · exact pipe_with h
    · exact h
  exact pipe_wr (pipe_with h0) (.inr (.inl (by decide)))

theorem pipe_recPut {n q : Nat} {x : RecLine} {blocks : List Byte} (h : PipeFrame st base s) : PipeFrame st base (recPut n x blocks q s) := by
  unfold recPut
  split
  · exact h
  · next p _ =>
    extract_lets cap s1 s2 s3 s4
    have h4 : PipeFrame st base s4 := pipe_wr (pipe_wr (pipe_with (pipe_devWrite h)) (.cds n 0)) (.cds n 4)
    exact pipe_ite (pipe_recEnd h) (pipe_ite (pipe_recEnd h4) h4)

theorem pipe_recLine {n kind : Nat} {slot count : Word} {time : BitVec 64} {ovr frameStart : Bool} {planes : List Row} (h : PipeFrame st base s) :
    PipeFrame st base (recLine n slot count time kind ovr frameStart planes s) :=
  pipe_ite (pipe_recPut h) (pipe_ite (pipe_recPut (pipe_wr h (.cds _ _))) (pipe_recPut (pipe_codecLoad h)))

theorem pipe_tapLine {tap x fl k kind : Nat} {slot count : Word} {time : BitVec 64} {ovr : Bool} {planes : List Row} (h : PipeFrame st base s) :
    PipeFrame st base (tapLine tap x fl k slot count time kind ovr planes s) :=
  pipe_eachDo (fun _ _ hs => pipe_ite hs (pipe_ite (pipe_recEnd (pipe_recLine hs)) (pipe_recLine hs))) h

/-! ### Registers and tables of a front end (R118 to R120) -/

theorem pipe_updFe {x : Nat} {f : FeSt → FeSt} (h : PipeFrame st base s) : PipeFrame st base (updFe x f s) := pipe_with h

theorem pipe_feStat_of {x b : Nat} {v : Bool} (h : PipeFrame st base s) (hx : st < 64 → x < 64) : PipeFrame st base (feStat x b v s) :=
  pipe_wr_of h fun hst => .inl (by
    have := hx hst
    unfold fes feBase
    omega)

theorem pipe_feStat {b : Nat} {v : Bool} (h : PipeFrame st base s) : PipeFrame st base (feStat st b v s) := pipe_feStat_of h id

theorem pipe_showFeLoad (h : PipeFrame st base s) : PipeFrame st base (showFeLoad (st / 4) s) :=
  pipe_wr_of h fun hst => .inl (by
    unfold feBase
    omega)

theorem pipe_streamInt {x : Nat} (h : PipeFrame st base s) : PipeFrame st base (streamInt x s) := by
  unfold streamInt
  split
  · exact (ringOnly_fireInt 4).pipe ((ringOnly_fireInt 4).pipe h)
  · exact h

theorem pipe_feEvt {b : Nat} (h : PipeFrame st base s) : PipeFrame st base (feEvt st b s) := pipe_streamInt (pipe_wr h (.frontEnd _ (by decide)))

theorem pipe_showOuts (h : PipeFrame st base s) : PipeFrame st base (showOuts st s) :=
  pipe_eachDo (fun _ _ hs => by
    split
    · exact pipe_wr (pipe_wr hs (.output _ _ (by decide))) (.output _ _ (by decide))
    · exact hs) h

theorem pipe_showStride {n : Nat} (h : PipeFrame st base s) : PipeFrame st base (showStride st n s) := pipe_wr h (.output _ _ (by decide))

theorem pipe_openOuts {k : Nat} (h : PipeFrame st base s) : PipeFrame st base (openOuts st k s) :=
  pipe_showOuts (pipe_eachDo (fun _ _ hs => pipe_ite (pipe_showStride (pipe_updFe hs)) (pipe_ite (pipe_showStride hs) hs)) h)

theorem pipe_awaitTables (h : PipeFrame st base s) : PipeFrame st base (awaitTables st s) := by
  refine pipe_ite (eachDo_keeps (P := PipeFrame st base) (fun x hx s hs => ?_) (pipe_with h)) h
  obtain ⟨i, hi, rfl⟩ := List.mem_map.mp hx
  have hlt : i < 16 := List.mem_range.mp hi
  exact pipe_feStat_of (pipe_wr (pipe_updFe hs) (.frontEnd _ (by decide))) (by omega)

theorem pipe_swapTable (h : PipeFrame st base s) : PipeFrame st base (swapTable st s) :=
  pipe_ite (pipe_feEvt (pipe_feStat (pipe_feStat (pipe_wr (pipe_updFe (pipe_awaitTables h)) (.frontEnd _ (by decide)))))) (pipe_awaitTables h)

theorem pipe_takePort (h : PipeFrame st base s) : PipeFrame st base (takePort st s) :=
  pipe_eachDo (fun _ _ hs => pipe_takeShadow hs) (pipe_with h)

/-! ### The pipeline (R94 to R111) -/

theorem pipe_startFrame {fi : Nat} {slot count : Word} (h : PipeFrame st base s) : PipeFrame st base (startFrame st fi slot count s) :=
  pipe_openOuts (pipe_updFe (pipe_wr (pipe_updFe (pipe_takePort (pipe_swapTable (pipe_ite h (pipe_ite (pipe_feEvt (pipe_feStat h))
    (pipe_eachDo (fun _ _ hs => pipe_takeShadow hs) (pipe_feStat h))))))) (.frontEnd _ (by decide))))

theorem pipe_updRec {fi : Nat} {f : FrameRec → FrameRec} (h : PipeFrame st base s) : PipeFrame st base (updRec st fi f s) := pipe_updFe h

theorem pipe_measure {k : Nat} {c : FeCfg} {rows : List Row} (h : PipeFrame st base s) : PipeFrame st base (Machine.measure st k c rows s) :=
  pipe_updRec h

theorem pipe_measureSat {k : Nat} {c : FeCfg} {l : List (List Bool)} (h : PipeFrame st base s) : PipeFrame st base (measureSat st k c l s) :=
  pipe_updRec h

theorem pipe_slotPassed {k : Nat} (h : PipeFrame st base s) : PipeFrame st base (slotPassed st k s) := by
  unfold slotPassed
  exact pipe_updFe (pipe_updRec h)

theorem pipe_stage2 {c : FeCfg} {rows : List Row} (h : PipeFrame st base s) : PipeFrame st base (stage2 st c rows s).2 := by
  dsimp only [stage2]
  split
  · exact pipe_ite_snd h (pipe_wr h (.frontEnd _ (by decide)))
  · exact h

theorem pipe_stage34 {c : FeSlot} (h : PipeFrame st base s) : PipeFrame st base (stage34 st c s) := by
  unfold stage34
  extract_lets +onlyGivenNames f x r w d v sat _ s1 pt s2
  have h1 : PipeFrame st base s1 := pipe_tapLine (pipe_updFe h)
  have h2 : PipeFrame st base s2 := pipe_ite (pipe_measureSat (pipe_ite (pipe_measure h1) h1)) h1
  exact pipe_ite (pipe_slotPassed h2) h2

theorem pipe_run4 {final : Bool} : ∀ {fuel s}, PipeFrame st base s → PipeFrame st base (run4 st final fuel s)
  | 0, _, h => h
  | _ + 1, _, h => by
    dsimp only [run4]
    split
    · exact h
    · exact pipe_ite (pipe_run4 (pipe_stage34 h)) h

theorem pipe_stage56 {c : FeSlot} (h : PipeFrame st base s) : PipeFrame st base (stage56 st c s) := by
  unfold stage56
  extract_lets +onlyGivenNames f w _ _ _ _ line l s0
  have h0 : PipeFrame st base s0 := pipe_updFe h
  exact pipe_ite h0 (pipe_slotPassed (pipe_ite h0 (pipe_measure h0)))

theorem pipe_run6 {final : Bool} : ∀ {fuel s}, PipeFrame st base s → PipeFrame st base (run6 st final fuel s)
  | 0, _, h => h
  | _ + 1, _, h => by
    dsimp only [run6]
    split
    · exact h
    · exact pipe_ite (pipe_run6 (pipe_stage56 h)) h

theorem pipe_pruneFe (h : PipeFrame st base s) : PipeFrame st base (pruneFe st s) := pipe_updFe h

theorem pipe_runPipe {final : Bool} (h : PipeFrame st base s) : PipeFrame st base (runPipe st final s) := pipe_pruneFe (pipe_run6 (pipe_run4 h))

theorem pipe_pushSlot {slot count : Word} {time : BitVec 64} {kind : Nat} {planes : List Row} {ovr resync : Bool} {tap : Option Nat}
    (h : PipeFrame st base s) : PipeFrame st base (pushSlot st slot count time kind planes ovr resync tap s) := by
  unfold pushSlot
  extract_lets +onlyGivenNames k fl sa hit sb kind _ s3 f w cfg zero raw sc live sd _ s7
  have ha : PipeFrame st base sa := pipe_ite (pipe_startFrame h) h
  have hb : PipeFrame st base sb := pipe_ite (pipe_updFe ha) ha
  have h3 : PipeFrame st base s3 := pipe_updRec (pipe_wr hb (.frontEnd _ (by split <;> [decide; split <;> decide])))
  have hc : PipeFrame st base sc := pipe_ite (pipe_updFe h3) h3
  have h7 : PipeFrame st base s7 := pipe_showFeLoad (pipe_with (pipe_ite (pipe_tapLine hc) hc))
  refine pipe_ite ?_ (pipe_runPipe (pipe_updFe (pipe_stage2 (pipe_ite (pipe_measure h7) h7))))
  extract_lets +onlyGivenNames v x s9
  have h9 : PipeFrame st base s9 := pipe_updFe (pipe_ite (pipe_measure h7) h7)
  exact pipe_runPipe (pipe_ite (pipe_slotPassed (pipe_ite (pipe_measure h9) h9)) (pipe_ite (pipe_measure h9) h9))

/-! ### A line arrives (R107, R108) -/

theorem pipe_anchor (h : PipeFrame st base s) : PipeFrame st base (anchor st s) := pipe_ite h (pipe_draw (pipe_updFe h))

theorem pipe_fillMissing {resync : Bool} (h : PipeFrame st base s) : PipeFrame st base (fillMissing st resync s) := by
  dsimp only [fillMissing]
  split
  · exact pipe_pushSlot h
  · exact pipe_pushSlot (pipe_draw h)

theorem pipe_fillTo {k : Nat} {resync : Bool} : ∀ {n s}, PipeFrame st base s → PipeFrame st base (fillTo st k resync n s)
  | 0, _, h => h
  | _ + 1, _, h => pipe_ite (pipe_fillTo (pipe_fillMissing h)) h

theorem pipe_pairWith {j : Word} {resync good ovr : Bool} {planes : List Row} (h : PipeFrame st base s) :
    PipeFrame st base (pairWith st j resync good ovr planes s) := by
  unfold pairWith
  split
  · exact pipe_pushSlot (pipe_feStat (pipe_wr (pipe_updFe (pipe_fillTo h)) (.frontEnd _ (by decide))))
  · exact h

theorem pipe_lineIn {line : Word} {good ovr : Bool} {samples : List Row} {t0 : BitVec 64} {pos : Word} (h : PipeFrame st base s) :
    PipeFrame st base (lineIn st line good ovr samples t0 pos s) := by
  unfold lineIn
  refine pipe_ite h ?_
  extract_lets +onlyGivenNames planes s0
  have h0 : PipeFrame st base s0 := pipe_anchor h
  have hstray {o b : Nat} (ho : o % 0x400 ≠ 4) : PipeFrame st base (feEvt st b (inc (fes st + o) 1 s0)) := pipe_feEvt (pipe_wr h0 (.frontEnd _ ho))
  refine pipe_ite (pipe_pushSlot (pipe_feStat (pipe_wr h0 (.frontEnd _ (by decide))))) (pipe_ite h0 (pipe_ite (pipe_pairWith h0) ?_))
  split
  · exact pipe_ite (pipe_pairWith (pipe_updFe (pipe_ite (hstray (by decide)) h0))) (hstray (by decide))
  · exact hstray (by decide)

theorem pipe_deliver (h : PipeFrame st base s) : PipeFrame st base (deliver st s) := by
  unfold deliver
  split
  · exact h
  · exact pipe_lineIn (pipe_wr (pipe_updFe (pipe_with h)) (.lane _ (by split <;> decide)))

/-! ### A front end starts (R117) -/

theorem pipe_feStart {replay : Bool} (h : PipeFrame st base s) : PipeFrame st base (feStart st replay s) := by
  unfold feStart
  extract_lets +onlyGivenNames _ _ _ s3 s4 s5
  have h3 : PipeFrame st base s3 := pipe_wr (pipe_feStat (pipe_feStat (pipe_feStat (pipe_updFe (pipe_feStat (pipe_swapTable
    (pipe_eachDo (fun _ _ => pipe_takeShadow) h))))))) (.inr (.inr (by unfold feBase; omega)))
  have h4 : PipeFrame st base s4 :=
    pipe_eachDo (fun _ _ hs => pipe_wr (pipe_wr hs (.output _ _ (by decide))) (.output _ _ (by decide))) h3
  have h5 : PipeFrame st base s5 := pipe_openOuts (pipe_updFe h4)
  exact pipe_ite h5 (pipe_anchor (pipe_takePort h5))

end Pipe

end Sys2Proof.Proofs
end

section
/-! Camera ports (04_chanak_lanes.md, R74, R82, R86): a port goes down, enters quarantine and leaves it, and takes a control request. -/

namespace Sys2Proof.Proofs

open Sys2Proof Sys2Proof.Machine Sys2Proof.Laws

/-! ### What a port that goes down leaves alone -/

section Port

variable {st : Nat} {base s : State}

theorem pipe_clEvt {n b : Nat} (h : PipeFrame st base s) : PipeFrame st base (clEvt n b s) := by
  dsimp only [clEvt]
  split
  · exact pipe_streamInt (pipe_wr h (.lane _ (by decide)))
  · exact pipe_wr h (.lane _ (by decide))

theorem pipe_camDone {fn status ack sent : Nat} {res : List Byte} (h : PipeFrame st base s) : PipeFrame st base (camDone fn status res ack sent s) := by
  unfold camDone
  split
  · exact (ringOnly_finish _ _ _ _).pipe h
  · exact h

theorem pipe_dropReqs {p : CPort} (h : PipeFrame st base s) : PipeFrame st base (dropReqs p s) :=
  pipe_eachDo (fun _ _ => pipe_camDone) (pipe_eachDo (fun _ _ => pipe_camDone) h)

theorem pipe_laneFault {code unit : Nat} (h : PipeFrame st base s) : PipeFrame st base (laneFault code unit st s) := by
  unfold laneFault
  split
  · exact pipe_raiseFault h
  · exact h

/-- A port that goes down clears CL_STAT.UP, and its pipeline keeps the rest of CL_STAT before and after (R74). -/
theorem portDown_eq_around (st : Nat) (s : State) :
    ∃ x, PipeFrame st s x ∧ PipeFrame st (setPortBit st clUP false x) (portDown st s) := by
  unfold portDown
  extract_lets up s1 p s2 s3 s4
  refine ⟨s2, pipe_with (pipe_deliver (pipe_with (pipe_refl st s))), pipe_dropReqs (pipe_wr ?_ (.ss st))⟩
  have h3 : PipeFrame st (setPortBit st clUP false s2) s3 := pipe_wr (pipe_refl _ _) (.lane _ (by decide))
  exact pipe_ite (pipe_clEvt (pipe_feStat h3)) h3

/-- No stream starts or stops as a port goes down. -/
theorem startsKept_portDown (st : Nat) (s : State) : StartsKept s (portDown st s) := by
  obtain ⟨x, hx, hdown⟩ := portDown_eq_around st s
  have hshown : StartsKept x (setPortBit st clUP false x) := ⟨fun _ => rfl, rfl⟩
  exact (hx.toStartsKept.trans hshown).trans hdown.toStartsKept

end Port

/-! ### CL_STAT of a port (R89) -/

section Status

variable {st : Nat} {s t : State}

theorem primBase_congr (h : t.img = s.img) (st : Nat) : primBase st t = primBase st s := by simp only [primBase, cfg, h]

theorem streamPart_congr (h : t.img = s.img) (st : Nat) : streamPart st t = streamPart st s := by
  rw [streamPart, streamPart, streamUsed, streamUsed, cfg, cfg, h]

theorem portBit_of_status {b : Nat} (himg : t.img = s.img) (h : rd (primBase st s + 4) t = rd (primBase st s + 4) s) :
    portBit st b t = portBit st b s := by simp only [portBit, rdB, primBase_congr himg, h]

theorem PipeFrame.portBit (h : PipeFrame st s t) (hst : st < 64) (hl : laneFirst st s < 64) (b : Nat) : portBit st b t = portBit st b s :=
  portBit_of_status h.img (h.status hst _ hl)

theorem portBit_setPortBit_same {b : Nat} (v : Bool) (hb : b < 32) (s : State) : portBit st b (setPortBit st b v s) = v :=
  rdB_wrB_same s (primBase st s + 4) b v hb

theorem portBit_setPortBit_ne {b c : Nat} (v : Bool) (hne : c ≠ b) (s : State) : portBit st c (setPortBit st b v s) = portBit st c s := by
  show bitOf c (rd (primBase st s + 4) (wrB (primBase st s + 4) b v s)) = _
  rw [rd_wrB_same, bitOf_setBit_ne v _ hne]
  rfl

theorem portBit_wrB_ne {b k i : Nat} {v : Bool} (hk : k ≠ primBase st s + 4) : portBit st b (wrB k i v s) = portBit st b s :=
  portBit_of_status rfl (rd_wrB_ne s i v (Ne.symm hk))

/-- A port that goes down is not up, and its quarantine stays as it is (R74). -/
theorem portBits_portDown (hst : st < 64) (hl : laneFirst st s < 64) :
    camUp st (portDown st s) = false ∧ inQuar st (portDown st s) = inQuar st s := by
  obtain ⟨x, hx, hdown⟩ := portDown_eq_around st s
  have hlx : laneFirst st (setPortBit st clUP false x) < 64 := by
    show cfg 0x20 st 1 1 x < 64
    rwa [cfg, hx.img]
  refine ⟨(hdown.portBit hst hlx clUP).trans (portBit_setPortBit_same false (by decide) x), ?_⟩
  calc inQuar st (portDown st s)
      = portBit st clQUAR (setPortBit st clUP false x) := hdown.portBit hst hlx clQUAR
    _ = portBit st clQUAR x := portBit_setPortBit_ne false (by decide) x
    _ = inQuar st s := hx.portBit hst hl clQUAR

end Status

/-! ### Quarantine (R82) -/

theorem faultActive_laneFault {code unit st p : Nat} {s : State} (hp : streamPart st s = some p) (hc : faultClass code ≠ .info) :
    FaultActive code unit p (laneFault code unit st s) := by
  simp only [laneFault, hp]
  exact faultActive_raiseFault hc

section Quarantine

variable {st : Nat} {s : State}

theorem quarPort_of_quar (h : inQuar st s = true) : quarPort st s = s := if_pos h

/-- A port that enters quarantine is down, shows it and raises its fault (R82). -/
theorem quarPort_effect {p : Nat} (hst : st < 64) (hl : laneFirst st s < 64) (hp : streamPart st s = some p) (hq : inQuar st s = false) :
    inQuar st (quarPort st s) = true ∧ camUp st (quarPort st s) = false ∧ FaultActive 0x5003 st p (quarPort st s) ∧
      (quarPort st s).img = s.img := by
  have hopen (x : State) : x.img = s.img → laneFirst st x < 64 ∧ streamPart st x = some p := fun hx => by
    rw [streamPart_congr hx, laneFirst, cfg, hx]
    exact ⟨hl, hp⟩
  have hquar : quarPort st s = laneFault 0x5003 st st (portDown st (clEvt (laneFirst st (setPortBit st clQUAR true s)) 4
      (wrB (primBase st s + 0x100) 0 true (setPortBit st clQUAR true s)))) := if_neg (by simp [hq])
  rw [hquar]
  set shown := setPortBit st clQUAR true s
  set noted := clEvt (laneFirst st shown) 4 (wrB (primBase st s + 0x100) 0 true shown)
  have hnoted : PipeFrame st shown noted := pipe_clEvt (pipe_wr (pipe_refl st shown) (.lane _ (by decide)))
  have himg : (portDown st noted).img = s.img := (startsKept_portDown st noted).img.trans hnoted.img
  obtain ⟨hdown, hkept⟩ := portBits_portDown (s := noted) hst (hopen noted hnoted.img).1
  have hfault : PipeFrame st (portDown st noted) (laneFault 0x5003 st st (portDown st noted)) := pipe_laneFault (pipe_refl _ _)
  refine ⟨?_, ?_, faultActive_laneFault (hopen _ himg).2 (by decide), hfault.img.trans himg⟩
  · calc inQuar st (laneFault 0x5003 st st (portDown st noted))
        = inQuar st (portDown st noted) := hfault.portBit hst (hopen _ himg).1 clQUAR
      _ = inQuar st noted := hkept
      _ = inQuar st shown := hnoted.portBit hst (hopen shown rfl).1 clQUAR
      _ = true := portBit_setPortBit_same true (by decide) s
  · exact (hfault.portBit hst (hopen _ himg).1 clUP).trans hdown

/-- A port that is released shows no quarantine (R82). -/
theorem inQuar_releasePort (st : Nat) (s : State) : inQuar st (releasePort st s) = false := by
  unfold inQuar
  rw [releasePort, portBit_wrB_ne (by change primBase st s + 0x100 ≠ primBase st s + 4; omega)]
  exact portBit_setPortBit_same false (by decide) _

/-- A release writes the port's record and two registers of its lane, which no ring has. -/
theorem serving_releasePort {fn : Nat} {s1 : State} (hl : laneFirst st s < 64) (h : Serving fn s1 s) : Serving fn s1 (releasePort st s) := by
  have hoff (o : Nat) (ho : o < 0x400) : 0x10068 ≤ primBase st s + o ∧ primBase st s + o < 0x1010000 := by
    have : primBase st s = 0x0C0000 + laneFirst st s * 0x400 := rfl
    omega
  exact ((shown_wr _ (.inr (hoff 4 (by decide)))).trans (shown_wr _ (.inr (hoff 0x100 (by decide))))).serving
    (h.congr (t := updPort st (fun p => { p with seen := false, fails := 0 }) s) rfl fun _ _ => rfl)

end Quarantine

/-! ### Control requests (R86) -/

section Requests

variable {st : Nat} {s : State}

theorem cport_updPort (st : Nat) (f : CPort → CPort) (s : State) : cport st (updPort st f s) = f (cport st s) := Fam.get_set_self _ _ _ _

theorem cport_congr {t : State} (h : t.cports = s.cports) (st : Nat) : cport st t = cport st s := by rw [cport, cport, h]

theorem txFrame_keeps (st : Nat) (f : List Byte) (s : State) : (txFrame st f s).cports = s.cports ∧ (txFrame st f s).rings = s.rings := by
  unfold txFrame
  split <;> exact ⟨rfl, rfl⟩

/-- A request to a port with none goes out at once and is outstanding, under a number of its own (R86). -/
theorem camSend_effect (r : CReq) (ho : (cport st s).outst = []) (hw : (cport st s).waiting = []) :
    (camSend st r s).rings = s.rings ∧ ∃ seq, (cport st (camSend st r s)).outst = [{ r with seq := seq }] := by
  set joined := updPort st (fun p => { p with waiting := p.waiting ++ [r] }) s
  have hjoined : cport st joined = { cport st s with waiting := [r] } := (cport_updPort st _ s).trans (by rw [hw]; rfl)
  set sent : CReq := { r with seq := nextTx st joined }
  set out := updPort st (fun p => { p with waiting := [], outst := p.outst ++ [sent] }) joined
  set done := txFrame st (reqFrame sent) (showSeq st (nextRx st out) (nextTx st out + 1) out)
  obtain ⟨hports, hrings⟩ := txFrame_keeps st (reqFrame sent) (showSeq st (nextRx st out) (nextTx st out + 1) out)
  have hdone : cport st done = { cport st s with waiting := [], outst := [sent] } := by
    rw [show cport st done = cport st out from cport_congr hports st, cport_updPort, hjoined, ho]
    rfl
  have hsend : camSend st r s = done := by
    have hrest (k : Nat) : sendReqs st (k + 1) done = done := by simp only [sendReqs, hdone]
    show sendReqs st (3 + 1) joined = done
    rw [sendReqs]
    simp only [hjoined, ho, List.length_nil]
    exact (if_neg (by decide)).trans (hrest 2)
  rw [hsend, hdone]
  exact ⟨hrings, _, rfl⟩

end Requests

end Sys2Proof.Proofs
end

section
/-! Starts and stops of streams (05_image_front_ends.md, R117; 13_scheduling_and_deadlines.md, R297, R305, R306): what a start and the model-set switch
it may bring leave started, and what a stop stops. -/

namespace Sys2Proof.Proofs

open Sys2Proof Sys2Proof.Machine Sys2Proof.Laws

section Starts

variable {base s : State}

/-! ### Operations that neither start nor stop a stream -/

theorem starts_refl (s : State) : StartsKept s s := ⟨fun _ => rfl, rfl⟩

/-- What writes neither a stream's record nor the image. -/
theorem starts_of {t : State} (h : StartsKept base s) (hs : t.strms = s.strms := by rfl) (hi : t.img = s.img := by rfl) : StartsKept base t :=
  h.trans ⟨fun x => by rw [strm, strm, hs], hi⟩

theorem starts_wr {k : Nat} {v : Word} (h : StartsKept base s) : StartsKept base (wr k v s) := starts_of h

theorem starts_updCore {n : Nat} {f : Core → Core} (h : StartsKept base s) : StartsKept base (updCore n f s) := starts_of h

theorem PipeFrame.starts {st : Nat} {t : State} (h : PipeFrame st s t) (hs : StartsKept base s) : StartsKept base t := hs.trans h.toStartsKept

theorem RingOnly.starts {fn : Nat} {t : State} (h : RingOnly fn s t) (hs : StartsKept base s) : StartsKept base t :=
  (h.pipe (pipe_refl 0 s)).starts hs

theorem starts_ite {p : Prop} [Decidable p] {a b : State} (ha : StartsKept base a) (hb : StartsKept base b) : StartsKept base (if p then a else b) := by
  split <;> assumption

theorem starts_eachDo {α : Type} {f : α → State → State} {l : List α} (hf : ∀ x s, StartsKept base s → StartsKept base (f x s))
    (h : StartsKept base s) : StartsKept base (eachDo f l s) := eachDo_keeps (P := StartsKept base) (fun x _ => hf x) h

/-- A stream's record changes, but not whether it is started. -/
theorem starts_updStrm {st : Nat} {f : Strm → Strm} (h : StartsKept base s) (hf : ∀ x, (f x).started = x.started) :
    StartsKept base (updStrm st f s) := by
  refine h.trans ⟨fun x => ?_, rfl⟩
  by_cases hx : x = st
  · subst hx
    rw [strm_updStrm_same, hf]
  · rw [strm_updStrm_ne s f hx]

theorem starts_devWrite {master unit t a : Nat} {bs : List Byte} (h : StartsKept base s) : StartsKept base (devWrite master unit t a bs s).2.2 :=
  (pipe_devWrite (pipe_refl 0 s)).starts h

theorem starts_readPieces {master unit t : Nat} : ∀ {ls s}, StartsKept base s → StartsKept base (readPieces master unit t ls s).2.2.2
  | [], _, h => h
  | (a, n) :: r, s, h => by
    dsimp only [readPieces]
    split
    · exact starts_readPieces ((pipe_eachDo (fun _ _ => pipe_reportUnc) (pipe_awaitWipe (pipe_refl 0 s))).starts h)
    · exact starts_readPieces ((pipe_refuseAccess (pipe_refl 0 s)).starts h)

/-! ### The ledger at a job's end (R333) -/

theorem starts_showLedger {st p : Nat} (h : StartsKept base s) : StartsKept base (showLedger st p s) :=
  starts_eachDo (fun _ _ hs => starts_of hs) (starts_of h)

theorem starts_logRecord {p : Nat} {bs : List Byte} (h : StartsKept base s) : StartsKept base (logRecord p bs s) := by
  unfold logRecord
  refine starts_ite (starts_of h) ?_
  extract_lets a s1 s2 step
  have hstep {fn key : Nat} {s : State} (hs : StartsKept base s) : StartsKept base (step fn key s) :=
    starts_ite ((ringOnly_fireInt 2).starts (starts_of hs)) (starts_of hs)
  exact hstep (hstep (starts_of (s := s1) (starts_devWrite h)))

theorem starts_drainEnt {e : Nat} (h : StartsKept base s) : StartsKept base (drainEnt e s) := by
  unfold drainEnt freeEnt
  split
  · refine starts_ite ?_ (starts_showLedger h)
    split
    · exact h
    · exact starts_showLedger (starts_logRecord (starts_of h))
  · exact h

theorem starts_updEnt {e : Nat} {f : LEntry → LEntry} (h : StartsKept base s) : StartsKept base (updEnt e f s) := by
  unfold updEnt
  split
  · exact starts_of h
  · exact h

theorem starts_ledgerJobEnded {p num : Nat} (h : StartsKept base s) : StartsKept base (ledgerJobEnded p num s) := by
  unfold ledgerJobEnded
  split
  · exact h
  · exact starts_drainEnt (starts_updEnt h)

/-! ### Cores that stop, jobs that are skipped (R306, R308) -/

theorem starts_showUnits {n : Nat} (h : StartsKept base s) : StartsKept base (showUnits n s) := by
  unfold showUnits
  extract_lets +onlyGivenNames c b _ _ _ _ s4
  have h4 : StartsKept base s4 := by
    unfold s4
    split <;> exact starts_of h
  exact starts_of h4

theorem starts_showConv {n : Nat} (h : StartsKept base s) : StartsKept base (showConv n s) := by
  dsimp only [showConv]
  split <;> exact starts_of h

theorem starts_flushSettle {n : Nat} (h : StartsKept base s) : StartsKept base (flushSettle n s) := starts_ite (starts_wr (starts_updCore h)) h

theorem starts_flushCore {n : Nat} (h : StartsKept base s) : StartsKept base (flushCore n true s) := by
  have hdiscarded : StartsKept base (discardWaiting n s) := starts_showConv (starts_showUnits (starts_of h))
  exact starts_flushSettle (starts_wr (starts_updCore hdiscarded))

theorem starts_stopCores {ns : List Nat} (h : StartsKept base s) : StartsKept base (stopCores ns s) :=
  starts_eachDo (fun _ _ hs => starts_flushCore (starts_ite hs (starts_of hs))) h

theorem starts_showSched {p : Nat} (h : StartsKept base s) : StartsKept base (showSched p s) :=
  starts_eachDo (fun _ _ hs => starts_of hs) (starts_of h)

theorem starts_windowDone {st : Nat} {obj : Word} (h : StartsKept base s) : StartsKept base (windowDone st obj s) :=
  (pipe_showOuts (pipe_updFe (pipe_refl st s))).starts h

theorem starts_lastPreDusk {j : Job} (h : StartsKept base s) : StartsKept base (lastPreDusk j s) :=
  starts_ite (starts_updStrm h fun _ => rfl) h

theorem starts_jobSkipped {p num : Nat} (h : StartsKept base s) : StartsKept base (jobEnd p num .skipped s) := by
  unfold jobEnd
  split
  · exact h
  · extract_lets +onlyGivenNames s0 s1 s2 s3
    have h1 : StartsKept base s1 := starts_of (s := s0) (starts_stopCores h)
    have h2 : StartsKept base s2 := starts_ite (starts_of h1) h1
    have h3 : StartsKept base s3 := starts_of (starts_lastPreDusk (starts_ledgerJobEnded (starts_of (t := dropJob p num s2) h2)))
    exact starts_showSched (starts_ite h3 (starts_windowDone h3))

/-! ### Model-set switches (R306) -/

theorem starts_askYield {f : Job → Bool} {p : Nat} (h : StartsKept base s) : StartsKept base (askYield f p s) :=
  starts_eachDo (fun _ _ hs => starts_ite (starts_eachDo (fun _ _ hs => starts_of hs) hs) hs) h

theorem starts_loadEntering {p : Nat} {hs : List Nat} (h : StartsKept base s) : StartsKept base (loadEntering p hs s) :=
  starts_eachDo (fun x s h => by
    split
    · exact starts_eachDo (fun _ _ h => starts_devWrite (starts_readPieces h)) h
    · exact h) h

theorem starts_updJob {p num : Nat} {f : Job → Job} (h : StartsKept base s) : StartsKept base (updJob p num f s) := starts_of h

theorem starts_switchJob {w : Switch} {leaving : List Nat} {j : Job} (h : StartsKept base s) : StartsKept base (switchJob w leaving j s) := by
  unfold switchJob
  refine starts_ite h ?_
  split
  · exact starts_updJob (starts_ite (starts_of h) h)
  · exact starts_jobSkipped h

theorem starts_switchBody {p : Nat} (h : StartsKept base s) : StartsKept base (switchBody p s) := by
  unfold switchBody
  split
  · exact h
  · refine starts_ite h ?_
    extract_lets +onlyGivenNames now leaving s0 s1 s2 s3
    have h1 : StartsKept base s1 := starts_loadEntering (starts_eachDo (fun _ _ => starts_switchJob) h)
    have h3 : StartsKept base s3 := starts_showSched (starts_of (s := s1) h1)
    split
    · exact starts_ite ((ringOnly_finish _ _ _ _).starts h3) h3
    · exact h3

theorem starts_changeSet {fn p : Nat} {d : SvcDesc} {was : Bool} {old : List Nat} {repl : List (Nat × Nat × Option Nat)} (h : StartsKept base s) :
    StartsKept base (changeSet fn d p was old repl s) :=
  starts_ite (starts_switchBody (starts_askYield (starts_of h))) ((ringOnly_finish _ _ _ _).starts (starts_loadEntering h))

theorem starts_showRun {p : Nat} (h : StartsKept base s) : StartsKept base (showRun p s) := starts_ite h (starts_of h)

/-! ### The record of a stream that starts (R80, R117, R292) -/

theorem starts_showMode {st : Nat} (h : StartsKept base s) : StartsKept base (showMode st s) := starts_ite h (starts_wr h)

theorem starts_fillBucket {st : Nat} (h : StartsKept base s) : StartsKept base (fillBucket st s) := starts_of h

theorem starts_fillWindows {st : Nat} (h : StartsKept base s) : StartsKept base (fillWindows st s) := starts_updStrm h fun _ => rfl

theorem starts_showSs {st : Nat} (h : StartsKept base s) : StartsKept base (showSs st s) := starts_wr h

theorem starts_showFixed {p : Nat} (h : StartsKept base s) : StartsKept base (showFixed p s) := starts_wr h

end Starts

/-! ### Starts and stops -/

/-- A start starts its stream (R117, R297). -/
theorem started_startGo (fn : Nat) (d : SvcDesc) (p st : Nat) (s : State) : (strm st (startGo fn d p st s)).started = true := by
  unfold startGo
  extract_lets +onlyGivenNames was old fresh s0 m s1 s2 s3
  have h1 : StartsKept s0 s1 := starts_ite (starts_of (starts_refl s0)) (starts_refl s0)
  have h2 : StartsKept s0 s2 :=
    starts_ite (starts_fillWindows (starts_fillBucket (starts_showMode (starts_wr ((pipe_feStart (pipe_refl st s1)).starts h1))))) h1
  have h3 : StartsKept s0 s3 := starts_ite (starts_wr h2) h2
  have hgo : StartsKept s0 (changeSet fn d p was old [] (showFixed p (showRun p (showSs st s3)))) :=
    starts_changeSet (starts_showFixed (starts_showRun (starts_showSs h3)))
  rw [hgo.started]
  exact congrArg Strm.started (strm_updStrm_same s st _)

/-- A stop leaves its stream stopped (R117). -/
theorem stopped_stopStream (p st : Nat) (s : State) : (strm st (stopStream p st s)).started = false := by
  unfold stopStream
  extract_lets s1 s2
  split
  · next h => simpa using h
  · have hgo : StartsKept s2 (showSched p (showRun p (showSs st (portDown st s2)))) :=
      starts_showSched (starts_showRun (starts_showSs (startsKept_portDown st s2)))
    rw [hgo.started]
    exact congrArg Strm.started (strm_updStrm_same (feStop st s1) st _)

end Sys2Proof.Proofs
end

section
/-! The service commands of streams, recipes and camera ports (03_configuration_image.md, R56; 04_chanak_lanes.md, R82, R86; 05_image_front_ends.md,
R117; 13_scheduling_and_deadlines.md, R297; 18_clocks_power_ageing.md, R425): each command's plan, and what carrying it out leaves. -/

namespace Sys2Proof.Proofs

open Sys2Proof Sys2Proof.Machine Sys2Proof.Laws

/-! ### SVC_START_STREAM and SVC_STOP_STREAM (R117, R297, R425) -/

section Streams

variable {fn p : Nat} {d : SvcDesc} {h : HostIn} {s : State}

/-- A start that first waits for a Morning check of cores `ns` (R425). -/
def awaitsCheck (fn : Nat) (d : SvcDesc) (ns : List Nat) : Plan :=
  { status := stOK, logged := false, run := fun s => wrB kPWR_STAT 7 true (goesOn fn (.startStream d ns) s) }

theorem planStart_stale (hown : ownStream fn (dArg d 36 1) s = some p) (hoff : (strm (dArg d 36 1) s).started = false)
    (hgood : startBad p (dArg d 36 1) s = none) (hstale : staleCores p s ≠ []) : planStart fn d false s = awaitsCheck fn d (staleCores p s) := by
  simp only [planStart, hown, hoff, hgood]
  rw [if_neg (by simp), if_pos (by simpa using hstale)]
  rfl

theorem planStart_fits (hown : ownStream fn (dArg d 36 1) s = some p) (hoff : (strm (dArg d 36 1) s).started = false)
    (hgood : startBad p (dArg d 36 1) s = none) (hstale : staleCores p s = []) (hfit : admitSet p (setWith p (dArg d 36 1) s) s = none) :
    planStart fn d false s = begins (startGo fn d p (dArg d 36 1)) := by
  simp only [planStart, hown, hoff, hgood, hstale, hfit]
  rfl

theorem planStart_unfit {r : Refuse} (hown : ownStream fn (dArg d 36 1) s = some p) (hoff : (strm (dArg d 36 1) s).started = false)
    (hgood : startBad p (dArg d 36 1) s = none) (hstale : staleCores p s = []) (hfit : admitSet p (setWith p (dArg d 36 1) s) s = some r) :
    planStart fn d false s = refuse fn d stREFUSED_FIT (refuseBytes r) := by
  simp only [planStart, hown, hoff, hgood, hstale, hfit]
  rfl

theorem planOf_start {data : List Byte} (hcmd : dCMD d = 0x0301) : planOf fn d data s = planStart fn d false s := by
  simp [planOf, planMid, hcmd]

/-- R425: a start that waits for a check shows MORNING, and no stream's record changes. -/
theorem svcRow_startStale {ns : List Nat} (hfn : fn < 17) (hs : SvcStarts 0x0301 fn d h s)
    (hplan : planStart fn (rowDesc 0x0301 d) false (svcState 0x0301 fn d h s) = awaitsCheck fn (rowDesc 0x0301 d) ns) :
    let t := svcRow 0x0301 fn d h s
    (ring fn t).busy = some (.startStream (rowDesc 0x0301 d) ns) ∧ rdB kPWR_STAT 7 t = true ∧ t.strms = s.strms := by
  have hrow := svcRow_of_plan hfn (by decide) rfl hs ((planOf_start (dCMD_rowDesc d (by decide))).trans hplan) rfl
  have hrec (data : List Byte) (x : State) : recordPlan fn (rowDesc 0x0301 d) data (awaitsCheck fn (rowDesc 0x0301 d) ns) x = x := by
    simp [recordPlan, awaitsCheck]
  rw [hrec] at hrow
  have hframe : SvcFrame s (svcState 0x0301 fn d h s) := svcFrame_svcState rfl
  rw [hrow]
  refine ⟨busy_goesOn (.startStream (rowDesc 0x0301 d) ns) (svcState 0x0301 fn d h s), rdB_wrB_same _ kPWR_STAT 7 true (by decide), ?_⟩
  show (svcState 0x0301 fn d h s).strms = s.strms
  rw [hframe]

/-- R117, R297: an admitted start starts its stream. -/
theorem svcRow_startFits (hfn : fn < 17) (hs : SvcStarts 0x0301 fn d h s)
    (hplan : planStart fn (rowDesc 0x0301 d) false (svcState 0x0301 fn d h s) =
      begins (startGo fn (rowDesc 0x0301 d) p (dArg (rowDesc 0x0301 d) 36 1))) :
    (strm (dArg (rowDesc 0x0301 d) 36 1) (svcRow 0x0301 fn d h s)).started = true := by
  obtain ⟨l, n, e, hrow⟩ := svcRow_of_logged_plan hfn (by decide) rfl hs ((planOf_start (dCMD_rowDesc d (by decide))).trans hplan)
  rw [hrow]
  exact started_startGo _ _ _ _ _

/-- R297: a start that does not fit is refused with its reason and model. -/
theorem svcRow_startUnfit {r : Refuse} (hfn : fn < 17) (hs : SvcStarts 0x0301 fn d h s)
    (hplan : planStart fn (rowDesc 0x0301 d) false (svcState 0x0301 fn d h s) = refuse fn (rowDesc 0x0301 d) stREFUSED_FIT (refuseBytes r)) :
    Answered fn (rowDesc 0x0301 d) stREFUSED_FIT (refuseBytes r) (svcState 0x0301 fn d h s) (svcRow 0x0301 fn d h s) ∧
      SvcFrame s (svcRow 0x0301 fn d h s) ∧ FlashSame s (svcRow 0x0301 fn d h s) :=
  svcRow_refused_flash hfn (by decide) rfl hs ((planOf_start (dCMD_rowDesc d (by decide))).trans hplan)

/-- R117: a stop leaves its stream stopped and its ring free. -/
theorem svcRow_stop (hfn : fn < 17) (hs : SvcStarts 0x0302 fn d h s)
    (hown : ownStream fn (dArg (rowDesc 0x0302 d) 36 1) (svcState 0x0302 fn d h s) = some p) :
    (strm (dArg (rowDesc 0x0302 d) 36 1) (svcRow 0x0302 fn d h s)).started = false ∧ (ring fn (svcRow 0x0302 fn d h s)).busy = none := by
  have hcmd : dCMD (rowDesc 0x0302 d) = 0x0302 := dCMD_rowDesc d (by decide)
  obtain ⟨l, n, e, hrow⟩ := svcRow_of_logged_plan (pl := completes fn (rowDesc 0x0302 d) [] (stopStream p (dArg (rowDesc 0x0302 d) 36 1)))
    hfn (by decide) rfl hs (by simp [planOf, planMid, hcmd, planStop, hown])
  rw [hrow]
  exact ⟨(((ringOnly_finish _ _ _ _).starts (starts_refl _)).started _).trans (stopped_stopStream _ _ _), busy_finish _ _ _ _ _ _⟩

end Streams

/-! ### SVC_RECIPE_SELECT (R56) -/

section Recipes

variable {fn : Nat} {d : SvcDesc} {h : HostIn} {s : State}

/-- Recipe pairs in their registers, with PEND of every slot-set they touch and the ledger settings they name committed. -/
def selectPairs (ps : List (Nat × Nat)) (s : State) : State :=
  eachDo ldsGo (touchedLds ps) (eachDo (fun st s => feStat st fsPEND true s) (touchedFes ps) (eachDo writePair ps s))

theorem planOf_recipe {data : List Byte} (hcmd : dCMD d = 0x0303) : planOf fn d data s = planRecipe fn d s := by
  simp [planOf, planMid, hcmd]

theorem planRecipe_absent (hsec : secOf s.img 0x21 (dArg d 36 2) = none) : planRecipe fn d s = refuse fn d stREFUSED_CFG (natLE 2 0xFFFF) := by
  simp only [planRecipe, hsec]

theorem planRecipe_bad {b : List Byte} {i : Nat} (hsec : secOf s.img 0x21 (dArg d 36 2) = some b)
    (hbad : ((recPairs b).findIdx? fun x => pairBad (recPairs b) x s) = some i) : planRecipe fn d s = refuse fn d stREFUSED_CFG (natLE 2 i) := by
  simp only [planRecipe, hsec, hbad]

theorem planRecipe_single {b : List Byte} {x : Nat × Nat} (hsec : secOf s.img 0x21 (dArg d 36 2) = some b) (hb : recPairs b = [x])
    (hgood : pairBad [x] x s = false) : planRecipe fn d s = completes fn d [] (selectPairs [x]) := by
  simp only [planRecipe, hsec, hb, List.findIdx?_singleton, hgood]
  rfl

/-- R56: a recipe that is not in the image, or a pair of it out of range, is refused with 0xFFFF or its index. -/
theorem svcRow_recipeRefused {i : Nat} (hfn : fn < 17) (hs : SvcStarts 0x0303 fn d h s)
    (hplan : planRecipe fn (rowDesc 0x0303 d) (svcState 0x0303 fn d h s) = refuse fn (rowDesc 0x0303 d) stREFUSED_CFG (natLE 2 i)) :
    Answered fn (rowDesc 0x0303 d) stREFUSED_CFG (natLE 2 i) (svcState 0x0303 fn d h s) (svcRow 0x0303 fn d h s) ∧
      SvcFrame s (svcRow 0x0303 fn d h s) := by
  obtain ⟨hans, l, n, e, hring⟩ := svcRow_refused hfn (by decide) rfl hs ((planOf_recipe (dCMD_rowDesc d (by decide))).trans hplan)
  exact ⟨hans, svcFrame_of_logged rfl hring⟩

/-- A pair of a front end names a register of a slot-set, other than its FES_STAT (R55). -/
theorem recReg_fe {k st : Nat} (hk : recReg k = some (.fe st)) : 0x080000 ≤ k ∧ k < 0x0A0000 ∧ st < 64 ∧ k ≠ fes st + 4 := by
  unfold recReg at hk
  split at hk
  · next hrange =>
    extract_lets o at hk
    split at hk
    · next ho =>
      have hst : 4 * ((k - 0x080000) / 0x2000) + (k % 0x2000 - 0x400) / 0x400 = st := by simpa using hk
      refine ⟨hrange.1, hrange.2.1, by omega, ?_⟩
      have hno : o ≠ 4 := by
        intro h4
        rw [h4] at ho
        exact absurd ho (by decide)
      have : o = k % 0x400 := rfl
      unfold fes feBase
      omega
    · cases hk
  · split at hk
    · split at hk <;> cases hk
    · split at hk
      · split at hk <;> cases hk
      · cases hk

/-- A recipe of one front-end pair writes its register and PEND. -/
theorem selectPairs_single {x : Nat × Nat} {st : Nat} (hx : recReg x.1 = some (.fe st)) (s : State) :
    selectPairs [x] s = feStat st fsPEND true (wrMask x.1 (fesMask (x.1 - fes st)) (wd x.2) s) := by
  have hfes : touchedFes [x] = [st] := by simp [touchedFes, hx, List.eraseDups_cons]
  have hlds : touchedLds [x] = [] := by simp [touchedLds, hx]
  have hpair : writePair x s = wrMask x.1 (fesMask (x.1 - fes st)) (wd x.2) s := by simp only [writePair, hx]
  rw [selectPairs, hfes, hlds]
  exact congrArg (feStat st fsPEND true) hpair

theorem shown_selectPair {k st m : Nat} {v : Word} (hk : recReg k = some (.fe st)) (s : State) : Shown s (feStat st fsPEND true (wrMask k m v s)) := by
  obtain ⟨hlo, hhi, hst, -⟩ := recReg_fe hk
  exact (shown_wr _ (by omega)).trans (shown_wr _ (by unfold fes feBase; omega))

/-- R56: a recipe of one front-end pair writes exactly the register's writable bits and sets PEND. -/
theorem svcRow_recipePair {b : List Byte} {x : Nat × Nat} {st : Nat} (hfn : fn < 17) (hs : SvcStarts 0x0303 fn d h s)
    (hsec : secOf (svcState 0x0303 fn d h s).img 0x21 (dArg (rowDesc 0x0303 d) 36 2) = some b) (hb : recPairs b = [x])
    (hgood : pairBad [x] x (svcState 0x0303 fn d h s) = false) (hx : recReg x.1 = some (.fe st)) :
    let t := svcRow 0x0303 fn d h s
    Answered fn (rowDesc 0x0303 d) stOK [] (svcState 0x0303 fn d h s) t ∧
      rd x.1 t = (rd x.1 s &&& ~~~ wd (fesMask (x.1 - fes st))) ||| (wd x.2 &&& wd (fesMask (x.1 - fes st))) ∧ rdB (fes st + 4) fsPEND t = true := by
  intro t
  obtain ⟨hlo, hhi, hst, hne⟩ := recReg_fe hx
  obtain ⟨hans, l, n, e, hring⟩ := svcRow_effect hfn (by decide) rfl hs
    ((planOf_recipe (dCMD_rowDesc d (by decide))).trans (planRecipe_single hsec hb hgood))
    fun l n e => by
      rw [selectPairs_single hx]
      exact (shown_selectPair hx _).serving ((serving_svcState hs).self.logged l n e)
  obtain ⟨m, hframe⟩ := svcState_frame (fn := fn) (code := 0x0303) (d := d) (h := h) (s := s) rfl
  have hoff {k : Nat} (h1 : 0x080000 ≤ k) (h2 : k < 0x0A0000) : ringKey fn k = false := by
    unfold ringKey ringBase
    split <;> simp <;> omega
  have hwas : rd x.1 (svcState 0x0303 fn d h s) = rd x.1 s := hframe.registers _ (hoff hlo hhi)
  rw [selectPairs_single hx] at hring
  refine ⟨hans, ?_, ?_⟩
  · rw [hring.registers _ (hoff hlo hhi), feStat, rd_wrB_ne _ _ _ hne, wrMask, rd_wr_same, ← hwas]
    rfl
  · rw [rdB, hring.registers _ (hoff (by unfold fes feBase; omega) (by unfold fes feBase; omega))]
    exact rdB_wrB_same _ _ _ _ (by decide)

end Recipes

/-! ### SVC_CAM_CTRL, SVC_LANE_QUARANTINE and SVC_LANE_RELEASE (R82, R86) -/

section Ports

variable {fn p : Nat} {d : SvcDesc} {h : HostIn} {s : State}

/-- R86: a request to a port that is down is refused. -/
theorem svcRow_camDown (hfn : fn < 17) (hs : SvcStarts 0x0304 fn d h s)
    (hown : ownStream fn (dArg (rowDesc 0x0304 d) 36 1) (svcState 0x0304 fn d h s) = some p)
    (hdown : camUp (dArg (rowDesc 0x0304 d) 36 1) (svcState 0x0304 fn d h s) = false) :
    Answered fn (rowDesc 0x0304 d) stLINK_DOWN [] (svcState 0x0304 fn d h s) (svcRow 0x0304 fn d h s) ∧ SvcFrame s (svcRow 0x0304 fn d h s) := by
  have hcmd : dCMD (rowDesc 0x0304 d) = 0x0304 := dCMD_rowDesc d (by decide)
  obtain ⟨hans, l, n, e, hring⟩ := svcRow_refused (status := stLINK_DOWN) (res := []) hfn (by decide) rfl hs
    (by simp [planOf, planMid, hcmd, planCamCtrl, hown, hdown])
  exact ⟨hans, svcFrame_of_logged rfl hring⟩

/-- R86: a request to a port that is up waits for its CTRL_ACK. -/
theorem svcRow_camUp (hfn : fn < 17) (hs : SvcStarts 0x0304 fn d h s)
    (hown : ownStream fn (dArg (rowDesc 0x0304 d) 36 1) (svcState 0x0304 fn d h s) = some p)
    (hup : camUp (dArg (rowDesc 0x0304 d) 36 1) (svcState 0x0304 fn d h s) = true)
    (hout : (cport (dArg (rowDesc 0x0304 d) 36 1) (svcState 0x0304 fn d h s)).outst = [])
    (hwait : (cport (dArg (rowDesc 0x0304 d) 36 1) (svcState 0x0304 fn d h s)).waiting = []) :
    let st := dArg (rowDesc 0x0304 d) 36 1
    let t := svcRow 0x0304 fn d h s
    (∃ seq, (ring fn t).busy = some (.camCtrl (rowDesc 0x0304 d) st seq)) ∧
      ∃ r, (cport st t).outst = [r] ∧ r.fn = fn ∧ r.op = camOp (rowDesc 0x0304 d) := by
  intro st t
  have hcmd : dCMD (rowDesc 0x0304 d) = 0x0304 := dCMD_rowDesc d (by decide)
  set data := dataBytes (rowDesc 0x0304 d) ⟨true, true, installer, 36 :: bytesFrom 38 47, .either⟩ (svcState 0x0304 fn d h s)
  let r : CReq := { fn := fn, op := camOp (rowDesc 0x0304 d), arg := natLE 8 (dArg (rowDesc 0x0304 d) 40 8), data := data }
  obtain ⟨l, n, e, hrow⟩ := svcRow_of_logged_plan (pl := begins fun s => camSend st r (goesOn fn (.camCtrl (rowDesc 0x0304 d) st 0) s))
    hfn (by decide) rfl hs (by simp [planOf, planMid, hcmd, planCamCtrl, hown, hup]; rfl)
  obtain ⟨hrings, seq, hsent⟩ := camSend_effect (st := st) (s := goesOn fn (.camCtrl (rowDesc 0x0304 d) st 0) (logged l n e (svcState 0x0304 fn d h s)))
    r hout hwait
  rw [show t = _ from hrow]
  exact ⟨⟨0, by rw [begins, ring_congr hrings, busy_goesOn]⟩, _, hsent, rfl, rfl⟩

theorem planLane_quarantine (hcmd : dCMD d = 0x0305) (hown : ownStream fn (dArg d 36 1) s = some p) (data : List Byte) :
    planOf fn d data s = completes fn d [] (quarPort (dArg d 36 1)) := by
  simp [planOf, planMid, hcmd, planLane, hown]

theorem streamPart_of_own {st : Nat} (hown : ownStream fn st s = some p) : streamPart st s = some p := by
  unfold ownStream at hown
  split at hown
  · next q hq =>
    split at hown
    · exact hq.trans hown
    · cases hown
  · cases hown

/-- R82: a quarantine takes the port down, shows QUAR and raises its fault. -/
theorem svcRow_quarantine (hfn : fn < 17) (hs : SvcStarts 0x0305 fn d h s)
    (hown : ownStream fn (dArg (rowDesc 0x0305 d) 36 1) (svcState 0x0305 fn d h s) = some p) (hst : dArg (rowDesc 0x0305 d) 36 1 < 64)
    (hl : laneFirst (dArg (rowDesc 0x0305 d) 36 1) (svcState 0x0305 fn d h s) < 64)
    (hq : inQuar (dArg (rowDesc 0x0305 d) 36 1) (svcState 0x0305 fn d h s) = false) :
    let st := dArg (rowDesc 0x0305 d) 36 1
    let t := svcRow 0x0305 fn d h s
    inQuar st t = true ∧ camUp st t = false ∧ FaultActive 0x5003 st p t := by
  intro st t
  obtain ⟨l, n, e, hrow⟩ := svcRow_of_logged_plan hfn (by decide) rfl hs (planLane_quarantine (dCMD_rowDesc d (by decide)) hown _)
  set x := logged l n e (svcState 0x0305 fn d h s)
  obtain ⟨hquar, hdown, hfault, himg⟩ := quarPort_effect (s := x) hst hl (streamPart_of_own hown) hq
  have hfin : RingOnly fn (quarPort st x) t := by
    rw [show t = _ from hrow]
    exact ringOnly_finish _ _ _ _
  have hlane : laneFirst st (quarPort st x) < 64 := by
    rw [laneFirst, cfg, himg]
    exact hl
  have hkept : PipeFrame st (quarPort st x) t := hfin.pipe (pipe_refl _ _)
  refine ⟨(hkept.portBit hst hlane clQUAR).trans hquar, (hkept.portBit hst hlane clUP).trans hdown, ?_⟩
  unfold FaultActive
  rw [hfin.rest]
  exact hfault

/-- R82: a quarantine of a port that is in it changes nothing. -/
theorem svcRow_quarantined (hfn : fn < 17) (hs : SvcStarts 0x0305 fn d h s)
    (hown : ownStream fn (dArg (rowDesc 0x0305 d) 36 1) (svcState 0x0305 fn d h s) = some p)
    (hq : inQuar (dArg (rowDesc 0x0305 d) 36 1) (svcState 0x0305 fn d h s) = true) :
    Answered fn (rowDesc 0x0305 d) stOK [] (svcState 0x0305 fn d h s) (svcRow 0x0305 fn d h s) ∧ SvcFrame s (svcRow 0x0305 fn d h s) := by
  have hsame (l : List (List Byte)) (n : Nat) (e : Bool) : quarPort (dArg (rowDesc 0x0305 d) 36 1) (logged l n e (svcState 0x0305 fn d h s)) =
      logged l n e (svcState 0x0305 fn d h s) := quarPort_of_quar hq
  obtain ⟨hans, l, n, e, hring⟩ := svcRow_effect hfn (by decide) rfl hs (planLane_quarantine (dCMD_rowDesc d (by decide)) hown _)
    fun l n e => by
      rw [hsame]
      exact (serving_svcState hs).self.logged l n e
  rw [hsame] at hring
  exact ⟨hans, svcFrame_of_logged rfl hring⟩

/-- A port in quarantine leaves it (R82). -/
def releaseQuar (st : Nat) (s : State) : State := if inQuar st s then releasePort st s else s

theorem inQuar_releaseQuar (st : Nat) (s : State) : inQuar st (releaseQuar st s) = false := by
  unfold releaseQuar
  split
  · exact inQuar_releasePort st s
  · next hq => simpa using hq

/-- R82: a release ends the quarantine. -/
theorem svcRow_release (hfn : fn < 17) (hs : SvcStarts 0x0306 fn d h s)
    (hown : ownStream fn (dArg (rowDesc 0x0306 d) 36 1) (svcState 0x0306 fn d h s) = some p) (hst : dArg (rowDesc 0x0306 d) 36 1 < 64)
    (hl : laneFirst (dArg (rowDesc 0x0306 d) 36 1) (svcState 0x0306 fn d h s) < 64) :
    inQuar (dArg (rowDesc 0x0306 d) 36 1) (svcRow 0x0306 fn d h s) = false ∧
      Answered fn (rowDesc 0x0306 d) stOK [] (svcState 0x0306 fn d h s) (svcRow 0x0306 fn d h s) := by
  set st := dArg (rowDesc 0x0306 d) 36 1
  have hcmd : dCMD (rowDesc 0x0306 d) = 0x0306 := dCMD_rowDesc d (by decide)
  obtain ⟨hans, l, n, e, hring⟩ := svcRow_effect (f := releaseQuar st) (res := []) hfn (by decide) rfl hs
    (by simp [planOf, planMid, hcmd, planLane, st, hown]; rfl) fun l n e => by
      have hx := (serving_svcState hs).self.logged l n e
      unfold releaseQuar
      split
      · exact serving_releasePort hl hx
      · exact hx
  have hlane : laneFirst st (releaseQuar st (logged l n e (svcState 0x0306 fn d h s))) < 64 := by
    unfold releaseQuar
    split <;> exact hl
  exact ⟨((hring.pipe (pipe_refl st _)).portBit hst hlane clQUAR).trans (inQuar_releaseQuar _ _), hans⟩

end Ports

/-- Settles O25: each command's plan, and what carrying it out leaves of streams, shadows, ports and lanes. -/
theorem streamCommandsActOnTheirStream : Obligations.StreamCommandsActOnTheirStream := by
  unfold Obligations.StreamCommandsActOnTheirStream
  refine ⟨?_, ?_, ?_, ?_, ?_, ?_⟩
  · intro fn d h p s hs s1 st hown hoff hgood
    refine ⟨fun ns hns hne => ⟨_, rfl, ?_⟩, fun hstale hfit => ⟨_, rfl, ?_⟩, fun r hstale hfit => ⟨_, rfl, ?_⟩⟩
    · exact svcRow_startStale fn.isLt hs (hns ▸ planStart_stale hown hoff hgood (by rwa [hns]))
    · exact svcRow_startFits fn.isLt hs (planStart_fits hown hoff hgood hstale hfit)
    · exact svcRow_startUnfit fn.isLt hs (planStart_unfit hown hoff hgood hstale hfit)
  · intro fn d h p s hs s1 st hown
    exact ⟨_, rfl, svcRow_stop fn.isLt hs hown⟩
  · intro fn d h s hs s1 sec
    refine ⟨fun hsec => ⟨_, rfl, ?_⟩, fun b i hsec hbad => ⟨_, rfl, ?_⟩, fun b x st hsec hb hgood hx => ⟨_, rfl, ?_⟩⟩
    · exact svcRow_recipeRefused fn.isLt hs (planRecipe_absent hsec)
    · exact svcRow_recipeRefused fn.isLt hs (planRecipe_bad hsec hbad)
    · exact svcRow_recipePair fn.isLt hs hsec hb hgood hx
  · intro fn d h p s hs s1 st hown
    exact ⟨fun hdown => ⟨_, rfl, svcRow_camDown fn.isLt hs hown hdown⟩, fun hup hout hwait => ⟨_, rfl, svcRow_camUp fn.isLt hs hown hup hout hwait⟩⟩
  · intro fn d h p s hs s1 st hown hst hl
    exact ⟨fun hq => ⟨_, rfl, svcRow_quarantine fn.isLt hs hown hst hl hq⟩, fun hq => ⟨_, rfl, svcRow_quarantined fn.isLt hs hown hq⟩⟩
  · intro fn d h p s hs s1 st hown hst hl
    exact ⟨_, rfl, svcRow_release fn.isLt hs hown hst hl⟩

end Sys2Proof.Proofs
end

section
/-! Lanes (04_chanak_lanes.md, R68, R71, R74, R89, R90, R93): what reporting a fault writes, what losing block lock leaves of a lane, of its bond
and of its port or link, what a marker set does. -/

namespace Sys2Proof.Proofs

open Sys2Proof Sys2Proof.Machine Sys2Proof.Laws

/-! ### What reporting a fault writes (R399, R454) -/

/-- Reporting writes registers of its own, the rings, host memory, interrupts and the active faults. -/
structure Reported (s t : State) : Prop where
  rest : t = { s with regs := t.regs, rings := t.rings, host := t.host, out := t.out, faults := t.faults }
  registers : RegsSameBut reportKey s t

section Reported

variable {s t u : State}

theorem reported_refl : Reported s s := ⟨rfl, fun _ _ => rfl⟩

theorem Reported.trans (h : Reported s t) (h' : Reported t u) : Reported s u where
  rest := by rw [h'.rest, h.rest]
  registers := fun k hk => (h'.registers k hk).trans (h.registers k hk)

theorem reported_wr {k : Nat} (v : Word) (hk : reportKey k = true) : Reported s (wr k v s) where
  rest := rfl
  registers := fun j hj => rd_wr_ne s v (by rintro rfl; simp_all)

theorem RingOnly.reported {fn : Nat} (h : RingOnly fn s t) : Reported s t where
  rest := by rw [h.rest]
  registers := fun k hk => h.registers k (by
    cases hr : ringKey fn k with
    | false => rfl
    | true => simp [ringKey_reported hr] at hk)

theorem reportKey_fault {k : Nat} (hlo : kFAULT_STAT ≤ k) (hhi : k < kFAULT_LOG 64) : reportKey k = true := by simp [reportKey, hlo, hhi]

theorem reported_logWord {i o : Nat} (v : Word) (hi : i < 64) (ho : o < 0x10) : Reported s (wr (kFAULT_LOG i + o) v s) :=
  reported_wr v (reportKey_fault (by unfold kFAULT_LOG kFAULT_STAT; omega) (by unfold kFAULT_LOG; omega))

theorem reported_logFault (code unit part : Nat) (arg : Word) : Reported s (logFault code unit part arg s) := by
  have hi : (rd kFAULT_LOG_WR s).toNat % 64 < 64 := Nat.mod_lt _ (by decide)
  exact ((((reported_logWord (o := 0) _ hi (by decide)).trans (reported_logWord _ hi (by decide))).trans (reported_logWord _ hi (by decide))).trans
    (reported_logWord _ hi (by decide))).trans (reported_wr _ (by decide))

theorem reported_relogFault (code unit part : Nat) : Reported s (relogFault code unit part s) := by
  unfold relogFault
  split
  · next i hi => exact (reported_logWord _ (findLog_lt hi) (by decide)).trans (reported_logWord _ (findLog_lt hi) (by decide))
  · exact reported_refl

/-- A fault that is raised writes what reporting writes, and nothing else (R454). -/
theorem reported_raiseFault (code unit part : Nat) (arg : Word) (fns : List Nat) : Reported s (raiseFault code unit part arg fns s) := by
  unfold raiseFault
  extract_lets same s2 s3 e
  split
  · exact (reported_wr _ (by decide)).trans (reported_relogFault _ _ _)
  · have h2 : Reported s s2 := by
      unfold s2
      split
      · exact reported_refl
      · exact ⟨rfl, fun _ _ => rfl⟩
    have h3 : Reported s s3 := (h2.trans (reported_logFault _ _ _ _)).trans (reported_wr _ (by decide))
    have hto : Reported s (eachDo (fun fn => raiseTo fn e) fns.eraseDups s3) :=
      eachDo_keeps (P := Reported s) (fun g _ x hx => hx.trans (ringOnly_raiseTo g e).reported) h3
    exact ((hto.trans (reported_wr _ (by decide))).trans (reported_wr _ (by decide))).trans (reported_wr _ (by decide))

/-- Reporting leaves the lanes' registers alone. -/
theorem Reported.lane (h : Reported s t) {k : Nat} (hlo : 0x0C0000 ≤ k) (hhi : k < 0x100000) : rd k t = rd k s := h.registers k (by
  simp only [reportKey, kSYS_GSTAT, kFAULT_STAT, kFAULT_LOG, Bool.or_eq_false_iff, Bool.and_eq_false_iff, decide_eq_false_iff_not]
  omega)

theorem Reported.memorySame (h : Reported s t) : MemorySame s t := by
  rw [h.rest]
  exact ⟨fun _ => rfl, rfl⟩

theorem reported_laneFault (code unit st : Nat) : Reported s (laneFault code unit st s) := by
  unfold laneFault
  split
  · exact reported_raiseFault _ _ _ _ _
  · exact reported_refl

end Reported

/-! ### The block of a lane (R89, R93) -/

/-- A lane's block of registers starts at `b`. -/
def LaneBlock (b : Nat) : Prop := 0x0C0000 ≤ b ∧ b < 0x0F0000 ∧ b % 0x400 = 0

theorem laneBlock_blk (l : LaneId) : LaneBlock (laneBlk l) := by
  unfold LaneBlock
  cases l with
  | cam n => simp only [laneBlk, laneBase]; omega
  | span n => simp only [laneBlk, spanLaneBase]; omega

/-- The loss of a bond's alignment leaves a lane's detectors alone: LOS, block lock and HI_BER, the lane's counters, the events it has shown. -/
structure DetectorKept (b : Nat) (s t : State) : Prop where
  status : ∀ i, i < 3 → rdB (b + 4) i t = rdB (b + 4) i s
  events : ∀ i, rdB (b + 8) i s = true → rdB (b + 8) i t = true
  counts : ∀ o, o = 0x10 ∨ o = 0x14 → rd (b + o) t = rd (b + o) s

section Detector

variable {b k : Nat} {s t u : State}

theorem detectorKept_of_regs (h : t.regs = s.regs) : DetectorKept b s t where
  status := fun i _ => by rw [rdB, rd_congr h, rdB]
  events := fun i hi => by rwa [rdB, rd_congr h]
  counts := fun o _ => rd_congr h _

theorem DetectorKept.trans (h : DetectorKept b s t) (h' : DetectorKept b t u) : DetectorKept b s u where
  status := fun i hi => (h'.status i hi).trans (h.status i hi)
  events := fun i hi => h'.events i (h.events i hi)
  counts := fun o ho => (h'.counts o ho).trans (h.counts o ho)

/-- A register that is none of a detector's. -/
theorem detectorKept_wr {v : Word} (hb : LaneBlock b)
    (hk : k < 0x0C0000 ∨ 0x100000 ≤ k ∨ k % 0x400 ≠ 4 ∧ k % 0x400 ≠ 8 ∧ k % 0x400 ≠ 0x10 ∧ k % 0x400 ≠ 0x14) : DetectorKept b s (wr k v s) := by
  unfold LaneBlock at hb
  have hne (o : Nat) (ho : o = 4 ∨ o = 8 ∨ o = 0x10 ∨ o = 0x14) : rd (b + o) (wr k v s) = rd (b + o) s := rd_wr_ne s v (by omega)
  exact ⟨fun i _ => by rw [rdB, hne 4 (by decide), rdB], fun i hi => by rwa [rdB, hne 8 (by decide)], fun o ho => hne o (by omega)⟩

/-- A write to a lane's status that keeps its three lowest bits. -/
theorem detectorKept_status {v : Word} (hb : LaneBlock b) (hk : k % 0x400 = 4) (hv : ∀ i, i < 3 → bitOf i v = rdB k i s) :
    DetectorKept b s (wr k v s) := by
  unfold LaneBlock at hb
  have hne (o : Nat) (ho : o = 8 ∨ o = 0x10 ∨ o = 0x14) : rd (b + o) (wr k v s) = rd (b + o) s := rd_wr_ne s v (by omega)
  refine ⟨fun i hi => ?_, fun i hi => by rwa [rdB, hne 8 (by decide)], fun o ho => hne o (by omega)⟩
  by_cases h : b + 4 = k
  · rw [h, rdB, rd_wr_same, hv i hi]
  · rw [rdB, rd_wr_ne s v h, rdB]

theorem detectorKept_wrB {i : Nat} {v : Bool} (hb : LaneBlock b) (hk : k % 0x400 = 4) (hi : 3 ≤ i) : DetectorKept b s (wrB k i v s) :=
  detectorKept_status hb hk fun _ hj => bitOf_setBit_ne v _ (by omega)

theorem detectorKept_wrF {hi lo v : Nat} (hb : LaneBlock b) (hk : k % 0x400 = 4) (hlo : 3 ≤ lo) : DetectorKept b s (wrF k hi lo v s) :=
  detectorKept_status hb hk fun j hj => (bitOf_setFld j hi lo v _ (by omega)).trans (if_neg (by omega))

/-- An event that a lane shows. -/
theorem detectorKept_event {i : Nat} (hb : LaneBlock b) (hk : k % 0x400 = 8) : DetectorKept b s (wrB k i true s) := by
  unfold LaneBlock at hb
  have hne (o : Nat) (ho : o = 4 ∨ o = 0x10 ∨ o = 0x14) : rd (b + o) (wrB k i true s) = rd (b + o) s := rd_wrB_ne s i true (by omega)
  refine ⟨fun j _ => by rw [rdB, hne 4 (by decide), rdB], fun j hj => ?_, fun o ho => hne o (by omega)⟩
  by_cases h : b + 8 = k
  · rw [← h, rdB, rd_wrB_same]
    by_cases hji : j = i
    · subst hji
      by_cases hlt : j < 32
      · exact bitOf_setBit_same j true _ hlt
      · rw [rdB, bitOf, BitVec.testBit_toNat, BitVec.getLsbD_of_ge _ _ (by omega)] at hj
        cases hj
    · rwa [bitOf_setBit_ne true _ hji]
  · rwa [rdB, rd_wrB_ne s i true h]

theorem Reported.detectorKept (h : Reported s t) (hb : LaneBlock b) : DetectorKept b s t := by
  unfold LaneBlock at hb
  have hne (o : Nat) (ho : o < 0x400) : rd (b + o) t = rd (b + o) s := h.lane (by omega) (by omega)
  exact ⟨fun i _ => by rw [rdB, hne 4 (by decide), rdB], fun i hi => by rwa [rdB, hne 8 (by decide)], fun o ho => hne o (by omega)⟩

end Detector

/-! ### A camera port without traffic goes down (R74) -/

/-- A port has no line and no request in progress. -/
structure PortIdle (st : Nat) (s : State) : Prop where
  line : (cport st s).line = none
  outst : (cport st s).outst = []
  waiting : (cport st s).waiting = []

/-- Only registers, the camera ports and interrupts differ. -/
def CamFrame (s t : State) : Prop := t = { s with regs := t.regs, cports := t.cports, out := t.out }

section CamPort

variable {st : Nat} {s t u : State}

theorem camFrame_wr (k : Nat) (v : Word) : CamFrame s (wr k v s) := rfl

theorem camFrame_updPort (st : Nat) (f : CPort → CPort) : CamFrame s (updPort st f s) := rfl

theorem CamFrame.trans (h : CamFrame s t) (h' : CamFrame t u) : CamFrame s u := by
  unfold CamFrame at *
  rw [h', h]

theorem CamFrame.memorySame (h : CamFrame s t) : MemorySame s t := by
  rw [h]
  exact ⟨fun _ => rfl, rfl⟩

theorem streamInt_eq (st : Nat) (s : State) : ∃ o, streamInt st s = { s with out := o } := by
  unfold streamInt
  split
  · next p _ =>
    obtain ⟨o, ho⟩ := fireInt_eq (p + 1) 4 s
    obtain ⟨o', ho'⟩ := fireInt_eq 0 4 { s with out := o }
    exact ⟨o', by rw [ho, ho']⟩
  · exact ⟨s.out, rfl⟩

theorem clEvt_eq (n i : Nat) (s : State) : ∃ o, clEvt n i s = { wrB (laneBase n + 8) i true s with out := o } := by
  dsimp only [clEvt]
  split
  · exact streamInt_eq _ _
  · exact ⟨s.out, rfl⟩

theorem camFrame_clEvt (n i : Nat) : CamFrame s (clEvt n i s) := by
  obtain ⟨o, ho⟩ := clEvt_eq n i s
  rw [ho]
  rfl

theorem cports_clEvt (n i : Nat) : (clEvt n i s).cports = s.cports := by
  obtain ⟨o, ho⟩ := clEvt_eq n i s
  rw [ho]
  rfl

theorem detectorKept_clEvt {b : Nat} (hb : LaneBlock b) (n i : Nat) : DetectorKept b s (clEvt n i s) := by
  obtain ⟨o, ho⟩ := clEvt_eq n i s
  rw [ho]
  exact (detectorKept_event hb (by unfold laneBase; omega)).trans (detectorKept_of_regs rfl)

/-- The port's record as it is left. -/
def portCleared (st : Nat) (s : State) : State :=
  updPort st (fun p => { p with seen := false, outst := [], waiting := [], retries := 0 }) (lineBad st s)
/-- The record cleared, CHK_SEQ at 0 and CL_STAT.UP clear. -/
def portReset (st : Nat) (s : State) : State :=
  wr (primBase st (portCleared st s) + 0x11C) 0 (setPortBit st clUP false (portCleared st s))

theorem deliver_of_no_line (h : (cport st s).line = none) : deliver st s = s := by
  unfold deliver
  rw [h]

/-- Nothing is delivered and no request is answered where the port has none. -/
theorem portDown_of_idle (h : PortIdle st s) : portDown st s =
    showSs st (if camUp st s then clEvt (laneFirst st s) 3 (feStat st fsPORT false (portReset st s)) else portReset st s) := by
  have hbad : cport st (lineBad st s) = cport st s := (cport_updPort st _ s).trans (by rw [h.line]; exact congrArg (fun l => { cport st s with line := l }) h.line.symm)
  have hdrop (x : State) : dropReqs (cport st (lineBad st s)) x = x := by
    simp only [dropReqs, hbad, h.outst, h.waiting]
    rfl
  unfold portDown
  rw [deliver_of_no_line (by rw [hbad, h.line])]
  exact hdrop _

theorem portDown_keeps (h : PortIdle st s) : CamFrame s (portDown st s) := by
  have hreset : CamFrame s (portReset st s) := ((camFrame_updPort _ _).trans (camFrame_updPort _ _)).trans ((camFrame_wr _ _).trans (camFrame_wr _ _))
  rw [portDown_of_idle h]
  refine CamFrame.trans ?_ (camFrame_wr _ _)
  split
  · exact (hreset.trans (camFrame_wr _ _)).trans (camFrame_clEvt _ _)
  · exact hreset

theorem detectorKept_portDown {b : Nat} (hst : st < 64) (hb : LaneBlock b) (h : PortIdle st s) : DetectorKept b s (portDown st s) := by
  have hreset : DetectorKept b s (portReset st s) := by
    have hup : DetectorKept b (portCleared st s) (setPortBit st clUP false (portCleared st s)) :=
      detectorKept_wrB hb (by unfold primBase laneBase; omega) (by decide)
    have hseq : DetectorKept b (setPortBit st clUP false (portCleared st s)) (portReset st s) :=
      detectorKept_wr hb (.inr (.inr (by unfold primBase laneBase; omega)))
    have hrec : DetectorKept b s (portCleared st s) := detectorKept_of_regs rfl
    exact (hrec.trans hup).trans hseq
  have hfe : fes st + 4 < 0x0C0000 := by unfold fes feBase; omega
  rw [portDown_of_idle h]
  refine DetectorKept.trans ?_ (detectorKept_wr hb (.inr (.inl (by unfold ssBase; omega))))
  split
  · exact (hreset.trans (detectorKept_wr hb (.inl hfe))).trans (detectorKept_clEvt hb _ _)
  · exact hreset

/-- A port that goes down keeps the bits of its CL_STAT but for UP. -/
theorem portBit_portDown {c : Nat} (hst : st < 64) (hl : laneFirst st s < 64) (hc : c ≠ clUP) : portBit st c (portDown st s) = portBit st c s := by
  obtain ⟨x, hx, hdown⟩ := portDown_eq_around st s
  have hlx : laneFirst st (setPortBit st clUP false x) < 64 := by
    show cfg 0x20 st 1 1 x < 64
    rwa [cfg, hx.img]
  exact ((hdown.portBit hst hlx c).trans (portBit_setPortBit_ne false hc x)).trans (hx.portBit hst hl c)

end CamPort

/-! ### A bond without alignment (R71) -/

theorem eachDo_cons {α σ : Type} (f : α → σ → σ) (x : α) (l : List α) (s : σ) : eachDo f (x :: l) s = eachDo f l (f x s) := rfl

/-- What each step of a loop brings about for its own element, and no step undoes, holds of every element at the end. -/
theorem eachDo_sets {α σ : Type} {P : α → σ → Prop} {f : α → σ → σ} (hself : ∀ x s, P x (f x s)) (hkeep : ∀ x y s, P x s → P x (f y s)) :
    ∀ {l : List α} {s : σ} {x : α}, x ∈ l → P x (eachDo f l s)
  | [], _, _, h => nomatch h
  | y :: l, s, x, h => by
    rw [eachDo_cons]
    rcases List.mem_cons.mp h with rfl | h
    · exact eachDo_keeps (P := P x) (fun y _ s => hkeep x y s) (hself x s)
    · exact eachDo_sets hself hkeep h

/-- A bit of one register after a bit and a field of another, or of the same, are written. -/
theorem rdB_wrF_wrB {k k' i j hi lo v : Nat} {c : Bool} {s : State} (hi32 : i < 32) (hf : i < lo ∨ hi < i) :
    rdB k i (wrF k' hi lo v (wrB k' j c s)) = if k = k' ∧ i = j then c else rdB k i s := by
  by_cases hk : k = k'
  · subst hk
    rw [rdB, rd_wrF_same, bitOf_setFld i hi lo v _ hi32, if_neg (by omega), rd_wrB_same]
    by_cases hij : i = j
    · subst hij
      simp [hi32]
    · rw [bitOf_setBit_ne c _ hij, if_neg (by simp [hij]), rdB]
  · rw [rdB, rd_wrF_ne _ _ _ _ hk, rd_wrB_ne _ _ _ hk, if_neg (by simp [hk]), rdB]

section CamBond

variable {st n : Nat} {s t : State}

/-- A lane out of alignment shows it (R71). -/
def laneUnaligned (n : Nat) (s : State) : State := clEvt n 2 (wrF (laneBase n + 4) 23 16 0 (wrB (laneBase n + 4) clALIGNED false s))

theorem camFrame_laneUnaligned (n : Nat) (s : State) : CamFrame s (laneUnaligned n s) :=
  CamFrame.trans (t := wrF (laneBase n + 4) 23 16 0 (wrB (laneBase n + 4) clALIGNED false s)) rfl (camFrame_clEvt n 2)

theorem cports_laneUnaligned (n : Nat) (s : State) : (laneUnaligned n s).cports = s.cports := cports_clEvt n 2

theorem detectorKept_laneUnaligned {b : Nat} (hb : LaneBlock b) (n : Nat) (s : State) : DetectorKept b s (laneUnaligned n s) :=
  have hkey : (laneBase n + 4) % 0x400 = 4 := by unfold laneBase; omega
  ((detectorKept_wrB hb hkey (by decide)).trans (detectorKept_wrF hb hkey (by decide))).trans (detectorKept_clEvt hb n 2)

theorem rdB_clEvt {k i : Nat} (hk : k % 0x400 = 4) (m j : Nat) (s : State) : rdB k i (clEvt m j s) = rdB k i s := by
  obtain ⟨o, ho⟩ := clEvt_eq m j s
  rw [ho]
  exact congrArg (bitOf i) (rd_wrB_ne s j true (by unfold laneBase; omega))

theorem aligned_laneUnaligned (n m : Nat) (s : State) :
    rdB (laneBase n + 4) clALIGNED (laneUnaligned m s) = if n = m then false else rdB (laneBase n + 4) clALIGNED s := by
  rw [laneUnaligned, rdB_clEvt (by unfold laneBase; omega), rdB_wrF_wrB (by decide) (by decide)]
  simp only [and_true, laneBase, Nat.add_right_cancel_iff, Nat.add_left_cancel_iff, Nat.mul_right_cancel_iff (show 0 < 0x400 by decide)]

theorem mem_bondLanes (hn : n ∈ bondLanes st s) : laneFirst st s ≤ n ∧ n < laneFirst st s + bondWidth st s := by
  obtain ⟨i, hi, rfl⟩ := List.mem_map.mp hn
  have := List.mem_range.mp hi
  omega

theorem laneFirst_mem_bondLanes (hw : 1 ≤ bondWidth st s) : laneFirst st s ∈ bondLanes st s :=
  List.mem_map.mpr ⟨0, List.mem_range.mpr hw, Nat.add_zero _⟩

/-- What a bond that loses its alignment leaves: the detectors of its lanes, no alignment, the port down (R71, R74). -/
structure BondLost (st : Nat) (s t : State) : Prop where
  rest : CamFrame s t
  kept : st < 64 → ∀ b, LaneBlock b → DetectorKept b s t
  gone : st < 64 → laneFirst st s < 64 → 1 ≤ bondWidth st s → aligned st t = false ∧ camUp st t = false

/-- The bond's record as the loss of alignment leaves it. -/
def bondCleared (st : Nat) (s : State) : State := updPort st (fun p => { p with okSets := 0, badSets := 0, rx := none }) s

theorem portIdle_congr (h : t.cports = s.cports) (hs : PortIdle st s) : PortIdle st t := by
  have hp := cport_congr h st
  exact ⟨by rw [hp, hs.line], by rw [hp, hs.outst], by rw [hp, hs.waiting]⟩

theorem portIdle_bondCleared (h : PortIdle st s) : PortIdle st (bondCleared st s) := by
  have hp : cport st (bondCleared st s) = { cport st s with okSets := 0, badSets := 0, rx := none } := cport_updPort st _ s
  exact ⟨by rw [hp, ← h.line], by rw [hp, ← h.outst], by rw [hp, ← h.waiting]⟩

theorem bondLost_portDown (h : PortIdle st s) (hgone : laneFirst st s < 64 → 1 ≤ bondWidth st s → aligned st s = false) :
    BondLost st s (portDown st s) where
  rest := portDown_keeps h
  kept := fun hst _ hb => detectorKept_portDown hst hb h
  gone := fun hst hl hw => ⟨(portBit_portDown hst hl (by decide)).trans (hgone hl hw), (portBits_portDown hst hl).1⟩

theorem bondLost_alignLost (h : PortIdle st s) : BondLost st s (alignLost st s) := by
  have hclear := portIdle_bondCleared h
  by_cases ha : aligned st s = true
  case neg =>
    have hoff : aligned st s = false := by simpa using ha
    have heq : alignLost st s = portDown st (bondCleared st s) := if_pos (show (!aligned st s) = true by simp [hoff])
    have hlost := bondLost_portDown hclear fun _ _ => hoff
    have hkept (b : Nat) : DetectorKept b s (bondCleared st s) := detectorKept_of_regs rfl
    rw [heq]
    exact ⟨CamFrame.trans (t := bondCleared st s) rfl hlost.rest, fun hst b hb => (hkept b).trans (hlost.kept hst b hb), hlost.gone⟩
  case pos =>
    set lanes := eachDo laneUnaligned (bondLanes st s) (bondCleared st s) with hlanes
    have heq : alignLost st s = portDown st lanes := if_neg (show ¬ (!aligned st s) = true by simp [ha])
    have hframe : CamFrame s lanes := eachDo_keeps (P := CamFrame s) (fun n _ x hx => hx.trans (camFrame_laneUnaligned n x)) rfl
    have hports : lanes.cports = (bondCleared st s).cports := eachDo_keeps (P := fun x : State => x.cports = (bondCleared st s).cports)
      (fun n _ x hx => (cports_laneUnaligned n x).trans hx) rfl
    have hbase : primBase st lanes = primBase st s := primBase_congr (by rw [hframe]) st
    have hfirst : laneFirst st lanes = laneFirst st s := by rw [laneFirst, cfg, hframe]; rfl
    have hwidth : bondWidth st lanes = bondWidth st s := by rw [bondWidth, cfg, hframe]; rfl
    have hlost : BondLost st lanes (portDown st lanes) := bondLost_portDown (portIdle_congr hports hclear) fun _ hw => by
      rw [aligned, portBit, hbase]
      exact eachDo_sets (P := fun n x => rdB (laneBase n + 4) clALIGNED x = false) (fun n x => by simp [aligned_laneUnaligned])
        (fun n m x hx => by simp [aligned_laneUnaligned, hx]) (laneFirst_mem_bondLanes (hwidth ▸ hw))
    rw [heq]
    refine ⟨hframe.trans hlost.rest, fun hst b hb => ?_, fun hst hl hw => hlost.gone hst (hfirst ▸ hl) (hwidth ▸ hw)⟩
    have hkept : DetectorKept b s lanes := eachDo_keeps (P := DetectorKept b s) (fun n _ x hx => hx.trans (detectorKept_laneUnaligned hb n x))
      (detectorKept_of_regs rfl)
    exact hkept.trans (hlost.kept hst b hb)

end CamBond

/-! ### A span link without alignment (R71, R92) -/

/-- Only registers, the span links and the counts of marker sets differ. -/
def SpanFrame (s t : State) : Prop := t = { s with regs := t.regs, spans := t.spans, sbonds := t.sbonds }

/-- What a link that loses its alignment leaves: the detectors of its lanes, no alignment, the link down. -/
structure LinkLost (m : Nat) (s t : State) : Prop where
  rest : SpanFrame s t
  kept : ∀ b, LaneBlock b → DetectorKept b s t
  gone : m < 4 → spAligned m t = false ∧ linkIsUp m t = false

section SpanBond

variable {m : Nat} {s t u : State}

theorem SpanFrame.trans (h : SpanFrame s t) (h' : SpanFrame t u) : SpanFrame s u := by
  unfold SpanFrame at *
  rw [h', h]

/-- A link's record as it is left when the link goes down: INIT_SEQ and the frame in progress stay (R92). -/
def linkCleared (m : Nat) (s : State) : State :=
  wrF (linkBase m + 0x100) 5 2 0 (wrB (linkBase m + 0x100) 0 false (updSp m (fun x => { ({} : SpLink) with initSeq := x.initSeq, rx := x.rx }) s))

theorem spanDown_eq (m : Nat) (s : State) : spanDown m s = showSpan (linkCleared m s) := rfl

theorem rd_showSpan_ne {k : Nat} (h : k ≠ kSYS_STAT) (s : State) : rd k (showSpan s) = rd k s :=
  (rd_wrB_ne _ _ _ h).trans (rd_wrF_ne _ _ _ _ h)

theorem linkIsUp_showSpan (m : Nat) (s : State) : linkIsUp m (showSpan s) = linkIsUp m s :=
  congrArg (bitOf 0) (rd_showSpan_ne (by unfold linkBase spanLaneBase kSYS_STAT; omega) s)

theorem linkIsUp_linkCleared (m l : Nat) (s : State) : linkIsUp l (linkCleared m s) = if l = m then false else linkIsUp l s := by
  rw [linkIsUp, linkCleared, rdB_wrF_wrB (by decide) (by decide)]
  simp only [linkBase, spanLaneBase, and_true, Nat.add_right_cancel_iff, Nat.add_left_cancel_iff,
    Nat.mul_right_cancel_iff (show 0 < 0x400 by decide), Nat.mul_left_cancel_iff (show 0 < 4 by decide)]
  rfl

theorem linkIsUp_spanDown (m : Nat) (s : State) : linkIsUp m (spanDown m s) = false := by
  rw [spanDown_eq, linkIsUp_showSpan, linkIsUp_linkCleared, if_pos rfl]

theorem rd_spanDown_ne {k : Nat} (h : k ≠ kSYS_STAT) (h' : k ≠ linkBase m + 0x100) : rd k (spanDown m s) = rd k s := by
  rw [spanDown_eq, rd_showSpan_ne h]
  exact (rd_wrF_ne _ _ _ _ h').trans (rd_wrB_ne _ _ _ h')

theorem spAligned_spanDown (m : Nat) (s : State) : spAligned m (spanDown m s) = spAligned m s :=
  congrArg (bitOf clALIGNED) (rd_spanDown_ne (by unfold spLane spanLaneBase kSYS_STAT; omega) (by unfold linkBase spLane spanLaneBase; omega))

theorem detectorKept_spanDown {b : Nat} (hb : LaneBlock b) (m : Nat) (s : State) : DetectorKept b s (spanDown m s) := by
  unfold LaneBlock at hb
  have hne (o : Nat) (ho : o < 0x100) : rd (b + o) (spanDown m s) = rd (b + o) s :=
    rd_spanDown_ne (by unfold kSYS_STAT; omega) (by unfold linkBase spanLaneBase; omega)
  exact ⟨fun i _ => by rw [rdB, hne 4 (by decide), rdB], fun i hi => by rwa [rdB, hne 8 (by decide)], fun o ho => hne o (by omega)⟩

theorem linkLost_spanDown (h : m < 4 → spAligned m s = false) : LinkLost m s (spanDown m s) where
  rest := rfl
  kept := fun _ hb => detectorKept_spanDown hb m s
  gone := fun hm => ⟨(spAligned_spanDown m s).trans (h hm), linkIsUp_spanDown m s⟩

/-- A span lane out of alignment shows it (R71). -/
def spanLaneUnaligned (n : Nat) (s : State) : State := slEvt n 2 (wrF (spLane n + 4) 23 16 0 (wrB (spLane n + 4) clALIGNED false s))

theorem detectorKept_spanLaneUnaligned {b : Nat} (hb : LaneBlock b) (n : Nat) (s : State) : DetectorKept b s (spanLaneUnaligned n s) :=
  have hkey (o : Nat) (ho : o < 0x400) : (spLane n + o) % 0x400 = o := by unfold spLane spanLaneBase; omega
  ((detectorKept_wrB hb (hkey 4 (by decide)) (by decide)).trans (detectorKept_wrF hb (hkey 4 (by decide)) (by decide))).trans
    (detectorKept_event hb (hkey 8 (by decide)))

theorem aligned_spanLaneUnaligned (n l : Nat) (s : State) :
    rdB (spLane n + 4) clALIGNED (spanLaneUnaligned l s) = if n = l then false else rdB (spLane n + 4) clALIGNED s := by
  rw [spanLaneUnaligned, slEvt, rdB, rd_wrB_ne _ _ _ (by unfold spLane spanLaneBase; omega), ← rdB, rdB_wrF_wrB (by decide) (by decide)]
  simp only [and_true, spLane, spanLaneBase, Nat.add_right_cancel_iff, Nat.add_left_cancel_iff, Nat.mul_right_cancel_iff (show 0 < 0x400 by decide)]

theorem linkLost_spanAlignLost (m : Nat) (s : State) : LinkLost m s (spanAlignLost m s) := by
  set cleared := updSp m (fun x => { x with rx := none }) { s with sbonds := s.sbonds.set m (0, 0) }
  by_cases ha : spAligned m s = true
  case neg =>
    have hoff : spAligned m s = false := by simpa using ha
    have heq : spanAlignLost m s = spanDown m cleared := if_pos (show (!spAligned m s) = true by simp [hoff])
    have hlost : LinkLost m cleared (spanDown m cleared) := linkLost_spanDown fun _ => hoff
    have hkept (b : Nat) : DetectorKept b s cleared := detectorKept_of_regs rfl
    rw [heq]
    exact ⟨SpanFrame.trans (t := cleared) rfl hlost.rest, fun b hb => (hkept b).trans (hlost.kept b hb), hlost.gone⟩
  case pos =>
    set lanes := eachDo spanLaneUnaligned (spLanes m) cleared
    have heq : spanAlignLost m s = spanDown m lanes := if_neg (show ¬ (!spAligned m s) = true by simp [ha])
    have hframe : SpanFrame s lanes := eachDo_keeps (P := SpanFrame s) (fun n _ x hx => SpanFrame.trans (u := spanLaneUnaligned n x) hx rfl) rfl
    have hlost : LinkLost m lanes (spanDown m lanes) := linkLost_spanDown fun _ =>
      eachDo_sets (P := fun n x => rdB (spLane n + 4) clALIGNED x = false) (fun n x => by simp [aligned_spanLaneUnaligned])
        (fun n l x hx => by simp [aligned_spanLaneUnaligned, hx]) (List.mem_map.mpr ⟨0, by decide, rfl⟩)
    rw [heq]
    refine ⟨hframe.trans hlost.rest, fun b hb => ?_, hlost.gone⟩
    have hkept : DetectorKept b s lanes := eachDo_keeps (P := DetectorKept b s)
      (fun n _ x hx => hx.trans (detectorKept_spanLaneUnaligned hb n x)) (detectorKept_of_regs rfl)
    exact hkept.trans (hlost.kept b hb)

end SpanBond

/-! ### A lane loses its signal or its block lock (R68) -/

/-- Block lock goes from a lane that has it. -/
def unlock : LaneId → State → State
  | .cam n, s => camUnlock n s
  | .span n, s => spanUnlock n s
/-- A lane shows an event (R89, R93). -/
def laneEvent : LaneId → Nat → State → State
  | .cam n, i, s => clEvt n i s
  | .span n, i, s => slEvt n i s
/-- A lane's fault is raised for the owner of its stream, or for its link where that is used (R457). -/
def raiseLane (code : Nat) : LaneId → State → State
  | .cam n, s => match laneStream n s with | some st => laneFault code n st s | none => s
  | .span n, s => spanLaneFault code n s
/-- The port that a camera lane serves is idle. -/
def LaneQuiet : LaneId → State → Prop
  | .cam n, s => ∀ st, laneStream n s = some st → PortIdle st s
  | .span _, _ => True
/-- The fault of a lane is active where it has a receiver. -/
def LaneFaulted (code : Nat) : LaneId → State → State → Prop
  | .cam n, s, t => ∀ st, laneStream n s = some st → ∀ p, streamPart st s = some p → FaultActive code n p t
  | .span n, s, t => linkUsed (n / 4) s = true → FaultActive code (64 + n) 0xFF t
/-- The bond of a lane is out of alignment, its port or link down. -/
def BondDown : LaneId → State → State → Prop
  | .cam n, s, t => ∀ st, laneStream n s = some st → aligned st t = false ∧ camUp st t = false
  | .span n, _, t => linkIsUp (n / 4) t = false ∧ spAligned (n / 4) t = false
/-- Only what a lane's loss writes differs. -/
def LaneFrame (s t : State) : Prop := t = { s with
  regs := t.regs, cports := t.cports, spans := t.spans, sbonds := t.sbonds, rings := t.rings, host := t.host, out := t.out, faults := t.faults }

/-- Block lock is lost in the block `b` of a lane: it is counted and shown, HI_BER ends, and LOS and the other counts stay (R68, R89). -/
structure LockGone (b : Nat) (s t : State) : Prop where
  lock : rdB (b + 4) clLOCK t = false
  hiber : rdB (b + 4) clHIBER t = false
  los : rdB (b + 4) clLOS t = rdB (b + 4) clLOS s
  counted : rd (b + 0x14) t = rd (b + 0x14) s + 1
  headers : rd (b + 0x10) t = rd (b + 0x10) s
  event : rdB (b + 8) 1 t = true
  events : ∀ i, rdB (b + 8) i s = true → rdB (b + 8) i t = true

section Loss

variable {b : Nat} {l : LaneId} {s t u : State}

theorem laneFrame_refl : LaneFrame s s := rfl

theorem LaneFrame.trans (h : LaneFrame s t) (h' : LaneFrame t u) : LaneFrame s u := by
  unfold LaneFrame at *
  rw [h', h]

theorem CamFrame.lane (h : CamFrame s t) : LaneFrame s t := by
  unfold CamFrame at h
  unfold LaneFrame
  rw [h]

theorem SpanFrame.lane (h : SpanFrame s t) : LaneFrame s t := by
  unfold SpanFrame at h
  unfold LaneFrame
  rw [h]

theorem Reported.laneFrame (h : Reported s t) : LaneFrame s t := by
  unfold LaneFrame
  rw [h.rest]

theorem LaneFrame.img (h : LaneFrame s t) : t.img = s.img := by rw [h]

theorem laneFrame_wr (k : Nat) (v : Word) : LaneFrame s (wr k v s) := rfl

/-- A lane's lock and HI_BER cleared, the loss counted and shown. -/
def lockCleared (b : Nat) (s : State) : State := wrB (b + 8) 1 true (inc (b + 0x14) 1 (wrB (b + 4) clLOCK false (wrB (b + 4) clHIBER false s)))

theorem lockGone_lockCleared (b : Nat) (s : State) : LockGone b s (lockCleared b s) := by
  have hstatus (i : Nat) : rdB (b + 4) i (lockCleared b s) = bitOf i (setBit clLOCK false (setBit clHIBER false (rd (b + 4) s))) := by
    rw [rdB, lockCleared, rd_wrB_ne _ _ _ (by omega), rd_inc_ne _ _ (by omega), rd_wrB_same, rd_wrB_same]
  have hevent (i : Nat) : rdB (b + 8) i (lockCleared b s) = bitOf i (setBit 1 true (rd (b + 8) s)) := by
    rw [rdB, lockCleared, rd_wrB_same, rd_inc_ne _ _ (by omega), rd_wrB_ne _ _ _ (by omega), rd_wrB_ne _ _ _ (by omega)]
  refine ⟨?_, ?_, ?_, ?_, ?_, ?_, fun i hi => ?_⟩
  · rw [hstatus, bitOf_setBit_same _ _ _ (by decide)]
  · rw [hstatus, bitOf_setBit_ne _ _ (by decide), bitOf_setBit_same _ _ _ (by decide)]
  · rw [hstatus, bitOf_setBit_ne _ _ (by decide), bitOf_setBit_ne _ _ (by decide), rdB]
  · rw [lockCleared, rd_wrB_ne _ _ _ (by omega), rd_inc_same, rd_wrB_ne _ _ _ (by omega), rd_wrB_ne _ _ _ (by omega)]
    rfl
  · rw [lockCleared, rd_wrB_ne _ _ _ (by omega), rd_inc_ne _ _ (by omega), rd_wrB_ne _ _ _ (by omega), rd_wrB_ne _ _ _ (by omega)]
  · rw [hevent, bitOf_setBit_same _ _ _ (by decide)]
  · rw [hevent]
    by_cases h1 : i = 1
    · rw [h1, bitOf_setBit_same _ _ _ (by decide)]
    · rwa [bitOf_setBit_ne _ _ h1]

theorem LockGone.kept (h : LockGone b s t) (h' : DetectorKept b t u) : LockGone b s u where
  lock := (h'.status clLOCK (by decide)).trans h.lock
  hiber := (h'.status clHIBER (by decide)).trans h.hiber
  los := (h'.status clLOS (by decide)).trans h.los
  counted := (h'.counts 0x14 (.inr rfl)).trans h.counted
  headers := (h'.counts 0x10 (.inl rfl)).trans h.headers
  event := h'.events 1 h.event
  events := fun i hi => h'.events i (h.events i hi)

theorem laneStream_some {n st : Nat} (h : laneStream n s = some st) :
    st < 64 ∧ streamUsed st s = true ∧ laneFirst st s ≤ n ∧ n < laneFirst st s + bondWidth st s := by
  have hp := List.find?_some h
  simp only [Bool.and_eq_true, decide_eq_true_eq] at hp
  exact ⟨List.mem_range.mp (List.mem_of_find?_eq_some h), hp.1.1, hp.1.2, hp.2⟩

theorem laneStream_congr (h : t.img = s.img) (n : Nat) : laneStream n t = laneStream n s := by
  unfold laneStream streamUsed laneFirst bondWidth cfg
  rw [h]

theorem unlock_of_unlocked (h : rdB (laneBlk l + 4) clLOCK s = false) : unlock l s = s := by
  cases l with
  | cam n => exact if_pos (congrArg (!·) h)
  | span n => exact if_pos (congrArg (!·) h)

theorem camUnlock_effect {n : Fin 64} (h : rdB (laneBase n + 4) clLOCK s = true) (hq : LaneQuiet (.cam n) s) :
    LockGone (laneBase n) s (camUnlock n s) ∧ CamFrame s (camUnlock n s) ∧ BondDown (.cam n) s (camUnlock n s) := by
  have hb : LaneBlock (laneBase n) := laneBlock_blk (.cam n)
  obtain ⟨o, ho⟩ := clEvt_eq n 1 (inc (laneBase n + 0x14) 1 (wrB (laneBase n + 4) clLOCK false (wrB (laneBase n + 4) clHIBER false s)))
  set shown : State := { lockCleared (laneBase n) s with out := o }
  have heq : camUnlock n s = match laneStream n s with | some st => alignLost st shown | none => shown := by
    unfold camUnlock
    simp only [h, ho]
    rfl
  have hgone : LockGone (laneBase n) s shown := (lockGone_lockCleared (laneBase n) s).kept (detectorKept_of_regs rfl)
  have hframe : CamFrame s shown := rfl
  rw [heq]
  cases hst : laneStream n s with
  | none => exact ⟨hgone, hframe, fun st hst' => nomatch hst.symm.trans hst'⟩
  | some st =>
    obtain ⟨hlt, -, hfirst, hwidth⟩ := laneStream_some hst
    have hidle : PortIdle st shown := portIdle_congr (s := s) rfl (hq st hst)
    have hlost : BondLost st shown (alignLost st shown) := bondLost_alignLost hidle
    refine ⟨hgone.kept (hlost.kept hlt _ hb), hframe.trans hlost.rest, fun st' hst' => ?_⟩
    obtain rfl := Option.some.inj (hst.symm.trans hst')
    exact hlost.gone hlt (show laneFirst st s < 64 by omega) (show 1 ≤ bondWidth st s by omega)

theorem spanUnlock_effect {n : Fin 16} (h : rdB (spanLaneBase n + 4) clLOCK s = true) :
    LockGone (spanLaneBase n) s (spanUnlock n s) ∧ SpanFrame s (spanUnlock n s) ∧ BondDown (.span n) s (spanUnlock n s) := by
  have heq : spanUnlock n s = spanAlignLost (n / 4) (lockCleared (spanLaneBase n) s) :=
    if_neg (show ¬ (!rdB (spanLaneBase n + 4) clLOCK s) = true by rw [h]; decide)
  have hlost := linkLost_spanAlignLost (n / 4) (lockCleared (spanLaneBase n) s)
  have hframe : SpanFrame s (lockCleared (spanLaneBase n) s) := rfl
  rw [heq]
  exact ⟨(lockGone_lockCleared _ s).kept (hlost.kept _ (laneBlock_blk (.span n))), hframe.trans hlost.rest, (hlost.gone (by omega)).symm⟩

/-- A locked lane loses block lock. -/
theorem unlock_effect (h : rdB (laneBlk l + 4) clLOCK s = true) (hq : LaneQuiet l s) :
    LockGone (laneBlk l) s (unlock l s) ∧ LaneFrame s (unlock l s) ∧ (unlock l s).faults = s.faults ∧ BondDown l s (unlock l s) := by
  cases l with
  | cam n =>
    obtain ⟨hgone, hframe, hdown⟩ := camUnlock_effect h hq
    exact ⟨hgone, hframe.lane, by show (camUnlock n s).faults = _; rw [hframe], hdown⟩
  | span n =>
    obtain ⟨hgone, hframe, hdown⟩ := spanUnlock_effect h
    exact ⟨hgone, hframe.lane, by show (spanUnlock n s).faults = _; rw [hframe], hdown⟩

theorem reported_raiseLane (code : Nat) (l : LaneId) (s : State) : Reported s (raiseLane code l s) := by
  cases l with
  | cam n =>
    cases hst : laneStream n s with
    | none => simpa only [raiseLane, hst] using reported_refl
    | some st => simpa only [raiseLane, hst] using reported_laneFault code n st
  | span n =>
    show Reported s (if linkUsed (n / 4) s then raiseFault code (64 + n) 0xFF 0 [0] s else s)
    split
    · exact reported_raiseFault _ _ _ _ _
    · exact reported_refl

theorem laneFaulted_raiseLane {code : Nat} (hc : faultClass code ≠ .info) (l : LaneId) (s : State) : LaneFaulted code l s (raiseLane code l s) := by
  cases l with
  | cam n =>
    intro st hst p hp
    simp only [raiseLane, hst]
    exact faultActive_laneFault hp hc
  | span n =>
    intro hu
    simp only [raiseLane, spanLaneFault, hu, if_true]
    exact faultActive_raiseFault hc

theorem laneEvent_eq (l : LaneId) (i : Nat) (s : State) : ∃ o, laneEvent l i s = { wrB (laneBlk l + 8) i true s with out := o } := by
  cases l with
  | cam n => exact clEvt_eq n i s
  | span n => exact ⟨s.out, rfl⟩

/-- What a lane's loss goes through before its lock goes: registers, interrupts, its fault. -/
structure LossNoted (code : Nat) (l : LaneId) (s t : State) : Prop where
  rest : t = { s with regs := t.regs, rings := t.rings, host := t.host, out := t.out, faults := t.faults }
  faulted : LaneFaulted code l s t

theorem LossNoted.frame {code : Nat} (h : LossNoted code l s t) : LaneFrame s t := by
  unfold LaneFrame
  rw [h.rest]

theorem LossNoted.quiet {code : Nat} (h : LossNoted code l s t) (hq : LaneQuiet l s) : LaneQuiet l t := by
  cases l with
  | cam n => exact fun st hst => portIdle_congr (by rw [h.rest]) (hq st ((laneStream_congr h.frame.img n).symm.trans hst))
  | span n => trivial

/-- A fault raised after registers and interrupts changed is a loss noted. -/
theorem lossNoted_raiseLane {code : Nat} (hc : faultClass code ≠ .info) (ht : t = { s with regs := t.regs, out := t.out }) :
    LossNoted code l s (raiseLane code l t) where
  rest := by rw [(reported_raiseLane code l t).rest, ht]
  faulted := by
    have himg : t.img = s.img := by rw [ht]
    have hf := laneFaulted_raiseLane hc l t
    cases l with
    | cam n => exact fun st hst p hp => hf st ((laneStream_congr himg n).trans hst) p ((streamPart_congr himg st).trans hp)
    | span n => exact fun hu => hf (by rwa [linkUsed, spCfg, cfg, himg])

/-- The whole of a lane's loss, from the state `t` in which it is noted to its end: lock goes if it is there. -/
theorem loss_effect {code : Nat} (ht : LossNoted code l s t) (hq : LaneQuiet l s) :
    LaneFrame s (unlock l t) ∧ LaneFaulted code l s (unlock l t) ∧
      (rdB (laneBlk l + 4) clLOCK t = true → LockGone (laneBlk l) t (unlock l t) ∧ BondDown l s (unlock l t)) := by
  by_cases hlock : rdB (laneBlk l + 4) clLOCK t = true
  case neg =>
    rw [unlock_of_unlocked (by simpa using hlock)]
    exact ⟨ht.frame, ht.faulted, fun h => absurd h hlock⟩
  case pos =>
    obtain ⟨hgone, hframe, hfaults, hdown⟩ := unlock_effect hlock (ht.quiet hq)
    have himg := ht.frame.img
    refine ⟨ht.frame.trans hframe, ?_, fun _ => ⟨hgone, ?_⟩⟩
    · have hkept (code unit p : Nat) (h : FaultActive code unit p t) : FaultActive code unit p (unlock l t) := by
        rwa [FaultActive, hfaults]
      have hf := ht.faulted
      cases l with
      | cam n => exact fun st hst p hp => hkept _ _ _ (hf st hst p hp)
      | span n => exact fun hu => hkept _ _ _ (hf hu)
    · cases l with
      | cam n => exact fun st hst => hdown st ((laneStream_congr himg n).trans hst)
      | span n => exact hdown

end Loss

/-! ### The detectors' events (R68) -/

section Events

variable {l : LaneId} {s : State}

/-- What a lane that had block lock shows of losing it. -/
def Unlocked (l : LaneId) (s t : State) : Prop := rdB (laneBlk l + 4) clLOCK s = true →
  rdB (laneBlk l + 4) clLOCK t = false ∧ rdB (laneBlk l + 4) clHIBER t = false ∧ rd (laneBlk l + 0x14) t = rd (laneBlk l + 0x14) s + 1 ∧
    rdB (laneBlk l + 8) 1 t = true

/-- A lane that is lost has its fault, and its bond is down if it had block lock. -/
structure LaneLost (code : Nat) (l : LaneId) (s t : State) : Prop where
  frame : LaneFrame s t
  faulted : LaneFaulted code l s t
  down : rdB (laneBlk l + 4) clLOCK s = true → BondDown l s t

theorem laneBlk_range (l : LaneId) {o : Nat} (ho : o < 0x400) : 0x0C0000 ≤ laneBlk l + o ∧ laneBlk l + o < 0x100000 := by
  have h := laneBlock_blk l
  unfold LaneBlock at h
  omega

/-- LOS_ENTER on a lane with signal (R68). -/
theorem losEnter_effect (hq : LaneQuiet l s) :
    rdB (laneBlk l + 4) clLOS (losEnter l s) = true ∧ rdB (laneBlk l + 8) 0 (losEnter l s) = true ∧ Unlocked l s (losEnter l s) ∧
      LaneLost 0x5001 l s (losEnter l s) := by
  obtain ⟨o, ho⟩ := laneEvent_eq l 0 (wrB (laneBlk l + 4) clLOS true s)
  set shown : State := { wrB (laneBlk l + 8) 0 true (wrB (laneBlk l + 4) clLOS true s) with out := o }
  have heq : losEnter l s = unlock l (raiseLane 0x5001 l shown) := by
    rw [← ho]
    cases l <;> rfl
  have hnoted : LossNoted 0x5001 l s (raiseLane 0x5001 l shown) := lossNoted_raiseLane (by decide) rfl
  obtain ⟨hframe, hfault, hlost⟩ := loss_effect hnoted hq
  have hrd (x : Nat) (hx : x < 0x400) : rd (laneBlk l + x) (raiseLane 0x5001 l shown) = rd (laneBlk l + x) shown :=
    (reported_raiseLane 0x5001 l shown).lane (laneBlk_range l hx).1 (laneBlk_range l hx).2
  have hstatus : rd (laneBlk l + 4) shown = setBit clLOS true (rd (laneBlk l + 4) s) := (rd_wrB_ne _ _ _ (by omega)).trans (rd_wrB_same _ _ _ _)
  have hlos : rdB (laneBlk l + 4) clLOS (raiseLane 0x5001 l shown) = true := by
    rw [rdB, hrd 4 (by decide), hstatus, bitOf_setBit_same _ _ _ (by decide)]
  have hevent : rdB (laneBlk l + 8) 0 (raiseLane 0x5001 l shown) = true := by
    rw [rdB, hrd 8 (by decide), ← rdB]
    exact rdB_wrB_same _ _ _ _ (by decide)
  have hlock : rdB (laneBlk l + 4) clLOCK (raiseLane 0x5001 l shown) = rdB (laneBlk l + 4) clLOCK s := by
    rw [rdB, hrd 4 (by decide), hstatus, bitOf_setBit_ne _ _ (by decide), rdB]
  rw [heq]
  by_cases h : rdB (laneBlk l + 4) clLOCK s = true
  · obtain ⟨hgone, hdown⟩ := hlost (hlock.trans h)
    refine ⟨hgone.los.trans hlos, hgone.events 0 hevent, fun _ => ⟨hgone.lock, hgone.hiber, ?_, hgone.event⟩, hframe, hfault, fun _ => hdown⟩
    rw [hgone.counted, hrd 0x14 (by decide)]
    exact congrArg (· + 1) ((rd_wrB_ne _ _ _ (by omega)).trans (rd_wrB_ne _ _ _ (by omega)))
  · have hsame : unlock l (raiseLane 0x5001 l shown) = raiseLane 0x5001 l shown := unlock_of_unlocked (by simpa [hlock] using h)
    exact ⟨by rw [hsame, hlos], by rw [hsame, hevent], fun h' => absurd h' h, hframe, hfault, fun h' => absurd h' h⟩

/-- LOCK_LOST on a locked lane (R68). -/
theorem lockLost_effect (bad : Nat) (h : rdB (laneBlk l + 4) clLOCK s = true) (hq : LaneQuiet l s) :
    Unlocked l s (lockLostBody l bad s) ∧ rd (laneBlk l + 0x10) (lockLostBody l bad s) = rd (laneBlk l + 0x10) s + wd bad ∧
      LaneLost 0x5002 l s (lockLostBody l bad s) := by
  have heq : lockLostBody l bad s = unlock l (raiseLane 0x5002 l (inc (laneBlk l + 0x10) bad s)) := by
    cases l with
    | cam n => exact if_neg (by rw [show rdB (laneBase n + 4) clLOCK s = true from h]; decide)
    | span n => exact if_neg (by rw [show rdB (spLane n + 4) clLOCK s = true from h]; decide)
  have hnoted : LossNoted 0x5002 l s (raiseLane 0x5002 l (inc (laneBlk l + 0x10) bad s)) := lossNoted_raiseLane (by decide) rfl
  obtain ⟨hframe, hfault, hlost⟩ := loss_effect hnoted hq
  have hrd (x : Nat) (hx : x < 0x400) := (reported_raiseLane 0x5002 l (inc (laneBlk l + 0x10) bad s)).lane (laneBlk_range l hx).1 (laneBlk_range l hx).2
  have hlock : rdB (laneBlk l + 4) clLOCK (raiseLane 0x5002 l (inc (laneBlk l + 0x10) bad s)) = true := by
    rw [rdB, hrd 4 (by decide), rd_inc_ne _ _ (by omega), ← rdB, h]
  obtain ⟨hgone, hdown⟩ := hlost hlock
  rw [heq]
  refine ⟨fun _ => ⟨hgone.lock, hgone.hiber, ?_, hgone.event⟩, ?_, hframe, hfault, fun _ => hdown⟩
  · rw [hgone.counted, hrd 0x14 (by decide), rd_inc_ne _ _ (by omega)]
  · rw [hgone.headers, hrd 0x10 (by decide), rd_inc_same]

/-- A bit of a lane's status is written, and nothing else. -/
theorem statusBit_effect {k i : Nat} (v : Bool) (hi : i < 32) (s : State) :
    OnlyRegs s (wrB k i v s) ∧ rdB k i (wrB k i v s) = v ∧ (∀ j, j ≠ i → rdB k j (wrB k i v s) = rdB k j s) ∧
      RegsSameBut (fun x => x == k) s (wrB k i v s) := by
  refine ⟨onlyRegs_wr _ _ onlyRegs_refl, rdB_wrB_same s k i v hi, fun j hj => ?_, regsSameBut_wr _ _ s⟩
  rw [rdB, rd_wrB_same, bitOf_setBit_ne v _ hj, rdB]

theorem regsSameBut_of_wr {k : Nat} {v : Word} {ks : List Nat} {t : State} (hk : k ∈ ks) (h : RegsSameBut (fun x => ks.contains x) s t) :
    RegsSameBut (fun x => ks.contains x) s (wr k v t) := fun j hj => by
  rw [rd_wr_ne t v (by rintro rfl; simp [hk] at hj), h j hj]

/-- HI_BER_ENTER on a locked lane: invalid headers counted, HI_BER set and counted once (R68). -/
theorem hiBer_effect (bad : Nat) (h : rdB (laneBlk l + 4) clLOCK s = true) :
    let t := hiBerBody l bad s
    OnlyRegs s t ∧ rdB (laneBlk l + 4) clHIBER t = true ∧ rd (laneBlk l + 0x10) t = rd (laneBlk l + 0x10) s + wd bad ∧
      rd (laneBlk l + 0x1C) t = rd (laneBlk l + 0x1C) s + (if rdB (laneBlk l + 4) clHIBER s then 0 else 1) ∧
      RegsSameBut (fun k => [laneBlk l + 4, laneBlk l + 0x10, laneBlk l + 0x1C].contains k) s t := by
  intro t
  have hsame : RegsSameBut (fun k => [laneBlk l + 4, laneBlk l + 0x10, laneBlk l + 0x1C].contains k) s (inc (laneBlk l + 0x10) bad s) :=
    regsSameBut_of_wr (by simp) fun _ _ => rfl
  have hber : rdB (laneBlk l + 4) clHIBER (inc (laneBlk l + 0x10) bad s) = rdB (laneBlk l + 4) clHIBER s :=
    congrArg (bitOf clHIBER) (rd_inc_ne s bad (by omega))
  cases hb : rdB (laneBlk l + 4) clHIBER s with
  | true =>
    have ht : t = inc (laneBlk l + 0x10) bad s := by simp only [t, hiBerBody, h, hber, hb, Bool.not_true, Bool.false_eq_true, if_false, if_true]
    rw [ht]
    exact ⟨onlyRegs_wr _ _ onlyRegs_refl, hber.trans hb, rd_inc_same _ _ _, by rw [rd_inc_ne _ _ (by omega)]; simp, hsame⟩
  | false =>
    have ht : t = inc (laneBlk l + 0x1C) 1 (wrB (laneBlk l + 4) clHIBER true (inc (laneBlk l + 0x10) bad s)) := by
      simp only [t, hiBerBody, h, hber, hb, Bool.not_true, Bool.false_eq_true, if_false]
    rw [ht]
    refine ⟨onlyRegs_wr _ _ (onlyRegs_wr _ _ (onlyRegs_wr _ _ onlyRegs_refl)), ?_, ?_, ?_, regsSameBut_of_wr (by simp) (regsSameBut_of_wr (by simp) hsame)⟩
    · rw [rdB, rd_inc_ne _ _ (by omega), ← rdB, rdB_wrB_same _ _ _ _ (by decide)]
    · rw [rd_inc_ne _ _ (by omega), rd_wrB_ne _ _ _ (by omega), rd_inc_same]
    · rw [rd_inc_same, rd_wrB_ne _ _ _ (by omega), rd_inc_ne _ _ (by omega)]
      rfl

/-- HI_BER_WINDOW_END on a locked lane: invalid headers counted, HI_BER left after fewer than 16 (R68). -/
theorem hiBerEnd_effect (bad : Nat) (h : rdB (laneBlk l + 4) clLOCK s = true) :
    let t := hiBerEndBody l bad s
    OnlyRegs s t ∧ rd (laneBlk l + 0x10) t = rd (laneBlk l + 0x10) s + wd bad ∧
      rdB (laneBlk l + 4) clHIBER t = (rdB (laneBlk l + 4) clHIBER s && decide (16 ≤ bad)) ∧
      RegsSameBut (fun k => [laneBlk l + 4, laneBlk l + 0x10].contains k) s t := by
  intro t
  have hsame : RegsSameBut (fun k => [laneBlk l + 4, laneBlk l + 0x10].contains k) s (inc (laneBlk l + 0x10) bad s) :=
    regsSameBut_of_wr (by simp) fun _ _ => rfl
  by_cases hbad : bad < 16
  · have ht : t = wrB (laneBlk l + 4) clHIBER false (inc (laneBlk l + 0x10) bad s) := by
      simp only [t, hiBerEndBody, h, hbad, Bool.not_true, Bool.false_eq_true, if_false, if_true]
    rw [ht]
    refine ⟨onlyRegs_wr _ _ (onlyRegs_wr _ _ onlyRegs_refl), ?_, ?_, regsSameBut_of_wr (by simp) hsame⟩
    · rw [rd_wrB_ne _ _ _ (by omega), rd_inc_same]
    · rw [rdB_wrB_same _ _ _ _ (by decide), decide_eq_false (by omega), Bool.and_false]
  · have ht : t = inc (laneBlk l + 0x10) bad s := by simp only [t, hiBerEndBody, h, hbad, Bool.not_true, Bool.false_eq_true, if_false]
    rw [ht]
    refine ⟨onlyRegs_wr _ _ onlyRegs_refl, rd_inc_same _ _ _, ?_, hsame⟩
    rw [rdB, rd_inc_ne _ _ (by omega), decide_eq_true (by omega), Bool.and_true, rdB]

end Events

/-! ### Marker sets (R71) -/

/-- A lane takes a good set's marker: it is aligned, with its skew. -/
def laneAligned (b : Nat) (m : Option Marker) (s : State) : State :=
  wrF (b + 4) 23 16 (match m with | some m => m.skew | none => 0) (wrB (b + 4) clALIGNED true s)

section Markers

variable {s t : State}

theorem rdB_laneAligned (b b' : Nat) (m : Option Marker) (s : State) :
    rdB (b + 4) clALIGNED (laneAligned b' m s) = if b + 4 = b' + 4 ∧ clALIGNED = clALIGNED then true else rdB (b + 4) clALIGNED s :=
  rdB_wrF_wrB (by decide) (by decide)

/-- The lanes of a good set are aligned. -/
theorem aligned_eachDo {base : Nat → Nat} {lanes : List Nat} {ms : List (Option Marker)} (hlen : lanes.length ≤ ms.length) (s : State) {n : Nat}
    (hn : n ∈ lanes) : rdB (base n + 4) clALIGNED (eachDo (fun x => laneAligned (base x.1) x.2) (lanes.zip ms) s) = true := by
  rw [← List.map_fst_zip hlen] at hn
  obtain ⟨x, hx, rfl⟩ := List.mem_map.mp hn
  refine eachDo_sets (P := fun (x : Nat × Option Marker) s => rdB (base x.1 + 4) clALIGNED s = true) (fun x s => ?_) (fun x y s hs => ?_) hx
  · rw [rdB_laneAligned, if_pos ⟨rfl, rfl⟩]
  · rw [rdB_laneAligned, hs, ite_self]

theorem onlyRegs_laneAligned {base : Nat → Nat} (l : List (Nat × Option Marker)) : OnlyRegs s (eachDo (fun x => laneAligned (base x.1) x.2) l s) :=
  eachDo_keeps (P := OnlyRegs s) (fun _ _ _ hx => onlyRegs_wr _ _ (onlyRegs_wr _ _ hx)) onlyRegs_refl

theorem setOk_length {w : Nat} {ms : List (Option Marker)} (h : setOk w ms = true) : ms.length = w := by
  simp only [setOk, Bool.and_eq_true, decide_eq_true_eq] at h
  exact h.1

section Cam

variable {st : Nat} {ms : List (Option Marker)}

/-- A bond after one more good set, and after one more bad one. -/
def goodSet (st : Nat) (s : State) : State := updPort st (fun p => { p with okSets := p.okSets + 1, badSets := 0 }) s
def badSet (st : Nat) (s : State) : State := updPort st (fun p => { p with okSets := 0, badSets := p.badSets + 1 }) s

theorem camMarkers_good (hu : streamUsed st s = true) (hok : setOk (bondWidth st s) ms = true)
    (hlock : ∀ n ∈ bondLanes st s, rdB (laneBase n + 4) clLOCK s = true) :
    camMarkers st ms s = if 1 ≤ (cport st s).okSets ∨ aligned st s = true then
      eachDo (fun x => laneAligned (laneBase x.1) x.2) ((bondLanes st s).zip ms) (goodSet st s) else goodSet st s := by
  have hall : ((bondLanes st s).all fun n => rdB (laneBase n + 4) clLOCK s) = true := List.all_eq_true.mpr hlock
  have hsets : (2 ≤ (cport st (goodSet st s)).okSets ∨ aligned st (goodSet st s) = true) ↔ (1 ≤ (cport st s).okSets ∨ aligned st s = true) := by
    rw [goodSet, cport_updPort]
    exact or_congr Nat.succ_le_succ_iff Iff.rfl
  unfold camMarkers
  rw [if_neg (by simp [hu])]
  exact (if_pos ⟨hok, hall⟩).trans (if_congr hsets rfl rfl)

theorem camMarkers_good_effect (hu : streamUsed st s = true) (hok : setOk (bondWidth st s) ms = true)
    (hlock : ∀ n ∈ bondLanes st s, rdB (laneBase n + 4) clLOCK s = true) :
    let t := camMarkers st ms s
    t = { s with regs := t.regs, cports := t.cports } ∧
      (1 ≤ (cport st s).okSets ∨ aligned st s = true → ∀ n ∈ bondLanes st s, rdB (laneBase n + 4) clALIGNED t = true) ∧
      ((cport st s).okSets = 0 → aligned st s = false → t.regs = s.regs ∧ (cport st t).okSets = 1) := by
  intro t
  have ht : t = _ := camMarkers_good hu hok hlock
  by_cases h : 1 ≤ (cport st s).okSets ∨ aligned st s = true
  · rw [ht, if_pos h]
    refine ⟨?_, fun _ n hn => aligned_eachDo (by simp [bondLanes, setOk_length hok]) _ hn, fun h0 ha => absurd h (by simp [h0, ha])⟩
    rw [onlyRegs_laneAligned]
    rfl
  · rw [ht, if_neg h]
    refine ⟨rfl, fun h' => absurd h' h, fun h0 _ => ⟨rfl, ?_⟩⟩
    rw [goodSet, cport_updPort, h0]

theorem camMarkers_bad (hu : streamUsed st s = true)
    (hbad : ¬ (setOk (bondWidth st s) ms = true ∧ ∀ n ∈ bondLanes st s, rdB (laneBase n + 4) clLOCK s = true)) :
    camMarkers st ms s = if aligned st s = true ∧ 2 ≤ (cport st s).badSets then alignLost st (badSet st s) else badSet st s := by
  have hsets : (aligned st (badSet st s) = true ∧ 3 ≤ (cport st (badSet st s)).badSets) ↔ (aligned st s = true ∧ 2 ≤ (cport st s).badSets) := by
    rw [badSet, cport_updPort]
    exact and_congr Iff.rfl Nat.succ_le_succ_iff
  unfold camMarkers
  rw [if_neg (by simp [hu])]
  exact (if_neg fun h => hbad ⟨h.1, List.all_eq_true.mp h.2⟩).trans (if_congr hsets rfl rfl)

theorem camMarkers_bad_effect (hst : st < 64) (hu : streamUsed st s = true)
    (hbad : ¬ (setOk (bondWidth st s) ms = true ∧ ∀ n ∈ bondLanes st s, rdB (laneBase n + 4) clLOCK s = true))
    (hidle : PortIdle st s) (hl : laneFirst st s < 64) (hw : 1 ≤ bondWidth st s) :
    let t := camMarkers st ms s
    MemorySame s t ∧ (aligned st s = true → 2 ≤ (cport st s).badSets → aligned st t = false ∧ camUp st t = false) ∧
      ((cport st s).badSets < 2 → t.regs = s.regs ∧ (cport st t).okSets = 0 ∧ (cport st t).badSets = (cport st s).badSets + 1) := by
  intro t
  have ht : t = _ := camMarkers_bad hu hbad
  by_cases h : aligned st s = true ∧ 2 ≤ (cport st s).badSets
  · have hp : cport st (badSet st s) = { cport st s with okSets := 0, badSets := (cport st s).badSets + 1 } := cport_updPort st _ s
    have hlost : BondLost st (badSet st s) (alignLost st (badSet st s)) :=
      bondLost_alignLost ⟨by rw [hp, ← hidle.line], by rw [hp, ← hidle.outst], by rw [hp, ← hidle.waiting]⟩
    rw [ht, if_pos h]
    exact ⟨hlost.rest.memorySame, fun _ _ => hlost.gone hst hl hw, fun h' => absurd h.2 (by omega)⟩
  · rw [ht, if_neg h]
    refine ⟨⟨fun _ => rfl, rfl⟩, fun ha hb => absurd ⟨ha, hb⟩ h, fun _ => ⟨rfl, ?_⟩⟩
    rw [badSet, cport_updPort]
    exact ⟨rfl, rfl⟩

end Cam

section Span

variable {m : Nat} {ms : List (Option Marker)}

theorem spanMarkers_good_effect (hu : linkUsed m s = true) (hok : setOk 4 ms = true)
    (hlock : ∀ n ∈ spLanes m, rdB (spanLaneBase n + 4) clLOCK s = true) :
    let t := spanMarkers m ms s
    t = { s with regs := t.regs, sbonds := t.sbonds } ∧
      (1 ≤ (Fam.get (0, 0) m s.sbonds).1 ∨ spAligned m s = true → ∀ n ∈ spLanes m, rdB (spanLaneBase n + 4) clALIGNED t = true) := by
  intro t
  set counted : State := { s with sbonds := s.sbonds.set m ((Fam.get (0, 0) m s.sbonds).1 + 1, 0) }
  have ht : t = if 1 ≤ (Fam.get (0, 0) m s.sbonds).1 ∨ spAligned m s = true then
      eachDo (fun x => laneAligned (spanLaneBase x.1) x.2) ((spLanes m).zip ms) counted else counted := by
    have hall : ((spLanes m).all fun n => rdB (spLane n + 4) clLOCK s) = true := List.all_eq_true.mpr hlock
    show spanMarkers m ms s = _
    unfold spanMarkers
    rw [if_neg (by simp [hu])]
    exact (if_pos ⟨hok, hall⟩).trans (if_congr (or_congr Nat.succ_le_succ_iff Iff.rfl) rfl rfl)
  by_cases h : 1 ≤ (Fam.get (0, 0) m s.sbonds).1 ∨ spAligned m s = true
  · rw [ht, if_pos h]
    refine ⟨?_, fun _ n hn => aligned_eachDo (by simp [spLanes, setOk_length hok]) _ hn⟩
    rw [onlyRegs_laneAligned]
  · rw [ht, if_neg h]
    exact ⟨rfl, fun h' => absurd h' h⟩

theorem spanMarkers_bad_effect (hm : m < 4) (hu : linkUsed m s = true) (hbad : setOk 4 ms = false) (ha : spAligned m s = true)
    (hb : 2 ≤ (Fam.get (0, 0) m s.sbonds).2) :
    let t := spanMarkers m ms s
    t = { s with regs := t.regs, sbonds := t.sbonds, spans := t.spans } ∧ spAligned m t = false ∧ linkIsUp m t = false := by
  intro t
  set counted : State := { s with sbonds := s.sbonds.set m (0, (Fam.get (0, 0) m s.sbonds).2 + 1) }
  have ht : t = spanAlignLost m counted := by
    show spanMarkers m ms s = _
    unfold spanMarkers
    rw [if_neg (by simp [hu])]
    exact (if_neg (by simp [hbad])).trans (if_pos ⟨ha, Nat.succ_le_succ hb⟩)
  have hlost := linkLost_spanAlignLost m counted
  rw [ht]
  exact ⟨SpanFrame.trans (t := counted) rfl hlost.rest, hlost.gone hm⟩

end Span

end Markers

/-- Settles O36: a lane's loss goes through its fault, its lock and its bond; the other detector events are register writes; a marker set counts
toward alignment or its end. -/
theorem lanesLoseAndGainLock : Obligations.LanesLoseAndGainLock := by
  unfold Obligations.LanesLoseAndGainLock
  intro quiet lost unlocked
  have hquiet (l : LaneId) (s : State) (h : quiet l s) : LaneQuiet l s := by
    cases l with
    | cam n => exact fun st hst => have ⟨hline, hout, hwait⟩ := h st hst; ⟨hline, hout, hwait⟩
    | span n => trivial
  have hlost (code : Nat) (l : LaneId) (s t : State) (h : LaneLost code l s t) : lost code l s t := by
    refine ⟨h.frame, ?_⟩
    cases l with
    | cam n => exact fun st hst => ⟨h.faulted st hst, fun hlock => h.down hlock st hst⟩
    | span n => exact ⟨h.faulted, h.down⟩
  refine ⟨fun l s => ⟨fun hlos => ⟨?_, ?_⟩, fun hlos hq => ⟨_, rfl, ?_⟩, fun hlos => ⟨_, rfl, ?_⟩, fun hdark => ?_, fun hlit => ⟨_, rfl, ?_⟩⟩,
    fun l bad s => ⟨fun hlock => ⟨?_, ?_, ?_⟩, fun hlock => ⟨fun hq => ⟨_, rfl, ?_⟩, ⟨_, rfl, ?_⟩, ⟨_, rfl, ?_⟩⟩⟩, ?_,
    fun m ms s => ⟨fun hu => ?_, fun hu hok hlock => ⟨_, rfl, ?_⟩, fun hu hbad ha hb => ⟨_, rfl, ?_⟩⟩⟩
  · exact congrArg Host.Outcome.next (if_pos hlos)
  · exact congrArg Host.Outcome.next (if_pos hlos)
  · obtain ⟨hset, hshown, hgone, h⟩ := losEnter_effect (hquiet l s hq)
    rw [show losEnterBody l s = losEnter l s from if_neg (by simp [hlos])]
    exact ⟨hset, hshown, hgone, hlost _ _ _ _ h⟩
  · rw [show blockLockBody l s = wrB (laneBlk l + 4) clLOCK true s from if_neg (by simp [hlos])]
    exact statusBit_effect true (by decide) s
  · exact congrArg Host.Outcome.next (if_pos hdark)
  · rw [show losExitBody l s = wrB (laneBlk l + 4) clLOS false s from if_neg (by simp [hlit])]
    exact statusBit_effect false (by decide) s
  · refine congrArg Host.Outcome.next ?_
    cases l with
    | cam n => exact if_pos (congrArg (!·) hlock)
    | span n => exact if_pos (congrArg (!·) hlock)
  · exact congrArg Host.Outcome.next (if_pos (congrArg (!·) hlock))
  · exact congrArg Host.Outcome.next (if_pos (congrArg (!·) hlock))
  · obtain ⟨hgone, hcount, h⟩ := lockLost_effect bad hlock (hquiet l s hq)
    exact ⟨hgone, hcount, hlost _ _ _ _ h⟩
  · exact hiBer_effect bad hlock
  · exact hiBerEnd_effect bad hlock
  · intro st ms s hu good
    exact ⟨fun hgood => ⟨_, rfl, camMarkers_good_effect hu hgood.1 hgood.2⟩,
      fun hbad hline hout hwait hl hw => ⟨_, rfl, camMarkers_bad_effect st.isLt hu hbad ⟨hline, hout, hwait⟩ hl hw⟩⟩
  · exact congrArg Host.Outcome.next (if_pos (congrArg (!·) hu))
  · exact spanMarkers_good_effect hu hok hlock
  · exact spanMarkers_bad_effect m.isLt hu hbad ha hb

end Sys2Proof.Proofs
end

section
/-! Frames as blocks (04_chanak_lanes.md, R64 to R70): what a receiver sees in the blocks of a frame, and how it rebuilds from the lanes of a bond
what a sender striped over them. -/

namespace Sys2Proof.Proofs

open Sys2Proof Sys2Proof.Machine Sys2Proof.Laws

/-! ### The bytes of a block (R5, R66) -/

theorem leNat_lt : ∀ bs : List Byte, leNat bs < 256 ^ bs.length
  | [] => Nat.one_pos
  | b :: bs => by
    have hb := b.isLt
    have ih := leNat_lt bs
    simp only [leNat, List.length_cons, pow_succ]
    omega

theorem natLE_leNat : ∀ bs : List Byte, natLE bs.length (leNat bs) = bs
  | [] => rfl
  | b :: bs => by
    have hb := b.isLt
    have hlow : BitVec.ofNat 8 (b.toNat + 256 * leNat bs) = b := BitVec.eq_of_toNat_eq (by rw [BitVec.toNat_ofNat]; omega)
    have hhigh : (b.toNat + 256 * leNat bs) / 256 = leNat bs := by omega
    simp only [leNat, List.length_cons, natLE, hlow, hhigh, natLE_leNat bs]

theorem blockOctets_mkBlock (hdr : Nat) {bs : List Byte} (h : bs.length = 8) : blockOctets (mkBlock hdr bs) = bs := by
  have hlt : leNat bs < 2 ^ 64 := by
    have := leNat_lt bs
    rwa [h] at this
  rw [blockOctets, mkBlock, List.take_of_length_le (by omega), BitVec.toNat_ofNat, Nat.mod_eq_of_lt hlt]
  simpa [h] using natLE_leNat bs

/-! ### The blocks of a frame (R66) -/

theorem blockKind_start {l : List Byte} (h : l.length = 7) : blockKind (mkBlock 2 (0x78 :: l)) = .start l := by
  have hl : blockOctets (mkBlock 2 (0x78 :: l)) = 0x78 :: l := blockOctets_mkBlock 2 (by simp [h])
  unfold blockKind
  rw [hl]
  rfl

theorem blockKind_data {l : List Byte} (h : l.length = 8) : blockKind (mkBlock 1 l) = .data l := by
  unfold blockKind
  rw [blockOctets_mkBlock 1 h]
  rfl

/-- The terminate block of the last bytes of a frame. -/
def termBlock (l : List Byte) : Block := mkBlock 2 (natLE 1 (termTypes.getD l.length 0) ++ l ++ zeros (7 - l.length))

theorem blockKind_term {l : List Byte} (h : l.length < 8) : blockKind (termBlock l) = .term l := by
  have hl : blockOctets (termBlock l) = BitVec.ofNat 8 (termTypes.getD l.length 0) :: (l ++ zeros (7 - l.length)) :=
    blockOctets_mkBlock 2 (by simp [zeros, natLE]; omega)
  have htake : (l ++ zeros (7 - l.length)).take l.length = l := List.take_left
  unfold blockKind
  rw [hl]
  show (if (2 : BitVec 2) = 1 then _ else _) = _
  have hty : leAt (BitVec.ofNat 8 (termTypes.getD l.length 0) :: (l ++ zeros (7 - l.length))) 0 1 = termTypes.getD l.length 0 ∧
      termTypes.getD l.length 0 ≠ 0x1E ∧ termTypes.getD l.length 0 ≠ 0x78 ∧ termTypes.getD l.length 0 ≠ 0x4B ∧
      termTypes.idxOf? (termTypes.getD l.length 0) = some l.length := by
    generalize l ++ zeros (7 - l.length) = r
    generalize l.length = n at h ⊢
    have hdec : ∀ n < 8, (BitVec.ofNat 8 (termTypes.getD n 0)).toNat + 256 * 0 = termTypes.getD n 0 ∧ termTypes.getD n 0 ≠ 0x1E ∧
      termTypes.getD n 0 ≠ 0x78 ∧ termTypes.getD n 0 ≠ 0x4B ∧ termTypes.idxOf? (termTypes.getD n 0) = some n := by decide
    exact hdec n h
  obtain ⟨hat, h1, h2, h3, hidx⟩ := hty
  simp only [hat, h1, h2, h3, hidx, false_and, if_false, List.drop_succ_cons, List.drop_zero, htake]
  rfl

/-- Nothing in a block is counted or left out by the receiver: a valid sync header, a known type, no marker. -/
structure Carried (b : Block) : Prop where
  header : blockBadHdr b = false
  valid : blockKind b ≠ .invalid
  noMarker : blockKind b ≠ .marker

theorem carried_tailBlocks : ∀ (n : Nat) (bs : List Byte), ∀ b ∈ tailBlocks n bs, Carried b
  | 0, _, _, h => nomatch h
  | n + 1, bs, b, h => by
    unfold tailBlocks at h
    split at h
    · next hlt =>
      obtain rfl := List.mem_singleton.mp h
      have hk := blockKind_term hlt
      exact ⟨rfl, by rw [← termBlock, hk]; nofun, by rw [← termBlock, hk]; nofun⟩
    · next hge =>
      rcases List.mem_cons.mp h with rfl | h
      · have hlen : (bs.take 8).length = 8 := by rw [List.length_take]; omega
        have hk : blockKind (mkBlock 1 bs) = .data (bs.take 8) := by
          rw [← blockKind_data hlen, mkBlock, mkBlock, List.take_take, Nat.min_self]
        exact ⟨rfl, by rw [hk]; nofun, by rw [hk]; nofun⟩
      · exact carried_tailBlocks n _ b h

theorem carried_frameBlocks {f : List Byte} (hf : 7 ≤ f.length) {b : Block} (h : b ∈ frameBlocks f) : Carried b := by
  rcases List.mem_cons.mp h with rfl | h
  · have hk := blockKind_start (l := f.take 7) (by rw [List.length_take]; omega)
    exact ⟨rfl, by rw [hk]; nofun, by rw [hk]; nofun⟩
  · exact carried_tailBlocks _ _ b h

/-- A receiver that collects data blocks and ends a frame with its terminate block receives the bytes that the blocks of a frame's tail carry. -/
theorem eachDo_tailBlocks {σ : Type} {step : Block × Nat → σ → σ} {hold done : RxFrame → σ}
    (hdata : ∀ b l g, blockKind b.1 = .data l → step b (hold g) = hold { g with bytes := g.bytes ++ l })
    (hterm : ∀ b l g, blockKind b.1 = .term l → step b (hold g) = done { g with bytes := g.bytes ++ l }) :
    ∀ (n : Nat) (bs : List Byte) (rest : List (Block × Nat)) (g : RxFrame), bs.length < 8 * n → rest.map (·.1) = tailBlocks n bs →
      eachDo step rest (hold g) = done { g with bytes := g.bytes ++ bs }
  | 0, _, _, _, h, _ => nomatch h
  | n + 1, bs, rest, g, hlen, hrest => by
    unfold tailBlocks at hrest
    split at hrest
    · next hlt =>
      obtain ⟨x, rfl, hx⟩ : ∃ x, rest = [x] ∧ x.1 = termBlock bs := by
        obtain ⟨x, hx⟩ := List.length_eq_one_iff.mp ((List.length_map fun x : Block × Nat => x.1).symm.trans (congrArg List.length hrest))
        subst hx
        exact ⟨x, rfl, (List.cons.inj hrest).1⟩
      exact hterm x bs g (by rw [hx, blockKind_term hlt])
    · next hge =>
      obtain ⟨x, r, rfl, hx, hr⟩ := List.map_eq_cons_iff.mp hrest
      have htake : (bs.take 8).length = 8 := by rw [List.length_take]; omega
      have hk : blockKind x.1 = .data (bs.take 8) := by
        rw [hx, ← blockKind_data htake, mkBlock, mkBlock, List.take_take, Nat.min_self]
      rw [eachDo_cons, hdata x _ g hk, eachDo_tailBlocks hdata hterm n (bs.drop 8) r _ (by rw [List.length_drop]; omega) hr]
      simp only [List.append_assoc, List.take_append_drop]

/-! ### Blocks across the lanes of a bond (R70) -/

/-- The blocks of lane `i` where `bs` is striped over `w` lanes. -/
def laneBlocks (w i : Nat) (bs : List Block) : List Block := (bs.zipIdx.filter fun (x : Block × Nat) => decide (x.2 % w = i)).map (·.1)

theorem stripe_eq (w : Nat) (bs : List Block) : stripe w bs = (upTo w).map fun i => laneBlocks w i bs := rfl

theorem mem_laneBlocks {w i : Nat} {bs : List Block} {b : Block} (h : b ∈ laneBlocks w i bs) : b ∈ bs := by
  obtain ⟨x, hx, rfl⟩ := List.mem_map.mp h
  obtain ⟨b, k⟩ := x
  exact List.mem_of_getElem? (List.mem_zipIdx_iff_getElem?.mp (List.mem_filter.mp hx).1)

section Lanes

variable {w i : Nat}

/-- Lanes repeat with the width of the bond. -/
theorem filter_zipIdx_add (w i : Nat) : ∀ (bs : List Block) (k : Nat),
    ((bs.zipIdx (k + w)).filter fun (x : Block × Nat) => decide (x.2 % w = i)).map (·.1) =
      ((bs.zipIdx k).filter fun (x : Block × Nat) => decide (x.2 % w = i)).map (·.1)
  | [], _ => rfl
  | b :: bs, k => by
    have ih := filter_zipIdx_add w i bs (k + 1)
    rw [show k + 1 + w = k + w + 1 by omega] at ih
    simp only [List.zipIdx_cons, List.filter_cons, Nat.add_mod_right]
    split <;> simp [ih]

/-- In one round a lane gets one block. -/
theorem filter_zipIdx_round (hi : i < w) : ∀ (bs : List Block) (k : Nat), k + bs.length ≤ w →
    ((bs.zipIdx k).filter fun (x : Block × Nat) => decide (x.2 % w = i)).map (·.1) = if k ≤ i then bs[i - k]?.toList else []
  | [], k, _ => by simp
  | b :: bs, k, h => by
    rw [List.length_cons] at h
    have ih := filter_zipIdx_round hi bs (k + 1) (by omega)
    rw [List.zipIdx_cons, List.filter_cons, Nat.mod_eq_of_lt (show k < w by omega)]
    rcases Nat.lt_trichotomy k i with hk | hk | hk
    · rw [if_neg (by simp; omega), ih, if_pos (by omega), if_pos (by omega), show i - k = i - (k + 1) + 1 by omega, List.getElem?_cons_succ]
    · subst hk
      rw [if_pos (by simp), List.map_cons, ih, if_neg (by omega), if_pos (by omega)]
      simp
    · rw [if_neg (by simp; omega), ih, if_neg (by omega), if_neg (by omega)]

/-- A lane's blocks: one of the first round, then those of the rest. -/
theorem laneBlocks_eq (hi : i < w) (bs : List Block) : laneBlocks w i bs = bs[i]?.toList ++ laneBlocks w i (bs.drop w) := by
  have hfirst : (((bs.take w).zipIdx).filter fun (x : Block × Nat) => decide (x.2 % w = i)).map (·.1) = bs[i]?.toList := by
    rw [filter_zipIdx_round hi (bs.take w) 0 (by rw [List.length_take]; omega), if_pos (Nat.zero_le i), Nat.sub_zero, List.getElem?_take, if_pos hi]
  have hrest : (((bs.drop w).zipIdx (0 + (bs.take w).length)).filter fun (x : Block × Nat) => decide (x.2 % w = i)).map (·.1) = laneBlocks w i (bs.drop w) := by
    rcases Nat.lt_or_ge bs.length w with hlt | hge
    · rw [List.drop_eq_nil_of_le hlt.le]
      rfl
    · rw [List.length_take, Nat.min_eq_left hge]
      exact filter_zipIdx_add w i (bs.drop w) 0
  conv_lhs => rw [laneBlocks, ← List.take_append_drop w bs, List.zipIdx_append, List.filter_append, List.map_append, hfirst, hrest]

theorem laneBlocks_drop (hi : i < w) (bs : List Block) : (laneBlocks w i bs).drop 1 = laneBlocks w i (bs.drop w) := by
  rw [laneBlocks_eq hi]
  rcases Nat.lt_or_ge i bs.length with hlt | hge
  · rw [List.getElem?_eq_getElem hlt]
    rfl
  · rw [List.getElem?_eq_none hge, List.drop_eq_nil_of_le (show bs.length ≤ w by omega)]
    rfl

theorem laneBlocks_head (hi : i < w) (bs : List Block) : (laneBlocks w i bs).head? = bs[i]? := by
  rw [laneBlocks_eq hi]
  rcases Nat.lt_or_ge i bs.length with hlt | hge
  · rw [List.getElem?_eq_getElem hlt]
    rfl
  · rw [List.getElem?_eq_none hge, List.drop_eq_nil_of_le (show bs.length ≤ w by omega)]
    rfl

theorem laneBlocks_length (hi : i < w) : ∀ (n : Nat) (bs : List Block), bs.length ≤ n → (laneBlocks w i bs).length = (bs.length + (w - 1 - i)) / w
  | n, bs, h => by
    rw [laneBlocks_eq hi, List.length_append]
    rcases Nat.lt_or_ge i bs.length with hlt | hge
    · match n with
      | 0 => omega
      | n + 1 =>
        rw [laneBlocks_length hi n (bs.drop w) (by rw [List.length_drop]; omega), List.length_drop, List.getElem?_eq_getElem hlt]
        rw [show bs.length + (w - 1 - i) = (bs.length - 1 - i) + w by omega, Nat.add_div_right _ (by omega), Option.toList_some, List.length_singleton]
        rcases Nat.lt_or_ge bs.length w with hlt' | hge'
        · rw [Nat.div_eq_of_lt (by omega), Nat.div_eq_of_lt (by omega)]
        · rw [show bs.length - w + (w - 1 - i) = bs.length - 1 - i by omega]
          omega
    · rw [List.getElem?_eq_none hge, List.drop_eq_nil_of_le (show bs.length ≤ w by omega), Nat.div_eq_of_lt (by omega)]
      rfl

theorem filterMap_range_getElem? (bs : List Block) : ∀ w, (List.range w).filterMap (fun i => bs[i]?) = bs.take w
  | 0 => rfl
  | w + 1 => by
    rw [List.range_succ, List.filterMap_append, filterMap_range_getElem? bs w, List.take_add_one]
    cases h : bs[w]? <;> simp [h]

theorem heads_stripe (w : Nat) (bs : List Block) : heads (stripe w bs) = bs.take w := by
  rw [heads, stripe_eq, List.filterMap_map, ← filterMap_range_getElem?]
  exact List.filterMap_congr fun i hi => laneBlocks_head (List.mem_range.mp hi) bs

theorem stripe_drop (w : Nat) (bs : List Block) : (stripe w bs).map (·.drop 1) = stripe w (bs.drop w) := by
  rw [stripe_eq, List.map_map, stripe_eq]
  exact List.map_congr_left fun i hi => laneBlocks_drop (List.mem_range.mp hi) bs

/-- Round by round the lanes give the blocks in their order. -/
theorem logical_stripe (w : Nat) : ∀ (n : Nat) (bs : List Block), bs.length ≤ n * w → (logical n (stripe w bs)).map (·.1) = bs
  | 0, bs, h => (List.length_eq_zero_iff.mp (by omega)).symm
  | n + 1, bs, h => by
    have hrest : bs.length - w ≤ n * w := by
      rw [Nat.succ_mul] at h
      omega
    rw [logical, List.map_append, heads_stripe, stripe_drop, logical_stripe w n (bs.drop w) (by rwa [List.length_drop]), List.map_map]
    conv_rhs => rw [← List.take_append_drop w bs]
    exact congrArg (· ++ bs.drop w) (List.map_id _)

/-- As many rounds as the first lane has blocks. -/
theorem rounds_stripe (hw : 1 ≤ w) (bs : List Block) : ((stripe w bs).map List.length).foldl max 0 = (bs.length + w - 1) / w := by
  have hlen (i : Nat) (hi : i < w) : (laneBlocks w i bs).length = (bs.length + (w - 1 - i)) / w := laneBlocks_length hi _ bs le_rfl
  rw [List.foldl_eq_foldr]
  refine le_antisymm (List.max_le_of_forall_le _ _ fun x hx => ?_) (List.le_max_of_le (x := (laneBlocks w 0 bs).length) ?_ ?_)
  · obtain ⟨l, hl, rfl⟩ := List.mem_map.mp hx
    obtain ⟨i, hi, rfl⟩ := List.mem_map.mp hl
    exact (hlen i (List.mem_range.mp hi)).trans_le (Nat.div_le_div_right (by omega))
  · exact List.mem_map.mpr ⟨_, List.mem_map.mpr ⟨0, List.mem_range.mpr hw, rfl⟩, rfl⟩
  · rw [hlen 0 hw]
    exact Nat.div_le_div_right (by omega)

/-- The receiver rebuilds the blocks that were striped over a bond, the first of them as many rounds ago as the stretch has after it (R70). -/
theorem rebuild_stripe (hw : 1 ≤ w) {b : Block} {bs : List Block} (hc : ∀ x ∈ b :: bs, Carried x) :
    ∃ rest, rebuild w (stripe w (b :: bs)) = (b, ((b :: bs).length + w - 1) / w - 1) :: rest ∧ rest.map (·.1) = bs := by
  have hkept : ((stripe w (b :: bs)).take w).map (fun l => l.filter fun b => decide (blockKind b ≠ .marker)) = stripe w (b :: bs) := by
    rw [List.take_of_length_le (by simp [stripe])]
    refine List.map_congr_left (g := id) (fun l hl => ?_) |>.trans (List.map_id _)
    obtain ⟨i, -, rfl⟩ := List.mem_map.mp hl
    exact List.filter_eq_self.mpr fun x hx => decide_eq_true (hc x (mem_laneBlocks hx)).noMarker
  have hround : rebuild w (stripe w (b :: bs)) = logical (((b :: bs).length + w - 1) / w) (stripe w (b :: bs)) := by
    simp only [rebuild, hkept, rounds_stripe hw]
  obtain ⟨k, hk⟩ : ∃ k, ((b :: bs).length + w - 1) / w = k + 1 :=
    Nat.exists_eq_succ_of_ne_zero (Nat.div_pos (by rw [List.length_cons]; omega) hw).ne'
  have hcover : (b :: bs).length ≤ (k + 1) * w := by
    rw [← hk]
    have hdiv := Nat.lt_div_mul_add (a := (b :: bs).length + w - 1) hw
    omega
  have hall := logical_stripe w (k + 1) (b :: bs) hcover
  rw [hround, hk, Nat.add_sub_cancel]
  obtain ⟨w, rfl⟩ : ∃ v, w = v + 1 := ⟨w - 1, by omega⟩
  rw [logical, heads_stripe, List.take_succ_cons, List.map_cons, List.cons_append] at hall ⊢
  exact ⟨_, rfl, (List.cons.inj hall).2⟩

end Lanes

/-! ### A stretch of a frame's blocks at a receiver -/

theorem countBlocks_carried {base : Nat} {l : List Block} (hc : ∀ b ∈ l, Carried b) (s : State) : countBlocks base l s = s := by
  have hbad : l.filter blockBadHdr = [] := List.filter_eq_nil_iff.mpr fun b hb => by simp [(hc b hb).header]
  have hinv : (l.filter fun b => decide (blockKind b = .invalid)) = [] := List.filter_eq_nil_iff.mpr fun b hb => by simp [(hc b hb).valid]
  unfold countBlocks
  rw [hbad, hinv]
  simp

/-- The lanes count nothing in the blocks of a frame (R67). -/
theorem countBlocks_oneFrame {f : List Byte} (hf : 7 ≤ f.length) (w : Nat) (base : Nat → Nat) (lanes : List Nat) (s : State) :
    eachDo (fun (l : Nat × List Block) s => countBlocks (base l.1) l.2 s) (lanes.zip (oneFrame w f)) s = s := by
  refine eachDo_fixed fun x hx => countBlocks_carried (fun b hb => ?_) s
  obtain ⟨i, -, hi⟩ := List.mem_map.mp (List.of_mem_zip (a := x.1) (b := x.2) hx).2
  exact carried_frameBlocks hf (mem_laneBlocks (hi ▸ hb))

section Counting

variable {base k : Nat} {l : List Block} {s : State}

theorem onlyRegs_countBlocks (base : Nat) (l : List Block) (s : State) : OnlyRegs s (countBlocks base l s) := by
  have hup (k n : Nat) (x : State) (hx : OnlyRegs s x) : OnlyRegs s (if n = 0 then x else inc k n x) := by
    split
    · exact hx
    · exact onlyRegs_wr _ _ hx
  unfold countBlocks
  split
  · exact onlyRegs_refl
  · exact hup _ _ _ (hup _ _ _ onlyRegs_refl)

/-- A count of `n` more, none written where it is 0. -/
theorem rd_count (k j n : Nat) (s : State) : rd j (if n = 0 then s else inc k n s) = if j = k then rd k s + wd n else rd j s := by
  split
  · next h =>
    subst h
    split
    · next h' => simp [h', wd]
    · rfl
  · rw [rd_inc]

/-- The counts of a lane after a stretch of its blocks (R67, R89). -/
theorem rd_countBlocks (base j : Nat) (l : List Block) (s : State) :
    rd j (countBlocks base l s) =
      if rdB (base + 4) clLOCK s = true ∧ j = base + 0x18 then rd j s + wd (l.filter fun b => decide (blockKind b = .invalid)).length
      else if rdB (base + 4) clLOCK s = true ∧ j = base + 0x10 then rd j s + wd (l.filter blockBadHdr).length else rd j s := by
  unfold countBlocks
  cases hlock : rdB (base + 4) clLOCK s with
  | false => simp
  | true =>
    simp only [Bool.not_true, Bool.false_eq_true, if_false, true_and, rd_count]
    by_cases h : j = base + 0x18
    · subst h
      simp
    · by_cases h' : j = base + 0x10 <;> simp [h, h']

theorem rd_countBlocks_ne (h : k ≠ base + 0x18) (h' : k ≠ base + 0x10) : rd k (countBlocks base l s) = rd k s := by
  rw [rd_countBlocks, if_neg fun hk => h hk.2, if_neg fun hk => h' hk.2]

end Counting

/-- A receiver that begins a frame with its start block, collects its data and ends it with its terminate block receives the frame, its first word
as many rounds ago as its stretch has after the first (R66, R70). -/
theorem eachDo_rebuild_oneFrame {σ : Type} {w : Nat} (hw : 1 ≤ w) {f : List Byte} (hf : 7 ≤ f.length) {step : Block × Nat → σ → σ}
    {hold done : RxFrame → σ} {s : σ} {fresh : List Byte → Nat → RxFrame}
    (hstart : ∀ b l, blockKind b.1 = .start l → step b s = hold (fresh l b.2))
    (hdata : ∀ b l g, blockKind b.1 = .data l → step b (hold g) = hold { g with bytes := g.bytes ++ l })
    (hterm : ∀ b l g, blockKind b.1 = .term l → step b (hold g) = done { g with bytes := g.bytes ++ l }) :
    eachDo step (rebuild w (oneFrame w f)) s =
      done { fresh (f.take 7) (((frameBlocks f).length + w - 1) / w - 1) with bytes := (fresh (f.take 7) (((frameBlocks f).length + w - 1) / w - 1)).bytes ++ f.drop 7 } := by
  obtain ⟨rest, hrest, hmap⟩ := rebuild_stripe hw (b := mkBlock 2 (0x78 :: f.take 7)) (bs := tailBlocks (f.length / 8 + 1) (f.drop 7))
    fun x hx => carried_frameBlocks hf hx
  have hkind := blockKind_start (l := f.take 7) (by rw [List.length_take]; omega)
  rw [show rebuild w (oneFrame w f) = _ from hrest, eachDo_cons, hstart _ _ hkind]
  exact eachDo_tailBlocks hdata hterm _ _ rest _ (by rw [List.length_drop]; omega) hmap

end Sys2Proof.Proofs
end

section
/-! Span links (04_chanak_lanes.md, R70, R90 to R93; 19_determinism_and_multi_module.md, R440, R445): what a frame does at a link, what the link's
timers send. -/

namespace Sys2Proof.Proofs

open Sys2Proof Sys2Proof.Machine Sys2Proof.Laws

/-! ### The record of a link -/

section Record

variable {m l : Nat} {s t : State}

theorem sp_updSp_same (m : Nat) (f : SpLink → SpLink) (s : State) : sp m (updSp m f s) = f (sp m s) := Fam.get_set_self _ _ _ _

theorem sp_updSp_ne (f : SpLink → SpLink) (s : State) (h : l ≠ m) : sp l (updSp m f s) = sp l s := Fam.get_set_ne _ _ h _

theorem sp_congr (h : t.spans = s.spans) (l : Nat) : sp l t = sp l s := by rw [sp, sp, h]

theorem updSp_updSp (m : Nat) (f g : SpLink → SpLink) (s : State) : updSp m f (updSp m g s) = updSp m (fun x => f (g x)) s := by
  have h : (updSp m f (updSp m g s)).spans = (updSp m (fun x => f (g x)) s).spans := by
    show Fam.set m (f (sp m (updSp m g s))) (Fam.set m _ s.spans) = _
    rw [sp_updSp_same, set_set]
    rfl
  exact congrArg (fun x => { s with spans := x }) h

/-- Whether a link is up, as SYS_SPAN shows it (R445). -/
theorem rdB_showSpan (h : m < 4) (s : State) : rdB kSYS_STAT (12 + m) (showSpan s) = linkIsUp m s := by
  have hbits : ∀ (a b c d : Bool) (m : Fin 4), (0 + (if a then 2 ^ 0 else 0) + (if b then 2 ^ 1 else 0) + (if c then 2 ^ 2 else 0) +
      (if d then 2 ^ 3 else 0)).testBit m = [a, b, c, d].getD m false := by decide
  have hup : ((upTo 4).foldl (fun a m => a + (if linkIsUp m s then 2 ^ m else 0)) 0).testBit m = linkIsUp m s :=
    (hbits (linkIsUp 0 s) (linkIsUp 1 s) (linkIsUp 2 s) (linkIsUp 3 s) ⟨m, h⟩).trans (by interval_cases m <;> rfl)
  show bitOf (12 + m) (rd kSYS_STAT (wrB kSYS_STAT 16 _ (wrF kSYS_STAT 15 12 _ s))) = _
  rw [rd_wrB_same, bitOf_setBit_ne _ _ (by omega), rd_wrF_same, bitOf_setFld _ _ _ _ _ (by omega), if_pos (by omega), Nat.add_sub_cancel_left, hup]

end Record

/-! ### A frame arrives (R66, R70, R90) -/

/-- No frame is in progress at a link. -/
def linkFree (m : Nat) (s : State) : State := updSp m (fun x => { x with rx := none }) s

section Arrival

variable {m : Nat} {f : List Byte} {s : State}

theorem sp_linkFree (hrx : (sp m s).rx = none) (l : Nat) : sp l (linkFree m s) = sp l s := by
  by_cases h : l = m
  · subst h
    rw [linkFree, sp_updSp_same]
    exact congrArg (fun r => { sp l s with rx := r }) hrx.symm
  · exact sp_updSp_ne _ s h

/-- A frame in progress at a link. -/
def linkHolds (m : Nat) (s : State) (g : RxFrame) : State := updSp m (fun x => { x with rx := some g }) s

theorem spanBlock_start {b : Block} {l : List Byte} (hrx : (sp m s).rx = none) (hk : blockKind b = .start l) :
    spanBlock m b s = linkHolds m s { bytes := l } := by
  unfold spanBlock
  rw [hk, hrx]
  rfl

theorem spanBlock_data {b : Block} {l : List Byte} {g : RxFrame} (hk : blockKind b = .data l) :
    spanBlock m b (linkHolds m s g) = linkHolds m s { g with bytes := g.bytes ++ l } := by
  have hrx : (sp m (linkHolds m s g)).rx = some g := by rw [linkHolds, sp_updSp_same]
  unfold spanBlock
  rw [hk, hrx]
  exact updSp_updSp m _ _ s

theorem spanBlock_term {b : Block} {l : List Byte} {g : RxFrame} (hk : blockKind b = .term l) :
    spanBlock m b (linkHolds m s g) = spanRx m { g with bytes := g.bytes ++ l } (linkFree m s) := by
  have hrx : (sp m (linkHolds m s g)).rx = some g := by rw [linkHolds, sp_updSp_same]
  unfold spanBlock
  rw [hk, hrx]
  exact congrArg (spanRx m _) (updSp_updSp m _ _ s)

/-- The blocks of one frame at a used, aligned link with none in progress are that frame (R90). -/
theorem spanStretch_oneFrame (hf : 7 ≤ f.length) (hrx : (sp m s).rx = none) (hu : linkUsed m s = true) (ha : spAligned m s = true) :
    spanStretch m (oneFrame 4 f) s = spanRx m { bytes := f } (linkFree m s) := by
  have hblocks := eachDo_rebuild_oneFrame (w := 4) (by decide) hf (s := s) (step := fun b s => spanBlock m b.1 s) (hold := linkHolds m s)
    (done := fun g => spanRx m g (linkFree m s)) (fresh := fun l _ => { bytes := l })
    (fun _ _ hk => spanBlock_start hrx hk) (fun _ _ _ hk => spanBlock_data hk) (fun _ _ _ hk => spanBlock_term hk)
  rw [List.take_append_drop] at hblocks
  unfold spanStretch
  rw [if_neg (by simp [hu]), countBlocks_oneFrame hf 4 spLane]
  exact (if_neg (by simp [ha])).trans hblocks

/-- On a link out of alignment blocks only count (R90). -/
theorem spanStretch_unaligned (x : Stretch) (ha : spAligned m s = false) : OnlyRegs s (spanStretch m x s) := by
  set counted := eachDo (fun (l : Nat × List Block) s => countBlocks (spLane l.1) l.2 s) ((spLanes m).zip x) s
  have hcount : OnlyRegs s counted ∧ rd (spLane (4 * m) + 4) counted = rd (spLane (4 * m) + 4) s :=
    eachDo_keeps (P := fun y => OnlyRegs s y ∧ rd (spLane (4 * m) + 4) y = rd (spLane (4 * m) + 4) s) (fun l _ y hy =>
      ⟨by rw [onlyRegs_countBlocks (spLane l.1) l.2 y, hy.1]; rfl,
        (rd_countBlocks_ne (by unfold spLane spanLaneBase; omega) (by unfold spLane spanLaneBase; omega)).trans hy.2⟩) ⟨rfl, rfl⟩
  have ha' : spAligned m counted = false := (congrArg (bitOf clALIGNED) hcount.2).trans ha
  unfold spanStretch
  split
  · exact onlyRegs_refl
  · rw [show (if !spAligned m counted then counted else _) = counted from if_pos (by simp [ha'])]
    exact hcount.1

end Arrival

/-! ### A frame at a link (R91 to R93) -/

/-- A frame's form and CRC are right, and no lane of the link is in HI_BER. -/
structure SoundAt (m : Nat) (f : List Byte) (s : State) : Prop where
  length : f.length = 20 + leAt f 6 2
  atMost : leAt f 6 2 ≤ 4096
  multiple : leAt f 6 2 % 8 = 0
  crc : leAt f (f.length - 4) 4 = (crc32 (f.take (f.length - 4))).toNat
  lowBer : ∀ n ∈ spLanes m, rdB (spanLaneBase n + 4) clHIBER s = false

section Frame

variable {m : Nat} {f : List Byte} {s : State}

theorem soundAt_iff : SoundAt m f s ↔
    ¬ (decide (f.length ≠ 20 + leAt f 6 2) || decide (4096 < leAt f 6 2) || decide (leAt f 6 2 % 8 ≠ 0) ||
      decide (leAt f (f.length - 4) 4 ≠ (crc32 (f.take (f.length - 4))).toNat) ||
      (spLanes m).any (fun n => rdB (spLane n + 4) clHIBER s)) = true := by
  simp only [Bool.or_eq_true, decide_eq_true_eq, List.any_eq_true, not_or, not_exists, not_and, Decidable.not_not, not_lt, Bool.not_eq_true]
  exact ⟨fun ⟨h1, h2, h3, h4, h5⟩ => ⟨⟨⟨⟨h1, h2⟩, h3⟩, h4⟩, h5⟩, fun ⟨⟨⟨⟨h1, h2⟩, h3⟩, h4⟩, h5⟩ => ⟨h1, h2, h3, h4, h5⟩⟩

theorem spanRx_unsound (h : ¬ SoundAt m f s) : spanRx m { bytes := f } s = inc (linkBase m + 0x110) 1 s :=
  if_pos (by simpa only [Bool.false_or] using Decidable.not_not.mp (mt soundAt_iff.mpr h))

/-- A sound frame by its type: HELLO, ACK, DATA, and what only counts (R92). -/
theorem spanRx_sound (h : SoundAt m f s) : spanRx m { bytes := f } s =
    if leAt f 0 1 = 0x43 then (if leAt f 6 2 = 32 then helloSpan m f s else inc (linkBase m + 0x110) 1 s)
    else if !linkIsUp m s then inc (linkBase m + 0x114) 1 s
    else if leAt f 0 1 = 0x42 then takeAck m f s
    else if leAt f 0 1 = 0x41 ∧ leAt f 1 1 % 4 ≠ 3 ∧ BitVec.ofNat 16 (leAt f 2 2) = (sp m s).nextRx then deliverSpan m f (takeAck m f s)
    else inc (linkBase m + 0x114) 1 s :=
  if_neg (by simpa only [Bool.false_or] using soundAt_iff.mp h)

/-- A frame that a link only counts in register `o` of its block. -/
def LinkCounts (m o : Nat) (s t : State) : Prop :=
  t = { s with regs := t.regs, spans := t.spans } ∧ (∀ l, sp l t = sp l s) ∧ rd (linkBase m + o) t = rd (linkBase m + o) s + 1 ∧
    RegsSameBut (fun k => k == linkBase m + o) s t

theorem linkCounts_inc (o : Nat) (hrx : (sp m s).rx = none) : LinkCounts m o s (inc (linkBase m + o) 1 (linkFree m s)) :=
  ⟨rfl, sp_linkFree hrx, rd_inc_same _ _ _, regsSameBut_wr _ _ (linkFree m s)⟩

/-! ### Acknowledgement and data (R92) -/

/-- A link's record once the frames up to ACK are retired and their credits are back. -/
def acked (f : List Byte) (x : SpLink) : SpLink := { x with
  unacked := x.unacked.filter fun g => !decide (0 ≤ (BitVec.ofNat 16 (leAt f 4 2) - g.seq).toInt)
  expiries := if 0 < (x.unacked.filter fun g => decide (0 ≤ (BitVec.ofNat 16 (leAt f 4 2) - g.seq).toInt)).length then 0 else x.expiries
  credits := (upTo 3).foldl (fun c i => bump c i (leAt f (10 + i) 1)) x.credits }

theorem pumpLink_of_none_waiting (h : (sp m s).waiting = []) (k : Nat) : pumpLink m k s = s := by
  cases k with
  | zero => rfl
  | succ k =>
    unfold pumpLink
    simp only [h, List.find?_nil, ite_self]

theorem takeAck_of_none_waiting (h : (sp m s).waiting = []) : takeAck m f s = updSp m (acked f) s :=
  pumpLink_of_none_waiting (s := updSp m (acked f) s) (by rw [sp_updSp_same]; exact h) 64

theorem acked_unacked (f : List Byte) (x : SpLink) :
    (acked f x).unacked = x.unacked.filter fun g => decide ((BitVec.ofNat 16 (leAt f 4 2) - g.seq).toInt < 0) :=
  List.filter_congr fun g _ => by
    rw [← decide_not]
    exact decide_eq_decide.mpr Int.not_le

theorem acked_credits (f : List Byte) (x : SpLink) (h : x.credits.length = 3) :
    (acked f x).credits = (upTo 3).map fun i => x.credits.getD i 0 + leAt f (10 + i) 1 := by
  obtain ⟨a, b, c, habc⟩ := List.length_eq_three.mp h
  rw [acked, habc]
  rfl

/-- A DATA frame of channel 1 for this module, in order: SEQ goes on, an acknowledgement is due, its buffer is free again (R92). -/
theorem deliverSpan_own (hvc : leAt f 1 1 % 4 = 1) (hdst : leAt f 9 1 % 16 = spSelf s) :
    deliverSpan m f s = updSp m (fun x => { x with nextRx := x.nextRx + 1, ackDue := true, freed := bump x.freed 1 1 }) s := by
  unfold deliverSpan
  simp only [hvc]
  exact (if_neg (not_not.mpr hdst)).trans ((if_neg (by decide)).trans (if_neg (by decide)))

/-! ### HELLO (R73, R92, R440) -/

/-- What a HELLO on a link that is coming up must show of the torus and the image. -/
def HelloFits (f : List Byte) (s : State) : Prop :=
  leAt (f.drop 16) 10 1 = spDX s ∧ leAt (f.drop 16) 11 1 = spDY s ∧ leAt (f.drop 16) 24 8 = spCfg 8 8 s

theorem helloSpan_mismatch (hdown : linkIsUp m s = false) (h : ¬ HelloFits f s) :
    helloSpan m f s = raiseFault 0x5006 (64 + m) 0xFF 0 [0] (updSp m (fun x => { x with seen := false }) s) := by
  unfold helloSpan
  rw [if_neg (by simp [hdown])]
  exact if_pos (by
    unfold HelloFits at h
    tauto)

/-- The record of a link that has come up in a session whose peer starts at `peer`. -/
def session (peer : BitVec 16) (x : SpLink) : SpLink :=
  { seen := true, rx := x.rx, nextTx := x.initSeq, nextRx := peer, initSeq := x.initSeq + 0x1000, credits := [32, 32, 32] }

/-- A session begins on link `m` with the module `dst`. -/
def linkBegun (m dst : Nat) (peer : BitVec 16) (s : State) : State :=
  showSpan (wrF (linkBase m + 0x100) 5 2 dst (wrB (linkBase m + 0x100) 0 true (updSp m (session peer) s)))

theorem linkBegun_eq (m dst : Nat) (peer : BitVec 16) (s : State) :
    linkBegun m dst peer s = { s with regs := (linkBegun m dst peer s).regs, spans := (updSp m (session peer) s).spans } := rfl

theorem linkIsUp_linkBegun (m dst : Nat) (peer : BitVec 16) (s : State) : linkIsUp m (linkBegun m dst peer s) = true := by
  rw [linkBegun, linkIsUp_showSpan, linkIsUp, rdB_wrF_wrB (by decide) (by decide), if_pos ⟨rfl, rfl⟩]

theorem rdB_linkBegun (hm : m < 4) (dst : Nat) (peer : BitVec 16) (s : State) : rdB kSYS_STAT (12 + m) (linkBegun m dst peer s) = true := by
  rw [linkBegun, rdB_showSpan hm, ← linkIsUp_showSpan]
  exact linkIsUp_linkBegun m dst peer s

/-- A second matching HELLO with SEEN is answered, and the link comes up (R92). -/
theorem helloSpan_up (hdown : linkIsUp m s = false) (h : HelloFits f s) (hsrc : leAt f 8 1 = neighbour m s) (hproto : leAt (f.drop 16) 0 1 = 1)
    (hrole : leAt (f.drop 16) 1 1 = 2) (hflag : (leAt f 1 1).testBit 0 = true) (hseen : (sp m s).seen = true) :
    helloSpan m f s =
      linkBegun m (leAt f 8 1) (BitVec.ofNat 16 (leAt (f.drop 16) 4 2)) (sendHello m (updSp m (fun x => { x with seen := true }) s)) := by
  obtain ⟨hdx, hdy, hsum⟩ := h
  unfold helloSpan
  simp only [hdown, hdx, hdy, hsum, hsrc, hproto, hrole, hflag, hseen, Bool.false_eq_true, if_false, ne_eq, not_true_eq_false, or_self, Bool.and_self,
    Bool.not_true]
  rfl

end Frame

/-! ### The link's timers (R92) -/

section Timers

variable {m : Nat} {s : State}

/-- What a link sends. -/
def linkSends (m : Nat) (bs : List Byte) : Out := .span m (oneFrame 4 bs)
/-- A DATA frame as a link sends it whose last frame in order was `ack`. -/
def dataBytes (ack : Nat) (f : SpFrame) : List Byte := spanBytesOut 0x41 f.vc f.seq.toNat ack f.src f.dst f.credit f.payload

/-- Frames sent again: each leaves in its order and is counted, and the link's record changes in nothing but that no acknowledgement is due. -/
theorem resend_effect (m : Nat) : ∀ (fs : List SpFrame) (s : State),
    let t := eachDo (fun f s => inc (linkBase m + 0x10C) 1 (sendData m f s)) fs s
    t = { s with regs := t.regs, spans := t.spans, out := t.out } ∧ sp m t = { sp m s with ackDue := (sp m t).ackDue } ∧
      rd (linkBase m + 0x10C) t = rd (linkBase m + 0x10C) s + wd fs.length ∧
      t.out = (fs.map fun f => linkSends m (dataBytes (lastRx m s) f)).reverse ++ s.out
  | [], s => ⟨rfl, rfl, by simp [eachDo, wd], rfl⟩
  | f :: fs, s => by
    set sent := inc (linkBase m + 0x10C) 1 (sendData m f s) with hsent
    have hsp : sp m sent = { sp m s with ackDue := false } :=
      sp_updSp_same m (fun x => { x with ackDue := false }) (emit (linkSends m (dataBytes (lastRx m s) f)) s)
    have hlast : lastRx m sent = lastRx m s := by rw [lastRx, hsp, lastRx]
    obtain ⟨hframe, hrec, hcount, hout⟩ := resend_effect m fs sent
    rw [eachDo_cons, ← hsent]
    refine ⟨by rw [hframe]; rfl, by rw [hrec, hsp], ?_, ?_⟩
    · rw [hcount, hsent, rd_inc_same, List.length_cons]
      show rd (linkBase m + 0x10C) s + wd 1 + wd fs.length = _
      rw [BitVec.add_assoc, ← BitVec.ofNat_add, Nat.add_comm 1]
    · rw [hout, hlast, List.map_cons, List.reverse_cons, List.append_assoc]
      rfl

theorem rtoBody_resends (hup : linkIsUp m s = true) (hun : (sp m s).unacked ≠ []) (hlim : (sp m s).expiries + 1 < rdF (linkBase m + 0x108) 7 0 s) :
    rtoBody m s = eachDo (fun f s => inc (linkBase m + 0x10C) 1 (sendData m f s)) (sp m s).unacked
      (updSp m (fun x => { x with expiries := x.expiries + 1 }) s) := by
  unfold rtoBody
  rw [if_neg (by simp [hup, hun]), if_neg (by omega)]
  show eachDo _ (sp m (updSp m (fun x => { x with expiries := x.expiries + 1 }) s)).unacked _ = _
  rw [sp_updSp_same]

theorem rtoBody_gives_up (hup : linkIsUp m s = true) (hun : (sp m s).unacked ≠ []) (hlim : rdF (linkBase m + 0x108) 7 0 s ≤ (sp m s).expiries + 1) :
    rtoBody m s = raiseFault 0x5005 m 0xFF 0 [0] (spanDown m s) := by
  unfold rtoBody
  rw [if_neg (by simp [hup, hun]), if_pos hlim]

/-- The record of a link that went down. -/
def downRecord (x : SpLink) : SpLink := { ({} : SpLink) with initSeq := x.initSeq, rx := x.rx }

theorem sp_spanDown_same (m : Nat) (s : State) : sp m (spanDown m s) = downRecord (sp m s) := sp_updSp_same m downRecord s

theorem sp_spanDown_ne {l : Nat} (h : l ≠ m) : sp l (spanDown m s) = sp l s := sp_updSp_ne downRecord s h

end Timers

/-! ### Links together -/

section Clauses

variable {m : Nat} {f : List Byte} {s : State}

theorem exec_spanFrame {m : Fin 4} {y : Stretch} {c : Instr} (hc : c ∈ [Instr.spanData m y, .spanAck m y, .spanHello m y, .gopFrame m y]) (s : State) :
    exec c s = .next (spanStretch m.val y s) := by
  simp only [List.mem_cons, List.not_mem_nil, or_false] at hc
  rcases hc with rfl | rfl | rfl | rfl <;> rfl

theorem soundAt_linkFree : SoundAt m f (linkFree m s) ↔ SoundAt m f s := ⟨fun ⟨a, b, c, d, e⟩ => ⟨a, b, c, d, e⟩, fun ⟨a, b, c, d, e⟩ => ⟨a, b, c, d, e⟩⟩

/-- An ACK on a link that is up retires what it covers and gives the credits back (R92). -/
theorem ackFrame_effect (hrx : (sp m s).rx = none) (hs : SoundAt m f s) (hup : linkIsUp m s = true) (htyp : leAt f 0 1 = 0x42)
    (hw : (sp m s).waiting = []) :
    let t := spanRx m { bytes := f } (linkFree m s)
    t = { s with spans := t.spans } ∧ (∀ l, l ≠ m → sp l t = sp l s) ∧
      (sp m t).unacked = (sp m s).unacked.filter (fun g => decide ((BitVec.ofNat 16 (leAt f 4 2) - g.seq).toInt < 0)) ∧
      (sp m t).nextRx = (sp m s).nextRx ∧
      ((sp m s).credits.length = 3 → (sp m t).credits = (upTo 3).map fun i => (sp m s).credits.getD i 0 + leAt f (10 + i) 1) := by
  intro t
  have hfree := sp_linkFree hrx
  have hup' : linkIsUp m (linkFree m s) = true := hup
  have ht : t = updSp m (acked f) (linkFree m s) := by
    show spanRx m _ _ = _
    rw [spanRx_sound (soundAt_linkFree.mpr hs), if_neg (by rw [htyp]; decide), if_neg (by simp [hup']), if_pos htyp]
    exact takeAck_of_none_waiting (by rw [hfree, hw])
  have hsp : sp m t = acked f (sp m s) := by rw [ht, sp_updSp_same, hfree]
  rw [hsp, ht]
  exact ⟨rfl, fun l hl => (sp_updSp_ne _ _ hl).trans (hfree l), acked_unacked f _, rfl, acked_credits f _⟩

/-- A DATA frame of channel 1 in order on a link that is up (R92). -/
theorem dataFrame_effect (hrx : (sp m s).rx = none) (hs : SoundAt m f s) (hup : linkIsUp m s = true) (htyp : leAt f 0 1 = 0x41)
    (hvc : leAt f 1 1 % 4 = 1) (hseq : BitVec.ofNat 16 (leAt f 2 2) = (sp m s).nextRx) (hw : (sp m s).waiting = [])
    (hdst : leAt f 9 1 % 16 = spSelf s) :
    let t := spanRx m { bytes := f } (linkFree m s)
    t = { s with spans := t.spans } ∧ (∀ l, l ≠ m → sp l t = sp l s) ∧ (sp m t).nextRx = (sp m s).nextRx + 1 ∧ (sp m t).ackDue = true ∧
      ((sp m s).freed.length = 3 → (sp m t).freed.getD 1 0 = (sp m s).freed.getD 1 0 + 1) := by
  intro t
  have hfree := sp_linkFree hrx
  have hup' : linkIsUp m (linkFree m s) = true := hup
  set taken := updSp m (acked f) (linkFree m s)
  have htake : takeAck m f (linkFree m s) = taken := takeAck_of_none_waiting (by rw [hfree, hw])
  have ht : t = updSp m (fun x => { x with nextRx := x.nextRx + 1, ackDue := true, freed := bump x.freed 1 1 }) taken := by
    show spanRx m _ _ = _
    rw [spanRx_sound (soundAt_linkFree.mpr hs), if_neg (by rw [htyp]; decide), if_neg (by simp [hup']),
      if_neg (by rw [htyp]; decide), if_pos ⟨htyp, by rw [hvc]; decide, by rw [hseq, hfree]⟩, htake]
    exact deliverSpan_own hvc hdst
  have htaken : sp m taken = acked f (sp m s) := by rw [sp_updSp_same, hfree]
  have hsp : sp m t = { acked f (sp m s) with nextRx := (sp m s).nextRx + 1, ackDue := true, freed := bump (sp m s).freed 1 1 } := by
    rw [ht, sp_updSp_same, htaken]
    rfl
  rw [hsp, ht]
  refine ⟨rfl, fun l hl => (sp_updSp_ne _ _ hl).trans ((sp_updSp_ne _ _ hl).trans (hfree l)), rfl, rfl, fun h => ?_⟩
  obtain ⟨a, b, c, habc⟩ := List.length_eq_three.mp h
  rw [habc]
  rfl

/-- A sound frame that a link only counts as dropped: before the link is up one that is no HELLO, later DATA out of order (R92). -/
theorem droppedFrame_effect (hrx : (sp m s).rx = none) (hs : SoundAt m f s)
    (h : linkIsUp m s = false ∧ leAt f 0 1 ≠ 0x43 ∨ linkIsUp m s = true ∧ leAt f 0 1 = 0x41 ∧ BitVec.ofNat 16 (leAt f 2 2) ≠ (sp m s).nextRx) :
    LinkCounts m 0x114 s (spanRx m { bytes := f } (linkFree m s)) := by
  rw [spanRx_sound (soundAt_linkFree.mpr hs)]
  rcases h with ⟨hdown, htyp⟩ | ⟨hup, htyp, hseq⟩
  · have hdown' : linkIsUp m (linkFree m s) = false := hdown
    rw [if_neg htyp, if_pos (by simp [hdown'])]
    exact linkCounts_inc 0x114 hrx
  · have hup' : linkIsUp m (linkFree m s) = true := hup
    rw [if_neg (by rw [htyp]; decide), if_neg (by simp [hup']), if_neg (by rw [htyp]; decide),
      if_neg fun h => hseq (h.2.2.trans (by rw [sp_linkFree hrx]))]
    exact linkCounts_inc 0x114 hrx

theorem spanRx_hello (hs : SoundAt m f s) (htyp : leAt f 0 1 = 0x43) (hlen : leAt f 6 2 = 32) : spanRx m { bytes := f } s = helloSpan m f s := by
  rw [spanRx_sound hs, if_pos htyp, if_pos hlen]

/-- The matching HELLO that brings a link up (R92, R445). -/
theorem helloUp_effect (hm : m < 4) (hrx : (sp m s).rx = none) (hdown : linkIsUp m s = false) (h : HelloFits f s) (hsrc : leAt f 8 1 = neighbour m s)
    (hproto : leAt (f.drop 16) 0 1 = 1) (hrole : leAt (f.drop 16) 1 1 = 2) (hflag : (leAt f 1 1).testBit 0 = true) (hseen : (sp m s).seen = true) :
    let t := helloSpan m f (linkFree m s)
    t = { s with regs := t.regs, spans := t.spans, out := t.out } ∧ linkIsUp m t = true ∧ (sp m t).nextTx = (sp m s).initSeq ∧
      (sp m t).nextRx = BitVec.ofNat 16 (leAt (f.drop 16) 4 2) ∧ (sp m t).credits = [32, 32, 32] ∧ (sp m t).unacked = [] ∧
      (∀ l, l ≠ m → sp l t = sp l s) ∧ rdB kSYS_STAT (12 + m) t = true := by
  intro t
  have hfree := sp_linkFree hrx
  set seen := sendHello m (updSp m (fun x => { x with seen := true }) (linkFree m s))
  set peer := BitVec.ofNat 16 (leAt (f.drop 16) 4 2)
  have ht : t = linkBegun m (leAt f 8 1) peer seen := helloSpan_up (s := linkFree m s) hdown h hsrc hproto hrole hflag (by rw [hfree, hseen])
  have hspans : t.spans = (updSp m (session peer) seen).spans := by rw [ht, linkBegun_eq]
  have hseenRec : sp m seen = { sp m s with seen := true } := (sp_updSp_same m (fun x => { x with seen := true }) (linkFree m s)).trans (by rw [hfree])
  have hsp : sp m t = session peer { sp m s with seen := true } := by rw [sp_congr hspans, sp_updSp_same, hseenRec]
  refine ⟨?_, ht ▸ linkIsUp_linkBegun m _ peer seen, by rw [hsp]; rfl, by rw [hsp]; rfl, by rw [hsp]; rfl, by rw [hsp]; rfl, fun l hl => ?_,
    ht ▸ rdB_linkBegun hm _ peer seen⟩
  · rw [ht, linkBegun_eq]
    rfl
  · have hsent : sp l seen = sp l (linkFree m s) := sp_updSp_ne (fun x => { x with seen := true }) (linkFree m s) hl
    rw [sp_congr hspans, sp_updSp_ne _ _ hl, hsent, hfree]

/-- A HELLO of another configuration raises HELLO_MISMATCH, and the link waits for a first HELLO again (R92, R440). -/
theorem helloMismatch_effect (hm : m < 4) (hdown : linkIsUp m s = false) (h : ¬ HelloFits f s) :
    let t := helloSpan m f (linkFree m s)
    FaultActive 0x5006 (64 + m) 0xFF t ∧ (sp m t).seen = false ∧ linkIsUp m t = false ∧ MemorySame s t := by
  intro t
  set unseen := updSp m (fun x => { x with seen := false }) (linkFree m s)
  have ht : t = raiseFault 0x5006 (64 + m) 0xFF 0 [0] unseen := helloSpan_mismatch (s := linkFree m s) hdown h
  have hr : Reported unseen (raiseFault 0x5006 (64 + m) 0xFF 0 [0] unseen) := reported_raiseFault _ _ _ _ _
  rw [ht]
  refine ⟨faultActive_raiseFault (by decide), ?_, ?_, ?_⟩
  · have hspans : (raiseFault 0x5006 (64 + m) 0xFF 0 [0] unseen).spans = unseen.spans := by rw [hr.rest]
    rw [sp_congr hspans, sp_updSp_same]
  · rw [linkIsUp, rdB, hr.lane (by unfold linkBase spanLaneBase; omega) (by unfold linkBase spanLaneBase; omega)]
    exact hdown
  · have hsame := hr.memorySame
    exact ⟨hsame.1, hsame.2⟩

/-- One acknowledgement goes out if one is due (R92). -/
theorem ackTimer_effect (hup : linkIsUp m s = true) (hdue : (sp m s).ackDue = true) :
    let t := ackTimer m s
    t = { s with spans := t.spans, out := linkSends m (spanBytesOut 0x42 0 0 (lastRx m s) (spSelf s) (neighbour m s) (sp m s).freed []) :: s.out } ∧
      sp m t = { sp m s with freed := [0, 0, 0], ackDue := false } ∧ ∀ l, l ≠ m → sp l t = sp l s := by
  intro t
  set bs := spanBytesOut 0x42 0 0 (lastRx m s) (spSelf s) (neighbour m s) (sp m s).freed []
  set emptied := emit (linkSends m bs) (updSp m (fun x => { x with freed := [0, 0, 0] }) s)
  have ht : t = updSp m (fun x => { x with ackDue := false }) emptied := by
    show ackTimer m s = _
    unfold ackTimer
    rw [if_neg (by simp [hup, hdue])]
    rfl
  have hrec : sp m emptied = { sp m s with freed := [0, 0, 0] } := sp_updSp_same m (fun x => { x with freed := [0, 0, 0] }) s
  rw [ht]
  refine ⟨rfl, ?_, fun l hl => (sp_updSp_ne _ emptied hl).trans (sp_updSp_ne (fun x => { x with freed := [0, 0, 0] }) s hl)⟩
  rw [sp_updSp_same, hrec]

/-- SPAN_RTO below the limit: every unacknowledged frame goes again (R92). -/
theorem rtoResend_effect (hup : linkIsUp m s = true) (hun : (sp m s).unacked ≠ []) (hlim : (sp m s).expiries + 1 < rdF (linkBase m + 0x108) 7 0 s) :
    let t := rtoBody m s
    t = { s with regs := t.regs, spans := t.spans, out := t.out } ∧ (sp m t).expiries = (sp m s).expiries + 1 ∧
      (sp m t).unacked = (sp m s).unacked ∧ rd (linkBase m + 0x10C) t = rd (linkBase m + 0x10C) s + wd (sp m s).unacked.length ∧
      t.out = ((sp m s).unacked.map fun f => linkSends m (dataBytes (lastRx m s) f)).reverse ++ s.out := by
  intro t
  set late := updSp m (fun x => { x with expiries := x.expiries + 1 }) s
  have hrec : sp m late = { sp m s with expiries := (sp m s).expiries + 1 } := sp_updSp_same m (fun x => { x with expiries := x.expiries + 1 }) s
  have hlast : lastRx m late = lastRx m s := by rw [lastRx, hrec, lastRx]
  obtain ⟨hframe, hsp, hcount, hout⟩ := resend_effect m (sp m s).unacked late
  rw [show t = _ from rtoBody_resends hup hun hlim]
  refine ⟨by rw [hframe]; rfl, by rw [hsp, hrec], by rw [hsp, hrec], hcount, ?_⟩
  rw [hout, hlast]
  rfl

/-- SPAN_RTO at the limit: the link goes down with SPAN_LINK_LOST (R92, R457). -/
theorem rtoDown_effect (hm : m < 4) (hup : linkIsUp m s = true) (hun : (sp m s).unacked ≠ [])
    (hlim : rdF (linkBase m + 0x108) 7 0 s ≤ (sp m s).expiries + 1) :
    let t := rtoBody m s
    linkIsUp m t = false ∧ sp m t = { ({} : SpLink) with initSeq := (sp m s).initSeq, rx := (sp m s).rx } ∧ (∀ l, l ≠ m → sp l t = sp l s) ∧
      FaultActive 0x5005 m 0xFF t ∧ MemorySame s t ∧ rdB kSYS_STAT (12 + m) t = false := by
  intro t
  have hr : Reported (spanDown m s) (raiseFault 0x5005 m 0xFF 0 [0] (spanDown m s)) := reported_raiseFault _ _ _ _ _
  have hspans : (raiseFault 0x5005 m 0xFF 0 [0] (spanDown m s)).spans = (spanDown m s).spans := by rw [hr.rest]
  rw [show t = _ from rtoBody_gives_up hup hun hlim]
  refine ⟨?_, (sp_congr hspans m).trans (sp_spanDown_same m s), fun l hl => (sp_congr hspans l).trans (sp_spanDown_ne hl),
    faultActive_raiseFault (by decide), ⟨hr.memorySame.1, hr.memorySame.2⟩, ?_⟩
  · rw [linkIsUp, rdB, hr.lane (by unfold linkBase spanLaneBase; omega) (by unfold linkBase spanLaneBase; omega)]
    exact linkIsUp_spanDown m s
  · rw [rdB, hr.registers kSYS_STAT (by decide)]
    refine (rdB_showSpan hm (linkCleared m s)).trans ?_
    rw [linkIsUp_linkCleared, if_pos rfl]

end Clauses

/-- Settles O39: the blocks of a frame are that frame at the link, which answers it by its type; the timers send or take the link down. -/
theorem spanLinksCarryFramesInOrder : Obligations.SpanLinksCarryFramesInOrder := by
  unfold Obligations.SpanLinksCarryFramesInOrder
  intro sound
  refine ⟨fun m x s c hc => ?_, ?_, ?_⟩
  · rw [exec_spanFrame hc]
    exact ⟨fun hu => congrArg Host.Outcome.next (if_pos (congrArg (!·) hu)), fun ha => ⟨_, rfl, spanStretch_unaligned x ha⟩⟩
  · intro m f s hf hrx y cmds same b x typ hu ha
    have hexec {c : Instr} (hc : c ∈ cmds) : exec c s = .next (spanRx m.val { bytes := f } (linkFree m.val s)) := by
      rw [exec_spanFrame hc, spanStretch_oneFrame hf hrx hu ha]
    have hsound (h : sound m f s) : SoundAt m.val f s := have ⟨h1, h2, h3, h4, h5⟩ := h; ⟨h1, h2, h3, h4, h5⟩
    refine ⟨fun hs c hc => ⟨_, hexec hc, ?_⟩, fun hs hdown htyp c hc => ⟨_, hexec hc, droppedFrame_effect hrx (hsound hs) (.inl ⟨hdown, htyp⟩)⟩,
      fun hs hup => ⟨fun htyp hw => ⟨_, hexec (by simp [cmds]), ackFrame_effect hrx (hsound hs) hup htyp hw⟩,
        fun htyp hvc hseq hw hdst => ⟨_, hexec (by simp [cmds]), dataFrame_effect hrx (hsound hs) hup htyp hvc hseq hw hdst⟩,
        fun htyp hseq c hc => ⟨_, hexec hc, droppedFrame_effect hrx (hsound hs) (.inr ⟨hup, htyp, hseq⟩)⟩⟩, ?_⟩
    · rw [spanRx_unsound (s := linkFree m.val s) fun h => hs (have h := soundAt_linkFree.mp h; ⟨h.length, h.atMost, h.multiple, h.crc, h.lowBer⟩)]
      exact linkCounts_inc 0x110 hrx
    · intro hs hdown htyp hlen pl fits
      have hhello := spanRx_hello (soundAt_linkFree.mpr (hsound hs)) htyp hlen
      refine ⟨fun hfits hsrc hproto hrole hflag hseen => ⟨_, hexec (by simp [cmds]), ?_⟩, fun hfits => ⟨_, hexec (by simp [cmds]), ?_⟩⟩
      · rw [hhello]
        exact helloUp_effect m.isLt hrx hdown hfits hsrc hproto hrole hflag hseen
      · rw [hhello]
        exact helloMismatch_effect m.isLt hdown hfits
  · intro m s x
    refine ⟨fun hu ha hdown => ⟨_, rfl, if_pos (by simp [hu, ha, hdown])⟩, fun h => congrArg Host.Outcome.next (if_neg ?_),
      fun hup hdue => ⟨_, rfl, ackTimer_effect hup hdue⟩, fun h => congrArg Host.Outcome.next (if_pos ?_), fun h => congrArg Host.Outcome.next (if_pos ?_),
      fun hup hun => ⟨fun hlim => ⟨_, rfl, rtoResend_effect hup hun hlim⟩, fun hlim => ⟨_, rfl, rtoDown_effect m.isLt hup hun hlim⟩⟩⟩
    · rcases h with h | h | h <;> simp [h]
    · rcases h with h | h
      · simp [h]
      · simp [show (sp m.val s).ackDue = false from h]
    · rcases h with h | h
      · simp [h]
      · simp [show (sp m.val s).unacked = [] from h]

end Sys2Proof.Proofs
end

section
/-! Lanes of a camera bond count (04_chanak_lanes.md, R67, R89): the blocks at a bond that is not aligned. -/

namespace Sys2Proof.Proofs

open Sys2Proof Sys2Proof.Machine Sys2Proof.Laws

theorem exec_camFrame {st : Fin 64} {x : Stretch} {c : Instr}
    (hc : c ∈ [Instr.lineSeg st x, .ctrlAck st x, .event st x, .hello st x, .unknownFrame st x]) (s : State) : exec c s = .next (rxStretch st.val x s) := by
  simp only [List.mem_cons, List.not_mem_nil, or_false] at hc
  rcases hc with rfl | rfl | rfl | rfl | rfl <;> rfl

section LaneCounts

variable {m n o : Nat}

/-- A lane's count goes to its own block of registers. -/
theorem rd_countBlocks_other (h : m ≠ n) (ho : o < 0x400) (bs : List Block) (s : State) :
    rd (laneBase m + o) (countBlocks (laneBase n) bs s) = rd (laneBase m + o) s :=
  rd_countBlocks_ne (by unfold laneBase; omega) (by unfold laneBase; omega)

theorem map_fst_zip_sublist {α β : Type} : ∀ (l : List α) (x : List β), ((l.zip x).map (·.1)).Sublist l
  | [], _ => .slnil
  | _ :: _, [] => List.nil_sublist _
  | a :: l, _ :: x => (map_fst_zip_sublist l x).cons_cons a

/-- Where every lane occurs once, each counts its own blocks. -/
theorem rd_countLanes (ho : o < 0x400) : ∀ {l : List (Nat × List Block)} {s : State} {x : Nat × List Block}, (l.map (·.1)).Nodup → x ∈ l →
    rd (laneBase x.1 + o) (eachDo (fun (l : Nat × List Block) s => countBlocks (laneBase l.1) l.2 s) l s) =
      rd (laneBase x.1 + o) (countBlocks (laneBase x.1) x.2 s)
  | [], _, _, _, hx => nomatch hx
  | y :: l, s, x, hnd, hx => by
    obtain ⟨hy, hnd⟩ := List.nodup_cons.mp hnd
    rw [eachDo_cons]
    rcases List.mem_cons.mp hx with rfl | hx
    · exact eachDo_keeps (P := fun z => rd (laneBase x.1 + o) z = rd (laneBase x.1 + o) (countBlocks (laneBase x.1) x.2 s)) (fun z hz u hu =>
        (rd_countBlocks_other (fun h => hy (List.mem_map.mpr ⟨z, hz, h.symm⟩)) ho _ _).trans hu) rfl
    · have hne : x.1 ≠ y.1 := fun h => hy (List.mem_map.mpr ⟨x, hx, h⟩)
      have hlock : rdB (laneBase x.1 + 4) clLOCK (countBlocks (laneBase y.1) y.2 s) = rdB (laneBase x.1 + 4) clLOCK s :=
        congrArg (bitOf clLOCK) (rd_countBlocks_other hne (by decide) _ _)
      rw [rd_countLanes ho hnd hx, rd_countBlocks, hlock, rd_countBlocks_other hne ho, ← rd_countBlocks]

theorem nodup_bondLanes (st : Nat) (s : State) : (bondLanes st s).Nodup :=
  List.nodup_range.map fun _ _ h => Nat.add_left_cancel h

end LaneCounts

section Unaligned

variable {st : Nat} {x : Stretch} {s : State}

/-- The lanes of a bond count a stretch of blocks. -/
def lanesCount (st : Nat) (x : Stretch) (s : State) : State :=
  eachDo (fun (l : Nat × List Block) s => countBlocks (laneBase l.1) l.2 s) ((bondLanes st s).zip x) s

theorem onlyRegs_lanesCount : OnlyRegs s (lanesCount st x s) :=
  eachDo_keeps (P := OnlyRegs s) (fun l _ y hy => by rw [OnlyRegs, onlyRegs_countBlocks (laneBase l.1) l.2 y, hy]) onlyRegs_refl

theorem portBit_lanesCount (b : Nat) : portBit st b (lanesCount st x s) = portBit st b s := by
  have himg : (lanesCount st x s).img = s.img := by rw [onlyRegs_lanesCount (st := st) (x := x) (s := s)]
  refine portBit_of_status himg ?_
  exact eachDo_keeps (P := fun y => rd (primBase st s + 4) y = rd (primBase st s + 4) s) (fun l _ y hy =>
    (rd_countBlocks_ne (by unfold primBase laneBase; omega) (by unfold primBase laneBase; omega)).trans hy) rfl

theorem rxStretch_used (hu : streamUsed st s = true) : rxStretch st x s =
    if !aligned st (lanesCount st x s) then lanesCount st x s
    else eachDo (fun (b : Block × Nat) s => rxBlock st b.1 b.2 s) (rebuild (bondWidth st (lanesCount st x s)) x) (lanesCount st x s) :=
  if_neg (by simp [hu])

theorem rxStretch_unaligned (hu : streamUsed st s = true) (ha : aligned st s = false) : rxStretch st x s = lanesCount st x s := by
  have ha' : aligned st (lanesCount st x s) = false := (portBit_lanesCount clALIGNED).trans ha
  rw [rxStretch_used hu, if_pos (by simp [ha'])]

theorem rxStretch_unused (hu : streamUsed st s = false) : rxStretch st x s = s := if_pos (by simp [hu])

/-- What a locked lane counts of the blocks that `f` picks. -/
def laneCount (n : Nat) (l : List Block) (f : Block → Bool) (s : State) : Word := if rdB (laneBase n + 4) clLOCK s then wd (l.filter f).length else 0

/-- Each lane of a bond counts the invalid blocks and the bad sync headers of its own blocks (R67, R89). -/
theorem rd_lanesCount {i : Nat} (hi : i < bondWidth st s) (hx : i < x.length) :
    let n := laneFirst st s + i
    rd (laneBase n + 0x18) (lanesCount st x s) = rd (laneBase n + 0x18) s + laneCount n (x.getD i []) (fun y => decide (blockKind y = .invalid)) s ∧
      rd (laneBase n + 0x10) (lanesCount st x s) = rd (laneBase n + 0x10) s + laneCount n (x.getD i []) blockBadHdr s := by
  intro n
  have hlane : (n, x.getD i []) ∈ (bondLanes st s).zip x := by
    have hlen : i < (bondLanes st s).length := by simpa [bondLanes, upTo] using hi
    refine List.mem_iff_getElem.mpr ⟨i, by rw [List.length_zip]; omega, ?_⟩
    rw [List.getElem_zip, List.getD_eq_getElem _ _ hx]
    simp [bondLanes, upTo, n]
  have hnd : (((bondLanes st s).zip x).map (·.1)).Nodup := (nodup_bondLanes st s).sublist (map_fst_zip_sublist _ _)
  unfold lanesCount laneCount
  constructor
  · rw [rd_countLanes (by decide) hnd hlane, rd_countBlocks]
    cases rdB (laneBase n + 4) clLOCK s <;> simp
  · rw [rd_countLanes (by decide) hnd hlane, rd_countBlocks]
    cases rdB (laneBase n + 4) clLOCK s <;> simp

end Unaligned

end Sys2Proof.Proofs
end

section
/-! A frame at a camera port (04_chanak_lanes.md, R66, R70, R79 to R82): its blocks, the drained receive buffers, its fate. -/

namespace Sys2Proof.Proofs

open Sys2Proof Sys2Proof.Machine Sys2Proof.Laws

/-! ### The record of a port -/

section Record

variable {st y : Nat} {s t : State}

theorem cport_updPort_ne (f : CPort → CPort) (s : State) (h : y ≠ st) : cport y (updPort st f s) = cport y s := Fam.get_set_ne _ _ h _

theorem updPort_updPort (st : Nat) (f g : CPort → CPort) (s : State) : updPort st f (updPort st g s) = updPort st (fun p => f (g p)) s := by
  have h : (updPort st f (updPort st g s)).cports = (updPort st (fun p => f (g p)) s).cports := by
    show Fam.set st (f (cport st (updPort st g s))) (Fam.set st _ s.cports) = _
    rw [cport_updPort, set_set]
    rfl
  exact congrArg (fun x => { s with cports := x }) h

/-- No frame is in progress at a port. -/
def portFree (st : Nat) (s : State) : State := updPort st (fun p => { p with rx := none }) s
/-- A frame in progress at a port. -/
def portHolds (st : Nat) (s : State) (g : RxFrame) : State := updPort st (fun p => { p with rx := some g }) s

theorem cport_portFree (hrx : (cport st s).rx = none) (y : Nat) : cport y (portFree st s) = cport y s := by
  by_cases h : y = st
  · subst h
    rw [portFree, cport_updPort]
    exact congrArg (fun r => { cport y s with rx := r }) hrx.symm
  · exact cport_updPort_ne _ s h

end Record

/-! ### A frame arrives (R66, R70) -/

section Arrival

variable {st : Nat} {f : List Byte} {s : State}

/-- The frame whose first word of bytes `l` came `ago` rounds before now. -/
def frameBegun (st : Nat) (s : State) (l : List Byte) (ago : Nat) : RxFrame :=
  let t := blockTime (cfg 0x20 st 3 1 s) * ago
  { bytes := l, since := tick s - BitVec.ofNat 64 (t / 160), t0 := nowNs s - BitVec.ofNat 64 (t / 100), pos := encPos (cfg 0x20 st 7 1 s) s }

theorem rxBlock_start {b : Block} {l : List Byte} {ago : Nat} (hrx : (cport st s).rx = none) (hk : blockKind b = .start l) :
    rxBlock st b ago s = portHolds st s (frameBegun st s l ago) := by
  unfold rxBlock
  rw [hk, hrx]
  rfl

theorem rxBlock_data {b : Block} {l : List Byte} {ago : Nat} {g : RxFrame} (hk : blockKind b = .data l) :
    rxBlock st b ago (portHolds st s g) = portHolds st s { g with bytes := g.bytes ++ l } := by
  have hrx : (cport st (portHolds st s g)).rx = some g := by rw [portHolds, cport_updPort]
  unfold rxBlock
  rw [hk, hrx]
  exact updPort_updPort st _ _ s

theorem rxBlock_term {b : Block} {l : List Byte} {ago : Nat} {g : RxFrame} (hk : blockKind b = .term l) :
    rxBlock st b ago (portHolds st s g) = rxFrame st { g with bytes := g.bytes ++ l } (portFree st s) := by
  have hrx : (cport st (portHolds st s g)).rx = some g := by rw [portHolds, cport_updPort]
  unfold rxBlock
  rw [hk, hrx]
  exact congrArg (rxFrame st _) (updPort_updPort st _ _ s)

/-- The blocks of one frame at an aligned port with none in progress are that frame (R70). -/
theorem rxStretch_oneFrame (hf : 7 ≤ f.length) (hw : 1 ≤ bondWidth st s) (hrx : (cport st s).rx = none) (hu : streamUsed st s = true)
    (ha : aligned st s = true) : rxStretch st (oneFrame (bondWidth st s) f) s = rxFrame st (frameNow st f s) (portFree st s) := by
  have hblocks := eachDo_rebuild_oneFrame hw hf (s := s) (step := fun b s => rxBlock st b.1 b.2 s) (hold := portHolds st s)
    (done := fun g => rxFrame st g (portFree st s)) (fresh := frameBegun st s)
    (fun _ _ hk => rxBlock_start hrx hk) (fun _ _ _ hk => rxBlock_data hk) (fun _ _ _ hk => rxBlock_term hk)
  have hbytes : (frameBegun st s (f.take 7) (((frameBlocks f).length + bondWidth st s - 1) / bondWidth st s - 1)).bytes ++ f.drop 7 = f :=
    List.take_append_drop 7 f
  rw [hbytes] at hblocks
  have hcount : lanesCount st (oneFrame (bondWidth st s) f) s = s := countBlocks_oneFrame hf _ laneBase _ s
  rw [rxStretch_used hu, hcount, if_neg (by simp [ha])]
  exact hblocks

end Arrival

/-! ### The receive buffers drain (R95) -/

/-- The same ports in every record, whatever list holds them. -/
def SamePorts (a b : State) : Prop := b = { a with cports := b.cports } ∧ ∀ y, cport y b = cport y a

section Drain

variable {st y f : Nat} {a b s t u : State}

theorem samePorts_updPort {g g' : CPort → CPort} (h : SamePorts a b) (hg : g (cport st a) = g' (cport st a)) : SamePorts (updPort st g a) (updPort st g' b) := by
  obtain ⟨hrest, hports⟩ := h
  refine ⟨by rw [hrest]; rfl, fun y => ?_⟩
  by_cases hy : y = st
  · rw [hy, cport_updPort, cport_updPort, hports, hg]
  · rw [cport_updPort_ne _ _ hy, cport_updPort_ne _ _ hy, hports]

/-- What is left in the buffer of one port after a service. -/
def bufferLeft (x : Nat × List (Nat × Nat)) (s : State) : State :=
  if (cport x.1 s).segs = x.2 then s else updPort x.1 (fun p => { p with segs := x.2 }) s

/-- The service of a front end's four buffers. -/
def drainRunOf (f : Nat) (s : State) : FeDrain × List (List (Nat × Nat)) :=
  let d := Fam.get {} f s.drains
  let qs := ((upTo 4).map fun i => 4 * f + i).map fun st => (cport st s).segs
  drainRun (9 * (qs.map List.length).foldl (· + ·) 0 + 9) { d with credit := d.credit + 28 * ticksSince d.since s, since := tick s } qs

theorem drainFe_eq (f : Nat) (s : State) : drainFe f s =
    eachDo bufferLeft (((upTo 4).map fun i => 4 * f + i).zip (drainRunOf f s).2) { s with drains := s.drains.set f (drainRunOf f s).1 } := rfl

theorem samePorts_bufferLeft (x : Nat × List (Nat × Nat)) (h : SamePorts a b) : SamePorts (bufferLeft x a) (bufferLeft x b) := by
  unfold bufferLeft
  rw [h.2 x.1]
  split
  · exact h
  · exact samePorts_updPort h rfl

theorem samePorts_eachDo (l : List (Nat × List (Nat × Nat))) : ∀ {a b : State}, SamePorts a b → SamePorts (eachDo bufferLeft l a) (eachDo bufferLeft l b) := by
  induction l with
  | nil => exact id
  | cons x l ih => exact fun h => ih (samePorts_bufferLeft x h)

/-- How the buffers drain depends on the ports' records alone. -/
theorem samePorts_drainFe (h : SamePorts a b) : SamePorts (drainFe f a) (drainFe f b) := by
  obtain ⟨hrest, hports⟩ := h
  have hrun : drainRunOf f b = drainRunOf f a := by
    unfold drainRunOf
    simp only [hports]
    rw [hrest]
    rfl
  rw [drainFe_eq, drainFe_eq, hrun]
  refine samePorts_eachDo _ ⟨?_, hports⟩
  rw [hrest]

theorem police_samePorts (g : RxFrame) (h : SamePorts a b) : police st g b = police st g a := by
  obtain ⟨hrest, hports⟩ := h
  unfold police bufHeld
  simp only [hports]
  rw [hrest]
  rfl

/-- A service of the buffers takes segments from them, and no other port's. -/
theorem bufferLeft_ports (x : Nat × List (Nat × Nat)) (s : State) (y : Nat) :
    cport y (bufferLeft x s) = { cport y s with segs := (cport y (bufferLeft x s)).segs } ∧ (y ≠ x.1 → cport y (bufferLeft x s) = cport y s) := by
  unfold bufferLeft
  split
  · exact ⟨rfl, fun _ => rfl⟩
  · by_cases hy : y = x.1
    · subst hy
      rw [cport_updPort]
      exact ⟨rfl, fun h => absurd rfl h⟩
    · rw [cport_updPort_ne _ _ hy]
      exact ⟨rfl, fun _ => rfl⟩

theorem drainFe_ports (f : Nat) (s : State) (y : Nat) :
    cport y (drainFe f s) = { cport y s with segs := (cport y (drainFe f s)).segs } ∧ (y / 4 ≠ f → cport y (drainFe f s) = cport y s) := by
  rw [drainFe_eq]
  refine eachDo_keeps (P := fun t => cport y t = { cport y s with segs := (cport y t).segs } ∧ (y / 4 ≠ f → cport y t = cport y s)) (fun x hx t ht => ?_)
    ⟨rfl, fun _ => rfl⟩
  obtain ⟨hsegs, hother⟩ := bufferLeft_ports x t y
  obtain ⟨i, hi, hxi⟩ := List.mem_map.mp (List.of_mem_zip (a := x.1) (b := x.2) hx).1
  have hi : i < 4 := List.mem_range.mp hi
  exact ⟨by rw [hsegs, ht.1], fun hy => (hother (by omega)).trans (ht.2 hy)⟩

theorem drainFe_frame (f : Nat) (s : State) : drainFe f s = { s with cports := (drainFe f s).cports, drains := (drainFe f s).drains } := by
  rw [drainFe_eq]
  refine eachDo_keeps (P := fun t : State => t = { s with cports := t.cports, drains := t.drains }) (fun x _ t ht => ?_) rfl
  unfold bufferLeft
  split
  · exact ht
  · rw [ht]
    rfl

end Drain

end Sys2Proof.Proofs
end

section
/-! A frame's way through the checks of a camera port (04_chanak_lanes.md, R79 to R82): where it only counts, where it is admitted. -/

namespace Sys2Proof.Proofs

open Sys2Proof Sys2Proof.Machine Sys2Proof.Laws

/-- What a frame at a port leaves alone: memory, cores and jobs, and of other ports all but what drains. -/
structure PortOnly (st : Nat) (s t : State) : Prop where
  ports : OtherPorts st s t
  memory : MemorySame s t
  cores : t.cores = s.cores
  jobs : t.jobs = s.jobs

/-- The state in which a frame's checks run. -/
def framed (st : Nat) (s : State) : State := drainFe (st / 4) (portFree st s)

section Checks

variable {st : Nat} {f : List Byte} {g : RxFrame} {s t u : State}

theorem PortOnly.others (h : PortOnly st s t) : OtherPorts st s t ∧ MemorySame s t ∧ t.cores = s.cores ∧ t.jobs = s.jobs := ⟨h.ports, h.memory, h.cores, h.jobs⟩

/-- What acts on a port at most: registers, rings, host memory, interrupts, active faults, counters, the ports and the front ends. -/
def PortActs (t u : State) : Prop := u = { t with
  regs := u.regs, rings := u.rings, host := u.host, out := u.out, faults := u.faults, cnt := u.cnt, cports := u.cports, fes := u.fes }

theorem PortOnly.trans (h : PortOnly st s t) (hrest : PortActs t u) (hports : ∀ y, y ≠ st → cport y u = cport y t) : PortOnly st s u where
  ports := fun y hy => by rw [hports y hy]; exact h.ports y hy
  memory := by
    rw [hrest]
    exact ⟨h.memory.1, h.memory.2⟩
  cores := by rw [hrest]; exact h.cores
  jobs := by rw [hrest]; exact h.jobs

theorem portActs_updPort (p : CPort → CPort) (t : State) : PortActs t (updPort st p t) := rfl

theorem portActs_cntAdd (k n : Nat) (t : State) : PortActs t (cntAdd k n t) := rfl

theorem portActs_wr (k : Nat) (v : Word) (t : State) : PortActs t (wr k v t) := rfl

theorem PortOnly.updPort (h : PortOnly st s t) (p : CPort → CPort) : PortOnly st s (updPort st p t) := h.trans (portActs_updPort p t) fun _ hy => cport_updPort_ne p t hy

theorem PortOnly.wr (h : PortOnly st s t) (k : Nat) (v : Word) : PortOnly st s (wr k v t) := h.trans (portActs_wr k v t) fun _ _ => rfl

theorem framed_eq (st : Nat) (s : State) : framed st s = { s with cports := (framed st s).cports, drains := (framed st s).drains } := by
  rw [framed, drainFe_frame]
  rfl

theorem regs_framed : (framed st s).regs = s.regs := by rw [framed_eq]
theorem img_framed : (framed st s).img = s.img := by rw [framed_eq]

theorem portBit_framed (b : Nat) : portBit st b (framed st s) = portBit st b s := portBit_of_status img_framed (rd_congr regs_framed _)

theorem cport_framed (hrx : (cport st s).rx = none) (y : Nat) :
    cport y (framed st s) = { cport y s with segs := (cport y (framed st s)).segs } ∧ (y / 4 ≠ st / 4 → cport y (framed st s) = cport y s) := by
  obtain ⟨hsegs, hother⟩ := drainFe_ports (st / 4) (portFree st s) y
  rw [cport_portFree hrx] at hsegs hother
  exact ⟨hsegs, hother⟩

theorem portOnly_framed (hrx : (cport st s).rx = none) : PortOnly st s (framed st s) where
  ports := fun y _ => cport_framed hrx y
  memory := by
    rw [framed_eq]
    exact ⟨fun _ => rfl, rfl⟩
  cores := by rw [framed_eq]
  jobs := by rw [framed_eq]

/-- The frame's fate is the same whether the frame in progress still stands. -/
theorem police_framed (hrx : (cport st s).rx = none) : police st g (framed st s) = police st g (drainFe (st / 4) s) :=
  police_samePorts g (samePorts_drainFe ⟨rfl, cport_portFree hrx⟩)

/-! ### The branches of a frame (R79, R82) -/

theorem rxFrame_quar (hq : inQuar st s = true) : rxFrame st g (portFree st s) = chk st 0x148 (framed st s) :=
  if_pos ((portBit_framed clQUAR).trans hq)

theorem rxFrame_down (hq : inQuar st s = false) (hup : camUp st s = false) (htyp : leAt g.bytes 0 1 ≠ 5) (hpass : police st g (framed st s) = .pass) :
    rxFrame st g (portFree st s) = chk st 0x14C (framed st s) := by
  have hq' : inQuar st (framed st s) = false := (portBit_framed clQUAR).trans hq
  have hup' : camUp st (framed st s) = false := (portBit_framed clUP).trans hup
  unfold rxFrame
  rw [← framed]
  exact (if_neg (ne_true_of_eq_false hq')).trans (if_pos ⟨by simp [hup'], htyp, .inl hpass⟩)

/-- A frame that passes where it may act: one on a port that is up, and a HELLO. -/
theorem rxFrame_pass (hq : inQuar st s = false) (hup : camUp st s = true ∨ leAt g.bytes 0 1 = 5) (hpass : police st g (framed st s) = .pass) :
    rxFrame st g (portFree st s) =
      if leAt g.bytes 0 1 = 5 then helloIn st g.bytes (admitFrame st g.bytes.length (framed st s))
      else if leAt g.bytes 0 1 = 1 then
        segment st g true (bufTake st g.bytes.length (leAt g.bytes 10 2) (admitFrame st g.bytes.length (framed st s)))
      else if leAt g.bytes 0 1 = 3 then ackIn st g.bytes (admitFrame st g.bytes.length (framed st s))
      else eventIn st g.bytes (updPort st (fun p => { p with events := p.events + 1 }) (admitFrame st g.bytes.length (framed st s))) := by
  have hq' : inQuar st (framed st s) = false := (portBit_framed clQUAR).trans hq
  have hup' : camUp st (framed st s) = true ∨ leAt g.bytes 0 1 = 5 := hup.imp_left (portBit_framed clUP).trans
  have hact : ¬ ((!camUp st (framed st s)) = true ∧ leAt g.bytes 0 1 ≠ 5) := by rcases hup' with h | h <;> simp [h]
  unfold rxFrame
  rw [← framed]
  simp only [hq', hact, hpass, Bool.false_eq_true, if_false, true_or, and_true]

theorem rxFrame_unknown (hq : inQuar st s = false) (hfate : police st g (framed st s) = .unknown) :
    rxFrame st g (portFree st s) = quarFail st (chk st 0x130 (framed st s)) := by
  have hq' : inQuar st (framed st s) = false := (portBit_framed clQUAR).trans hq
  unfold rxFrame
  rw [← framed]
  simp only [hq', hfate, Bool.false_eq_true, if_false, reduceCtorEq, or_self, and_false]

/-! ### A frame that counts -/

/-- A frame that a port counts in register `o` of its block, and its front end's service of the buffers. -/
structure PortCounts (st o : Nat) (s t : State) : Prop where
  rest : t = { s with regs := t.regs, cports := t.cports, drains := t.drains }
  only : PortOnly st s t
  registers : RegsSameBut (fun k => k == primBase st s + o) s t
  counted : rd (primBase st s + o) t = rd (primBase st s + o) s + 1
  record : cport st t = { cport st s with segs := (cport st t).segs }

theorem portCounts_chk (hrx : (cport st s).rx = none) (o : Nat) : PortCounts st o s (chk st o (framed st s)) := by
  have hprim : primBase st (framed st s) = primBase st s := primBase_congr img_framed st
  have hrd (k : Nat) : rd k (framed st s) = rd k s := rd_congr regs_framed k
  unfold chk
  rw [hprim]
  exact {
    rest := by
      rw [framed_eq]
      rfl
    only := (portOnly_framed hrx).wr _ _
    registers := fun k hk => (regsSameBut_wr _ _ (framed st s) k hk).trans (hrd k)
    counted := (rd_inc_same _ _ _).trans (by rw [hrd]; rfl)
    record := (cport_framed hrx st).1 }

/-- A failure below the threshold of R82 is counted. -/
theorem quarFail_below (h : (cport st t).fails + 1 < fld 15 0 (rdForce (primBase st t + 0x114) t)) :
    quarFail st t = updPort st (fun p => { p with fails := p.fails + 1 }) t := by
  refine if_neg (not_le.mpr ?_)
  rw [cport_updPort]
  exact h

/-! ### An admitted frame (R80, R312) -/

/-- The state in which a frame that passed the checks acts. -/
def admitted (st len : Nat) (s : State) : State := admitFrame st len (framed st s)

/-- An admitted frame takes its length from the port's bucket and counts in its partition's lane bytes. -/
structure Admitted (st len : Nat) (s t : State) : Prop where
  rest : t = { s with cnt := t.cnt, cports := t.cports, drains := t.drains }
  only : PortOnly st s t
  record : cport st t = { cport st s with segs := (cport st t).segs, bucket := (cport st t).bucket, bucketTick := (cport st t).bucketTick }
  lanes : ∀ q, streamPart st s = some q → cntGet (acctBase q + 0x28) t = cntGet (acctBase q + 0x28) s + BitVec.ofNat 64 len

/-- A port's record with the token bucket filled up to now (R80). -/
def bucketFilled (st : Nat) (t : State) (p : CPort) : CPort := { p with
  bucket := min (625 * (rdForce (primBase st t + 0x108) t).toNat : Int) (p.bucket + fld 15 0 (rdForce (primBase st t + 0x104) t) * ticksSince p.bucketTick t)
  bucketTick := tick t }

/-- A port's record once a frame of `len` bytes is taken from its bucket (R80). -/
def bucketSpent (st len : Nat) (t : State) (p : CPort) : CPort := { p with
  bucket := max (-(625 * (fld 15 0 (rdForce (primBase st t + 0x10C) t)) : Nat)) (p.bucket - 625 * len) }

theorem admitFrame_eq {q : Nat} (len : Nat) (hq : streamPart st t = some q) :
    admitFrame st len t = cntAdd (acctBase q + 0x28) len (updPort st (fun p => bucketSpent st len t (bucketFilled st t p)) t) := by
  unfold admitFrame
  extract_lets settled floor spent
  split
  · next p hp =>
    obtain rfl : p = q := Option.some.inj (hp.symm.trans hq)
    exact congrArg (cntAdd _ len) (updPort_updPort st (bucketSpent st len t) (bucketFilled st t) t)
  · next hp => cases hp.symm.trans hq

theorem admitted_of_pass (hrx : (cport st s).rx = none) (hu : streamUsed st s = true) (len : Nat) : Admitted st len s (admitted st len s) := by
  obtain ⟨q, hq⟩ : ∃ q, streamPart st s = some q := ⟨_, if_pos hu⟩
  set paid := updPort st (fun p => bucketSpent st len (framed st s) (bucketFilled st (framed st s) p)) (framed st s) with hpaid
  have hadm : admitted st len s = cntAdd (acctBase q + 0x28) len paid := admitFrame_eq len ((streamPart_congr img_framed st).trans hq)
  have hport : cport st (admitted st len s) = bucketSpent st len (framed st s) (bucketFilled st (framed st s) (cport st (framed st s))) := by
    rw [hadm]
    exact cport_updPort st (fun p => bucketSpent st len (framed st s) (bucketFilled st (framed st s) p)) (framed st s)
  exact {
    rest := by
      rw [hadm, hpaid, framed_eq]
      rfl
    only := by
      rw [hadm]
      exact ((portOnly_framed hrx).updPort _).trans (portActs_cntAdd _ _ _) fun _ _ => rfl
    record := by
      rw [hport, (cport_framed hrx st).1]
      rfl
    lanes := fun q' hq' => by
      obtain rfl : q' = q := Option.some.inj (hq'.symm.trans hq)
      rw [hadm, cntGet_cntAdd_same, hpaid, framed_eq]
      rfl }

end Checks

end Sys2Proof.Proofs
end

section
/-! Segments, acknowledgements and events at a camera port that is up (04_chanak_lanes.md, R83, R85, R86). -/

namespace Sys2Proof.Proofs

open Sys2Proof Sys2Proof.Machine Sys2Proof.Laws

/-! ### A line's first segment (R83) -/

section Segment

variable {st : Nat} {x : RxFrame} {s : State}

theorem bufTake_eq (bytes samples : Nat) (h : s.pwr.wiping = []) :
    bufTake st bytes samples s = updPort st (fun p => { p with segs := p.segs ++ [(bytes, samples)] }) s := by
  unfold bufTake
  rw [h]
  rfl

/-- The line that a first segment begins at a port (R83). -/
structure LineBegun (st : Nat) (x : RxFrame) (s : State) (l : LineAcc) : Prop where
  line : l.line = wd (leAt x.bytes 4 4)
  seg : l.seg = leAt x.bytes 2 2 + 1
  time : l.t0 = x.t0
  pos : l.pos = x.pos
  stamp : l.stamp = BitVec.ofNat 64 (leAt x.bytes 16 8)
  good : l.good = true ↔ leAt x.bytes 2 2 = 0 ∧ leAt x.bytes 12 1 = 0 ∧ leAt x.bytes 8 2 = 0 ∧ leAt x.bytes 10 2 ≤ lineWidth st s
  samples : l.good = true → l.pix = unpackPix (fmtOf st s) (leAt x.bytes 10 2) ((x.bytes.drop 28).take (leAt x.bytes 14 2))

/-- A first segment that is not its line's last, at a port with no line in progress. -/
theorem segment_first (hline : (cport st s).line = none) (hfirst : (leAt x.bytes 1 1).testBit 0 = true) (hlast : (leAt x.bytes 1 1).testBit 1 = false) :
    ∃ l, segment st x true s = updPort st (fun p => { p with line := some l }) s ∧ LineBegun st x s l := by
  unfold Machine.segment
  simp only [hline, hfirst, hlast, Option.getD_none, Bool.false_eq_true, if_false]
  refine ⟨_, rfl, rfl, rfl, rfl, rfl, rfl, ?_, fun h => ?_⟩
  · simp
    omega
  · exact (if_pos h).trans (List.nil_append _)

end Segment

section LineSeg

variable {st : Nat} {f : List Byte} {s a : State}

/-- A line's first segment at a port that is up enters the receive buffer and begins its line (R81, R83). -/
theorem lineSeg_effect (ha : Admitted st f.length s a) (hline : (cport st s).line = none)
    (hfirst : (leAt f 1 1).testBit 0 = true) (hlast : (leAt f 1 1).testBit 1 = false) (hw : s.pwr.wiping = []) :
    let t := Machine.segment st (frameNow st f s) true (bufTake st f.length (leAt f 10 2) a)
    t = { s with regs := t.regs, cnt := t.cnt, cports := t.cports, drains := t.drains } ∧ PortOnly st s t ∧
      (∃ q, (cport st t).segs = q ++ [(f.length, leAt f 10 2)]) ∧
      (∀ q, streamPart st s = some q → cntGet (acctBase q + 0x28) t = cntGet (acctBase q + 0x28) s + BitVec.ofNat 64 f.length) ∧
      ∃ l, (cport st t).line = some l ∧ LineBegun st (frameNow st f s) s l := by
  have hb : bufTake st f.length (leAt f 10 2) a = updPort st (fun p => { p with segs := p.segs ++ [(f.length, leAt f 10 2)] }) a :=
    bufTake_eq _ _ (by rw [ha.rest]; exact hw)
  obtain ⟨b, hbdef⟩ : ∃ b, b = updPort st (fun p => { p with segs := p.segs ++ [(f.length, leAt f 10 2)] }) a := ⟨_, rfl⟩
  have hrec : cport st b = { cport st a with segs := (cport st a).segs ++ [(f.length, leAt f 10 2)] } := by rw [hbdef, cport_updPort]
  have himg : b.img = s.img := by
    rw [hbdef, ha.rest]
    rfl
  obtain ⟨l, hl, hbegun⟩ := segment_first (x := frameNow st f s) (s := b) (by rw [hrec, ha.record]; exact hline) hfirst hlast
  rw [hb, ← hbdef, hl]
  have hport : cport st (updPort st (fun p => { p with line := some l }) b) = { cport st b with line := some l } := cport_updPort _ _ _
  have hwidth : lineWidth st b = lineWidth st s := by rw [lineWidth, lineWidth, cfg, cfg, himg]
  have hfmt : fmtOf st b = fmtOf st s := by rw [fmtOf, fmtOf, cfg, cfg, himg]
  refine ⟨?_, ?_, ⟨(cport st a).segs, by rw [hport, hrec]⟩, fun q hq => ?_, l, by rw [hport],
    { hbegun with good := hwidth ▸ hbegun.good, samples := hfmt ▸ hbegun.samples }⟩
  · rw [hbdef, ha.rest]
    rfl
  · rw [hbdef]
    exact (ha.only.updPort _).updPort _
  · rw [← ha.lanes q hq, hbdef]
    rfl

end LineSeg

/-! ### A CTRL_ACK (R86) -/

/-- A frame of R78 that passes the checks is as long as its LEN says. -/
theorem length_of_pass {st : Nat} {g : RxFrame} {s : State} (h : police st g s = .pass) (hlo : 2 ≤ leAt g.bytes 0 1) (hhi : leAt g.bytes 0 1 ≤ 5) :
    g.bytes.length = 20 + leAt g.bytes 6 2 := by
  have hshape : shapeOk st g.bytes s = true := by
    by_contra hno
    have hcrc : (g.broken || decide (g.bytes.length < 8) ||
        decide (leAt g.bytes (g.bytes.length - 4) 4 ≠ (crc32 (g.bytes.take (g.bytes.length - 4))).toNat) ||
        (bondLanes st s).any (fun n => rdB (laneBase n + 4) clHIBER s) || !shapeOk st g.bytes s) = true := by
      rw [Bool.eq_false_of_not_eq_true hno]
      exact Bool.or_true _
    unfold police at h
    simp only [hcrc, if_true] at h
    split at h <;> cases h
  unfold shapeOk at hshape
  rw [if_neg (by omega), if_pos ⟨hlo, hhi⟩] at hshape
  simp only [Bool.and_eq_true, decide_eq_true_eq] at hshape
  exact hshape.1.2

section Ack

variable {st : Nat} {f : List Byte} {r : CReq} {s a v : State}

theorem updPort_congr {p p' : CPort → CPort} (h : p (cport st s) = p' (cport st s)) : updPort st p s = updPort st p' s := by rw [updPort, updPort, h]

theorem sendReqs_none (h : (cport st s).waiting = []) (k : Nat) : sendReqs st k s = s := by
  cases k with
  | zero => rfl
  | succ k =>
    unfold sendReqs
    simp only [h]

theorem cports_camDone (fn status : Nat) (result : List Byte) (ackStatus sent : Nat) (s : State) :
    (camDone fn status result ackStatus sent s).cports = s.cports := by
  unfold camDone
  split
  · rw [(ringOnly_finish _ _ _ _).rest]
  · rfl

theorem cports_camData (fn : Nat) (bs : List Byte) (s : State) : (camData fn bs s).cports = s.cports := by
  unfold camData
  split <;> rfl

/-- Every request of a port is acknowledged. -/
def requestsDone (st : Nat) (s : State) : State := updPort st (fun p => { p with outst := [], retries := 0 }) s

/-- What an acknowledged request brings to the host: of READ_BLOCK its data. -/
def ackData (f : List Byte) (r : CReq) (s : State) : State := if r.op = 3 then camData r.fn ((f.drop 16).take (leAt f 6 2)) s else s

/-- The acknowledgement of the only request of a port. -/
theorem ackIn_only (ho : (cport st s).outst = [r]) (hw : (cport st s).waiting = []) (hseq : r.seq = BitVec.ofNat 16 (leAt f 2 2)) :
    ackIn st f s = camDone r.fn stOK ((f.drop 8).take 8) (leAt f 4 1) 0 (ackData f r (requestsDone st s)) := by
  have hdone : updPort st (fun p => { p with outst := p.outst.drop 1, retries := 0 }) s = requestsDone st s := updPort_congr (by rw [ho]; rfl)
  have hports : (ackData f r (requestsDone st s)).cports = (requestsDone st s).cports := by
    unfold ackData
    split
    · exact cports_camData _ _ _
    · rfl
  have hwait : (cport st (camDone r.fn stOK ((f.drop 8).take 8) (leAt f 4 1) 0 (ackData f r (requestsDone st s)))).waiting = [] := by
    rw [cport_congr ((cports_camDone _ _ _ _ _ _).trans hports), requestsDone, cport_updPort]
    exact hw
  rw [← sendReqs_none hwait 4]
  unfold ackIn
  simp only [ho, hseq, List.find?_cons, decide_true, ne_eq, not_true_eq_false, decide_false, List.takeWhile_cons, Bool.false_eq_true, if_false,
    List.length_nil, Nat.zero_add, hdone]
  rfl

/-- An acknowledged request whose command is no longer in hand. -/
theorem ackIn_abandoned (ho : (cport st s).outst = [r]) (hw : (cport st s).waiting = []) (hseq : r.seq = BitVec.ofNat 16 (leAt f 2 2))
    (hb : (ring r.fn s).busy = none) : ackIn st f s = requestsDone st s := by
  have hb' : (ring r.fn (requestsDone st s)).busy = none := hb
  have hdata : ackData f r (requestsDone st s) = requestsDone st s := by
    unfold ackData camData
    rw [hb', ite_self]
  rw [ackIn_only ho hw hseq, hdata]
  unfold camDone
  rw [hb']

/-- An acknowledged request whose command is in hand: the command is finished. -/
theorem ackIn_in_hand {d : SvcDesc} {m : Nat} {y : Word} (ho : (cport st s).outst = [r]) (hw : (cport st s).waiting = [])
    (hseq : r.seq = BitVec.ofNat 16 (leAt f 2 2)) (hb : (ring r.fn s).busy = some (.camCtrl d m y)) :
    ∃ h : List Host.Cell, ackIn st f s = finish r.fn d stOK 0 (padTo 8 ((f.drop 8).take 8) ++ natLE 1 (leAt f 4 1) ++ natLE 1 0) { requestsDone st s with host := h } ∧
      (r.op = 3 → h = Memory.write s.host (dDATA d) (((f.drop 16).take (leAt f 6 2)).take (dLEN d))) := by
  have hb' : (ring r.fn (requestsDone st s)).busy = some (.camCtrl d m y) := hb
  have hdone (x : State) (hx : (ring r.fn x).busy = some (.camCtrl d m y)) : camDone r.fn stOK ((f.drop 8).take 8) (leAt f 4 1) 0 x =
      finish r.fn d stOK 0 (padTo 8 ((f.drop 8).take 8) ++ natLE 1 (leAt f 4 1) ++ natLE 1 0) x := by
    unfold camDone
    rw [hx]
  rw [ackIn_only ho hw hseq, ackData]
  by_cases hop : r.op = 3
  · have hdata : camData r.fn ((f.drop 16).take (leAt f 6 2)) (requestsDone st s) =
        { requestsDone st s with host := Memory.write s.host (dDATA d) (((f.drop 16).take (leAt f 6 2)).take (dLEN d)) } := by
      unfold camData
      rw [hb']
      rfl
    rw [if_pos hop, hdata]
    exact ⟨_, hdone _ hb, fun _ => rfl⟩
  · rw [if_neg hop]
    exact ⟨s.host, hdone _ hb', fun h => absurd h hop⟩

theorem padTo_padTo_append (k : Nat) (x y : List Byte) : padTo k (padTo k x ++ y) = padTo k x := by
  conv_lhs => rw [padTo, List.append_assoc, List.take_append_of_le_length (padTo_length k x).ge, List.take_of_length_le (padTo_length k x).le]

/-- A CTRL_ACK for a command that is no longer in hand retires its request. -/
theorem ctrlAck_abandoned (ha : Admitted st f.length s a) (ho : (cport st s).outst = [r]) (hw : (cport st s).waiting = [])
    (hseq : r.seq = BitVec.ofNat 16 (leAt f 2 2)) (hb : (ring r.fn s).busy = none) :
    let t := ackIn st f a
    t = { s with regs := t.regs, cnt := t.cnt, cports := t.cports, drains := t.drains } ∧ PortOnly st s t ∧ (cport st t).outst = [] ∧
      (cport st t).retries = 0 := by
  have hring : ring r.fn a = ring r.fn s := by rw [ha.rest]; rfl
  rw [ackIn_abandoned (by rw [ha.record]; exact ho) (by rw [ha.record]; exact hw) hseq (by rw [hring]; exact hb)]
  have hport : cport st (requestsDone st a) = { cport st a with outst := [], retries := 0 } := cport_updPort _ _ _
  refine ⟨?_, ha.only.updPort _, by rw [hport], by rw [hport]⟩
  rw [ha.rest]
  rfl

/-- A CTRL_ACK for a command in hand finishes it with the result; the data of READ_BLOCK stands in host memory (R86). -/
theorem ctrlAck_answers {d : SvcDesc} {m : Nat} {y : Word} (ha : Admitted st f.length s a) (hlen : f.length = 20 + leAt f 6 2)
    (ho : (cport st s).outst = [r]) (hw : (cport st s).waiting = []) (hseq : r.seq = BitVec.ofNat 16 (leAt f 2 2))
    (hb : (ring r.fn s).busy = some (.camCtrl d m y)) (hs : Serving r.fn s s) :
    let t := ackIn st f a
    (cport st t).outst = [] ∧ Answered r.fn d stOK ((f.drop 8).take 8) s t ∧
      (r.op = 3 → Apart r.fn (dDATA d) (min (leAt f 6 2) (dLEN d)) d s → Memory.read t.host (dDATA d) (min (leAt f 6 2) (dLEN d)) =
        ((f.drop 16).take (leAt f 6 2)).take (dLEN d)) := by
  have hring : ring r.fn a = ring r.fn s := by rw [ha.rest]; rfl
  obtain ⟨h, hack, hhost⟩ := ackIn_in_hand (f := f) (by rw [ha.record]; exact ho) (by rw [ha.record]; exact hw) hseq (by rw [hring]; exact hb)
  rw [hack]
  have hregs : ({ requestsDone st a with host := h } : State).regs = s.regs := by rw [ha.rest]; rfl
  have hserving : Serving r.fn s { requestsDone st a with host := h } := hs.congr hring fun _ _ => rd_congr hregs _
  have hanswered := hserving.answered d stOK 0 (padTo 8 ((f.drop 8).take 8) ++ natLE 1 (leAt f 4 1) ++ natLE 1 0)
  have hdone : cport st (finish r.fn d stOK 0 (padTo 8 ((f.drop 8).take 8) ++ natLE 1 (leAt f 4 1) ++ natLE 1 0) { requestsDone st a with host := h }) =
      { cport st a with outst := [], retries := 0 } := by
    rw [cport_congr (by rw [(ringOnly_finish _ _ _ _).rest]) st]
    exact cport_updPort st (fun p => { p with outst := [], retries := 0 }) a
  refine ⟨by rw [hdone], ⟨hanswered.free, hanswered.counted, ?_⟩, fun hop hapart => ?_⟩
  · obtain ⟨k, flags, hk, hread⟩ := hanswered.written
    exact ⟨k, flags, hk, by rw [hread, List.append_assoc (padTo 8 _), padTo_padTo_append]⟩
  · obtain ⟨hslot, hres⟩ := hapart
    have hsize : (((f.drop 16).take (leAt f 6 2)).take (dLEN d)).length = min (leAt f 6 2) (dLEN d) := by
      simp only [List.length_take, List.length_drop]
      omega
    have hcpl : cplSlot r.fn (rd (ringBase r.fn + oCPL_TAIL) { requestsDone st a with host := h }).toNat { requestsDone st a with host := h } =
        cplSlot r.fn (rd (ringBase r.fn + oCPL_TAIL) s).toNat s := by
      rw [rd_congr hregs, cplSlot, cplSlot, rdAddr_congr (rd_congr hregs _) (rd_congr hregs _), ringSize_congr (rd_congr hregs _)]
    rw [← hsize]
    refine Eq.trans (List.map_congr_left fun i hi => ?_) (read_write (dDATA d) _ a.host)
    have hi : i < min (leAt f 6 2) (dLEN d) := hsize ▸ List.mem_range.mp hi
    rw [← hhost hop]
    exact hserving.hostByte d stOK 0 _ (by omega) (by rw [hcpl]; omega)

end Ack

/-! ### An EVENT (R85, R478) -/

/-- A port's register lies below the streams' registers. -/
theorem primBase_lt {st : Nat} {s : State} (h : laneFirst st s < 64) : primBase st s < 0x0D0000 := by
  unfold laneFirst at h
  unfold primBase laneBase
  omega

theorem nextRx_eq {st : Nat} {rx tx : BitVec 16} {s : State} (h : rd (primBase st s + 0x11C) s = wd (rx.toNat * 65536 + tx.toNat)) :
    nextRx st s = rx ∧ nextTx st s = tx := by
  have hrx := rx.isLt
  have htx := tx.isLt
  rw [nextRx, nextTx, rdF, rdF, h, fld, fld, BitVec.toNat_ofNat, Nat.mod_eq_of_lt (by omega), Nat.shiftRight_eq_div_pow, Nat.shiftRight_eq_div_pow]
  refine ⟨BitVec.eq_of_toNat_eq ?_, BitVec.eq_of_toNat_eq ?_⟩ <;> rw [BitVec.toNat_ofNat] <;> omega

/-- CHK_SEQ shows the two numbers (R88). -/
theorem seq_showSeq (st : Nat) (rx tx : BitVec 16) (s : State) : nextRx st (showSeq st rx tx s) = rx ∧ nextTx st (showSeq st rx tx s) = tx :=
  nextRx_eq (rd_wr_same s (primBase st s + 0x11C) _)

section Event

variable {st : Nat} {f bs : List Byte} {r i k : Nat} {s a : State}

/-- A record of the camera event ring holds `bs`. -/
def eventStored (st r : Nat) (bs : List Byte) (s : State) : State := eachDo (fun i s => wr (kEVT st r i) (wd (leAt bs (4 * i) 4)) s) (upTo 96) s

theorem eventStored_eq : eventStored st r bs s = { s with regs := (eventStored st r bs s).regs } :=
  eachDo_keeps (P := fun t : State => t = { s with regs := t.regs }) (fun _ _ t ht => by rw [ht]; rfl) rfl

theorem rd_eventStored (hi : i < 96) : rd (kEVT st r i) (eventStored st r bs s) = wd (leAt bs (4 * i) 4) :=
  eachDo_sets (P := fun i t => rd (kEVT st r i) t = wd (leAt bs (4 * i) 4)) (fun i t => rd_wr_same t _ _) (fun i j t ht => by
    by_cases h : i = j
    · rw [h, rd_wr_same]
    · rw [rd_wr_ne _ _ (by unfold kEVT; omega), ht]) (List.mem_range.mpr hi)

theorem rd_eventStored_ne (h : k < 0x2800000) : rd k (eventStored st r bs s) = rd k s :=
  eachDo_keeps (P := fun t => rd k t = rd k s) (fun i _ t ht => (rd_wr_ne t _ (by unfold kEVT; omega)).trans ht) rfl

/-- An event in order: its record is written, counted and reported. -/
def eventTaken (st q : Nat) (f : List Byte) (s : State) : State :=
  let r := (rd (ssBase st + 8) s).toNat
  fireInt (q + 1) 4 (inc (ssBase st + 8) 1 (eventStored st r (eventBytes r f s) s))

/-- Taking an event writes its record and the count of records, and tells the partition. -/
structure EventTaken (st : Nat) (f : List Byte) (s t : State) : Prop where
  rest : t = { s with regs := t.regs, out := t.out }
  kept : ∀ k, k < 0x2800000 → k ≠ ssBase st + 8 → rd k t = rd k s
  counted : rd (ssBase st + 8) t = rd (ssBase st + 8) s + 1
  stored : ∀ i, i < 96 → rd (kEVT st (rd (ssBase st + 8) s).toNat i) t = wd (leAt (eventBytes (rd (ssBase st + 8) s).toNat f s) (4 * i) 4)

theorem eventTaken_effect (hst : st < 64) (q : Nat) (f : List Byte) (s : State) : EventTaken st f s (eventTaken st q f s) := by
  have hss : ssBase st + 8 < 0x2800000 := by unfold ssBase; omega
  obtain ⟨e, he⟩ : ∃ e, e = eventStored st (rd (ssBase st + 8) s).toNat (eventBytes (rd (ssBase st + 8) s).toNat f s) s := ⟨_, rfl⟩
  have hrest : OnlyRegs s e := by
    rw [he]
    exact eventStored_eq
  have hinc : OnlyRegs s (inc (ssBase st + 8) 1 e) := onlyRegs_wr _ _ hrest
  obtain ⟨o, ho⟩ := fireInt_eq (q + 1) 4 (inc (ssBase st + 8) 1 e)
  rw [show eventTaken st q f s = _ from (congrArg (fun e => fireInt (q + 1) 4 (inc (ssBase st + 8) 1 e)) he.symm).trans ho]
  refine ⟨?_, fun k hk hne => (rd_wr_ne e _ hne).trans ?_, (rd_inc_same e _ _).trans ?_, fun i hi => (rd_wr_ne e _ ?_).trans ?_⟩
  · exact congrArg (fun x : State => { x with out := o }) hinc
  · rw [he, rd_eventStored_ne hk]
  · rw [he, rd_eventStored_ne hss]
    rfl
  · unfold ssBase kEVT
    omega
  · rw [he, rd_eventStored hi]

theorem eventIn_inOrder {q : Nat} (hseq : BitVec.ofNat 16 (leAt f 2 2) = nextRx st s)
    (hroom : (rd (ssBase st + 8) s - rd (ssBase st + 0xC) s).toNat < 4) (hq : streamPart st s = some q) :
    eventIn st f s = txFrame st (ackFrame (leAt f 2 2))
      (showSeq st (nextRx st (eventTaken st q f s) + 1) (nextTx st (eventTaken st q f s)) (eventTaken st q f s)) := by
  obtain ⟨e, he⟩ : ∃ e, e = eventStored st (rd (ssBase st + 8) s).toNat (eventBytes (rd (ssBase st + 8) s).toNat f s) s := ⟨_, rfl⟩
  have hinc : OnlyRegs s (inc (ssBase st + 8) 1 e) := onlyRegs_wr _ _ (he ▸ eventStored_eq)
  have hpart : streamPart st (inc (ssBase st + 8) 1 e) = some q := (streamPart_congr (by rw [hinc]) st).trans hq
  have hnow : (BitVec.ofNat 16 (leAt f 2 2) - nextRx st s).toInt = 0 := by
    rw [hseq, BitVec.sub_self]
    decide
  unfold eventIn eventTaken
  simp only [hnow, if_true, not_le.mpr hroom, if_false]
  rw [← eventStored, ← he, hpart]

theorem txFrame_emits (h : inQuar st s = false) (f : List Byte) : txFrame st f s = emit (.cam st [frameBlocks f]) s := if_neg (by simp [h])

/-- An event in order at a port that is up: its record is stored, counted and reported, and the camera's number acknowledged (R85). -/
theorem event_effect (ha : Admitted st f.length s a) (hst : st < 64) (hl : laneFirst st s < 64) (hq : inQuar st s = false) (hu : streamUsed st s = true)
    (hseq : BitVec.ofNat 16 (leAt f 2 2) = nextRx st s) (hroom : (rd (ssBase st + 8) s - rd (ssBase st + 0xC) s).toNat < 4) :
    let t := eventIn st f (updPort st (fun p => { p with events := p.events + 1 }) a)
    t = { s with regs := t.regs, cnt := t.cnt, cports := t.cports, drains := t.drains, out := t.out } ∧ PortOnly st s t ∧
      (cport st t).events = (cport st s).events + 1 ∧ rd (ssBase st + 8) t = rd (ssBase st + 8) s + 1 ∧
      t.out.head? = some (.cam st [frameBlocks (ackFrame (leAt f 2 2))]) ∧ nextRx st t = nextRx st s + 1 ∧
      ∀ i, i < 96 → rd (kEVT st (rd (ssBase st + 8) s).toNat i) t = wd (leAt (eventBytes (rd (ssBase st + 8) s).toNat f s) (4 * i) 4) := by
  obtain ⟨b, hb⟩ : ∃ b, b = updPort st (fun p => { p with events := p.events + 1 }) a := ⟨_, rfl⟩
  obtain ⟨q, hpart⟩ : ∃ q, streamPart st s = some q := ⟨_, if_pos hu⟩
  have hbs : b = { s with cnt := b.cnt, cports := b.cports, drains := b.drains } := by
    rw [hb, ha.rest]
    rfl
  have hport : cport st b = { cport st a with events := (cport st a).events + 1 } := by rw [hb, cport_updPort]
  have hbonly : PortOnly st s b := by
    rw [hb]
    exact ha.only.updPort _
  have hrdb (k : Nat) : rd k b = rd k s := rd_congr (by rw [hbs]) k
  have himgb : b.img = s.img := by rw [hbs]
  have hnextb : nextRx st b = nextRx st s := by rw [nextRx, nextRx, rdF, rdF, primBase_congr himgb, hrdb]
  have hbytes (r : Nat) : eventBytes r f b = eventBytes r f s := by
    rw [hbs]
    rfl
  obtain ⟨w, hw⟩ : ∃ w, w = eventTaken st q f b := ⟨_, rfl⟩
  have htaken : EventTaken st f b w := hw ▸ eventTaken_effect hst q f b
  have himg : w.img = s.img := by rw [htaken.rest, himgb]
  have hprim : primBase st w = primBase st s := primBase_congr himg st
  have hlt := primBase_lt hl
  have hss : 0x2000000 ≤ ssBase st := by unfold ssBase; omega
  have hkept {k : Nat} (h : k < 0x2000000) : rd k w = rd k s := (htaken.kept k (by omega) (by omega)).trans (hrdb k)
  have hnext : nextRx st w = nextRx st s := by rw [nextRx, nextRx, rdF, rdF, hprim, hkept (by omega)]
  obtain ⟨u, hu⟩ : ∃ u, u = showSeq st (nextRx st w + 1) (nextTx st w) w := ⟨_, rfl⟩
  have huw : u = wr (primBase st s + 0x11C) (wd ((nextRx st w + 1).toNat * 65536 + (nextTx st w).toNat)) w := by rw [hu, showSeq, hprim]
  have hrdu {k : Nat} (h : k ≠ primBase st s + 0x11C) : rd k u = rd k w := by rw [huw, rd_wr_ne _ _ h]
  have huq : inQuar st u = false := by
    refine (portBit_of_status ?_ ?_).trans hq
    · rw [huw]
      exact himg
    · rw [hrdu (by omega), hkept (by omega)]
  rw [← hb, eventIn_inOrder (q := q) (by rw [hnextb]; exact hseq) (by rw [hrdb, hrdb]; exact hroom)
    ((streamPart_congr himgb st).trans hpart), ← hw, ← hu, txFrame_emits huq]
  have hports : (emit (.cam st [frameBlocks (ackFrame (leAt f 2 2))]) u).cports = b.cports := by
    rw [huw]
    show w.cports = b.cports
    rw [htaken.rest]
  refine ⟨?_, hbonly.trans ?_ fun y _ => cport_congr hports y, ?_, ?_, rfl, ?_, fun i hi => ?_⟩
  · rw [huw, htaken.rest, hbs]
    rfl
  · rw [huw, htaken.rest]
    rfl
  · rw [cport_congr hports, hport, ha.record]
  · exact (hrdu (by omega)).trans (htaken.counted.trans (by rw [hrdb]))
  · show nextRx st u = _
    rw [hu, (seq_showSeq _ _ _ _).1, hnext]
  · have hstored := htaken.stored i hi
    rw [hrdb, hbytes] at hstored
    exact (hrdu (by unfold kEVT; omega)).trans hstored

end Event

end Sys2Proof.Proofs
end

section
/-! A HELLO at a camera port that is coming up (04_chanak_lanes.md, R73, R78). -/

namespace Sys2Proof.Proofs

open Sys2Proof Sys2Proof.Machine Sys2Proof.Laws

section Hello

variable {st : Nat} {f : List Byte} {peer : BitVec 16} {s a x : State}

/-- A camera HELLO declares what the stream is configured for (R78). -/
def HelloMatches (st : Nat) (f : List Byte) (s : State) : Prop :=
  leAt (f.drop 16) 2 1 = bondWidth st s ∧ leAt (f.drop 16) 3 1 = cfg 0x20 st 3 1 s ∧ leAt (f.drop 16) 8 2 = lineWidth st s ∧
    leAt (f.drop 16) 10 1 = cfg 0x20 st 6 1 s ∧ leAt (f.drop 16) 11 1 = fmtOf st s

theorem helloIn_second (hlink : linking st s = true) (h : HelloMatches st f s) (hflag : (leAt f 1 1).testBit 0 = true) (hseen : (cport st s).seen = true) :
    helloIn st f s = comeUp st (BitVec.ofNat 16 (leAt (f.drop 16) 4 2))
      (updPort st (fun p => { p with sof := decide (leAt (f.drop 16) 12 1 = 1) }) (setPortBit st clHELLOBAD false s)) := by
  unfold helloIn
  rw [if_neg (by simp [hlink])]
  exact (if_pos h).trans (if_pos ⟨hflag, hseen⟩)

theorem helloIn_first (hlink : linking st s = true) (h : HelloMatches st f s) (hseen : (cport st s).seen = false) :
    helloIn st f s = updPort st (fun p => { p with seen := true, sof := decide (leAt (f.drop 16) 12 1 = 1) }) (setPortBit st clHELLOBAD false s) := by
  unfold helloIn
  rw [if_neg (by simp [hlink])]
  exact (if_pos h).trans (if_neg fun hboth => by rw [show (cport st (setPortBit st clHELLOBAD false s)).seen = false from hseen] at hboth; cases hboth.2)

theorem helloIn_mismatch (hlink : linking st s = true) (h : ¬ HelloMatches st f s) :
    helloIn st f s = laneFault 0x5006 st st (setPortBit st clHELLOBAD true (updPort st (fun p => { p with seen := false }) s)) := by
  unfold helloIn
  rw [if_neg (by simp [hlink])]
  exact if_neg h

/-! ### The port comes up (R73, R80, R108) -/

/-- A port's front end shows the port up, without a pair lost, and SS_STAT shows it. -/
def frontEndUp (st : Nat) (s : State) : State :=
  showSs st (feStat st fsSYNC false (feStat st fsPORT true (updFe st (fun f => { f with d := none }) s)))

theorem frontEndUp_eq (st : Nat) (s : State) : frontEndUp st s = { s with regs := (frontEndUp st s).regs, fes := (frontEndUp st s).fes } := rfl

theorem rd_frontEndUp {k : Nat} (hk : k ≠ fes st + 4) (hk' : k ≠ ssBase st) : rd k (frontEndUp st s) = rd k s :=
  (rd_wr_ne _ _ hk').trans ((rd_wrB_ne _ _ _ hk).trans (rd_wrB_ne _ _ _ hk))

theorem fsPORT_frontEndUp (st : Nat) (s : State) : rdB (fes st + 4) fsPORT (frontEndUp st s) = true := by
  have hne : fes st + 4 ≠ ssBase st := by unfold fes feBase ssBase; omega
  rw [frontEndUp, showSs, rdB, rd_wr_ne _ _ hne, feStat, rd_wrB_same, bitOf_setBit_ne false _ (by decide)]
  exact rdB_wrB_same (updFe st (fun f => { f with d := none }) s) (fes st + 4) fsPORT true (by decide)

/-- The record of a port that comes up in session `x`. -/
def sessionBegun (x : BitVec 16) (p : CPort) : CPort :=
  { p with session := x, initSeq := x + 0x1000, outst := [], waiting := [], retries := 0, line := none }

/-- What the link-up of a port leaves. -/
structure CameUp (st : Nat) (peer : BitVec 16) (s t : State) : Prop where
  rest : t = { s with regs := t.regs, cports := t.cports, fes := t.fes }
  others : ∀ y, y ≠ st → cport y t = cport y s
  up : camUp st t = true
  record : ∃ burst now, cport st t = { sessionBegun (cport st s).initSeq (cport st s) with bucket := burst, bucketTick := now }
  numbers : nextRx st t = peer ∧ nextTx st t = (cport st s).initSeq
  shown : rdB (fes st + 4) fsPORT t = true

/-- The bucket is filled whatever CL_STAT shows. -/
theorem fillBucket_setPortBit (st b : Nat) (v : Bool) (s : State) : fillBucket st (setPortBit st b v s) = setPortBit st b v (fillBucket st s) := rfl

theorem comeUp_eq (st : Nat) (peer : BitVec 16) (s : State) : comeUp st peer s =
    frontEndUp st (showSeq st peer (cport st s).initSeq (setPortBit st clUP true (fillBucket st (updPort st (sessionBegun (cport st s).initSeq) s)))) := by
  rw [← fillBucket_setPortBit]
  rfl

theorem cameUp_comeUp (hst : st < 64) (hl : laneFirst st s < 64) (peer : BitVec 16) : CameUp st peer s (comeUp st peer s) := by
  set burst : Int := 625 * (rdForce (primBase st s + 0x108) s).toNat
  obtain ⟨p, hp⟩ : ∃ p, p = fillBucket st (updPort st (sessionBegun (cport st s).initSeq) s) := ⟨_, rfl⟩
  have hrest : p = { s with cports := p.cports } := by
    rw [hp]
    rfl
  have hrec : cport st p = { sessionBegun (cport st s).initSeq (cport st s) with bucket := burst, bucketTick := tick s } := by
    rw [hp, fillBucket, cport_updPort, cport_updPort]
    rfl
  have hothers (y : Nat) (hy : y ≠ st) : cport y p = cport y s := by rw [hp, fillBucket, cport_updPort_ne _ _ hy, cport_updPort_ne _ _ hy]
  have hprim : primBase st p = primBase st s := primBase_congr (by rw [hrest]) st
  have hlt := primBase_lt hl
  obtain ⟨b, hb⟩ : ∃ b, b = setPortBit st clUP true p := ⟨_, rfl⟩
  obtain ⟨q, hq⟩ : ∃ q, q = showSeq st peer (cport st s).initSeq b := ⟨_, rfl⟩
  have hbp : b = { p with regs := b.regs } := by
    rw [hb]
    rfl
  have hqb : q = { b with regs := q.regs } := by
    rw [hq]
    rfl
  have hqp : q = { p with regs := q.regs } := by rw [hqb, hbp]
  have hbimg : b.img = p.img := by rw [hbp]
  have hqimg : q.img = b.img := by rw [hqb]
  have hbprim : primBase st b = primBase st s := (primBase_congr hbimg st).trans hprim
  have hqprim : primBase st q = primBase st s := (primBase_congr hqimg st).trans hbprim
  have hqrd : q = wr (primBase st s + 0x11C) (wd (peer.toNat * 65536 + (cport st s).initSeq.toNat)) b := by rw [hq, showSeq, hbprim]
  have hkept {k : Nat} (hlo : 0x0C0000 ≤ k) (hhi : k < 0x2000000) : rd k (frontEndUp st q) = rd k q :=
    rd_frontEndUp (by unfold fes feBase; omega) (by unfold ssBase; omega)
  have hports : (frontEndUp st q).cports = p.cports := by rw [frontEndUp_eq, hqp]
  have himg : (frontEndUp st q).img = q.img := by rw [frontEndUp_eq]
  rw [comeUp_eq, ← hp, ← hb, ← hq]
  exact {
    rest := by
      rw [frontEndUp_eq, hqp, hrest]
    others := fun y hy => (cport_congr hports y).trans (hothers y hy)
    up := by
      have hb' : portBit st clUP b = true := by rw [hb, portBit_setPortBit_same true (by decide)]
      have hq' : portBit st clUP q = true := (portBit_of_status hqimg (by rw [hqrd, rd_wr_ne _ _ (by omega)])).trans hb'
      exact (portBit_of_status himg (hkept (by unfold primBase laneBase; omega) (by omega))).trans hq'
    record := ⟨burst, tick s, (cport_congr hports st).trans hrec⟩
    numbers := nextRx_eq (by
      rw [primBase_congr himg, hqprim, hkept (by unfold primBase laneBase; omega) (by omega), hqrd, rd_wr_same])
    shown := fsPORT_frontEndUp st q }

/-! ### A HELLO that passed the checks -/

theorem down_of_linking (h : linking st s = true) : camUp st s = false := by
  unfold linking at h
  simp only [Bool.and_eq_true, Bool.not_eq_true'] at h
  exact h.2

theorem Admitted.linking {len : Nat} (ha : Admitted st len s a) : linking st a = linking st s := by
  rw [ha.rest]
  rfl

theorem Admitted.helloMatches {len : Nat} (ha : Admitted st len s a) : HelloMatches st f a ↔ HelloMatches st f s := by
  rw [ha.rest]
  rfl

/-- The second matching HELLO with SEEN brings the port up. -/
theorem helloSecond_effect (ha : Admitted st f.length s a) (hst : st < 64) (hl : laneFirst st s < 64) (hlink : linking st s = true)
    (h : HelloMatches st f s) (hflag : (leAt f 1 1).testBit 0 = true) (hseen : (cport st s).seen = true) :
    let t := helloIn st f a
    t = { s with regs := t.regs, cnt := t.cnt, cports := t.cports, drains := t.drains, fes := t.fes } ∧ PortOnly st s t ∧ camUp st t = true ∧
      (cport st t).session = (cport st s).initSeq ∧ (cport st t).initSeq = (cport st s).initSeq + 0x1000 ∧ (cport st t).outst = [] ∧
      nextRx st t = BitVec.ofNat 16 (leAt (f.drop 16) 4 2) ∧ nextTx st t = (cport st s).initSeq ∧ rdB (fes st + 4) fsPORT t = true := by
  obtain ⟨b, hb⟩ : ∃ b, b = updPort st (fun p => { p with sof := decide (leAt (f.drop 16) 12 1 = 1) }) (setPortBit st clHELLOBAD false a) := ⟨_, rfl⟩
  have hba : b = { a with regs := b.regs, cports := b.cports } := by
    rw [hb]
    rfl
  have hbs : b = { s with regs := b.regs, cnt := b.cnt, cports := b.cports, drains := b.drains } := by rw [hba, ha.rest]
  have hseq : (cport st b).initSeq = (cport st s).initSeq := by
    rw [hb, cport_updPort]
    show (cport st a).initSeq = _
    rw [ha.record]
  have hlb : laneFirst st b < 64 := by
    have himg : b.img = s.img := by rw [hbs]
    rw [laneFirst, cfg, himg]
    exact hl
  obtain ⟨t, ht⟩ : ∃ t, t = comeUp st (BitVec.ofNat 16 (leAt (f.drop 16) 4 2)) b := ⟨_, rfl⟩
  have hup : CameUp st (BitVec.ofNat 16 (leAt (f.drop 16) 4 2)) b t := ht ▸ cameUp_comeUp hst hlb _
  rw [helloIn_second (ha.linking.trans hlink) (ha.helloMatches.mpr h) hflag (by rw [ha.record]; exact hseen), ← hb, ← ht]
  obtain ⟨burst, now, hrec⟩ := hup.record
  have honly : PortOnly st s b := by
    rw [hb]
    exact (ha.only.wr _ _).updPort _
  have hacts : PortActs b t := by
    rw [hup.rest]
    rfl
  refine ⟨?_, honly.trans hacts hup.others, hup.up, by rw [hrec, ← hseq]; rfl, by rw [hrec, ← hseq]; rfl, by rw [hrec]; rfl, hup.numbers.1,
    by rw [hup.numbers.2, hseq], hup.shown⟩
  rw [hup.rest, hbs]

/-- A first matching HELLO is noted. -/
theorem helloFirst_effect (ha : Admitted st f.length s a) (hlink : linking st s = true) (h : HelloMatches st f s) (hseen : (cport st s).seen = false) :
    let t := helloIn st f a
    t = { s with regs := t.regs, cnt := t.cnt, cports := t.cports, drains := t.drains } ∧ PortOnly st s t ∧ camUp st t = false ∧
      (cport st t).seen = true := by
  have hdowna : camUp st a = false := by
    rw [ha.rest]
    exact down_of_linking hlink
  rw [helloIn_first (ha.linking.trans hlink) (ha.helloMatches.mpr h) (by rw [ha.record]; exact hseen)]
  refine ⟨?_, (ha.only.wr _ _).updPort _, ?_, by rw [cport_updPort]⟩
  · rw [ha.rest]
    rfl
  · exact (portBit_setPortBit_ne false (by decide) a).trans hdowna

/-- A HELLO of another configuration raises HELLO_MISMATCH, and the port waits for a first HELLO again. -/
theorem helloOther_effect {q : Nat} (ha : Admitted st f.length s a) (hl : laneFirst st s < 64) (hlink : linking st s = true)
    (h : ¬ HelloMatches st f s) (hq : streamPart st s = some q) :
    let t := helloIn st f a
    PortOnly st s t ∧ camUp st t = false ∧ (cport st t).seen = false ∧ FaultActive 0x5006 st q t := by
  obtain ⟨u, hu⟩ : ∃ u, u = updPort st (fun p => { p with seen := false }) a := ⟨_, rfl⟩
  obtain ⟨b, hb⟩ : ∃ b, b = setPortBit st clHELLOBAD true u := ⟨_, rfl⟩
  have hr : Reported b (laneFault 0x5006 st st b) := reported_laneFault _ _ _
  have hua : u = { s with cnt := u.cnt, cports := u.cports, drains := u.drains } := by
    rw [hu, ha.rest]
    rfl
  have himg : b.img = s.img := by
    rw [hb]
    show u.img = _
    rw [hua]
  have hdownb : camUp st b = false := by
    rw [hb, hua]
    exact (portBit_setPortBit_ne true (by decide) _).trans (down_of_linking hlink)
  have hports : (laneFault 0x5006 st st b).cports = u.cports := by
    rw [hr.rest, hb]
    rfl
  have hacts : PortActs b (laneFault 0x5006 st st b) := by
    unfold PortActs
    rw [hr.rest]
  have hrimg : (laneFault 0x5006 st st b).img = b.img := by rw [hr.rest]
  have hlt := primBase_lt hl
  have hprim : primBase st b = primBase st s := primBase_congr himg st
  rw [helloIn_mismatch (ha.linking.trans hlink) (fun h' => h (ha.helloMatches.mp h')), ← hu, ← hb]
  refine ⟨?_, ?_, ?_, faultActive_laneFault ((streamPart_congr himg st).trans hq) (by decide)⟩
  · refine PortOnly.trans ?_ hacts fun y _ => cport_congr (hports.trans ?_) y
    · rw [hb, hu]
      exact (ha.only.updPort _).wr _ _
    · rw [hb]
      rfl
  · exact (portBit_of_status hrimg (hr.lane (by unfold primBase laneBase; omega) (by omega))).trans hdownb
  · rw [cport_congr hports, hu, cport_updPort]

end Hello

end Sys2Proof.Proofs
end

section
/-! Frames at an aligned camera port (04_chanak_lanes.md, R66 to R86), settled together. -/

namespace Sys2Proof.Proofs

open Sys2Proof Sys2Proof.Machine Sys2Proof.Laws

section Frames

variable {st : Nat} {f : List Byte} {s : State}

/-- A frame of no known type counts as unknown and as a failure (R79, R82). -/
theorem unknownFrame_effect (hrx : (cport st s).rx = none) (hfails : (cport st s).fails + 1 < fld 15 0 (rdForce (primBase st s + 0x114) s)) :
    let t := quarFail st (chk st 0x130 (framed st s))
    t = { s with regs := t.regs, cports := t.cports, drains := t.drains } ∧ PortOnly st s t ∧
      rd (primBase st s + 0x130) t = rd (primBase st s + 0x130) s + 1 ∧
      cport st t = { cport st s with fails := (cport st s).fails + 1, segs := (cport st t).segs } := by
  have hc := portCounts_chk hrx 0x130
  obtain ⟨c, hcdef⟩ : ∃ c, c = chk st 0x130 (framed st s) := ⟨_, rfl⟩
  rw [← hcdef] at hc ⊢
  have hbelow : (cport st c).fails + 1 < fld 15 0 (rdForce (primBase st c + 0x114) c) := by
    have himg : c.img = s.img := by rw [hc.rest]
    have hforce : c.force = s.force := by rw [hc.rest]
    rw [hc.record, primBase_congr himg, rdForce, hforce]
    exact hfails
  have hport : cport st (updPort st (fun p => { p with fails := p.fails + 1 }) c) = { cport st c with fails := (cport st c).fails + 1 } := cport_updPort _ _ _
  rw [quarFail_below hbelow]
  refine ⟨?_, hc.only.updPort _, hc.counted, ?_⟩
  · rw [hc.rest]
    rfl
  · rw [hport, hc.record]

/-! ### A frame that passed, by its type (R79) -/

theorem rxFrame_lineSeg (hq : inQuar st s = false) (hup : camUp st s = true) (hpass : police st (frameNow st f s) (framed st s) = .pass)
    (htyp : leAt f 0 1 = 1) : rxFrame st (frameNow st f s) (portFree st s) =
      Machine.segment st (frameNow st f s) true (bufTake st f.length (leAt f 10 2) (admitted st f.length s)) := by
  have htyp' : leAt (frameNow st f s).bytes 0 1 = 1 := htyp
  rw [rxFrame_pass hq (.inl hup) hpass, if_neg (by omega), if_pos htyp']
  rfl

theorem rxFrame_ctrlAck (hq : inQuar st s = false) (hup : camUp st s = true) (hpass : police st (frameNow st f s) (framed st s) = .pass)
    (htyp : leAt f 0 1 = 3) : rxFrame st (frameNow st f s) (portFree st s) = ackIn st f (admitted st f.length s) := by
  have htyp' : leAt (frameNow st f s).bytes 0 1 = 3 := htyp
  rw [rxFrame_pass hq (.inl hup) hpass, if_neg (by omega), if_neg (by omega), if_pos htyp']
  rfl

theorem rxFrame_event (hq : inQuar st s = false) (hup : camUp st s = true) (hpass : police st (frameNow st f s) (framed st s) = .pass)
    (htyp : leAt f 0 1 = 4) :
    rxFrame st (frameNow st f s) (portFree st s) = eventIn st f (updPort st (fun p => { p with events := p.events + 1 }) (admitted st f.length s)) := by
  have htyp' : leAt (frameNow st f s).bytes 0 1 = 4 := htyp
  rw [rxFrame_pass hq (.inl hup) hpass, if_neg (by omega), if_neg (by omega), if_neg (by omega)]
  rfl

theorem rxFrame_hello (hq : inQuar st s = false) (hpass : police st (frameNow st f s) (framed st s) = .pass) (htyp : leAt f 0 1 = 5) :
    rxFrame st (frameNow st f s) (portFree st s) = helloIn st f (admitted st f.length s) := by
  have htyp' : leAt (frameNow st f s).bytes 0 1 = 5 := htyp
  rw [rxFrame_pass hq (.inr htyp') hpass, if_pos htyp']
  rfl

/-- A ring with its command in hand and nothing else to do serves that command. -/
theorem serving_of_ring {fn : Nat} (hbusy : (ring fn s).busy.isSome = true) (hmaster : (ring fn s).busMaster = true) (hflush : (ring fn s).flushing = false)
    (hfetched : (ring fn s).fetched = []) (hheld : (ring fn s).held = []) (htail : (ring fn s).cmdTail = rd (ringBase fn + oCMD_HEAD) s)
    (hen : ringEn fn s = true) (hroom : cplRoom fn s = true) : Serving fn s s where
  runs := ⟨hen, hmaster, hflush⟩
  idle := ⟨hfetched, htail⟩
  inHand := hbusy
  room := hroom
  base := rfl
  size := rfl
  count := rfl
  tail := ⟨0, by simp [wd], Nat.zero_le _, .inl rfl⟩
  noEvent := .inl hheld

end Frames

/-- Settles O37: the blocks of a frame are that frame at the port, whose checks decide whether it only counts or acts by its type. -/
theorem cameraFramesActThroughTheirPort : Obligations.CameraFramesActThroughTheirPort := by
  unfold Obligations.CameraFramesActThroughTheirPort
  refine ⟨fun st x s ha _ c hc => ?_, ?_⟩
  · rw [exec_camFrame hc]
    cases hu : streamUsed st.val s with
    | false => exact ⟨_, rfl, by rw [rxStretch_unused hu]; exact onlyRegs_refl, fun _ => rxStretch_unused hu, fun _ _ _ h => nomatch h⟩
    | true =>
      rw [rxStretch_unaligned hu ha]
      exact ⟨_, rfl, onlyRegs_lanesCount, nofun, fun i hi hx _ => rd_lanesCount hi hx⟩
  · intro st f s hu ha hl hf hw hrx b typ p x fate others cmds
    have hexec {c : Instr} (hc : c ∈ cmds) : exec c s = .next (rxFrame st.val (frameNow st.val f s) (portFree st.val s)) := by
      rw [exec_camFrame hc, rxStretch_oneFrame hf hw hrx hu ha]
    have hfate (v : Verdict) (h : fate = v) : police st.val (frameNow st.val f s) (framed st.val s) = v := (police_framed hrx).trans h
    have hadm : Admitted st.val f.length s (admitted st.val f.length s) := admitted_of_pass hrx hu _
    refine ⟨fun hq c hc => ⟨_, hexec hc, ?_⟩, fun hq hup htyp hpass c hc => ⟨_, hexec hc, ?_⟩, fun hq hup hpass => ⟨?_, ?_, ?_, ?_⟩,
      fun hq hpass htyp hlink => ⟨?_, ?_, ?_⟩, fun hq hun hfails => ⟨_, hexec (by simp [cmds]), ?_⟩⟩
    · have hc := portCounts_chk hrx 0x148
      rw [rxFrame_quar hq]
      exact ⟨hc.rest, hc.only.others, hc.registers, hc.counted, hc.record⟩
    · have hc := portCounts_chk hrx 0x14C
      rw [rxFrame_down hq hup htyp (hfate _ hpass)]
      exact ⟨hc.rest, hc.only.others, hc.counted, hc.registers⟩
    · intro htyp hfirst hlast hline hwipe
      refine ⟨_, hexec (by simp [cmds]), ?_⟩
      rw [rxFrame_lineSeg hq hup (hfate _ hpass) htyp]
      obtain ⟨hrest, honly, hsegs, hlanes, l, hl, hbegun⟩ := lineSeg_effect hadm hline hfirst hlast hwipe
      exact ⟨hrest, honly.others, hsegs, hlanes, l, hl, hbegun.line, hbegun.seg, hbegun.time, hbegun.pos, hbegun.stamp, hbegun.good, hbegun.samples⟩
    · intro r htyp ho hwait hseq hb
      refine ⟨_, hexec (by simp [cmds]), ?_⟩
      rw [rxFrame_ctrlAck hq hup (hfate _ hpass) htyp]
      obtain ⟨hrest, honly, hdone⟩ := ctrlAck_abandoned hadm ho hwait hseq hb
      exact ⟨hrest, honly.others, hdone⟩
    · intro r d m y htyp ho hwait hseq hb _ hmaster hflush hfetched hheld htail hen hroom
      have hlen : f.length = 20 + leAt f 6 2 := length_of_pass (hfate _ hpass) (by show 2 ≤ typ; omega) (by show typ ≤ 5; omega)
      refine ⟨_, hexec (by simp [cmds]), ?_⟩
      rw [rxFrame_ctrlAck hq hup (hfate _ hpass) htyp]
      exact ctrlAck_answers hadm hlen ho hwait hseq hb (serving_of_ring (by rw [hb]; rfl) hmaster hflush hfetched hheld htail hen hroom)
    · intro htyp hseq hroom
      refine ⟨_, hexec (by simp [cmds]), ?_⟩
      rw [rxFrame_event hq hup (hfate _ hpass) htyp]
      obtain ⟨hrest, honly, htaken⟩ := event_effect hadm st.isLt hl hq hu hseq hroom
      exact ⟨hrest, honly.others, htaken⟩
    · intro hfits hflag hseen
      refine ⟨_, hexec (by simp [cmds]), ?_⟩
      rw [rxFrame_hello hq (hfate _ hpass) htyp]
      obtain ⟨hrest, honly, hup⟩ := helloSecond_effect hadm st.isLt hl hlink hfits hflag hseen
      exact ⟨hrest, honly.others, hup⟩
    · intro hfits hseen
      refine ⟨_, hexec (by simp [cmds]), ?_⟩
      rw [rxFrame_hello hq (hfate _ hpass) htyp]
      obtain ⟨hrest, honly, hnoted⟩ := helloFirst_effect hadm hlink hfits hseen
      exact ⟨hrest, honly.others, hnoted⟩
    · intro hfits q hpart
      refine ⟨_, hexec (by simp [cmds]), ?_⟩
      rw [rxFrame_hello hq (hfate _ hpass) htyp]
      obtain ⟨honly, hraised⟩ := helloOther_effect hadm hl hlink hfits hpart
      exact ⟨honly.others, hraised⟩
    · rw [rxFrame_unknown hq (hfate _ hun)]
      obtain ⟨hrest, honly, hcount, hrec⟩ := unknownFrame_effect hrx hfails
      exact ⟨hrest, honly.others, hcount, hrec⟩

end Sys2Proof.Proofs
end
